-- ==== Sys2Proof/Word.lean ====
section
/-!
DEFINITION. The word types of the machine and their plainest arithmetic (00 R5, R9).
-/

namespace Sys2Proof

/-- One byte. -/
abbrev Byte := BitVec 8

/-- A 32-bit word: an instruction word, a vector lane, a copy register (02 R30, 01 R15, R16). -/
abbrev Word := BitVec 32

/-- A 64-bit doubleword: an s register or an e register (01 R14, R17). -/
abbrev DWord := BitVec 64

/-- A field of `n` bits of the number `w` whose lowest bit is bit `lo` (00 R9, `x[h:l]`). -/
def fld (w lo n : Nat) : Nat := w / 2 ^ lo % 2 ^ n

/-- The same field as a bit vector of `n` bits. -/
def bits (n w lo : Nat) : BitVec n := BitVec.ofNat n (w / 2 ^ lo)

end Sys2Proof
end

