-- ==== Sys2Proof/Syntax.lean ====
section
/-!
DEFINITION. The instructions and moves of the machine: one constructor for each row of the table of operations and events. Rows with an encoding carry the fields of their word (02 R30 to R60) under the table's letters; the ENG field `e` stands in the common class and in the load and store engines, whose forms several engines share. A literal-taking form carries its literal word (R37). The other rows are moves of the machine, performed without a word of their own: their arguments name what they act on.
-/

namespace Sys2Proof

/-- A microcode word of a bank unit without its OP field (21 R399). -/
structure Micro where
  nxt  : BitVec 2
  tgt  : BitVec 8
  wait : BitVec 6
  cx   : BitVec 2
  rs   : BitVec 2
  line : BitVec 20
  rsv  : BitVec 20
  deriving DecidableEq, Repr, Inhabited

/-- The mask register and the type field of a vector form for INT32 alone (02 R50, 06 R138). -/
structure MaskType where
  m : BitVec 3
  t : BitVec 2
  deriving DecidableEq, Repr, Inhabited

/-- A domain: its level, its scope instance and its id (13 R313). The scope is the unit at level 0, the cluster number at level 1, the die at level 2, the partition at level 3 and the fabric domain at level 4. -/
structure DomKey where
  level : Nat
  scope : Nat
  id    : Nat
  deriving DecidableEq, Repr, Inhabited

/-- What one member of a fabric domain tells the others of a level-4 domain (23 R446): a job has joined, has arrived in phase PN, has left, after an arrival in phase PN or without one; every task of the member that names the domain has completed, with the number of them. -/
inductive FabricNews where
  | join
  | arrive (pn : Nat)
  | depart (arrived : Bool) (pn : Nat)
  | tasksDone (n : Nat)
  deriving DecidableEq, Repr, Inhabited

/-- A place on a core's die in which a read can find an uncorrectable error (05 R124, R126): a row of the scratchpad window of a bank's job, a vector register, a row of a data FIFO, an accumulator row of the bank's store. -/
inductive OnChip where
  | pad (row : Nat)
  | vector (r : Nat)
  | fifo (f i : Nat)
  | acc (row : Nat)
  deriving DecidableEq, Repr, Inhabited

/-- The events that a base die logs (21 R413), and an uncorrectable error on a core's die, in bank `b` of unit `u`, which no base die logs (05 R126). -/
inductive AlertKind where
  | dramUncorrectable | microcodeParity | bankMachineCheck | thermal
  | onChip (u b : Nat) (place : OnChip)
  deriving DecidableEq, Repr, Inhabited

/-- What a member of a fabric domain sends for a packet (23 R445): its digest, or a refusal notice with its status. -/
inductive Digest where
  | value (d : Nat)
  | refusal (status : Nat)
  /-- a member that is reset takes back the digest that it has sent (23 R445) -/
  | withdraw
  deriving DecidableEq, Repr, Inhabited

/-- The firmware carried by an H-die at power-on (23 R454). -/
structure Firmware where
  pubKey : List Byte
  sig    : List Byte
  svn    : Nat
  images : List (List Byte)
  deriving DecidableEq, Repr, Inhabited

/-- One entry of a slot calendar that a partition configuration writes (12 R293); `core` is the owning unit. -/
structure CalEntry where
  tier  : Nat
  stack : Nat
  slot  : Nat
  core  : Nat
  deriving DecidableEq, Repr, Inhabited

/-- An accumulator window of a main core (11 R260). -/
structure AccWin where
  unit  : Nat
  first : Nat
  rows  : Nat
  deriving DecidableEq, Repr, Inhabited

/-- A frame quota of a partition (22 R430). -/
structure Quota where
  tier   : Nat
  stack  : Nat
  fsz    : Nat
  frames : Nat
  deriving DecidableEq, Repr, Inhabited

/-- A function's local queue number mapped to a global queue (22 R414). -/
structure QueueMap where
  fn   : Nat
  loc  : Nat
  glob : Nat
  deriving DecidableEq, Repr, Inhabited

/-- An NVMe-oF target of a partition (22 R430). -/
structure NvmeTarget where
  addr   : List Byte
  port   : Nat
  subsys : List Byte
  ns     : Nat
  deriving DecidableEq, Repr, Inhabited

/-- What CONFIGURE_PARTITION applies (22 R430, 23 R443). The spec gives the contents of the record and no byte layout (log entry 7). -/
structure PartRecord where
  pid         : Nat
  units       : List Nat
  fns         : List Nat
  calendar    : List CalEntry
  accWins     : List AccWin
  queues      : List QueueMap
  quotas      : List Quota
  bankUnits   : List Nat
  contexts    : List (Nat × Nat)
  handleQuota : Nat
  faultQBase  : Nat
  faultQSize  : Nat
  frameBase   : Nat
  frameSlots  : Nat
  saveBase    : Nat
  saveSlots   : Nat
  dumpBase    : Nat
  sliceGroup  : Nat
  sliceLen    : Nat
  preLimit    : Nat
  nvme        : List NvmeTarget
  fabric      : Option (Nat × Nat × Nat)
  deriving DecidableEq, Repr, Inhabited

/-- The instructions and moves (02 R41 to R60; 95_what_each_step_holds.md). -/
inductive Instr where
  /-- NOP, R100. Takes one issue cycle and changes nothing else; legal in every engine. -/
  | nop (e : BitVec 3)
  /-- JOIN, R201. Ends the stream's issue; the job ends once every used stream has joined and all its commands and pushes are done. -/
  | join (e : BitVec 3)
  /-- CLAUSE, R206. The stream waits at CLAUSE n until the job's clause boundary forms. -/
  | clause (e : BitVec 3) (n : BitVec 16)
  /-- WAITK, R203. Waits for n tokens in a bound token FIFO, pops them and merges the last token's epoch into K[producer]. -/
  | waitk (e : BitVec 3) (f : BitVec 4) (n : BitVec 3)
  /-- SIGK, R203. Makes a pending push of n tokens that carry the engine's epoch, then advances the epoch counter. -/
  | sigk (e : BitVec 3) (f : BitVec 4) (n : BitVec 3)
  /-- WAITAW, R195. Waits until an armed arrival word reaches the named generation, then merges its step snapshot into the engine's knowledge. -/
  | waitaw (e : BitVec 3) (x : BitVec 5) (y : BitVec 5)
  /-- LOOP, R101. Starts a hardware loop of 1 to 1024 passes at level l and refills the PC queue from the loop start. -/
  | loop (e : BitVec 3) (l : BitVec 1) (n : BitVec 10) (o : BitVec 10)
  /-- LOOPR, R101. Starts a hardware loop whose count comes from a scalar-class register. -/
  | loopr (e : BitVec 3) (l : BitVec 1) (x : BitVec 5) (o : BitVec 10)
  /-- PBR, R94. Writes a PC-relative branch target into bn and starts fetching it. -/
  | pbr (e : BitVec 3) (n : BitVec 3) (o : BitVec 18)
  /-- PBRR, R95. Writes a branch target taken from a scalar-class register into bn. -/
  | pbrr (e : BitVec 3) (n : BitVec 3) (x : BitVec 5)
  /-- BR, R97. Branches to bn on a predicate, with two delay slots, optional nullification and an optional link into b7. -/
  | br (e : BitVec 3) (n : BitVec 3) (k : BitVec 3) (p : BitVec 1) (u : BitVec 2) (l : BitVec 1)
  /-- BRQ, R98. Branches to bn on the state of a token or data FIFO, without popping or merging. -/
  | brq (e : BitVec 3) (n : BitVec 3) (q : BitVec 4) (c : BitVec 3) (u : BitVec 2)
  /-- TRAP, R108. In control, enters the trap handler with kind 2 and code c; elsewhere raises the stream-trap fault. -/
  | trap (e : BitVec 3) (c : BitVec 16)
  /-- TRET, R109. Restores the PC queue from EPCQ and clears STATUS.TH. -/
  | tret
  /-- ADD, R65. Guarded sd := sa + sb modulo 2^64. -/
  | add (d : BitVec 5) (a : BitVec 5) (b : BitVec 5) (g : BitVec 3)
  /-- SUB, R65. Guarded sd := sa - sb modulo 2^64. -/
  | sub (d : BitVec 5) (a : BitVec 5) (b : BitVec 5) (g : BitVec 3)
  /-- MUL, R65. Guarded low 64 bits of the product. -/
  | mul (d : BitVec 5) (a : BitVec 5) (b : BitVec 5) (g : BitVec 3)
  /-- MULH, R65. Guarded high 64 bits of the signed 128-bit product. -/
  | mulh (d : BitVec 5) (a : BitVec 5) (b : BitVec 5) (g : BitVec 3)
  /-- MULHU, R65. Guarded high 64 bits of the unsigned 128-bit product. -/
  | mulhu (d : BitVec 5) (a : BitVec 5) (b : BitVec 5) (g : BitVec 3)
  /-- DIV, R66. Guarded signed quotient truncated toward zero, never faulting. -/
  | div (d : BitVec 5) (a : BitVec 5) (b : BitVec 5) (g : BitVec 3)
  /-- DIVU, R66. Guarded unsigned quotient, never faulting. -/
  | divu (d : BitVec 5) (a : BitVec 5) (b : BitVec 5) (g : BitVec 3)
  /-- REM, R66. Guarded signed remainder with the sign of sa. -/
  | rem (d : BitVec 5) (a : BitVec 5) (b : BitVec 5) (g : BitVec 3)
  /-- REMU, R66. Guarded unsigned remainder. -/
  | remu (d : BitVec 5) (a : BitVec 5) (b : BitVec 5) (g : BitVec 3)
  /-- AND, R67. Guarded bitwise AND. -/
  | and (d : BitVec 5) (a : BitVec 5) (b : BitVec 5) (g : BitVec 3)
  /-- OR, R67. Guarded bitwise OR. -/
  | or (d : BitVec 5) (a : BitVec 5) (b : BitVec 5) (g : BitVec 3)
  /-- XOR, R67. Guarded bitwise XOR. -/
  | xor (d : BitVec 5) (a : BitVec 5) (b : BitVec 5) (g : BitVec 3)
  /-- ANDN, R67. Guarded sa AND NOT sb. -/
  | andn (d : BitVec 5) (a : BitVec 5) (b : BitVec 5) (g : BitVec 3)
  /-- SHL, R67. Guarded left shift by sb[5:0]. -/
  | shl (d : BitVec 5) (a : BitVec 5) (b : BitVec 5) (g : BitVec 3)
  /-- SHR, R67. Guarded logical right shift by sb[5:0]. -/
  | shr (d : BitVec 5) (a : BitVec 5) (b : BitVec 5) (g : BitVec 3)
  /-- SRA, R67. Guarded arithmetic right shift by sb[5:0]. -/
  | sra (d : BitVec 5) (a : BitVec 5) (b : BitVec 5) (g : BitVec 3)
  /-- MIN, R67. Guarded signed minimum. -/
  | min (d : BitVec 5) (a : BitVec 5) (b : BitVec 5) (g : BitVec 3)
  /-- MAX, R67. Guarded signed maximum. -/
  | max (d : BitVec 5) (a : BitVec 5) (b : BitVec 5) (g : BitVec 3)
  /-- MINU, R67. Guarded unsigned minimum. -/
  | minu (d : BitVec 5) (a : BitVec 5) (b : BitVec 5) (g : BitVec 3)
  /-- MAXU, R67. Guarded unsigned maximum. -/
  | maxu (d : BitVec 5) (a : BitVec 5) (b : BitVec 5) (g : BitVec 3)
  /-- CMP, R68. Guarded compare of sa and sb under condition x into a predicate. -/
  | cmp (p : BitVec 3) (a : BitVec 5) (b : BitVec 5) (g : BitVec 3) (x : BitVec 3)
  /-- SEL, R69. sd := sa if predicate pk is true, else sb. -/
  | sel (d : BitVec 5) (a : BitVec 5) (b : BitVec 5) (p : BitVec 3)
  /-- CLZ, R70. Guarded count of leading zeros of sa. -/
  | clz (d : BitVec 5) (a : BitVec 5) (g : BitVec 3)
  /-- POPC, R70. Guarded count of one bits of sa. -/
  | popc (d : BitVec 5) (a : BitVec 5) (g : BitVec 3)
  /-- BFX, R71. Guarded zero-extended bit-field extract with position and width from sb. -/
  | bfx (d : BitVec 5) (a : BitVec 5) (b : BitVec 5) (g : BitVec 3)
  /-- BFI, R71. Guarded bit-field insert of sa's low bits into sd. -/
  | bfi (d : BitVec 5) (a : BitVec 5) (b : BitVec 5) (g : BitVec 3)
  /-- PAND, R68. Guarded AND of two predicates. -/
  | pand (d : BitVec 3) (a : BitVec 3) (b : BitVec 3) (g : BitVec 3)
  /-- POR, R68. Guarded OR of two predicates. -/
  | por (d : BitVec 3) (a : BitVec 3) (b : BitVec 3) (g : BitVec 3)
  /-- PXOR, R68. Guarded XOR of two predicates. -/
  | pxor (d : BitVec 3) (a : BitVec 3) (b : BitVec 3) (g : BitVec 3)
  /-- MOVP, R68. Guarded pd := (sa != 0). -/
  | movp (d : BitVec 3) (a : BitVec 5) (g : BitVec 3)
  /-- ADDI, R72. sd := sa + sign-extended imm12. -/
  | addi (d : BitVec 5) (a : BitVec 5) (i : BitVec 12)
  /-- ANDI, R72. sd := sa AND imm. -/
  | andi (d : BitVec 5) (a : BitVec 5) (i : BitVec 12)
  /-- ORI, R72. sd := sa OR imm. -/
  | ori (d : BitVec 5) (a : BitVec 5) (i : BitVec 12)
  /-- XORI, R72. sd := sa XOR imm. -/
  | xori (d : BitVec 5) (a : BitVec 5) (i : BitVec 12)
  /-- SHLI, R72. Left shift by an immediate 0 to 63. -/
  | shli (d : BitVec 5) (a : BitVec 5) (i : BitVec 6)
  /-- SHRI, R72. Logical right shift by an immediate. -/
  | shri (d : BitVec 5) (a : BitVec 5) (i : BitVec 6)
  /-- SRAI, R72. Arithmetic right shift by an immediate. -/
  | srai (d : BitVec 5) (a : BitVec 5) (i : BitVec 6)
  /-- MULI, R72. Low 64 bits of sa times imm. -/
  | muli (d : BitVec 5) (a : BitVec 5) (i : BitVec 12)
  /-- CMPEQI, R72. pd := (sa = imm). -/
  | cmpeqi (p : BitVec 3) (a : BitVec 5) (i : BitVec 12)
  /-- CMPLTI, R72. pd := (sa < imm), signed. -/
  | cmplti (p : BitVec 3) (a : BitVec 5) (i : BitVec 12)
  /-- CMPLTUI, R72. pd := (sa < imm), unsigned. -/
  | cmpltui (p : BitVec 3) (a : BitVec 5) (i : BitVec 12)
  /-- MINI, R72. Signed minimum with imm. -/
  | mini (d : BitVec 5) (a : BitVec 5) (i : BitVec 12)
  /-- MAXI, R72. Signed maximum with imm. -/
  | maxi (d : BitVec 5) (a : BitVec 5) (i : BitVec 12)
  /-- MOVI, R73. sd := sign-extended imm19. -/
  | movi (d : BitVec 5) (i : BitVec 19)
  /-- MOVL, R73. sd := sign-extended 32-bit literal word. -/
  | movl (d : BitVec 5) (lit : Word)
  /-- MOVLH, R73. sd[63:32] := literal word, low half kept. -/
  | movlh (d : BitVec 5) (lit : Word)
  /-- LDB, R75. Loads a sign-extended byte from scalar data memory. -/
  | ldb (d : BitVec 5) (a : BitVec 5) (o : BitVec 12)
  /-- LDBU, R75. Loads a zero-extended byte from scalar data memory. -/
  | ldbu (d : BitVec 5) (a : BitVec 5) (o : BitVec 12)
  /-- LDH, R75. Loads a sign-extended halfword. -/
  | ldh (d : BitVec 5) (a : BitVec 5) (o : BitVec 12)
  /-- LDHU, R75. Loads a zero-extended halfword. -/
  | ldhu (d : BitVec 5) (a : BitVec 5) (o : BitVec 12)
  /-- LDW, R75. Loads a sign-extended word. -/
  | ldw (d : BitVec 5) (a : BitVec 5) (o : BitVec 12)
  /-- LDWU, R75. Loads a zero-extended word. -/
  | ldwu (d : BitVec 5) (a : BitVec 5) (o : BitVec 12)
  /-- LDD, R75. Loads a doubleword. -/
  | ldd (d : BitVec 5) (a : BitVec 5) (o : BitVec 12)
  /-- STB, R75. Stores the low byte of ss. -/
  | stb (s : BitVec 5) (a : BitVec 5) (o : BitVec 12)
  /-- STH, R75. Stores the low halfword of ss. -/
  | sth (s : BitVec 5) (a : BitVec 5) (o : BitVec 12)
  /-- STW, R75. Stores the low word of ss. -/
  | stw (s : BitVec 5) (a : BitVec 5) (o : BitVec 12)
  /-- STD, R75. Stores the doubleword ss. -/
  | std (s : BitVec 5) (a : BitVec 5) (o : BitVec 12)
  /-- LDG, R78. Reads 8 bytes of global memory at a flat address through the tensor window. -/
  | ldg (d : BitVec 5) (a : BitVec 5) (o : BitVec 12)
  /-- STG, R78. Writes 8 bytes of global memory at a flat address. -/
  | stg (s : BitVec 5) (a : BitVec 5) (o : BitVec 12)
  /-- CSRR, R81. Reads a system register into sd. -/
  | csrr (d : BitVec 5) (n : BitVec 5)
  /-- CSRW, R81. Writes the RW fields of a system register from sa. -/
  | csrw (a : BitVec 5) (n : BitVec 5)
  /-- DSYNC, R316. Waits for the job's commands, arrives in the open domain phase and waits for its close. -/
  | dsync
  /-- DMRSET, R315. Waits for earlier commands, leaves the current domain and joins domain (l, id). -/
  | dmrset (l : BitVec 3) (i : BitVec 16)
  /-- VDERIVE, R330. Creates a child view of a narrower box and rights and returns its handle form. -/
  | vderive (d : BitVec 5) (a : BitVec 5) (b : BitVec 5) (w : BitVec 1) (r : BitVec 1)
  /-- VNARROW, R331. Shrinks a view's box and lowers coverage counts of tiles it leaves. -/
  | vnarrow (a : BitVec 5) (b : BitVec 5)
  /-- VDROP, R332. Frees a view and lowers the coverage counts of its tiles. -/
  | vdrop (a : BitVec 5)
  /-- VQUERY, R333. Writes a view's box, holder, rights, LIVE and TID to a box record. -/
  | vquery (a : BitVec 5) (b : BitVec 5)
  /-- FMTSET, R183. Writes format-table entry e from sa[31:0]. -/
  | fmtset (q : BitVec 4) (a : BitVec 5)
  /-- HIST, R310. Counts routing values of a view run into the die's histogram bank. -/
  | hist (a : BitVec 5) (b : BitVec 5)
  /-- HLATCH, R311. Acts as DSYNC and attaches a latch list to the open package-domain phase. -/
  | hlatch (a : BitVec 5)
  /-- CLIMB, R383. Posts a climb request to the tier above the job's current tier. -/
  | climb
  /-- CLIMB_FAR, R383. Posts a climb request to the far tier. -/
  | climbFar
  /-- CLIMB_NEAR, R383. Posts a climb request to the near tier. -/
  | climbNear
  /-- SETLEAVE, R105. Sets the job's leave flag, giving each looping stream a pending exit. -/
  | setleave
  /-- ARWINIT, R192. Arms, re-arms or disarms an arrival word, waiting for its tagged copies. -/
  | arwinit (a : BitVec 5) (b : BitVec 5)
  /-- VADD, R143. Masked lane-wise add. -/
  | vadd (d : BitVec 5) (a : BitVec 5) (b : BitVec 5) (m : BitVec 3) (t : BitVec 2)
  /-- VSUB, R143. Masked lane-wise subtract. -/
  | vsub (d : BitVec 5) (a : BitVec 5) (b : BitVec 5) (m : BitVec 3) (t : BitVec 2)
  /-- VMUL, R143. Masked lane-wise multiply. -/
  | vmul (d : BitVec 5) (a : BitVec 5) (b : BitVec 5) (m : BitVec 3) (t : BitVec 2)
  /-- VDIV, R143. Masked correctly rounded float divide. -/
  | vdiv (d : BitVec 5) (a : BitVec 5) (b : BitVec 5) (m : BitVec 3) (t : BitVec 2)
  /-- VMIN, R143. Masked lane-wise minimum. -/
  | vmin (d : BitVec 5) (a : BitVec 5) (b : BitVec 5) (m : BitVec 3) (t : BitVec 2)
  /-- VMAX, R143. Masked lane-wise maximum. -/
  | vmax (d : BitVec 5) (a : BitVec 5) (b : BitVec 5) (m : BitVec 3) (t : BitVec 2)
  /-- VABS, R144. Masked absolute value. -/
  | vabs (d : BitVec 5) (a : BitVec 5) (m : BitVec 3) (t : BitVec 2)
  /-- VNEG, R144. Masked negation. -/
  | vneg (d : BitVec 5) (a : BitVec 5) (m : BitVec 3) (t : BitVec 2)
  /-- VSQRT, R145. Masked correctly rounded square root. -/
  | vsqrt (d : BitVec 5) (a : BitVec 5) (m : BitVec 3) (t : BitVec 2)
  /-- VRCP, R145. Masked correctly rounded reciprocal. -/
  | vrcp (d : BitVec 5) (a : BitVec 5) (m : BitVec 3) (t : BitVec 2)
  /-- VRSQ, R145. Masked correctly rounded reciprocal square root. -/
  | vrsq (d : BitVec 5) (a : BitVec 5) (m : BitVec 3) (t : BitVec 2)
  /-- VEXP2, R145. Masked correctly rounded 2^a. -/
  | vexp2 (d : BitVec 5) (a : BitVec 5) (m : BitVec 3) (t : BitVec 2)
  /-- VLOG2, R145. Masked correctly rounded log2(a). -/
  | vlog2 (d : BitVec 5) (a : BitVec 5) (m : BitVec 3) (t : BitVec 2)
  /-- VCMPEQ, R146. Masked equality compare into a mask register. -/
  | vcmpeq (d : BitVec 3) (a : BitVec 5) (b : BitVec 5) (m : BitVec 3) (t : BitVec 2)
  /-- VCMPLT, R146. Masked less-than compare into a mask register. -/
  | vcmplt (d : BitVec 3) (a : BitVec 5) (b : BitVec 5) (m : BitVec 3) (t : BitVec 2)
  /-- VCMPLE, R146. Masked less-or-equal compare into a mask register. -/
  | vcmple (d : BitVec 3) (a : BitVec 5) (b : BitVec 5) (m : BitVec 3) (t : BitVec 2)
  /-- VAND, R147. Masked INT32 bitwise AND. -/
  | vand (d : BitVec 5) (a : BitVec 5) (b : BitVec 5) (m : MaskType)
  /-- VOR, R147. Masked INT32 bitwise OR. -/
  | vor (d : BitVec 5) (a : BitVec 5) (b : BitVec 5) (m : MaskType)
  /-- VXOR, R147. Masked INT32 bitwise XOR. -/
  | vxor (d : BitVec 5) (a : BitVec 5) (b : BitVec 5) (m : MaskType)
  /-- VNOT, R147. Masked INT32 bitwise NOT. -/
  | vnot (d : BitVec 5) (a : BitVec 5) (m : MaskType)
  /-- VSHL, R147. Masked INT32 left shift by b[4:0]. -/
  | vshl (d : BitVec 5) (a : BitVec 5) (b : BitVec 5) (m : MaskType)
  /-- VSHR, R147. Masked INT32 logical right shift. -/
  | vshr (d : BitVec 5) (a : BitVec 5) (b : BitVec 5) (m : MaskType)
  /-- VSRA, R147. Masked INT32 arithmetic right shift. -/
  | vsra (d : BitVec 5) (a : BitVec 5) (b : BitVec 5) (m : MaskType)
  /-- VMOV, R147. Masked bit copy of lanes. -/
  | vmov (d : BitVec 5) (a : BitVec 5) (m : MaskType)
  /-- VSELM, R148. Selects each lane from va or vb by the mask. -/
  | vselm (d : BitVec 5) (a : BitVec 5) (b : BitVec 5) (m : MaskType)
  /-- VCVT, R149. Masked element conversion between vector types. -/
  | vcvt (d : BitVec 5) (a : BitVec 5) (s : BitVec 2) (m : BitVec 3) (t : BitVec 2)
  /-- VMULHI, R147. Masked high 32 bits of the signed 64-bit product. -/
  | vmulhi (d : BitVec 5) (a : BitVec 5) (b : BitVec 5) (m : MaskType)
  /-- VFMA, R150. Fused a*b+c, rounded once. -/
  | vfma (d : BitVec 5) (a : BitVec 5) (b : BitVec 5) (c : BitVec 5) (t : BitVec 2)
  /-- VFMS, R150. Fused a*b-c, rounded once. -/
  | vfms (d : BitVec 5) (a : BitVec 5) (b : BitVec 5) (c : BitVec 5) (t : BitVec 2)
  /-- VNFMA, R150. Fused -(a*b)+c, rounded once. -/
  | vnfma (d : BitVec 5) (a : BitVec 5) (b : BitVec 5) (c : BitVec 5) (t : BitVec 2)
  /-- VNFMS, R150. Fused -(a*b)-c, rounded once. -/
  | vnfms (d : BitVec 5) (a : BitVec 5) (b : BitVec 5) (c : BitVec 5) (t : BitVec 2)
  /-- VFMAK, R173. Horner step vd := vd*va + constant-bank entry. -/
  | vfmak (d : BitVec 5) (a : BitVec 5) (k : BitVec 8) (t : BitVec 2) (m : BitVec 3)
  /-- VADDK, R173. va + constant-bank entry. -/
  | vaddk (d : BitVec 5) (a : BitVec 5) (k : BitVec 8) (t : BitVec 2) (m : BitVec 3)
  /-- VMULK, R173. va times constant-bank entry. -/
  | vmulk (d : BitVec 5) (a : BitVec 5) (k : BitVec 8) (t : BitVec 2) (m : BitVec 3)
  /-- VMOVK, R174. Broadcasts a constant-bank entry. -/
  | vmovk (d : BitVec 5) (k : BitVec 8) (t : BitVec 2) (m : BitVec 3)
  /-- VFMAL, R173. Horner step with a literal word constant. -/
  | vfmal (d : BitVec 5) (a : BitVec 5) (t : BitVec 2) (m : BitVec 3) (lit : Word)
  /-- VADDL, R173. va + literal word constant. -/
  | vaddl (d : BitVec 5) (a : BitVec 5) (t : BitVec 2) (m : BitVec 3) (lit : Word)
  /-- VMULL, R173. va times literal word constant. -/
  | vmull (d : BitVec 5) (a : BitVec 5) (t : BitVec 2) (m : BitVec 3) (lit : Word)
  /-- VMOVL, R174. Broadcasts a literal word constant. -/
  | vmovl (d : BitVec 5) (t : BitVec 2) (m : BitVec 3) (lit : Word)
  /-- VMOVF, R170. Broadcasts a 20-bit float immediate to every lane. -/
  | vmovf (d : BitVec 5) (i : BitVec 20)
  /-- VMOVN, R170. Broadcasts a sign-extended 20-bit integer to every lane. -/
  | vmovn (d : BitVec 5) (i : BitVec 20)
  /-- VLD, R152. Loads one scratchpad row with its poison into a vector register. -/
  | vld (v : BitVec 5) (a : BitVec 3) (i : BitVec 14)
  /-- VST, R152. Stores a vector register to one scratchpad row. -/
  | vst (v : BitVec 5) (a : BitVec 3) (i : BitVec 14)
  /-- VLDP, R152. Loads a row at a, then advances a. -/
  | vldp (v : BitVec 5) (a : BitVec 3) (i : BitVec 14)
  /-- VSTP, R152. Stores a row at a, then advances a. -/
  | vstp (v : BitVec 5) (a : BitVec 3) (i : BitVec 14)
  /-- VROTM, R154. Rotate-merges two rows into the aligned image of a misaligned row. -/
  | vrotm (v : BitVec 5) (a : BitVec 3) (s : BitVec 5)
  /-- VPOP, R155. Waits for and pops the head row of fv, merging its epoch. -/
  | vpop (v : BitVec 5)
  /-- VPUSH, R156. Waits for room and appends a register as the tail row of fw. -/
  | vpush (v : BitVec 5)
  /-- VLDKB, R177. Replaces the whole constant bank from two scratchpad rows. -/
  | vldkb (a : BitVec 3) (i : BitVec 14)
  /-- AMOVI, R151. a := sign-extended imm14. -/
  | amovi (a : BitVec 3) (i : BitVec 14)
  /-- AADD, R151. a := a + ab. -/
  | aadd (b : BitVec 3) (a : BitVec 3)
  /-- AADDI, R151. a := a + sign-extended imm14. -/
  | aaddi (a : BitVec 3) (i : BitVec 14)
  /-- VRSUM, R157. Sums governed elements by the fixed tree into every element. -/
  | vrsum (d : BitVec 5) (a : BitVec 5) (m : BitVec 3) (t : BitVec 2)
  /-- VRMAX, R158. Writes the largest governed element to every element. -/
  | vrmax (d : BitVec 5) (a : BitVec 5) (m : BitVec 3) (t : BitVec 2)
  /-- VRMIN, R158. Writes the smallest governed element to every element. -/
  | vrmin (d : BitVec 5) (a : BitVec 5) (m : BitVec 3) (t : BitVec 2)
  /-- VPERM, R159. Permutes lanes by the indices in vb. -/
  | vperm (d : BitVec 5) (a : BitVec 5) (b : BitVec 5) (m : BitVec 3)
  /-- VBCAST, R159. Broadcasts the lane named by an a register. -/
  | vbcast (d : BitVec 5) (a : BitVec 5) (b : BitVec 3) (m : BitVec 3)
  /-- VLUTACC, R162. Adds four lookup-table entries per position in fixed order. -/
  | vlutacc (d : BitVec 5) (a : BitVec 5) (b : BitVec 5) (m : BitVec 3)
  /-- VHISTACC, R163. Accumulates weights into four sets of 256 bins. -/
  | vhistacc (d : BitVec 5) (a : BitVec 5) (b : BitVec 5) (m : BitVec 3)
  /-- VMASKLEN, R160. Writes a mask of the first n lanes. -/
  | vmasklen (d : BitVec 3) (a : BitVec 3)
  /-- VPACK, R165. Packs selected lane groups into MX blocks appended to a data row and scale row. -/
  | vpack (d : BitVec 5) (a : BitVec 5) (b : BitVec 5) (m : BitVec 3) (x : BitVec 3)
  /-- VUNPACK, R166. Removes the bottom MX blocks of a row and writes them as FP32. -/
  | vunpack (d : BitVec 5) (a : BitVec 5) (b : BitVec 5) (m : BitVec 3) (x : BitVec 3)
  /-- VSCALE, R161. Masked a * 2^n, rounded once. -/
  | vscale (d : BitVec 5) (a : BitVec 5) (b : BitVec 5) (m : BitVec 3) (t : BitVec 2)
  /-- VIOTA, R160. Writes each governed lane's index. -/
  | viota (d : BitVec 5) (m : BitVec 3)
  /-- MLEASE, R264. Requests the cluster's matrix-array lease. -/
  | mlease
  /-- MREL, R264. Releases the lease once earlier array operations are performed. -/
  | mrel
  /-- MCFG, R261. Sets the accumulator window of a core of the cluster. -/
  | mcfg (c : BitVec 2) (r : BitVec 10) (n : BitVec 10)
  /-- MZERO, R273. Array operation clearing accumulator rows and their poison. -/
  | mzero (r : BitVec 10) (n : BitVec 10)
  /-- MMA, R273. Loads a new B tile from fb and accumulates A rows times it. -/
  | mma (r : BitVec 10) (n : BitVec 10)
  /-- MMAT, R273. Accumulates A rows times the held B tile. -/
  | mmat (r : BitVec 10) (n : BitVec 10)
  /-- MSCALE, R273. Scales accumulator columns by a vector from fb. -/
  | mscale (r : BitVec 10) (n : BitVec 10)
  /-- MDRAIN, R275. Waits until earlier array operations and accumulator-port moves are performed. -/
  | mdrain
  /-- ACCRD, R276. Writes an accumulator group to scratchpad rows in the OF format. -/
  | accrd (g : BitVec 8) (s : BitVec 14)
  /-- ACCWR, R276. Writes an accumulator group from scratchpad rows. -/
  | accwr (g : BitVec 8) (s : BitVec 14)
  /-- CMOVI, R215. cd := sign-extended imm16 in a copy engine. -/
  | cmovi (e : BitVec 3) (d : BitVec 4) (i : BitVec 16)
  /-- CADD, R215. cd := ca + cb modulo 2^32. -/
  | cadd (e : BitVec 3) (d : BitVec 4) (a : BitVec 4) (b : BitVec 4)
  /-- CADDI, R215. cd := ca + sign-extended imm16. -/
  | caddi (e : BitVec 3) (d : BitVec 4) (a : BitVec 4) (i : BitVec 16)
  /-- CSUB, R215. cd := ca - cb modulo 2^32. -/
  | csub (e : BitVec 3) (d : BitVec 4) (a : BitVec 4) (b : BitVec 4)
  /-- SEQL, R225. Writes the bound of sequencer nest level l. -/
  | seql (e : BitVec 3) (l : BitVec 3) (b : BitVec 4)
  /-- SEQB, R225. Writes the base coordinate of dimension d. -/
  | seqb (e : BitVec 3) (d : BitVec 3) (b : BitVec 4)
  /-- SEQS, R225. Writes the step of dimension d per iteration of level l. -/
  | seqs (e : BitVec 3) (l : BitVec 3) (d : BitVec 3) (b : BitVec 4)
  /-- SEQGO, R226. Issues with its template and enters a loop-nest command that generates instances. -/
  | seqgo (e : BitVec 3) (n : BitVec 3)
  /-- SEQSTOP, R227. Stops the engine's generating nest. -/
  | seqstop (e : BitVec 3)
  /-- CPY, R220. Copy command of n rows between a view run and the scratchpad. -/
  | cpy (e : BitVec 3) (v : BitVec 4) (p : BitVec 4) (n : BitVec 14)
  /-- GATH, R221. Copy command of n indexed one-row items. -/
  | gath (e : BitVec 3) (v : BitVec 4) (p : BitVec 4) (i : BitVec 4) (n : BitVec 10)
  /-- SCATB, R231. Store-engine bin scatter of n rows with spill. -/
  | scatb (v : BitVec 4) (p : BitVec 4) (i : BitVec 4) (n : BitVec 10)
  /-- BINCFG, R230. Command that replaces the engine's bin state from five rows. -/
  | bincfg (e : BitVec 3) (a : BitVec 4)
  /-- BINRD, R232. Waits for earlier bin commands and reads a bump counter. -/
  | binrd (e : BitVec 3) (d : BitVec 4) (b : BitVec 8)
  /-- REDUCE, R222. Command forming the dot product of two views into a scratchpad row. -/
  | reduce (e : BitVec 3) (v : BitVec 4) (p : BitVec 4)
  /-- PUSHA, R223. Load-engine command appending scratchpad rows to fa. -/
  | pusha (p : BitVec 4) (n : BitVec 14)
  /-- PUSHB, R223. Load-engine command appending scratchpad rows to fb. -/
  | pushb (p : BitVec 4) (n : BitVec 14)
  /-- ARWSET, R224. Sets or clears the engine's arrival-word tag. -/
  | arwset (e : BitVec 3) (a : BitVec 4)
  /-- XSEND, R366. Takes a send permit and sends a view's rows into a Crossing slot. -/
  | xsend (x : BitVec 3) (v : BitVec 3) (l : BitVec 3) (b : BitVec 1)
  /-- XRECV, R367. Waits for and pops the next Crossing arrival, granting rights on its slot view. -/
  | xrecv (d : BitVec 3) (x : BitVec 3)
  /-- XPERM, R368. Reads the free-permit count of a send Crossing. -/
  | xperm (d : BitVec 3) (x : BitVec 3)
  /-- ATOM, R236. Read-modify-write command on 4 or 8 bytes at a flat address. -/
  | atom (d : BitVec 3) (a : BitVec 3) (b : BitVec 3) (o : BitVec 4) (w : BitVec 1)
  /-- AADDNR, R237. Return-free 4-byte add command at a flat address. -/
  | aaddnr (a : BitVec 3) (b : BitVec 3) (t : BitVec 1)
  /-- AFENCE, R238. Waits until every earlier AADDNR of the stream is performed. -/
  | afence
  /-- BKLOAD, R404. Command loading microcode words into a bank unit. -/
  | bkload (a : BitVec 3) (b : BitVec 3)
  /-- BKRUN, R407. Command running a block of bank-unit command records in order. -/
  | bkrun (a : BitVec 3) (b : BitVec 3)
  /-- BKCTX, R405. Command claiming and requesting a bank-unit context as running. -/
  | bkctx (b : BitVec 3) (c : BitVec 2)
  /-- BKWAIT, R409. Waits for the stream's earlier bank-unit commands to be performed. -/
  | bkwait (b : BitVec 3)
  /-- BANK_UNIT_ACT, R400. Microcode word opening a DRAM page in its bank. -/
  | bankUnitAct (k : Nat) (m : Micro)
  /-- BANK_UNIT_RD, R400. Microcode word reading a line into RA or RB. -/
  | bankUnitRd (k : Nat) (m : Micro)
  /-- BANK_UNIT_WR, R400. Microcode word writing ACC to a line. -/
  | bankUnitWr (k : Nat) (m : Micro)
  /-- BANK_UNIT_MAC, R400. Microcode word adding RA times RB into ACC per lane. -/
  | bankUnitMac (k : Nat) (m : Micro)
  /-- BANK_UNIT_ADDA, R400. Microcode word adding RA or RB into ACC. -/
  | bankUnitAdda (k : Nat) (m : Micro)
  /-- BANK_UNIT_RED, R400. Microcode word tree-summing ACC into lane 0. -/
  | bankUnitRed (k : Nat) (m : Micro)
  /-- BANK_UNIT_MOVA, R400. Microcode word moving between ACC and RA. -/
  | bankUnitMova (k : Nat) (m : Micro)
  /-- BANK_UNIT_CTX, R405. Microcode switch point at which a requested context may take over. -/
  | bankUnitCtx (k : Nat) (m : Micro)
  /-- BANK_UNIT_END, R400. Microcode word ending the command. -/
  | bankUnitEnd (k : Nat) (m : Micro)
  /-- BANK_UNIT_NOP, R400. Microcode word with no effect. -/
  | bankUnitNop (k : Nat) (m : Micro)
  /-- BKRUN_RECORD_START, R407. The next command record is checked, translated and queued at its unit's context. -/
  | bkrunRecordStart (u b : Nat)
  /-- BANK_UNIT_COMMAND_START, R407. A queued record begins running when its context is running. -/
  | bankUnitCommandStart (k : Nat)
  /-- BKLOAD_PERFORMED, R404. Once the unit is idle, the microcode words are written. -/
  | bkloadPerformed (u b : Nat)
  /-- CONTEXT_SWITCH, R405. The unit makes a requested context the running one at a switch point. -/
  | contextSwitch (k : Nat)
  /-- TICK_INTERRUPT, R107. The control stream enters the trap handler with kind 1 when TICK reaches TICKCMP. -/
  | tickInterrupt (u : Nat)
  /-- TOKEN_PUSH, R204. A pending push is made once earlier commands and pushes are done and room exists. -/
  | tokenPush (u b e : Nat)
  /-- LANDING, R194. Landed bytes of a tagged copy or remote sender update an arrival word and may step it. -/
  | landing (u b : Nat)
  /-- REQUEST_DEPART, R294. A request leaves in its core's next owned slot of the target stack or chain. -/
  | requestDepart (u b src row : Nat)
  /-- SLOT_MISS_RETRY, R295. A request that missed its slot leaves in the same slot one rotation later. -/
  | slotMissRetry (u b src row : Nat)
  /-- LDG_RETURN, R294. An LDG's data returns and becomes usable. -/
  | ldgReturn (u b src : Nat)
  /-- STG_PERFORMED, R294. An STG write is acknowledged and performed. -/
  | stgPerformed (u b src : Nat)
  /-- COPY_ROW_PERFORMED, R220. A row of a copy is performed into its destination. -/
  | copyRowPerformed (u b e src row : Nat)
  /-- GATH_ITEM_PERFORMED, R221. A gather item is checked and performed. -/
  | gathItemPerformed (u b e src item : Nat)
  /-- SCATB_PERFORMED, R231. The bin scatter writes or drops each row in ascending order. -/
  | scatbPerformed (u b : Nat)
  /-- BINCFG_PERFORMED, R230. The bin configuration is read and replaces the bin state. -/
  | bincfgPerformed (u b e : Nat)
  /-- REDUCE_PERFORMED, R393. Tile partials are combined in ascending tile index and the result row written. -/
  | reducePerformed (u b e src : Nat)
  /-- REDUCE_TILE_PARTIAL, R393. The unit serving a tile's tier forms and returns its partial. -/
  | reduceTilePartial (u b e src tile : Nat)
  /-- PUSH_ROW_APPEND, R223. A PUSHA or PUSHB row is appended to fa or fb when room exists. -/
  | pushRowAppend (u b src : Nat)
  /-- NEST_INSTANCE_GENERATE, R226. The sequencer generates, checks and queues the next instance. -/
  | nestInstanceGenerate (u b e : Nat)
  /-- ATOM_PERFORMED, R236. The read-modify-write is performed at the memory that holds the tile. -/
  | atomPerformed (u b : Nat)
  /-- AADDNR_PERFORMED, R237. The return-free add is performed in the tile's bank unit or controller. -/
  | aaddnrPerformed (u b src : Nat)
  /-- HIST_PERFORMED, R310. The routing values are counted into the histogram bank. -/
  | histPerformed (u b : Nat)
  /-- VIEW_MOVE, R341. The coverage unit makes a view instruction's move on its tensor. -/
  | viewMove (u b : Nat)
  /-- VIEW_ANSWER, R327. The coverage unit's answer returns, writing VIEWST and any register or record. -/
  | viewAnswer (u b : Nat)
  /-- ELIDE_MOVE, R344. An uncovered, drained, unfenced tile is elided and its frame passed to the scrub. -/
  | elideMove (tid n : Nat)
  /-- FRAME_SCRUB_DONE, R339. A scrubbed frame is returned to its pool. -/
  | frameScrubDone (i : Nat)
  /-- DESCRIPTOR_DELETE, R346. A COVERED tensor with no view and every tile elided is deleted. -/
  | descriptorDelete (tid : Nat)
  /-- ARRAY_OP_START, R274. An array operation starts when the array is free and its first operand is present. -/
  | arrayOpStart (u b : Nat)
  /-- ARRAY_OP_PERFORMED, R274. An array operation is performed F cycles after its occupancy ends. -/
  | arrayOpPerformed (u b : Nat)
  /-- ACC_PORT_PERFORMED, R276. An ACCRD or ACCWR is performed at issue plus 4 plus its rows. -/
  | accPortPerformed (u b : Nat)
  /-- LEASE_GRANT, R265. The array grants its lease round-robin to a waiting requester. -/
  | leaseGrant (cl : Nat)
  /-- CLAUSE_BOUNDARY, R206. The boundary forms, dead state is cleared and all streams leave CLAUSE. -/
  | clauseBoundary (u b : Nat)
  /-- CLIMB_FRAME_LOAD, R385. The target verifies and loads the climb frame and the job continues there. -/
  | climbFrameLoad (u b : Nat)
  /-- CLIMB_MONITOR_EVAL, R382. The die's climb monitor evaluates a job and may post a request with a reservation. -/
  | climbMonitorEval (u b : Nat)
  /-- JOB_END, R201. A fully joined job with no outstanding work ends and frees its bank. -/
  | jobEnd (u b : Nat)
  /-- WAIT_FOREVER, R208. A quiescent job with a core-local wait raises the wait-forever fault. -/
  | waitForever (u b : Nat)
  /-- WAIT_TIMEOUT, R209. A remote wait exceeding WAITLIM raises the wait-timeout fault. -/
  | waitTimeout (u b e : Nat)
  /-- PERMIT_TIMEOUT, R366. A permit wait exceeding WAITLIM raises the permit-timeout fault. -/
  | permitTimeout (u b : Nat)
  /-- FAULT_FRAME_WRITE, R212. Once issued commands are performed, the 1 KiB fault frame is written and the host notified. -/
  | faultFrameWrite (u b : Nat)
  /-- CORRECTABLE_ERROR_FREEZE, R197. A correctable error freezes the core for 64 cycles. -/
  | correctableErrorFreeze (u : Nat)
  /-- FREEZE_END, R198. The 64-cycle freeze expires and held arrivals are delivered. -/
  | freezeEnd (u : Nat)
  /-- STATIC_PAUSE_END, R353. A static job's paused streams resume at the first rho = 0 after the wait and commands end. -/
  | staticPauseEnd (u b : Nat)
  /-- DOMAIN_CLOSE, R317. With all arrivals counted, the phase closes, tags drop, PN advances and waiters complete. -/
  | domainClose (d : DomKey)
  /-- FAULT_RANGE_MISS, R297. A translation miss joins or opens an entry of the die's batch. -/
  | faultRangeMiss (u b e src row : Nat)
  /-- BATCH_FULL_FLUSH, R297. A batch reaching 64 entries is flushed as merged records. -/
  | batchFullFlush (die : Nat)
  /-- BATCH_TIMER_FLUSH, R297. The 16 us batch timer expires and the batch is flushed. -/
  | batchTimerFlush (die : Nat)
  /-- FAULT_RECORD_DELIVER, R297. Held records are delivered when the fault queue has space. -/
  | faultRecordDeliver (die : Nat)
  /-- RANGE_REPLY, R299. A host reply retries or fails the waiting accesses of a record. -/
  | rangeReply (die : Nat) (seq : Word) (status : Byte)
  /-- PROMOTION_START, R379. The promotion engine takes a target frame and starts copying a tile. -/
  | promotionStart (die : Nat)
  /-- MOVE_FENCE, R379. MF is set and the engine waits for accesses that passed translation. -/
  | moveFence (die : Nat)
  /-- TILE_SWITCH, R379. The tile entry switches to the new frame and MF clears; the old frame goes to scrub. -/
  | tileSwitch (die : Nat)
  /-- XSEND_ARRIVAL, R366. After the last row, the arrival is queued and the receiver's word receives a landing. -/
  | xsendArrival (u b src : Nat)
  /-- PERMIT_RETURN, R369. A released slot's scrubbed frame is reinstated, its view re-created and a permit returned. -/
  | permitReturn (x slot : Nat)
  /-- ITERATION_PLACE, R305. The walker places an eligible iteration in a free bank and applies the preloads. -/
  | iterationPlace (die : Nat)
  /-- TAIL, R416. A TAIL write announces posted packets of a work queue. -/
  | tail (f q : Nat) (v : Word)
  /-- ADMIN_TAIL, R417. An ADMIN_TAIL write announces management commands. -/
  | adminTail (f : Nat) (v : Word)
  /-- ADMIN_BASE, R417. Sets the management ring base and size unless commands are outstanding. -/
  | adminBase (f : Nat) (v : DWord)
  /-- CQH, R424. The host advances a completion queue head, releasing waiting appends. -/
  | cqh (f c : Nat) (v : Word)
  /-- REGISTER_WRITE, R416. A write to a BAR register without behaviour of its own is ignored. -/
  | registerWrite (f off : Nat) (v : DWord)
  /-- PACKET_READ, R419. The device reads a launch packet, checks it and accepts or refuses it. -/
  | packetRead (q : Nat)
  /-- STAMP_RECHECK, R419. After 1 us the slot is re-read; a stale stamp puts the queue in ERROR. -/
  | stampRecheck (q : Nat)
  /-- FABRIC_DIGEST, R445. A member's packet digest or refusal notice arrives; acceptance is decided when all are in. -/
  | fabricDigest (q member : Nat) (d : Digest)
  /-- PACKET_COMPLETE, R421. The packet's implicit domain closes, DONE advances and the record is written. -/
  | packetComplete (q i : Nat)
  /-- CQ_APPEND, R424. A completion record is appended when the ring has room and an interrupt sent. -/
  | cqAppend (f c : Nat)
  /-- QUEUE_DRAINED, R426. A draining queue with no accepted packet becomes DISABLED and the command completes. -/
  | queueDrained (q : Nat)
  /-- HOST_BAR_READ, R425. A host read through a BAR window returns each 64-byte unit old or new. -/
  | hostBarRead (p va : Nat)
  /-- HOST_BAR_WRITE, R340. A host write through a BAR window, discarded on an elided tile. -/
  | hostBarWrite (p va : Nat) (data : List Byte)
  /-- CREATE_QUEUE, R415. Creates a work queue ring. -/
  | createQueue (f base k : Nat)
  /-- DESTROY_QUEUE, R426. Drains a queue in FINISH or DISCARD mode. -/
  | destroyQueue (f : Nat) (discard : Bool)
  /-- RESTART_QUEUE, R427. Returns an ERROR queue to RUNNING and reads from HEAD. -/
  | restartQueue (f : Nat)
  /-- CREATE_CQ, R424. Creates a completion queue. -/
  | createCq (f base k : Nat)
  /-- DESTROY_CQ, R424. Destroys a completion queue. -/
  | destroyCq (f : Nat)
  /-- LOAD_IMAGE, R40. Checks and splits a kernel image into a code handle. -/
  | loadImage (f : Nat)
  /-- ALLOC_TENSOR, R281. Creates a tensor descriptor and its root view. -/
  | allocTensor (f : Nat)
  /-- FREE_TENSOR, R346. Frees a tensor, dropping its views as one move. -/
  | freeTensor (f : Nat)
  /-- INVALIDATE, R287. Invalidates tile translations of a tile-table range. -/
  | invalidate (f lo n : Nat)
  /-- MOVE_TILE, R379. Requests a promotion move of a tile. -/
  | moveTile (f n tier stack : Nat)
  /-- CREATE_CROSSING, R363. Checks a Crossing record and creates its slot tensor, views and permits. -/
  | createCrossing (f : Nat)
  /-- DESTROY_CROSSING, R364. Waits for its XSENDs and destroys a Crossing. -/
  | destroyCrossing (f : Nat)
  /-- JOB_RESTART, R212. Restarts a stopped job from its possibly edited frame. -/
  | jobRestart (f : Nat)
  /-- JOB_DISCARD, R212. Discards a stopped job and frees its frame slot. -/
  | jobDiscard (f : Nat)
  /-- RELEASE_CONTEXT, R405. Frees a bank-unit context. -/
  | releaseContext (f k c : Nat)
  /-- RESYNC, R439. Writes a summary record of partitions, errors, queues and jobs. -/
  | resync (f : Nat)
  /-- CONFIGURE_PARTITION, R430. Applies a partition configuration record. -/
  | configurePartition (f : Nat) (r : PartRecord)
  /-- RESET_PARTITION, R432. Freezes, captures and clears a partition. -/
  | resetPartition (f : Nat)
  /-- PREEMPT, R433. Pre-empts a partition at once. -/
  | preempt (f : Nat)
  /-- RESUME, R433. Places a pre-empted partition's saved jobs and sets its queues RUNNING. -/
  | resume (f : Nat)
  /-- MIGRATE_SAVE, R435. Writes a pre-empted partition's state image. -/
  | migrateSave (f : Nat)
  /-- MIGRATE_RESTORE, R435. Recreates a partition from a state image. -/
  | migrateRestore (f img : Nat)
  /-- DIRTY_LOG, R436. Turns stage-2 dirty logging on or off. -/
  | dirtyLog (f : Nat) (on : Bool) (base k : Nat)
  /-- DIRTY_LOG_APPEND, R436. A newly set stage-2 D bit appends a log entry when the ring has room. -/
  | dirtyLogAppend (p : Nat)
  /-- SET_TOLERANCE, R440. Sets a function's wake-latency tolerance. -/
  | setTolerance (f us : Nat)
  /-- WRITE_PASID, R420. Writes a PASID table entry. -/
  | writePasid (f i : Nat) (pasid : BitVec 20) (v : Bool)
  /-- WRITE_REMAP, R424. Writes an interrupt remapping entry, sending a held interrupt when unmasked. -/
  | writeRemap (f v : Nat) (addr : DWord) (data : Word) (valid masked : Bool)
  /-- LOAD_WEIGHTS, R451. Creates a LOADING version and starts reading and checking a weight image. -/
  | loadWeights (f : Nat)
  /-- SET_CURRENT, R450. Moves the current flag to a READY version. -/
  | setCurrent (f : Nat)
  /-- WEIGHT_TILE_ARRIVAL, R448. A weight tile lands, is hashed and made valid or requested again. -/
  | weightTileArrival (p vid i : Nat) (data : List Byte)
  /-- VERSION_RETIRE, R453. A non-current version with no bound packet is retired and its views dropped. -/
  | versionRetire (p vid : Nat)
  /-- SLICE_EXPIRY, R433. A partition's slice ends and it is pre-empted if another of its group is waiting. -/
  | sliceExpiry (g : Nat)
  /-- PREEMPTION_LIMIT_EXPIRY, R434. A job that reached no boundary within the limit is stopped and discarded. -/
  | preemptionLimitExpiry (u b : Nat)
  /-- FABRIC_CLOSE_MULTICAST, R446. A fabric domain close multicast from package 0 completes the member's DSYNCs. -/
  | fabricCloseMulticast (d : DomKey)
  /-- GOVERNOR_TICK, R412. Every 4,096 cycles the governor steps the matrix-array clock. -/
  | governorTick
  /-- STACK_ALERT_EVENT, R413. A base-die event is logged and the stack's alert raised; `hit` names the granules of the codeword with an uncorrectable error (R126), by offset divided by 16, or the microcode words with a parity error (R402). -/
  | stackAlertEvent (tier stack : Nat) (kind : AlertKind) (unit : Byte) (bank : BitVec 16) (row : Word) (hit : List Nat)
  /-- ALERT_LOG_READ, R413. Reading every log record through either port clears the alert. -/
  | alertLogRead (tier stack : Nat) (n : Nat)
  /-- POWER_LEVEL_ENTER, R440. An idle module enters the lowest level its tolerances allow. -/
  | powerLevelEnter
  /-- WAKE, R440. A TAIL write, management command or network traffic wakes the module. -/
  | wake
  /-- POWER_ON_BOOT, R454. The Lenfy boot ROM checks and starts firmware, or enters BOOTFAIL. -/
  | powerOnBoot (h : Nat) (fw : Firmware)
  /-- GET_MEASUREMENTS, R455. An SPDM request returns signed firmware, key-slot and fabric-map measurements. -/
  | getMeasurements (nonce : Nat)
  /-- TDISP_ENTER_RUN, R431. Entering RUN draws per-stack memory encryption keys. -/
  | tdispEnterRun (f : Nat)
  /-- TDISP_EXIT_RUN, R431. Any exit from RUN destroys the keys and resets the partition. -/
  | tdispExitRun (f : Nat)
  /-- FABRIC_DOMAIN_ARRIVAL, R446. An arrival or departure of a member on another package reaches package 0, which counts it toward the fabric domain's close. -/
  | fabricDomainArrival (d : DomKey) (member : Nat) (news : FabricNews)
  /-- WEIGHT_MANIFEST_ARRIVAL, R448. A weight-image manifest reaches a member, which verifies its signature and creates the pending descriptors or ends the load. -/
  | weightManifestArrival (p vid : Nat) (m : List Byte)
  /-- TILE_RESEND_REQUEST, R448. A member's unicast request for a tile that failed its hash reaches the reader, which sends the tile again. -/
  | tileResendRequest (p vid i member : Nat)
  /-- PUBLISHER_KEY_PROVISION, R448. The owner writes a Falcon-1024 publisher key into a key slot through the Lenfy core over an authenticated SPDM session. -/
  | publisherKeyProvision (slot : Nat) (key : List Byte)
  /-- TDISP_CONFIG_LOCKED, R431. A virtual function's TDISP interface enters CONFIG_LOCKED, after which configuration commands for it are refused unless they come over the TDISP channel. -/
  | tdispConfigLocked (f : Nat)
  /-- BANK_UNIT_WRITE_PERFORMED, R401. A bank unit's pending line write is performed eight cycles after its WR, and once a command has no pending write left it ends and its BKRUN moves on. -/
  | bankUnitWritePerformed (k : Nat)
  deriving DecidableEq, Repr, Inhabited

/-- A command that the device security manager issues over the TDISP channel (22 R431): the target stands in the record of a partition, else it is a function. -/
inductive TdispCommand where
  /-- CONFIGURE_PARTITION -/
  | configure (r : PartRecord)
  /-- WRITE_PASID -/
  | pasid (target i : Nat) (pasid : BitVec 20) (v : Bool)
  /-- WRITE_REMAP -/
  | remap (target v : Nat) (addr : DWord) (data : Word) (valid masked : Bool)
  deriving DecidableEq, Repr, Inhabited

/-- A fabric map as the Lenfy management core of a member holds it (23 R443): how many packages the domain has, the number of this one, and the multicast tree as pairs of a package and the package above it. -/
structure FabricMap where
  size : Nat
  own  : Nat
  tree : List (Nat × Nat)
  deriving DecidableEq, Repr, Inhabited

/-- A move of the machine (10 R245). -/
inductive Move where
  /-- the issue point of engine `e` of unit `u` -/
  | issue (u e : Nat)
  /-- the next microcode word of bank unit `k` -/
  | micro (k : Nat)
  /-- a move that has a row of the table without an encoding -/
  | event (i : Instr)
  /-- `n` main-core cycles pass -/
  | elapse (n : Nat)
  /-- the host writes its memory -/
  | hostWrite (addr : Nat) (data : List Byte)
  /-- software writes the RW fields of a tile-table entry (12 R286) -/
  | tileWrite (tid n : Nat) (v : Bool) (tier : BitVec 2) (stack : BitVec 5) (clearD : Bool) (fbase : BitVec 41)
  /-- the host driver writes a partition frame table entry (12 R288) -/
  | s2Write (part fsz n : Nat) (v : Bool) (tier : BitVec 2) (stack : BitVec 5) (clearD w : Bool) (mbase : BitVec 41)
  /-- the host changes whether a page of its memory translates under a PASID (12 R289, 22 R427); `2^20` stands for an access without one -/
  | hostMap (pasid page : Nat) (ok : Bool)
  /-- the host reads 8 bytes of a function's BAR0 (22 R416, R417, 23 R454) -/
  | registerRead (f off : Nat)
  /-- the host has consumed the entries of a partition's dirty log before number `n` (22 R436) -/
  | dirtyHead (p n : Nat)
  /-- a command over the TDISP channel (22 R431) -/
  | tdispChannel (c : TdispCommand)
  /-- the host hands over state image `i` of those that other modules have written (22 R435, R438) -/
  | migImport (i : Nat)
  /-- the owner writes the map of fabric domain `d` through the Lenfy core (23 R443) -/
  | fabricMap (d : Nat) (m : FabricMap)
  /-- the argument record of a LOAD_WEIGHTS of another member of a fabric partition arrives (23 R451) -/
  | loadRecord (p member : Nat) (record : List Byte)
  /-- an SPDM request for the certificate of the identity key (23 R455) -/
  | getCertificate
  deriving DecidableEq, Repr, Inhabited

end Sys2Proof
end

