-- ==== Sys2Proof/Config.lean ====
section
/-!
DEFINITION. What an implementation fixes and the free values: constants without a body, about which nothing can be proved but what holds for every value (notes/assumptions). A free value is applied to a counter of the state, which the step that takes it advances, or to the operands it depends on.
-/

namespace Sys2Proof.Config

/-- The move that comes next where the agenda is empty (10 R240, R245; log entry 1): a counter. -/
opaque nextMove : Nat → Move

/-- The free handle that the view table takes (14 R323, R330; log entry 13). -/
opaque freeHandle : Nat → Nat

/-- The code handle that the loader gives an image (02 R40, 22 R429; log entry 13). -/
opaque freeCode : Nat → Nat

/-- The base of a frame that a pool supplies, in units of 4 KiB (12 R286, 22 R430; log entry 13). -/
opaque freeFrame : Nat → Nat

/-- The id of a tensor that the device creates by itself (17 R363; log entry 13). -/
opaque freeTensor : Nat → Nat

/-- A word whose value the spec does not state (log entry 14). -/
opaque freeWord : Nat → BitVec 64

/-- The elements of a held B tile beyond the K extent with which it was loaded (11 R272, R273): a counter, k, j; the bits of an FP32 value. -/
opaque freeTile : Nat → Nat → Nat → Nat

/-- SHAKE256 with a 256-bit output (23 R445, R448, R454; log entry 8). -/
opaque shake256 : List Byte → Nat

/-- Whether a Falcon-1024 signature verifies: key, signature, message (23 R448, R454; log entry 8). -/
opaque falconVerify : List Byte → List Byte → List Byte → Bool

/-- The ECDSA P-384 signature of the module's identity key (23 R455; log entry 8). -/
opaque ecdsaSign : List Byte → List Byte

/-- The certificate of the identity key (23 R455; log entry 8). -/
opaque identityCert : List Byte

/-- The AES-256-XTS key that is drawn for a function and a stack (22 R431; log entry 8): a counter. -/
opaque xtsKey : Nat → BitVec 512

/-- The SHAKE256 value of the public key that is fused in an H-die (23 R454). -/
opaque fusedKeyHash : Nat → Nat

/-- The fused security version counter of an H-die, of 64 steps (23 R454). -/
opaque fusedSvn : Nat → Nat

end Sys2Proof.Config
end

