-- ==== Sys2Proof/WellFormed.lean ====
section
/-!
DEFINITION. Which instructions an encoding may carry: the register numbers, field values and forms that the spec calls illegal (02 R61), and the engine an instruction belongs to.
-/

namespace Sys2Proof

/-- The engine whose stream issues an instruction (02 R30, R31); none for a move. -/
def Instr.engine : Instr → Option Nat
  | .nop e => some e.toNat
  | .join e => some e.toNat
  | .clause e _ => some e.toNat
  | .waitk e _ _ => some e.toNat
  | .sigk e _ _ => some e.toNat
  | .waitaw e _ _ => some e.toNat
  | .loop e _ _ _ => some e.toNat
  | .loopr e _ _ _ => some e.toNat
  | .pbr e _ _ => some e.toNat
  | .pbrr e _ _ => some e.toNat
  | .br e _ _ _ _ _ => some e.toNat
  | .brq e _ _ _ _ => some e.toNat
  | .trap e _ => some e.toNat
  | .tret => some 0
  | .add _ _ _ _ => some 0
  | .sub _ _ _ _ => some 0
  | .mul _ _ _ _ => some 0
  | .mulh _ _ _ _ => some 0
  | .mulhu _ _ _ _ => some 0
  | .div _ _ _ _ => some 0
  | .divu _ _ _ _ => some 0
  | .rem _ _ _ _ => some 0
  | .remu _ _ _ _ => some 0
  | .and _ _ _ _ => some 0
  | .or _ _ _ _ => some 0
  | .xor _ _ _ _ => some 0
  | .andn _ _ _ _ => some 0
  | .shl _ _ _ _ => some 0
  | .shr _ _ _ _ => some 0
  | .sra _ _ _ _ => some 0
  | .min _ _ _ _ => some 0
  | .max _ _ _ _ => some 0
  | .minu _ _ _ _ => some 0
  | .maxu _ _ _ _ => some 0
  | .cmp _ _ _ _ _ => some 0
  | .sel _ _ _ _ => some 0
  | .clz _ _ _ => some 0
  | .popc _ _ _ => some 0
  | .bfx _ _ _ _ => some 0
  | .bfi _ _ _ _ => some 0
  | .pand _ _ _ _ => some 0
  | .por _ _ _ _ => some 0
  | .pxor _ _ _ _ => some 0
  | .movp _ _ _ => some 0
  | .addi _ _ _ => some 0
  | .andi _ _ _ => some 0
  | .ori _ _ _ => some 0
  | .xori _ _ _ => some 0
  | .shli _ _ _ => some 0
  | .shri _ _ _ => some 0
  | .srai _ _ _ => some 0
  | .muli _ _ _ => some 0
  | .cmpeqi _ _ _ => some 0
  | .cmplti _ _ _ => some 0
  | .cmpltui _ _ _ => some 0
  | .mini _ _ _ => some 0
  | .maxi _ _ _ => some 0
  | .movi _ _ => some 0
  | .movl _ _ => some 0
  | .movlh _ _ => some 0
  | .ldb _ _ _ => some 0
  | .ldbu _ _ _ => some 0
  | .ldh _ _ _ => some 0
  | .ldhu _ _ _ => some 0
  | .ldw _ _ _ => some 0
  | .ldwu _ _ _ => some 0
  | .ldd _ _ _ => some 0
  | .stb _ _ _ => some 0
  | .sth _ _ _ => some 0
  | .stw _ _ _ => some 0
  | .std _ _ _ => some 0
  | .ldg _ _ _ => some 0
  | .stg _ _ _ => some 0
  | .csrr _ _ => some 0
  | .csrw _ _ => some 0
  | .dsync => some 0
  | .dmrset _ _ => some 0
  | .vderive _ _ _ _ _ => some 0
  | .vnarrow _ _ => some 0
  | .vdrop _ => some 0
  | .vquery _ _ => some 0
  | .fmtset _ _ => some 0
  | .hist _ _ => some 0
  | .hlatch _ => some 0
  | .climb => some 0
  | .climbFar => some 0
  | .climbNear => some 0
  | .setleave => some 0
  | .arwinit _ _ => some 0
  | .vadd _ _ _ _ _ => some 1
  | .vsub _ _ _ _ _ => some 1
  | .vmul _ _ _ _ _ => some 1
  | .vdiv _ _ _ _ _ => some 1
  | .vmin _ _ _ _ _ => some 1
  | .vmax _ _ _ _ _ => some 1
  | .vabs _ _ _ _ => some 1
  | .vneg _ _ _ _ => some 1
  | .vsqrt _ _ _ _ => some 1
  | .vrcp _ _ _ _ => some 1
  | .vrsq _ _ _ _ => some 1
  | .vexp2 _ _ _ _ => some 1
  | .vlog2 _ _ _ _ => some 1
  | .vcmpeq _ _ _ _ _ => some 1
  | .vcmplt _ _ _ _ _ => some 1
  | .vcmple _ _ _ _ _ => some 1
  | .vand _ _ _ _ => some 1
  | .vor _ _ _ _ => some 1
  | .vxor _ _ _ _ => some 1
  | .vnot _ _ _ => some 1
  | .vshl _ _ _ _ => some 1
  | .vshr _ _ _ _ => some 1
  | .vsra _ _ _ _ => some 1
  | .vmov _ _ _ => some 1
  | .vselm _ _ _ _ => some 1
  | .vcvt _ _ _ _ _ => some 1
  | .vmulhi _ _ _ _ => some 1
  | .vfma _ _ _ _ _ => some 1
  | .vfms _ _ _ _ _ => some 1
  | .vnfma _ _ _ _ _ => some 1
  | .vnfms _ _ _ _ _ => some 1
  | .vfmak _ _ _ _ _ => some 1
  | .vaddk _ _ _ _ _ => some 1
  | .vmulk _ _ _ _ _ => some 1
  | .vmovk _ _ _ _ => some 1
  | .vfmal _ _ _ _ _ => some 1
  | .vaddl _ _ _ _ _ => some 1
  | .vmull _ _ _ _ _ => some 1
  | .vmovl _ _ _ _ => some 1
  | .vmovf _ _ => some 1
  | .vmovn _ _ => some 1
  | .vld _ _ _ => some 1
  | .vst _ _ _ => some 1
  | .vldp _ _ _ => some 1
  | .vstp _ _ _ => some 1
  | .vrotm _ _ _ => some 1
  | .vpop _ => some 1
  | .vpush _ => some 1
  | .vldkb _ _ => some 1
  | .amovi _ _ => some 1
  | .aadd _ _ => some 1
  | .aaddi _ _ => some 1
  | .vrsum _ _ _ _ => some 1
  | .vrmax _ _ _ _ => some 1
  | .vrmin _ _ _ _ => some 1
  | .vperm _ _ _ _ => some 1
  | .vbcast _ _ _ _ => some 1
  | .vlutacc _ _ _ _ => some 1
  | .vhistacc _ _ _ _ => some 1
  | .vmasklen _ _ => some 1
  | .vpack _ _ _ _ _ => some 1
  | .vunpack _ _ _ _ _ => some 1
  | .vscale _ _ _ _ _ => some 1
  | .viota _ _ => some 1
  | .mlease => some 2
  | .mrel => some 2
  | .mcfg _ _ _ => some 2
  | .mzero _ _ => some 2
  | .mma _ _ => some 2
  | .mmat _ _ => some 2
  | .mscale _ _ => some 2
  | .mdrain => some 2
  | .accrd _ _ => some 2
  | .accwr _ _ => some 2
  | .cmovi e _ _ => some e.toNat
  | .cadd e _ _ _ => some e.toNat
  | .caddi e _ _ _ => some e.toNat
  | .csub e _ _ _ => some e.toNat
  | .seql e _ _ => some e.toNat
  | .seqb e _ _ => some e.toNat
  | .seqs e _ _ _ => some e.toNat
  | .seqgo e _ => some e.toNat
  | .seqstop e => some e.toNat
  | .cpy e _ _ _ => some e.toNat
  | .gath e _ _ _ _ => some e.toNat
  | .scatb _ _ _ _ => some 4
  | .bincfg e _ => some e.toNat
  | .binrd e _ _ => some e.toNat
  | .reduce e _ _ => some e.toNat
  | .pusha _ _ => some 3
  | .pushb _ _ => some 3
  | .arwset e _ => some e.toNat
  | .xsend _ _ _ _ => some 5
  | .xrecv _ _ => some 5
  | .xperm _ _ => some 5
  | .atom _ _ _ _ _ => some 5
  | .aaddnr _ _ _ => some 5
  | .afence => some 5
  | .bkload _ _ => some 5
  | .bkrun _ _ => some 5
  | .bkctx _ _ => some 5
  | .bkwait _ => some 5
  | _ => none

/-- A register number of the scalar-class space that its engine has (01 R19). -/
def scalarLegal (e : BitVec 3) (x : BitVec 5) : Bool :=
  match e.toNat with
  | 0 => true
  | 1 => decide (x.toNat < 8)
  | 3 => decide (x.toNat < 16)
  | 4 => decide (x.toNat < 16)
  | 5 => decide (x.toNat < 8)
  | _ => false

/-- The engines are 0 to 5 (01 R11). -/
def engineLegal (e : BitVec 3) : Bool := decide (e.toNat < 6)

/-- The copy engines are 3 and 4 (01 R11). -/
def copyLegal (e : BitVec 3) : Bool := decide (e.toNat = 3) || decide (e.toNat = 4)

/-- A base register of a table group: 0, 8, 16 or 24 (06 R162, R163). -/
def groupBase (r : BitVec 5) : Bool := decide (r.toNat % 8 = 0)

/-- The checks that an encoding's fields must pass (02 R61 with R19, R42 to R60; 06 R162, R163, R165, R166; 09 R222). A check that needs the machine's state (a resolved type, a template, a window) belongs to the instruction's meaning. -/
def Instr.wellFormed : Instr → Bool
  | .nop e => engineLegal e
  | .join e => engineLegal e
  | .clause e _ => engineLegal e
  | .waitk e _ _ => engineLegal e
  | .sigk e _ _ => engineLegal e
  | .waitaw e x y => engineLegal e && scalarLegal e x && scalarLegal e y
  | .loop e _ _ _ => engineLegal e
  | .loopr e _ x _ => engineLegal e && scalarLegal e x
  | .pbr e _ _ => engineLegal e
  | .pbrr e _ x => engineLegal e && scalarLegal e x
  | .br e _ k p u _ => engineLegal e && decide (u ≠ 3) && (decide (e = 0) || (decide (k = 0) && decide (p = 0)))
  | .brq e _ q c u => engineLegal e && decide (u ≠ 3) && (decide (c.toNat < 4) || decide (q.toNat < 4))
  | .trap e _ => engineLegal e
  | .cmp _ _ _ _ x => decide (x.toNat < 6)
  | .csrr _ n => decide (n.toNat < 19)
  | .csrw _ n => decide (n.toNat < 19)
  | .dmrset l _ => decide (l.toNat < 5)
  | .vdiv _ _ _ _ t => decide (t ≠ 2)
  | .vsqrt _ _ _ t => decide (t ≠ 2)
  | .vrcp _ _ _ t => decide (t ≠ 2)
  | .vrsq _ _ _ t => decide (t ≠ 2)
  | .vexp2 _ _ _ t => decide (t ≠ 2)
  | .vlog2 _ _ _ t => decide (t ≠ 2)
  | .vcmpeq d _ _ _ _ => decide (d ≠ 0)
  | .vcmplt d _ _ _ _ => decide (d ≠ 0)
  | .vcmple d _ _ _ _ => decide (d ≠ 0)
  | .vfma _ _ _ _ t => decide (t ≠ 2)
  | .vfms _ _ _ _ t => decide (t ≠ 2)
  | .vnfma _ _ _ _ t => decide (t ≠ 2)
  | .vnfms _ _ _ _ t => decide (t ≠ 2)
  | .vlutacc _ a _ _ => groupBase a
  | .vhistacc d a b _ => groupBase d && decide (a.toNat / 8 ≠ d.toNat / 8) && decide (b.toNat / 8 ≠ d.toNat / 8)
  | .vmasklen d _ => decide (d ≠ 0)
  | .vpack d _ b _ x => decide (x.toNat < 3) && decide (d ≠ b)
  | .vunpack d a b _ x => decide (x.toNat < 3) && decide (d ≠ a) && decide (d ≠ b) && decide (a ≠ b)
  | .vscale _ _ _ _ t => decide (t ≠ 2)
  | .cmovi e _ _ => copyLegal e
  | .cadd e _ _ _ => copyLegal e
  | .caddi e _ _ _ => copyLegal e
  | .csub e _ _ _ => copyLegal e
  | .seql e l _ => copyLegal e && decide (l.toNat < 6)
  | .seqb e d _ => copyLegal e && decide (d.toNat < 6)
  | .seqs e l d _ => copyLegal e && decide (l.toNat < 6) && decide (d.toNat < 6)
  | .seqgo e n => copyLegal e && decide (1 ≤ n.toNat) && decide (n.toNat ≤ 6)
  | .seqstop e => copyLegal e
  | .cpy e _ _ _ => copyLegal e
  | .gath e _ _ _ _ => copyLegal e
  | .bincfg e _ => copyLegal e
  | .binrd e _ _ => copyLegal e
  | .reduce e v _ => copyLegal e && decide (v ≠ 15)
  | .arwset e _ => copyLegal e
  | .atom _ _ _ o _ => decide (o.toNat < 10)
  | .tret => true
  | .add _ _ _ _ => true
  | .sub _ _ _ _ => true
  | .mul _ _ _ _ => true
  | .mulh _ _ _ _ => true
  | .mulhu _ _ _ _ => true
  | .div _ _ _ _ => true
  | .divu _ _ _ _ => true
  | .rem _ _ _ _ => true
  | .remu _ _ _ _ => true
  | .and _ _ _ _ => true
  | .or _ _ _ _ => true
  | .xor _ _ _ _ => true
  | .andn _ _ _ _ => true
  | .shl _ _ _ _ => true
  | .shr _ _ _ _ => true
  | .sra _ _ _ _ => true
  | .min _ _ _ _ => true
  | .max _ _ _ _ => true
  | .minu _ _ _ _ => true
  | .maxu _ _ _ _ => true
  | .sel _ _ _ _ => true
  | .clz _ _ _ => true
  | .popc _ _ _ => true
  | .bfx _ _ _ _ => true
  | .bfi _ _ _ _ => true
  | .pand _ _ _ _ => true
  | .por _ _ _ _ => true
  | .pxor _ _ _ _ => true
  | .movp _ _ _ => true
  | .addi _ _ _ => true
  | .andi _ _ _ => true
  | .ori _ _ _ => true
  | .xori _ _ _ => true
  | .shli _ _ _ => true
  | .shri _ _ _ => true
  | .srai _ _ _ => true
  | .muli _ _ _ => true
  | .cmpeqi _ _ _ => true
  | .cmplti _ _ _ => true
  | .cmpltui _ _ _ => true
  | .mini _ _ _ => true
  | .maxi _ _ _ => true
  | .movi _ _ => true
  | .movl _ _ => true
  | .movlh _ _ => true
  | .ldb _ _ _ => true
  | .ldbu _ _ _ => true
  | .ldh _ _ _ => true
  | .ldhu _ _ _ => true
  | .ldw _ _ _ => true
  | .ldwu _ _ _ => true
  | .ldd _ _ _ => true
  | .stb _ _ _ => true
  | .sth _ _ _ => true
  | .stw _ _ _ => true
  | .std _ _ _ => true
  | .ldg _ _ _ => true
  | .stg _ _ _ => true
  | .dsync => true
  | .vderive _ _ _ _ _ => true
  | .vnarrow _ _ => true
  | .vdrop _ => true
  | .vquery _ _ => true
  | .fmtset _ _ => true
  | .hist _ _ => true
  | .hlatch _ => true
  | .climb => true
  | .climbFar => true
  | .climbNear => true
  | .setleave => true
  | .arwinit _ _ => true
  | .vadd _ _ _ _ _ => true
  | .vsub _ _ _ _ _ => true
  | .vmul _ _ _ _ _ => true
  | .vmin _ _ _ _ _ => true
  | .vmax _ _ _ _ _ => true
  | .vabs _ _ _ _ => true
  | .vneg _ _ _ _ => true
  | .vand _ _ _ m => decide (m.t = 2 ∨ m.t = 3)
  | .vor _ _ _ m => decide (m.t = 2 ∨ m.t = 3)
  | .vxor _ _ _ m => decide (m.t = 2 ∨ m.t = 3)
  | .vnot _ _ m => decide (m.t = 2 ∨ m.t = 3)
  | .vshl _ _ _ m => decide (m.t = 2 ∨ m.t = 3)
  | .vshr _ _ _ m => decide (m.t = 2 ∨ m.t = 3)
  | .vsra _ _ _ m => decide (m.t = 2 ∨ m.t = 3)
  | .vmov _ _ m => decide (m.t = 2 ∨ m.t = 3)
  | .vselm _ _ _ m => decide (m.t = 2 ∨ m.t = 3)
  | .vcvt _ _ _ _ _ => true
  | .vmulhi _ _ _ m => decide (m.t = 2 ∨ m.t = 3)
  | .vfmak _ _ _ _ _ => true
  | .vaddk _ _ _ _ _ => true
  | .vmulk _ _ _ _ _ => true
  | .vmovk _ _ _ _ => true
  | .vfmal _ _ _ _ _ => true
  | .vaddl _ _ _ _ _ => true
  | .vmull _ _ _ _ _ => true
  | .vmovl _ _ _ _ => true
  | .vmovf _ _ => true
  | .vmovn _ _ => true
  | .vld _ _ _ => true
  | .vst _ _ _ => true
  | .vldp _ _ _ => true
  | .vstp _ _ _ => true
  | .vrotm _ _ _ => true
  | .vpop _ => true
  | .vpush _ => true
  | .vldkb _ _ => true
  | .amovi _ _ => true
  | .aadd _ _ => true
  | .aaddi _ _ => true
  | .vrsum _ _ _ _ => true
  | .vrmax _ _ _ _ => true
  | .vrmin _ _ _ _ => true
  | .vperm _ _ _ _ => true
  | .vbcast _ _ _ _ => true
  | .viota _ _ => true
  | .mlease => true
  | .mrel => true
  | .mcfg _ _ _ => true
  | .mzero _ _ => true
  | .mma _ _ => true
  | .mmat _ _ => true
  | .mscale _ _ => true
  | .mdrain => true
  | .accrd _ _ => true
  | .accwr _ _ => true
  | .scatb _ _ _ _ => true
  | .pusha _ _ => true
  | .pushb _ _ => true
  | .xsend _ _ _ _ => true
  | .xrecv _ _ => true
  | .xperm _ _ => true
  | .aaddnr _ _ _ => true
  | .afence => true
  | .bkload _ _ => true
  | .bkrun _ _ => true
  | .bkctx _ _ => true
  | .bkwait _ => true
  | .bankUnitAct _ _ => true
  | .bankUnitRd _ _ => true
  | .bankUnitWr _ _ => true
  | .bankUnitMac _ _ => true
  | .bankUnitAdda _ _ => true
  | .bankUnitRed _ _ => true
  | .bankUnitMova _ _ => true
  | .bankUnitCtx _ _ => true
  | .bankUnitEnd _ _ => true
  | .bankUnitNop _ _ => true
  | .bkrunRecordStart _ _ => true
  | .bankUnitCommandStart _ => true
  | .bkloadPerformed _ _ => true
  | .contextSwitch _ => true
  | .tickInterrupt _ => true
  | .tokenPush _ _ _ => true
  | .landing _ _ => true
  | .requestDepart _ _ _ _ => true
  | .slotMissRetry _ _ _ _ => true
  | .ldgReturn _ _ _ => true
  | .stgPerformed _ _ _ => true
  | .copyRowPerformed _ _ _ _ _ => true
  | .gathItemPerformed _ _ _ _ _ => true
  | .scatbPerformed _ _ => true
  | .bincfgPerformed _ _ _ => true
  | .reducePerformed _ _ _ _ => true
  | .reduceTilePartial _ _ _ _ _ => true
  | .pushRowAppend _ _ _ => true
  | .nestInstanceGenerate _ _ _ => true
  | .atomPerformed _ _ => true
  | .aaddnrPerformed _ _ _ => true
  | .histPerformed _ _ => true
  | .viewMove _ _ => true
  | .viewAnswer _ _ => true
  | .elideMove _ _ => true
  | .frameScrubDone _ => true
  | .descriptorDelete _ => true
  | .arrayOpStart _ _ => true
  | .arrayOpPerformed _ _ => true
  | .accPortPerformed _ _ => true
  | .leaseGrant _ => true
  | .clauseBoundary _ _ => true
  | .climbFrameLoad _ _ => true
  | .climbMonitorEval _ _ => true
  | .jobEnd _ _ => true
  | .waitForever _ _ => true
  | .waitTimeout _ _ _ => true
  | .permitTimeout _ _ => true
  | .faultFrameWrite _ _ => true
  | .correctableErrorFreeze _ => true
  | .freezeEnd _ => true
  | .staticPauseEnd _ _ => true
  | .domainClose _ => true
  | .faultRangeMiss _ _ _ _ _ => true
  | .batchFullFlush _ => true
  | .batchTimerFlush _ => true
  | .faultRecordDeliver _ => true
  | .rangeReply _ _ _ => true
  | .promotionStart _ => true
  | .moveFence _ => true
  | .tileSwitch _ => true
  | .xsendArrival _ _ _ => true
  | .permitReturn _ _ => true
  | .iterationPlace _ => true
  | .tail _ _ _ => true
  | .adminTail _ _ => true
  | .adminBase _ _ => true
  | .cqh _ _ _ => true
  | .registerWrite _ _ _ => true
  | .packetRead _ => true
  | .stampRecheck _ => true
  | .fabricDigest _ _ _ => true
  | .packetComplete _ _ => true
  | .cqAppend _ _ => true
  | .queueDrained _ => true
  | .hostBarRead _ _ => true
  | .hostBarWrite _ _ _ => true
  | .createQueue _ _ _ => true
  | .destroyQueue _ _ => true
  | .restartQueue _ => true
  | .createCq _ _ _ => true
  | .destroyCq _ => true
  | .loadImage _ => true
  | .allocTensor _ => true
  | .freeTensor _ => true
  | .invalidate _ _ _ => true
  | .moveTile _ _ _ _ => true
  | .createCrossing _ => true
  | .destroyCrossing _ => true
  | .jobRestart _ => true
  | .jobDiscard _ => true
  | .releaseContext _ _ _ => true
  | .resync _ => true
  | .configurePartition _ _ => true
  | .resetPartition _ => true
  | .preempt _ => true
  | .resume _ => true
  | .migrateSave _ => true
  | .migrateRestore _ _ => true
  | .dirtyLog _ _ _ _ => true
  | .dirtyLogAppend _ => true
  | .setTolerance _ _ => true
  | .writePasid _ _ _ _ => true
  | .writeRemap _ _ _ _ _ _ => true
  | .loadWeights _ => true
  | .setCurrent _ => true
  | .weightTileArrival _ _ _ _ => true
  | .versionRetire _ _ => true
  | .sliceExpiry _ => true
  | .preemptionLimitExpiry _ _ => true
  | .fabricCloseMulticast _ => true
  | .governorTick => true
  | .stackAlertEvent _ _ _ _ _ _ _ => true
  | .alertLogRead _ _ _ => true
  | .powerLevelEnter => true
  | .wake => true
  | .powerOnBoot _ _ => true
  | .getMeasurements _ => true
  | .tdispEnterRun _ => true
  | .tdispExitRun _ => true
  | .fabricDomainArrival _ _ _ => true
  | .weightManifestArrival _ _ _ => true
  | .tileResendRequest _ _ _ _ => true
  | .publisherKeyProvision _ _ => true
  | .tdispConfigLocked _ => true
  | .bankUnitWritePerformed _ => true

end Sys2Proof
end

