-- ==== Sys2Proof/Decode.lean ====
section
/-!
DEFINITION. Decoding and encoding (02 R30 to R61, 21 R399). A word is read as a number; `fld` and `bits` cut its fields. Decoding is total: every other pattern is refused by name, which the step turns into the illegal-instruction fault (02 R32, R61).
-/

namespace Sys2Proof

/-- Why a pattern is no instruction (02 R61). -/
inductive DecodeError where
  /-- ENG is 6 or 7, or the engine does not carry this form (R11, R43, R59) -/
  | notAnEngine
  /-- the class is reserved in its engine (R31) -/
  | reservedClass
  /-- FN lies beyond its table (R32) -/
  | noSuchFn
  /-- a reserved field is nonzero (R32) -/
  | reservedField
  /-- a field value, register number or form that is called illegal (R61) -/
  | illegalField
  /-- the bytes end before the instruction does -/
  | tooShort
  deriving DecidableEq, Repr

/-- An instruction whose reserved fields must hold as `ok` says (02 R32). -/
def reserved (ok : Bool) (i : Instr) : Except DecodeError Instr :=
  if ok then .ok i else .error .reservedField

/-- The instructions of the common stream class (02 R41). -/
def decodeCommon (w : Nat) : Except DecodeError Instr :=
  match fld w 21 5 with
  | 0 => reserved (decide (fld w 0 21 = 0)) (.nop (bits 3 w 29))
  | 1 => reserved (decide (fld w 0 21 = 0)) (.join (bits 3 w 29))
  | 2 => reserved (decide (fld w 16 5 = 0)) (.clause (bits 3 w 29) (bits 16 w 0))
  | 3 => reserved (decide (fld w 0 14 = 0)) (.waitk (bits 3 w 29) (bits 4 w 17) (bits 3 w 14))
  | 4 => reserved (decide (fld w 0 14 = 0)) (.sigk (bits 3 w 29) (bits 4 w 17) (bits 3 w 14))
  | 5 => reserved (decide (fld w 0 11 = 0)) (.waitaw (bits 3 w 29) (bits 5 w 16) (bits 5 w 11))
  | 6 => .ok (.loop (bits 3 w 29) (bits 1 w 20) (bits 10 w 10) (bits 10 w 0))
  | 7 => reserved (decide (fld w 10 5 = 0)) (.loopr (bits 3 w 29) (bits 1 w 20) (bits 5 w 15) (bits 10 w 0))
  | 8 => .ok (.pbr (bits 3 w 29) (bits 3 w 18) (bits 18 w 0))
  | 9 => reserved (decide (fld w 0 13 = 0)) (.pbrr (bits 3 w 29) (bits 3 w 18) (bits 5 w 13))
  | 10 => reserved (decide (fld w 0 11 = 0)) (.br (bits 3 w 29) (bits 3 w 18) (bits 3 w 15) (bits 1 w 14) (bits 2 w 12) (bits 1 w 11))
  | 11 => reserved (decide (fld w 0 9 = 0)) (.brq (bits 3 w 29) (bits 3 w 18) (bits 4 w 14) (bits 3 w 11) (bits 2 w 9))
  | 12 => reserved (decide (fld w 16 5 = 0)) (.trap (bits 3 w 29) (bits 16 w 0))
  | 13 => reserved (decide (fld w 0 21 = 0)) .tret
  | _ => .error .noSuchFn

/-- The instructions of control class CR (02 R44). -/
def decodeCR (w : Nat) : Except DecodeError Instr :=
  match fld w 21 5 with
  | 0 => reserved (decide (fld w 0 3 = 0)) (.add (bits 5 w 16) (bits 5 w 11) (bits 5 w 6) (bits 3 w 3))
  | 1 => reserved (decide (fld w 0 3 = 0)) (.sub (bits 5 w 16) (bits 5 w 11) (bits 5 w 6) (bits 3 w 3))
  | 2 => reserved (decide (fld w 0 3 = 0)) (.mul (bits 5 w 16) (bits 5 w 11) (bits 5 w 6) (bits 3 w 3))
  | 3 => reserved (decide (fld w 0 3 = 0)) (.mulh (bits 5 w 16) (bits 5 w 11) (bits 5 w 6) (bits 3 w 3))
  | 4 => reserved (decide (fld w 0 3 = 0)) (.mulhu (bits 5 w 16) (bits 5 w 11) (bits 5 w 6) (bits 3 w 3))
  | 5 => reserved (decide (fld w 0 3 = 0)) (.div (bits 5 w 16) (bits 5 w 11) (bits 5 w 6) (bits 3 w 3))
  | 6 => reserved (decide (fld w 0 3 = 0)) (.divu (bits 5 w 16) (bits 5 w 11) (bits 5 w 6) (bits 3 w 3))
  | 7 => reserved (decide (fld w 0 3 = 0)) (.rem (bits 5 w 16) (bits 5 w 11) (bits 5 w 6) (bits 3 w 3))
  | 8 => reserved (decide (fld w 0 3 = 0)) (.remu (bits 5 w 16) (bits 5 w 11) (bits 5 w 6) (bits 3 w 3))
  | 9 => reserved (decide (fld w 0 3 = 0)) (.and (bits 5 w 16) (bits 5 w 11) (bits 5 w 6) (bits 3 w 3))
  | 10 => reserved (decide (fld w 0 3 = 0)) (.or (bits 5 w 16) (bits 5 w 11) (bits 5 w 6) (bits 3 w 3))
  | 11 => reserved (decide (fld w 0 3 = 0)) (.xor (bits 5 w 16) (bits 5 w 11) (bits 5 w 6) (bits 3 w 3))
  | 12 => reserved (decide (fld w 0 3 = 0)) (.andn (bits 5 w 16) (bits 5 w 11) (bits 5 w 6) (bits 3 w 3))
  | 13 => reserved (decide (fld w 0 3 = 0)) (.shl (bits 5 w 16) (bits 5 w 11) (bits 5 w 6) (bits 3 w 3))
  | 14 => reserved (decide (fld w 0 3 = 0)) (.shr (bits 5 w 16) (bits 5 w 11) (bits 5 w 6) (bits 3 w 3))
  | 15 => reserved (decide (fld w 0 3 = 0)) (.sra (bits 5 w 16) (bits 5 w 11) (bits 5 w 6) (bits 3 w 3))
  | 16 => reserved (decide (fld w 0 3 = 0)) (.min (bits 5 w 16) (bits 5 w 11) (bits 5 w 6) (bits 3 w 3))
  | 17 => reserved (decide (fld w 0 3 = 0)) (.max (bits 5 w 16) (bits 5 w 11) (bits 5 w 6) (bits 3 w 3))
  | 18 => reserved (decide (fld w 0 3 = 0)) (.minu (bits 5 w 16) (bits 5 w 11) (bits 5 w 6) (bits 3 w 3))
  | 19 => reserved (decide (fld w 0 3 = 0)) (.maxu (bits 5 w 16) (bits 5 w 11) (bits 5 w 6) (bits 3 w 3))
  | 20 => reserved (decide (fld w 19 2 = 0)) (.cmp (bits 3 w 16) (bits 5 w 11) (bits 5 w 6) (bits 3 w 3) (bits 3 w 0))
  | 21 => reserved (decide (fld w 0 3 = 0)) (.sel (bits 5 w 16) (bits 5 w 11) (bits 5 w 6) (bits 3 w 3))
  | 22 => reserved (decide (fld w 0 3 = 0) && decide (fld w 6 5 = 0)) (.clz (bits 5 w 16) (bits 5 w 11) (bits 3 w 3))
  | 23 => reserved (decide (fld w 0 3 = 0) && decide (fld w 6 5 = 0)) (.popc (bits 5 w 16) (bits 5 w 11) (bits 3 w 3))
  | 24 => reserved (decide (fld w 0 3 = 0)) (.bfx (bits 5 w 16) (bits 5 w 11) (bits 5 w 6) (bits 3 w 3))
  | 25 => reserved (decide (fld w 0 3 = 0)) (.bfi (bits 5 w 16) (bits 5 w 11) (bits 5 w 6) (bits 3 w 3))
  | 26 => reserved (decide (fld w 0 3 = 0) && decide (fld w 9 2 = 0) && decide (fld w 14 2 = 0) && decide (fld w 19 2 = 0)) (.pand (bits 3 w 16) (bits 3 w 11) (bits 3 w 6) (bits 3 w 3))
  | 27 => reserved (decide (fld w 0 3 = 0) && decide (fld w 9 2 = 0) && decide (fld w 14 2 = 0) && decide (fld w 19 2 = 0)) (.por (bits 3 w 16) (bits 3 w 11) (bits 3 w 6) (bits 3 w 3))
  | 28 => reserved (decide (fld w 0 3 = 0) && decide (fld w 9 2 = 0) && decide (fld w 14 2 = 0) && decide (fld w 19 2 = 0)) (.pxor (bits 3 w 16) (bits 3 w 11) (bits 3 w 6) (bits 3 w 3))
  | 29 => reserved (decide (fld w 0 3 = 0) && decide (fld w 6 5 = 0) && decide (fld w 19 2 = 0)) (.movp (bits 3 w 16) (bits 5 w 11) (bits 3 w 3))
  | _ => .error .noSuchFn

/-- The instructions of control class CI (02 R45). -/
def decodeCI (w : Nat) : Except DecodeError Instr :=
  match fld w 22 4 with
  | 0 => .ok (.addi (bits 5 w 17) (bits 5 w 12) (bits 12 w 0))
  | 1 => .ok (.andi (bits 5 w 17) (bits 5 w 12) (bits 12 w 0))
  | 2 => .ok (.ori (bits 5 w 17) (bits 5 w 12) (bits 12 w 0))
  | 3 => .ok (.xori (bits 5 w 17) (bits 5 w 12) (bits 12 w 0))
  | 4 => reserved (decide (fld w 6 6 = 0)) (.shli (bits 5 w 17) (bits 5 w 12) (bits 6 w 0))
  | 5 => reserved (decide (fld w 6 6 = 0)) (.shri (bits 5 w 17) (bits 5 w 12) (bits 6 w 0))
  | 6 => reserved (decide (fld w 6 6 = 0)) (.srai (bits 5 w 17) (bits 5 w 12) (bits 6 w 0))
  | 7 => .ok (.muli (bits 5 w 17) (bits 5 w 12) (bits 12 w 0))
  | 8 => reserved (decide (fld w 20 2 = 0)) (.cmpeqi (bits 3 w 17) (bits 5 w 12) (bits 12 w 0))
  | 9 => reserved (decide (fld w 20 2 = 0)) (.cmplti (bits 3 w 17) (bits 5 w 12) (bits 12 w 0))
  | 10 => reserved (decide (fld w 20 2 = 0)) (.cmpltui (bits 3 w 17) (bits 5 w 12) (bits 12 w 0))
  | 11 => .ok (.mini (bits 5 w 17) (bits 5 w 12) (bits 12 w 0))
  | 12 => .ok (.maxi (bits 5 w 17) (bits 5 w 12) (bits 12 w 0))
  | _ => .error .noSuchFn

/-- The instructions of control class CM (02 R46). -/
def decodeCM (w : Nat) (lit : Word) : Except DecodeError Instr :=
  match fld w 24 2 with
  | 0 => .ok (.movi (bits 5 w 19) (bits 19 w 0))
  | 1 => reserved (decide (fld w 0 19 = 0)) (.movl (bits 5 w 19) lit)
  | 2 => reserved (decide (fld w 0 19 = 0)) (.movlh (bits 5 w 19) lit)
  | _ => .error .noSuchFn

/-- The instructions of control class CD (02 R47). -/
def decodeCD (w : Nat) : Except DecodeError Instr :=
  match fld w 22 4 with
  | 0 => .ok (.ldb (bits 5 w 17) (bits 5 w 12) (bits 12 w 0))
  | 1 => .ok (.ldbu (bits 5 w 17) (bits 5 w 12) (bits 12 w 0))
  | 2 => .ok (.ldh (bits 5 w 17) (bits 5 w 12) (bits 12 w 0))
  | 3 => .ok (.ldhu (bits 5 w 17) (bits 5 w 12) (bits 12 w 0))
  | 4 => .ok (.ldw (bits 5 w 17) (bits 5 w 12) (bits 12 w 0))
  | 5 => .ok (.ldwu (bits 5 w 17) (bits 5 w 12) (bits 12 w 0))
  | 6 => .ok (.ldd (bits 5 w 17) (bits 5 w 12) (bits 12 w 0))
  | 7 => .ok (.stb (bits 5 w 17) (bits 5 w 12) (bits 12 w 0))
  | 8 => .ok (.sth (bits 5 w 17) (bits 5 w 12) (bits 12 w 0))
  | 9 => .ok (.stw (bits 5 w 17) (bits 5 w 12) (bits 12 w 0))
  | 10 => .ok (.std (bits 5 w 17) (bits 5 w 12) (bits 12 w 0))
  | 11 => .ok (.ldg (bits 5 w 17) (bits 5 w 12) (bits 12 w 0))
  | 12 => .ok (.stg (bits 5 w 17) (bits 5 w 12) (bits 12 w 0))
  | _ => .error .noSuchFn

/-- The instructions of control class CS (02 R48). -/
def decodeCS (w : Nat) : Except DecodeError Instr :=
  match fld w 21 5 with
  | 0 => reserved (decide (fld w 0 11 = 0)) (.csrr (bits 5 w 16) (bits 5 w 11))
  | 1 => reserved (decide (fld w 0 11 = 0)) (.csrw (bits 5 w 16) (bits 5 w 11))
  | 2 => reserved (decide (fld w 0 21 = 0)) .dsync
  | 3 => reserved (decide (fld w 0 2 = 0)) (.dmrset (bits 3 w 18) (bits 16 w 2))
  | 4 => reserved (decide (fld w 0 4 = 0)) (.vderive (bits 5 w 16) (bits 5 w 11) (bits 5 w 6) (bits 1 w 5) (bits 1 w 4))
  | 5 => reserved (decide (fld w 0 11 = 0)) (.vnarrow (bits 5 w 16) (bits 5 w 11))
  | 6 => reserved (decide (fld w 0 16 = 0)) (.vdrop (bits 5 w 16))
  | 7 => reserved (decide (fld w 0 11 = 0)) (.vquery (bits 5 w 16) (bits 5 w 11))
  | 8 => reserved (decide (fld w 0 12 = 0)) (.fmtset (bits 4 w 17) (bits 5 w 12))
  | 9 => reserved (decide (fld w 0 11 = 0)) (.hist (bits 5 w 16) (bits 5 w 11))
  | 10 => reserved (decide (fld w 0 16 = 0)) (.hlatch (bits 5 w 16))
  | 11 =>
    if fld w 0 19 = 0 then
      match fld w 19 2 with
      | 0 => .ok .climb
      | 1 => .ok .climbFar
      | 2 => .ok .climbNear
      | _ => .error .illegalField
    else .error .reservedField
  | 12 => reserved (decide (fld w 0 21 = 0)) .setleave
  | 13 => reserved (decide (fld w 0 11 = 0)) (.arwinit (bits 5 w 16) (bits 5 w 11))
  | _ => .error .noSuchFn

/-- The instructions of vector class VR (02 R50). -/
def decodeVR (w : Nat) : Except DecodeError Instr :=
  match fld w 20 6 with
  | 0 => .ok (.vadd (bits 5 w 15) (bits 5 w 10) (bits 5 w 5) (bits 3 w 2) (bits 2 w 0))
  | 1 => .ok (.vsub (bits 5 w 15) (bits 5 w 10) (bits 5 w 5) (bits 3 w 2) (bits 2 w 0))
  | 2 => .ok (.vmul (bits 5 w 15) (bits 5 w 10) (bits 5 w 5) (bits 3 w 2) (bits 2 w 0))
  | 3 => .ok (.vdiv (bits 5 w 15) (bits 5 w 10) (bits 5 w 5) (bits 3 w 2) (bits 2 w 0))
  | 4 => .ok (.vmin (bits 5 w 15) (bits 5 w 10) (bits 5 w 5) (bits 3 w 2) (bits 2 w 0))
  | 5 => .ok (.vmax (bits 5 w 15) (bits 5 w 10) (bits 5 w 5) (bits 3 w 2) (bits 2 w 0))
  | 6 => reserved (decide (fld w 5 5 = 0)) (.vabs (bits 5 w 15) (bits 5 w 10) (bits 3 w 2) (bits 2 w 0))
  | 7 => reserved (decide (fld w 5 5 = 0)) (.vneg (bits 5 w 15) (bits 5 w 10) (bits 3 w 2) (bits 2 w 0))
  | 8 => reserved (decide (fld w 5 5 = 0)) (.vsqrt (bits 5 w 15) (bits 5 w 10) (bits 3 w 2) (bits 2 w 0))
  | 9 => reserved (decide (fld w 5 5 = 0)) (.vrcp (bits 5 w 15) (bits 5 w 10) (bits 3 w 2) (bits 2 w 0))
  | 10 => reserved (decide (fld w 5 5 = 0)) (.vrsq (bits 5 w 15) (bits 5 w 10) (bits 3 w 2) (bits 2 w 0))
  | 11 => reserved (decide (fld w 5 5 = 0)) (.vexp2 (bits 5 w 15) (bits 5 w 10) (bits 3 w 2) (bits 2 w 0))
  | 12 => reserved (decide (fld w 5 5 = 0)) (.vlog2 (bits 5 w 15) (bits 5 w 10) (bits 3 w 2) (bits 2 w 0))
  | 13 => reserved (decide (fld w 18 2 = 0)) (.vcmpeq (bits 3 w 15) (bits 5 w 10) (bits 5 w 5) (bits 3 w 2) (bits 2 w 0))
  | 14 => reserved (decide (fld w 18 2 = 0)) (.vcmplt (bits 3 w 15) (bits 5 w 10) (bits 5 w 5) (bits 3 w 2) (bits 2 w 0))
  | 15 => reserved (decide (fld w 18 2 = 0)) (.vcmple (bits 3 w 15) (bits 5 w 10) (bits 5 w 5) (bits 3 w 2) (bits 2 w 0))
  | 16 => .ok (.vand (bits 5 w 15) (bits 5 w 10) (bits 5 w 5) ⟨bits 3 w 2, bits 2 w 0⟩)
  | 17 => .ok (.vor (bits 5 w 15) (bits 5 w 10) (bits 5 w 5) ⟨bits 3 w 2, bits 2 w 0⟩)
  | 18 => .ok (.vxor (bits 5 w 15) (bits 5 w 10) (bits 5 w 5) ⟨bits 3 w 2, bits 2 w 0⟩)
  | 19 => reserved (decide (fld w 5 5 = 0)) (.vnot (bits 5 w 15) (bits 5 w 10) ⟨bits 3 w 2, bits 2 w 0⟩)
  | 20 => .ok (.vshl (bits 5 w 15) (bits 5 w 10) (bits 5 w 5) ⟨bits 3 w 2, bits 2 w 0⟩)
  | 21 => .ok (.vshr (bits 5 w 15) (bits 5 w 10) (bits 5 w 5) ⟨bits 3 w 2, bits 2 w 0⟩)
  | 22 => .ok (.vsra (bits 5 w 15) (bits 5 w 10) (bits 5 w 5) ⟨bits 3 w 2, bits 2 w 0⟩)
  | 23 => reserved (decide (fld w 5 5 = 0)) (.vmov (bits 5 w 15) (bits 5 w 10) ⟨bits 3 w 2, bits 2 w 0⟩)
  | 24 => .ok (.vselm (bits 5 w 15) (bits 5 w 10) (bits 5 w 5) ⟨bits 3 w 2, bits 2 w 0⟩)
  | 25 => reserved (decide (fld w 7 3 = 0)) (.vcvt (bits 5 w 15) (bits 5 w 10) (bits 2 w 5) (bits 3 w 2) (bits 2 w 0))
  | 26 => .ok (.vmulhi (bits 5 w 15) (bits 5 w 10) (bits 5 w 5) ⟨bits 3 w 2, bits 2 w 0⟩)
  | _ => .error .noSuchFn

/-- The instructions of vector class V4 (02 R51). -/
def decodeV4 (w : Nat) : Except DecodeError Instr :=
  match fld w 23 3 with
  | 0 => reserved (decide (fld w 0 1 = 0)) (.vfma (bits 5 w 18) (bits 5 w 13) (bits 5 w 8) (bits 5 w 3) (bits 2 w 1))
  | 1 => reserved (decide (fld w 0 1 = 0)) (.vfms (bits 5 w 18) (bits 5 w 13) (bits 5 w 8) (bits 5 w 3) (bits 2 w 1))
  | 2 => reserved (decide (fld w 0 1 = 0)) (.vnfma (bits 5 w 18) (bits 5 w 13) (bits 5 w 8) (bits 5 w 3) (bits 2 w 1))
  | 3 => reserved (decide (fld w 0 1 = 0)) (.vnfms (bits 5 w 18) (bits 5 w 13) (bits 5 w 8) (bits 5 w 3) (bits 2 w 1))
  | _ => .error .noSuchFn

/-- The instructions of vector class VK (02 R52). -/
def decodeVK (w : Nat) (lit : Word) : Except DecodeError Instr :=
  match fld w 23 3 with
  | 0 => .ok (.vfmak (bits 5 w 18) (bits 5 w 13) (bits 8 w 5) (bits 2 w 3) (bits 3 w 0))
  | 1 => .ok (.vaddk (bits 5 w 18) (bits 5 w 13) (bits 8 w 5) (bits 2 w 3) (bits 3 w 0))
  | 2 => .ok (.vmulk (bits 5 w 18) (bits 5 w 13) (bits 8 w 5) (bits 2 w 3) (bits 3 w 0))
  | 3 => reserved (decide (fld w 13 5 = 0)) (.vmovk (bits 5 w 18) (bits 8 w 5) (bits 2 w 3) (bits 3 w 0))
  | 4 => reserved (decide (fld w 5 8 = 0)) (.vfmal (bits 5 w 18) (bits 5 w 13) (bits 2 w 3) (bits 3 w 0) lit)
  | 5 => reserved (decide (fld w 5 8 = 0)) (.vaddl (bits 5 w 18) (bits 5 w 13) (bits 2 w 3) (bits 3 w 0) lit)
  | 6 => reserved (decide (fld w 5 8 = 0)) (.vmull (bits 5 w 18) (bits 5 w 13) (bits 2 w 3) (bits 3 w 0) lit)
  | 7 => reserved (decide (fld w 5 8 = 0) && decide (fld w 13 5 = 0)) (.vmovl (bits 5 w 18) (bits 2 w 3) (bits 3 w 0) lit)
  | _ => .error .noSuchFn

/-- The instructions of vector class VI (02 R53). -/
def decodeVI (w : Nat) : Except DecodeError Instr :=
  match fld w 25 1 with
  | 0 => .ok (.vmovf (bits 5 w 20) (bits 20 w 0))
  | 1 => .ok (.vmovn (bits 5 w 20) (bits 20 w 0))
  | _ => .error .noSuchFn

/-- The instructions of vector class VM (02 R54). -/
def decodeVM (w : Nat) : Except DecodeError Instr :=
  match fld w 22 4 with
  | 0 => .ok (.vld (bits 5 w 17) (bits 3 w 14) (bits 14 w 0))
  | 1 => .ok (.vst (bits 5 w 17) (bits 3 w 14) (bits 14 w 0))
  | 2 => .ok (.vldp (bits 5 w 17) (bits 3 w 14) (bits 14 w 0))
  | 3 => .ok (.vstp (bits 5 w 17) (bits 3 w 14) (bits 14 w 0))
  | 4 => reserved (decide (fld w 5 9 = 0)) (.vrotm (bits 5 w 17) (bits 3 w 14) (bits 5 w 0))
  | 5 => reserved (decide (fld w 0 17 = 2)) (.vpop (bits 5 w 17))
  | 6 => reserved (decide (fld w 0 17 = 3)) (.vpush (bits 5 w 17))
  | 7 => reserved (decide (fld w 17 5 = 0)) (.vldkb (bits 3 w 14) (bits 14 w 0))
  | 8 => reserved (decide (fld w 17 5 = 0)) (.amovi (bits 3 w 14) (bits 14 w 0))
  | 9 => reserved (decide (fld w 0 14 = 0) && decide (fld w 20 2 = 0)) (.aadd (bits 3 w 17) (bits 3 w 14))
  | 10 => reserved (decide (fld w 17 5 = 0)) (.aaddi (bits 3 w 14) (bits 14 w 0))
  | _ => .error .noSuchFn

/-- The instructions of vector class VX (02 R55). -/
def decodeVX (w : Nat) : Except DecodeError Instr :=
  match fld w 21 5 with
  | 0 => reserved (decide (fld w 2 1 = 0) && decide (fld w 6 5 = 0)) (.vrsum (bits 5 w 16) (bits 5 w 11) (bits 3 w 3) (bits 2 w 0))
  | 1 => reserved (decide (fld w 2 1 = 0) && decide (fld w 6 5 = 0)) (.vrmax (bits 5 w 16) (bits 5 w 11) (bits 3 w 3) (bits 2 w 0))
  | 2 => reserved (decide (fld w 2 1 = 0) && decide (fld w 6 5 = 0)) (.vrmin (bits 5 w 16) (bits 5 w 11) (bits 3 w 3) (bits 2 w 0))
  | 3 => reserved (decide (fld w 0 3 = 0)) (.vperm (bits 5 w 16) (bits 5 w 11) (bits 5 w 6) (bits 3 w 3))
  | 4 => reserved (decide (fld w 0 3 = 0) && decide (fld w 9 2 = 0)) (.vbcast (bits 5 w 16) (bits 5 w 11) (bits 3 w 6) (bits 3 w 3))
  | 5 => reserved (decide (fld w 0 3 = 0)) (.vlutacc (bits 5 w 16) (bits 5 w 11) (bits 5 w 6) (bits 3 w 3))
  | 6 => reserved (decide (fld w 0 3 = 0)) (.vhistacc (bits 5 w 16) (bits 5 w 11) (bits 5 w 6) (bits 3 w 3))
  | 7 => reserved (decide (fld w 0 11 = 0) && decide (fld w 14 2 = 0) && decide (fld w 19 2 = 0)) (.vmasklen (bits 3 w 16) (bits 3 w 11))
  | 8 => .ok (.vpack (bits 5 w 16) (bits 5 w 11) (bits 5 w 6) (bits 3 w 3) (bits 3 w 0))
  | 9 => .ok (.vunpack (bits 5 w 16) (bits 5 w 11) (bits 5 w 6) (bits 3 w 3) (bits 3 w 0))
  | 10 => reserved (decide (fld w 2 1 = 0)) (.vscale (bits 5 w 16) (bits 5 w 11) (bits 5 w 6) (bits 3 w 3) (bits 2 w 0))
  | 11 => reserved (decide (fld w 0 3 = 0) && decide (fld w 6 10 = 0)) (.viota (bits 5 w 16) (bits 3 w 3))
  | _ => .error .noSuchFn

/-- The instructions of the matrix engine (02 R56). -/
def decodeMatrix (w : Nat) : Except DecodeError Instr :=
  match fld w 22 4 with
  | 0 => reserved (decide (fld w 0 22 = 0)) .mlease
  | 1 => reserved (decide (fld w 0 22 = 0)) .mrel
  | 2 => .ok (.mcfg (bits 2 w 20) (bits 10 w 10) (bits 10 w 0))
  | 3 => reserved (decide (fld w 0 2 = 0)) (.mzero (bits 10 w 12) (bits 10 w 2))
  | 4 => reserved (decide (fld w 0 2 = 0)) (.mma (bits 10 w 12) (bits 10 w 2))
  | 5 => reserved (decide (fld w 0 2 = 0)) (.mmat (bits 10 w 12) (bits 10 w 2))
  | 6 => reserved (decide (fld w 0 2 = 0)) (.mscale (bits 10 w 12) (bits 10 w 2))
  | 7 => reserved (decide (fld w 0 22 = 0)) .mdrain
  | 8 => .ok (.accrd (bits 8 w 14) (bits 14 w 0))
  | 9 => .ok (.accwr (bits 8 w 14) (bits 14 w 0))
  | _ => .error .noSuchFn

/-- The instructions of copy CLS 0 (02 R57). -/
def decodeCopy0 (w : Nat) : Except DecodeError Instr :=
  match fld w 24 2 with
  | 0 => reserved (decide (fld w 16 4 = 0)) (.cmovi (bits 3 w 29) (bits 4 w 20) (bits 16 w 0))
  | 1 => reserved (decide (fld w 4 12 = 0)) (.cadd (bits 3 w 29) (bits 4 w 20) (bits 4 w 16) (bits 4 w 0))
  | 2 => .ok (.caddi (bits 3 w 29) (bits 4 w 20) (bits 4 w 16) (bits 16 w 0))
  | 3 => reserved (decide (fld w 4 12 = 0)) (.csub (bits 3 w 29) (bits 4 w 20) (bits 4 w 16) (bits 4 w 0))
  | _ => .error .noSuchFn

/-- The instructions of copy CLS 1 (02 R58). -/
def decodeCopy1 (w : Nat) : Except DecodeError Instr :=
  match fld w 23 3 with
  | 0 => reserved (decide (fld w 0 16 = 0)) (.seql (bits 3 w 29) (bits 3 w 20) (bits 4 w 16))
  | 1 => reserved (decide (fld w 0 16 = 0)) (.seqb (bits 3 w 29) (bits 3 w 20) (bits 4 w 16))
  | 2 => reserved (decide (fld w 0 13 = 0)) (.seqs (bits 3 w 29) (bits 3 w 20) (bits 3 w 17) (bits 4 w 13))
  | 3 => reserved (decide (fld w 0 20 = 0)) (.seqgo (bits 3 w 29) (bits 3 w 20))
  | 4 => reserved (decide (fld w 0 23 = 0)) (.seqstop (bits 3 w 29))
  | _ => .error .noSuchFn

/-- The instructions of copy CLS 2 (02 R59). -/
def decodeCopy2 (w : Nat) : Except DecodeError Instr :=
  match fld w 22 4 with
  | 0 => .ok (.cpy (bits 3 w 29) (bits 4 w 18) (bits 4 w 14) (bits 14 w 0))
  | 1 => .ok (.gath (bits 3 w 29) (bits 4 w 18) (bits 4 w 14) (bits 4 w 10) (bits 10 w 0))
  | 2 => .ok (.scatb (bits 4 w 18) (bits 4 w 14) (bits 4 w 10) (bits 10 w 0))
  | 3 => reserved (decide (fld w 0 18 = 0)) (.bincfg (bits 3 w 29) (bits 4 w 18))
  | 4 => reserved (decide (fld w 0 10 = 0)) (.binrd (bits 3 w 29) (bits 4 w 18) (bits 8 w 10))
  | 5 => reserved (decide (fld w 0 14 = 0)) (.reduce (bits 3 w 29) (bits 4 w 18) (bits 4 w 14))
  | 6 => reserved (decide (fld w 0 4 = 0)) (.pusha (bits 4 w 18) (bits 14 w 4))
  | 7 => reserved (decide (fld w 0 4 = 0)) (.pushb (bits 4 w 18) (bits 14 w 4))
  | 8 => reserved (decide (fld w 0 18 = 0)) (.arwset (bits 3 w 29) (bits 4 w 18))
  | _ => .error .noSuchFn

/-- The instructions of the exchange engine (02 R60). -/
def decodeExchange (w : Nat) : Except DecodeError Instr :=
  match fld w 22 4 with
  | 0 => reserved (decide (fld w 0 12 = 0)) (.xsend (bits 3 w 19) (bits 3 w 16) (bits 3 w 13) (bits 1 w 12))
  | 1 => reserved (decide (fld w 0 16 = 0)) (.xrecv (bits 3 w 19) (bits 3 w 16))
  | 2 => reserved (decide (fld w 0 16 = 0)) (.xperm (bits 3 w 19) (bits 3 w 16))
  | 3 => reserved (decide (fld w 0 8 = 0)) (.atom (bits 3 w 19) (bits 3 w 16) (bits 3 w 13) (bits 4 w 9) (bits 1 w 8))
  | 4 => reserved (decide (fld w 0 15 = 0)) (.aaddnr (bits 3 w 19) (bits 3 w 16) (bits 1 w 15))
  | 5 => reserved (decide (fld w 0 22 = 0)) .afence
  | 6 => reserved (decide (fld w 0 16 = 0)) (.bkload (bits 3 w 19) (bits 3 w 16))
  | 7 => reserved (decide (fld w 0 16 = 0)) (.bkrun (bits 3 w 19) (bits 3 w 16))
  | 8 => reserved (decide (fld w 0 17 = 0)) (.bkctx (bits 3 w 19) (bits 2 w 17))
  | 9 => reserved (decide (fld w 0 19 = 0)) (.bkwait (bits 3 w 19))
  | _ => .error .noSuchFn

/-- The instruction of a word by its engine and class, before the checks of field values (02 R30, R31). -/
def decodeFrame (w : Nat) (lit : Word) : Except DecodeError Instr :=
  match fld w 29 3, fld w 26 3 with
  | 6, _ => .error .notAnEngine
  | 7, _ => .error .notAnEngine
  | _, 7 => decodeCommon w
  | 0, 0 => decodeCR w
  | 0, 1 => decodeCI w
  | 0, 2 => decodeCM w lit
  | 0, 3 => decodeCD w
  | 0, 4 => decodeCS w
  | 1, 0 => decodeVR w
  | 1, 1 => decodeV4 w
  | 1, 2 => decodeVK w lit
  | 1, 3 => decodeVI w
  | 1, 4 => decodeVM w
  | 1, 5 => decodeVX w
  | 2, 0 => decodeMatrix w
  | 3, 0 => decodeCopy0 w
  | 3, 1 => decodeCopy1 w
  | 3, 2 => decodeCopy2 w
  | 4, 0 => decodeCopy0 w
  | 4, 1 => decodeCopy1 w
  | 4, 2 => decodeCopy2 w
  | 5, 0 => decodeExchange w
  | _, _ => .error .reservedClass

/-- The instruction of the word `w`, with `lit` the word behind it (02 R61): a form that its engine does not allow, and a field value that the spec calls illegal, is refused too. PUSHA, PUSHB and SCATB are tested here for the ENG field, which their constructors do not carry (R59). -/
def decode (w : Nat) (lit : Word) : Except DecodeError Instr :=
  match decodeFrame w lit with
  | .error r => .error r
  | .ok i =>
    match i.engine with
    | some e => if e = fld w 29 3 ∧ i.wellFormed = true then .ok i else .error .illegalField
    | none => .error .illegalField

/-- Whether a word is the opcode word of a literal-taking form (02 R37): MOVL, MOVLH, VFMAL, VADDL, VMULL or VMOVL, by its engine, class and FN (log entry 12). -/
def takesLiteral (w : Nat) : Bool :=
  match fld w 29 3, fld w 26 3 with
  | 0, 2 => fld w 24 2 == 1 || fld w 24 2 == 2
  | 1, 2 => decide (4 ≤ fld w 23 3)
  | _, _ => false

/-- The number that bytes hold, the first byte lowest (02 R30). -/
def leNat : List Byte → Nat
  | [] => 0
  | b :: bs => b.toNat + 256 * leNat bs

/-- The `n` bytes of a number, the lowest first (02 R30). -/
def leBytes : Nat → Nat → List Byte
  | 0, _ => []
  | n + 1, v => BitVec.ofNat 8 v :: leBytes n (v / 256)

/-- Decoding from bytes: the instruction and the bytes that follow it. -/
def decodeBytes (bs : List Byte) : Except DecodeError (Instr × List Byte) :=
  if bs.length < 4 then .error .tooShort
  else
    let w := leNat (bs.take 4)
    if takesLiteral w then
      if bs.length < 8 then .error .tooShort
      else (decode w (BitVec.ofNat 32 (leNat ((bs.drop 4).take 4)))).map (fun i => (i, bs.drop 8))
    else (decode w 0).map (fun i => (i, bs.drop 4))

/-- The bytes of the instruction whose bits are `w`, the literal word behind a literal-taking opcode included. -/
def tableBytes (w : Nat) : List Byte := leBytes 8 w

/-- The decoder on the bits of a table row (the host's entry point): the words stand as the hardware stores them, and bits above `nbits` are 0. -/
def decodeTableWord (nbits w : Nat) : Option Instr :=
  match decodeBytes (tableBytes (w % 2 ^ nbits)) with
  | .ok (i, _) => some i
  | .error _ => none

/-- The frame of an instruction word (02 R30): ENG, CLS and FN at its place. -/
def frame (eng cls fn at_ : Nat) : Nat := eng * 2 ^ 29 + cls * 2 ^ 26 + fn * 2 ^ at_

/-- A field value at its place in a word. -/
def put {n : Nat} (x : BitVec n) (lo : Nat) : Nat := x.toNat * 2 ^ lo

/-- A fixed field at its place in a word. -/
def fixed (v lo : Nat) : Nat := v * 2 ^ lo

/-- The opcode word of an instruction; 0 for a move, which has none (02 R41 to R60). -/
def encodeWord : Instr → Nat
  | .nop e => frame e.toNat 7 0 21
  | .join e => frame e.toNat 7 1 21
  | .clause e n => frame e.toNat 7 2 21 + put n 0
  | .waitk e f n => frame e.toNat 7 3 21 + put f 17 + put n 14
  | .sigk e f n => frame e.toNat 7 4 21 + put f 17 + put n 14
  | .waitaw e x y => frame e.toNat 7 5 21 + put x 16 + put y 11
  | .loop e l n o => frame e.toNat 7 6 21 + put l 20 + put n 10 + put o 0
  | .loopr e l x o => frame e.toNat 7 7 21 + put l 20 + put x 15 + put o 0
  | .pbr e n o => frame e.toNat 7 8 21 + put n 18 + put o 0
  | .pbrr e n x => frame e.toNat 7 9 21 + put n 18 + put x 13
  | .br e n k p u l => frame e.toNat 7 10 21 + put n 18 + put k 15 + put p 14 + put u 12 + put l 11
  | .brq e n q c u => frame e.toNat 7 11 21 + put n 18 + put q 14 + put c 11 + put u 9
  | .trap e c => frame e.toNat 7 12 21 + put c 0
  | .tret => frame 0 7 13 21
  | .add d a b g => frame 0 0 0 21 + put d 16 + put a 11 + put b 6 + put g 3
  | .sub d a b g => frame 0 0 1 21 + put d 16 + put a 11 + put b 6 + put g 3
  | .mul d a b g => frame 0 0 2 21 + put d 16 + put a 11 + put b 6 + put g 3
  | .mulh d a b g => frame 0 0 3 21 + put d 16 + put a 11 + put b 6 + put g 3
  | .mulhu d a b g => frame 0 0 4 21 + put d 16 + put a 11 + put b 6 + put g 3
  | .div d a b g => frame 0 0 5 21 + put d 16 + put a 11 + put b 6 + put g 3
  | .divu d a b g => frame 0 0 6 21 + put d 16 + put a 11 + put b 6 + put g 3
  | .rem d a b g => frame 0 0 7 21 + put d 16 + put a 11 + put b 6 + put g 3
  | .remu d a b g => frame 0 0 8 21 + put d 16 + put a 11 + put b 6 + put g 3
  | .and d a b g => frame 0 0 9 21 + put d 16 + put a 11 + put b 6 + put g 3
  | .or d a b g => frame 0 0 10 21 + put d 16 + put a 11 + put b 6 + put g 3
  | .xor d a b g => frame 0 0 11 21 + put d 16 + put a 11 + put b 6 + put g 3
  | .andn d a b g => frame 0 0 12 21 + put d 16 + put a 11 + put b 6 + put g 3
  | .shl d a b g => frame 0 0 13 21 + put d 16 + put a 11 + put b 6 + put g 3
  | .shr d a b g => frame 0 0 14 21 + put d 16 + put a 11 + put b 6 + put g 3
  | .sra d a b g => frame 0 0 15 21 + put d 16 + put a 11 + put b 6 + put g 3
  | .min d a b g => frame 0 0 16 21 + put d 16 + put a 11 + put b 6 + put g 3
  | .max d a b g => frame 0 0 17 21 + put d 16 + put a 11 + put b 6 + put g 3
  | .minu d a b g => frame 0 0 18 21 + put d 16 + put a 11 + put b 6 + put g 3
  | .maxu d a b g => frame 0 0 19 21 + put d 16 + put a 11 + put b 6 + put g 3
  | .cmp p a b g x => frame 0 0 20 21 + put p 16 + put a 11 + put b 6 + put g 3 + put x 0
  | .sel d a b p => frame 0 0 21 21 + put d 16 + put a 11 + put b 6 + put p 3
  | .clz d a g => frame 0 0 22 21 + put d 16 + put a 11 + put g 3
  | .popc d a g => frame 0 0 23 21 + put d 16 + put a 11 + put g 3
  | .bfx d a b g => frame 0 0 24 21 + put d 16 + put a 11 + put b 6 + put g 3
  | .bfi d a b g => frame 0 0 25 21 + put d 16 + put a 11 + put b 6 + put g 3
  | .pand d a b g => frame 0 0 26 21 + put d 16 + put a 11 + put b 6 + put g 3
  | .por d a b g => frame 0 0 27 21 + put d 16 + put a 11 + put b 6 + put g 3
  | .pxor d a b g => frame 0 0 28 21 + put d 16 + put a 11 + put b 6 + put g 3
  | .movp d a g => frame 0 0 29 21 + put d 16 + put a 11 + put g 3
  | .addi d a i => frame 0 1 0 22 + put d 17 + put a 12 + put i 0
  | .andi d a i => frame 0 1 1 22 + put d 17 + put a 12 + put i 0
  | .ori d a i => frame 0 1 2 22 + put d 17 + put a 12 + put i 0
  | .xori d a i => frame 0 1 3 22 + put d 17 + put a 12 + put i 0
  | .shli d a i => frame 0 1 4 22 + put d 17 + put a 12 + put i 0
  | .shri d a i => frame 0 1 5 22 + put d 17 + put a 12 + put i 0
  | .srai d a i => frame 0 1 6 22 + put d 17 + put a 12 + put i 0
  | .muli d a i => frame 0 1 7 22 + put d 17 + put a 12 + put i 0
  | .cmpeqi p a i => frame 0 1 8 22 + put p 17 + put a 12 + put i 0
  | .cmplti p a i => frame 0 1 9 22 + put p 17 + put a 12 + put i 0
  | .cmpltui p a i => frame 0 1 10 22 + put p 17 + put a 12 + put i 0
  | .mini d a i => frame 0 1 11 22 + put d 17 + put a 12 + put i 0
  | .maxi d a i => frame 0 1 12 22 + put d 17 + put a 12 + put i 0
  | .movi d i => frame 0 2 0 24 + put d 19 + put i 0
  | .movl d _ => frame 0 2 1 24 + put d 19
  | .movlh d _ => frame 0 2 2 24 + put d 19
  | .ldb d a o => frame 0 3 0 22 + put d 17 + put a 12 + put o 0
  | .ldbu d a o => frame 0 3 1 22 + put d 17 + put a 12 + put o 0
  | .ldh d a o => frame 0 3 2 22 + put d 17 + put a 12 + put o 0
  | .ldhu d a o => frame 0 3 3 22 + put d 17 + put a 12 + put o 0
  | .ldw d a o => frame 0 3 4 22 + put d 17 + put a 12 + put o 0
  | .ldwu d a o => frame 0 3 5 22 + put d 17 + put a 12 + put o 0
  | .ldd d a o => frame 0 3 6 22 + put d 17 + put a 12 + put o 0
  | .stb s a o => frame 0 3 7 22 + put s 17 + put a 12 + put o 0
  | .sth s a o => frame 0 3 8 22 + put s 17 + put a 12 + put o 0
  | .stw s a o => frame 0 3 9 22 + put s 17 + put a 12 + put o 0
  | .std s a o => frame 0 3 10 22 + put s 17 + put a 12 + put o 0
  | .ldg d a o => frame 0 3 11 22 + put d 17 + put a 12 + put o 0
  | .stg s a o => frame 0 3 12 22 + put s 17 + put a 12 + put o 0
  | .csrr d n => frame 0 4 0 21 + put d 16 + put n 11
  | .csrw a n => frame 0 4 1 21 + put a 16 + put n 11
  | .dsync => frame 0 4 2 21
  | .dmrset l i => frame 0 4 3 21 + put l 18 + put i 2
  | .vderive d a b w r => frame 0 4 4 21 + put d 16 + put a 11 + put b 6 + put w 5 + put r 4
  | .vnarrow a b => frame 0 4 5 21 + put a 16 + put b 11
  | .vdrop a => frame 0 4 6 21 + put a 16
  | .vquery a b => frame 0 4 7 21 + put a 16 + put b 11
  | .fmtset q a => frame 0 4 8 21 + put q 17 + put a 12
  | .hist a b => frame 0 4 9 21 + put a 16 + put b 11
  | .hlatch a => frame 0 4 10 21 + put a 16
  | .climb => frame 0 4 11 21
  | .climbFar => frame 0 4 11 21 + fixed 524288 0
  | .climbNear => frame 0 4 11 21 + fixed 1048576 0
  | .setleave => frame 0 4 12 21
  | .arwinit a b => frame 0 4 13 21 + put a 16 + put b 11
  | .vadd d a b m t => frame 1 0 0 20 + put d 15 + put a 10 + put b 5 + put m 2 + put t 0
  | .vsub d a b m t => frame 1 0 1 20 + put d 15 + put a 10 + put b 5 + put m 2 + put t 0
  | .vmul d a b m t => frame 1 0 2 20 + put d 15 + put a 10 + put b 5 + put m 2 + put t 0
  | .vdiv d a b m t => frame 1 0 3 20 + put d 15 + put a 10 + put b 5 + put m 2 + put t 0
  | .vmin d a b m t => frame 1 0 4 20 + put d 15 + put a 10 + put b 5 + put m 2 + put t 0
  | .vmax d a b m t => frame 1 0 5 20 + put d 15 + put a 10 + put b 5 + put m 2 + put t 0
  | .vabs d a m t => frame 1 0 6 20 + put d 15 + put a 10 + put m 2 + put t 0
  | .vneg d a m t => frame 1 0 7 20 + put d 15 + put a 10 + put m 2 + put t 0
  | .vsqrt d a m t => frame 1 0 8 20 + put d 15 + put a 10 + put m 2 + put t 0
  | .vrcp d a m t => frame 1 0 9 20 + put d 15 + put a 10 + put m 2 + put t 0
  | .vrsq d a m t => frame 1 0 10 20 + put d 15 + put a 10 + put m 2 + put t 0
  | .vexp2 d a m t => frame 1 0 11 20 + put d 15 + put a 10 + put m 2 + put t 0
  | .vlog2 d a m t => frame 1 0 12 20 + put d 15 + put a 10 + put m 2 + put t 0
  | .vcmpeq d a b m t => frame 1 0 13 20 + put d 15 + put a 10 + put b 5 + put m 2 + put t 0
  | .vcmplt d a b m t => frame 1 0 14 20 + put d 15 + put a 10 + put b 5 + put m 2 + put t 0
  | .vcmple d a b m t => frame 1 0 15 20 + put d 15 + put a 10 + put b 5 + put m 2 + put t 0
  | .vand d a b m => frame 1 0 16 20 + put d 15 + put a 10 + put b 5 + put m.m 2 + put m.t 0
  | .vor d a b m => frame 1 0 17 20 + put d 15 + put a 10 + put b 5 + put m.m 2 + put m.t 0
  | .vxor d a b m => frame 1 0 18 20 + put d 15 + put a 10 + put b 5 + put m.m 2 + put m.t 0
  | .vnot d a m => frame 1 0 19 20 + put d 15 + put a 10 + put m.m 2 + put m.t 0
  | .vshl d a b m => frame 1 0 20 20 + put d 15 + put a 10 + put b 5 + put m.m 2 + put m.t 0
  | .vshr d a b m => frame 1 0 21 20 + put d 15 + put a 10 + put b 5 + put m.m 2 + put m.t 0
  | .vsra d a b m => frame 1 0 22 20 + put d 15 + put a 10 + put b 5 + put m.m 2 + put m.t 0
  | .vmov d a m => frame 1 0 23 20 + put d 15 + put a 10 + put m.m 2 + put m.t 0
  | .vselm d a b m => frame 1 0 24 20 + put d 15 + put a 10 + put b 5 + put m.m 2 + put m.t 0
  | .vcvt d a s m t => frame 1 0 25 20 + put d 15 + put a 10 + put s 5 + put m 2 + put t 0
  | .vmulhi d a b m => frame 1 0 26 20 + put d 15 + put a 10 + put b 5 + put m.m 2 + put m.t 0
  | .vfma d a b c t => frame 1 1 0 23 + put d 18 + put a 13 + put b 8 + put c 3 + put t 1
  | .vfms d a b c t => frame 1 1 1 23 + put d 18 + put a 13 + put b 8 + put c 3 + put t 1
  | .vnfma d a b c t => frame 1 1 2 23 + put d 18 + put a 13 + put b 8 + put c 3 + put t 1
  | .vnfms d a b c t => frame 1 1 3 23 + put d 18 + put a 13 + put b 8 + put c 3 + put t 1
  | .vfmak d a k t m => frame 1 2 0 23 + put d 18 + put a 13 + put k 5 + put t 3 + put m 0
  | .vaddk d a k t m => frame 1 2 1 23 + put d 18 + put a 13 + put k 5 + put t 3 + put m 0
  | .vmulk d a k t m => frame 1 2 2 23 + put d 18 + put a 13 + put k 5 + put t 3 + put m 0
  | .vmovk d k t m => frame 1 2 3 23 + put d 18 + put k 5 + put t 3 + put m 0
  | .vfmal d a t m _ => frame 1 2 4 23 + put d 18 + put a 13 + put t 3 + put m 0
  | .vaddl d a t m _ => frame 1 2 5 23 + put d 18 + put a 13 + put t 3 + put m 0
  | .vmull d a t m _ => frame 1 2 6 23 + put d 18 + put a 13 + put t 3 + put m 0
  | .vmovl d t m _ => frame 1 2 7 23 + put d 18 + put t 3 + put m 0
  | .vmovf d i => frame 1 3 0 25 + put d 20 + put i 0
  | .vmovn d i => frame 1 3 1 25 + put d 20 + put i 0
  | .vld v a i => frame 1 4 0 22 + put v 17 + put a 14 + put i 0
  | .vst v a i => frame 1 4 1 22 + put v 17 + put a 14 + put i 0
  | .vldp v a i => frame 1 4 2 22 + put v 17 + put a 14 + put i 0
  | .vstp v a i => frame 1 4 3 22 + put v 17 + put a 14 + put i 0
  | .vrotm v a s => frame 1 4 4 22 + put v 17 + put a 14 + put s 0
  | .vpop v => frame 1 4 5 22 + put v 17 + fixed 2 0
  | .vpush v => frame 1 4 6 22 + put v 17 + fixed 3 0
  | .vldkb a i => frame 1 4 7 22 + put a 14 + put i 0
  | .amovi a i => frame 1 4 8 22 + put a 14 + put i 0
  | .aadd b a => frame 1 4 9 22 + put b 17 + put a 14
  | .aaddi a i => frame 1 4 10 22 + put a 14 + put i 0
  | .vrsum d a m t => frame 1 5 0 21 + put d 16 + put a 11 + put m 3 + put t 0
  | .vrmax d a m t => frame 1 5 1 21 + put d 16 + put a 11 + put m 3 + put t 0
  | .vrmin d a m t => frame 1 5 2 21 + put d 16 + put a 11 + put m 3 + put t 0
  | .vperm d a b m => frame 1 5 3 21 + put d 16 + put a 11 + put b 6 + put m 3
  | .vbcast d a b m => frame 1 5 4 21 + put d 16 + put a 11 + put b 6 + put m 3
  | .vlutacc d a b m => frame 1 5 5 21 + put d 16 + put a 11 + put b 6 + put m 3
  | .vhistacc d a b m => frame 1 5 6 21 + put d 16 + put a 11 + put b 6 + put m 3
  | .vmasklen d a => frame 1 5 7 21 + put d 16 + put a 11
  | .vpack d a b m x => frame 1 5 8 21 + put d 16 + put a 11 + put b 6 + put m 3 + put x 0
  | .vunpack d a b m x => frame 1 5 9 21 + put d 16 + put a 11 + put b 6 + put m 3 + put x 0
  | .vscale d a b m t => frame 1 5 10 21 + put d 16 + put a 11 + put b 6 + put m 3 + put t 0
  | .viota d m => frame 1 5 11 21 + put d 16 + put m 3
  | .mlease => frame 2 0 0 22
  | .mrel => frame 2 0 1 22
  | .mcfg c r n => frame 2 0 2 22 + put c 20 + put r 10 + put n 0
  | .mzero r n => frame 2 0 3 22 + put r 12 + put n 2
  | .mma r n => frame 2 0 4 22 + put r 12 + put n 2
  | .mmat r n => frame 2 0 5 22 + put r 12 + put n 2
  | .mscale r n => frame 2 0 6 22 + put r 12 + put n 2
  | .mdrain => frame 2 0 7 22
  | .accrd g s => frame 2 0 8 22 + put g 14 + put s 0
  | .accwr g s => frame 2 0 9 22 + put g 14 + put s 0
  | .cmovi e d i => frame e.toNat 0 0 24 + put d 20 + put i 0
  | .cadd e d a b => frame e.toNat 0 1 24 + put d 20 + put a 16 + put b 0
  | .caddi e d a i => frame e.toNat 0 2 24 + put d 20 + put a 16 + put i 0
  | .csub e d a b => frame e.toNat 0 3 24 + put d 20 + put a 16 + put b 0
  | .seql e l b => frame e.toNat 1 0 23 + put l 20 + put b 16
  | .seqb e d b => frame e.toNat 1 1 23 + put d 20 + put b 16
  | .seqs e l d b => frame e.toNat 1 2 23 + put l 20 + put d 17 + put b 13
  | .seqgo e n => frame e.toNat 1 3 23 + put n 20
  | .seqstop e => frame e.toNat 1 4 23
  | .cpy e v p n => frame e.toNat 2 0 22 + put v 18 + put p 14 + put n 0
  | .gath e v p i n => frame e.toNat 2 1 22 + put v 18 + put p 14 + put i 10 + put n 0
  | .scatb v p i n => frame 4 2 2 22 + put v 18 + put p 14 + put i 10 + put n 0
  | .bincfg e a => frame e.toNat 2 3 22 + put a 18
  | .binrd e d b => frame e.toNat 2 4 22 + put d 18 + put b 10
  | .reduce e v p => frame e.toNat 2 5 22 + put v 18 + put p 14
  | .pusha p n => frame 3 2 6 22 + put p 18 + put n 4
  | .pushb p n => frame 3 2 7 22 + put p 18 + put n 4
  | .arwset e a => frame e.toNat 2 8 22 + put a 18
  | .xsend x v l b => frame 5 0 0 22 + put x 19 + put v 16 + put l 13 + put b 12
  | .xrecv d x => frame 5 0 1 22 + put d 19 + put x 16
  | .xperm d x => frame 5 0 2 22 + put d 19 + put x 16
  | .atom d a b o w => frame 5 0 3 22 + put d 19 + put a 16 + put b 13 + put o 9 + put w 8
  | .aaddnr a b t => frame 5 0 4 22 + put a 19 + put b 16 + put t 15
  | .afence => frame 5 0 5 22
  | .bkload a b => frame 5 0 6 22 + put a 19 + put b 16
  | .bkrun a b => frame 5 0 7 22 + put a 19 + put b 16
  | .bkctx b c => frame 5 0 8 22 + put b 19 + put c 17
  | .bkwait b => frame 5 0 9 22 + put b 19
  | .bankUnitAct _ _ => 0
  | .bankUnitRd _ _ => 0
  | .bankUnitWr _ _ => 0
  | .bankUnitMac _ _ => 0
  | .bankUnitAdda _ _ => 0
  | .bankUnitRed _ _ => 0
  | .bankUnitMova _ _ => 0
  | .bankUnitCtx _ _ => 0
  | .bankUnitEnd _ _ => 0
  | .bankUnitNop _ _ => 0
  | .bkrunRecordStart _ _ => 0
  | .bankUnitCommandStart _ => 0
  | .bkloadPerformed _ _ => 0
  | .contextSwitch _ => 0
  | .tickInterrupt _ => 0
  | .tokenPush _ _ _ => 0
  | .landing _ _ => 0
  | .requestDepart _ _ _ _ => 0
  | .slotMissRetry _ _ _ _ => 0
  | .ldgReturn _ _ _ => 0
  | .stgPerformed _ _ _ => 0
  | .copyRowPerformed _ _ _ _ _ => 0
  | .gathItemPerformed _ _ _ _ _ => 0
  | .scatbPerformed _ _ => 0
  | .bincfgPerformed _ _ _ => 0
  | .reducePerformed _ _ _ _ => 0
  | .reduceTilePartial _ _ _ _ _ => 0
  | .pushRowAppend _ _ _ => 0
  | .nestInstanceGenerate _ _ _ => 0
  | .atomPerformed _ _ => 0
  | .aaddnrPerformed _ _ _ => 0
  | .histPerformed _ _ => 0
  | .viewMove _ _ => 0
  | .viewAnswer _ _ => 0
  | .elideMove _ _ => 0
  | .frameScrubDone _ => 0
  | .descriptorDelete _ => 0
  | .arrayOpStart _ _ => 0
  | .arrayOpPerformed _ _ => 0
  | .accPortPerformed _ _ => 0
  | .leaseGrant _ => 0
  | .clauseBoundary _ _ => 0
  | .climbFrameLoad _ _ => 0
  | .climbMonitorEval _ _ => 0
  | .jobEnd _ _ => 0
  | .waitForever _ _ => 0
  | .waitTimeout _ _ _ => 0
  | .permitTimeout _ _ => 0
  | .faultFrameWrite _ _ => 0
  | .correctableErrorFreeze _ => 0
  | .freezeEnd _ => 0
  | .staticPauseEnd _ _ => 0
  | .domainClose _ => 0
  | .faultRangeMiss _ _ _ _ _ => 0
  | .batchFullFlush _ => 0
  | .batchTimerFlush _ => 0
  | .faultRecordDeliver _ => 0
  | .rangeReply _ _ _ => 0
  | .promotionStart _ => 0
  | .moveFence _ => 0
  | .tileSwitch _ => 0
  | .xsendArrival _ _ _ => 0
  | .permitReturn _ _ => 0
  | .iterationPlace _ => 0
  | .tail _ _ _ => 0
  | .adminTail _ _ => 0
  | .adminBase _ _ => 0
  | .cqh _ _ _ => 0
  | .registerWrite _ _ _ => 0
  | .packetRead _ => 0
  | .stampRecheck _ => 0
  | .fabricDigest _ _ _ => 0
  | .packetComplete _ _ => 0
  | .cqAppend _ _ => 0
  | .queueDrained _ => 0
  | .hostBarRead _ _ => 0
  | .hostBarWrite _ _ _ => 0
  | .createQueue _ _ _ => 0
  | .destroyQueue _ _ => 0
  | .restartQueue _ => 0
  | .createCq _ _ _ => 0
  | .destroyCq _ => 0
  | .loadImage _ => 0
  | .allocTensor _ => 0
  | .freeTensor _ => 0
  | .invalidate _ _ _ => 0
  | .moveTile _ _ _ _ => 0
  | .createCrossing _ => 0
  | .destroyCrossing _ => 0
  | .jobRestart _ => 0
  | .jobDiscard _ => 0
  | .releaseContext _ _ _ => 0
  | .resync _ => 0
  | .configurePartition _ _ => 0
  | .resetPartition _ => 0
  | .preempt _ => 0
  | .resume _ => 0
  | .migrateSave _ => 0
  | .migrateRestore _ _ => 0
  | .dirtyLog _ _ _ _ => 0
  | .dirtyLogAppend _ => 0
  | .setTolerance _ _ => 0
  | .writePasid _ _ _ _ => 0
  | .writeRemap _ _ _ _ _ _ => 0
  | .loadWeights _ => 0
  | .setCurrent _ => 0
  | .weightTileArrival _ _ _ _ => 0
  | .versionRetire _ _ => 0
  | .sliceExpiry _ => 0
  | .preemptionLimitExpiry _ _ => 0
  | .fabricCloseMulticast _ => 0
  | .governorTick => 0
  | .stackAlertEvent _ _ _ _ _ _ _ => 0
  | .alertLogRead _ _ _ => 0
  | .powerLevelEnter => 0
  | .wake => 0
  | .powerOnBoot _ _ => 0
  | .getMeasurements _ => 0
  | .tdispEnterRun _ => 0
  | .tdispExitRun _ => 0
  | .fabricDomainArrival _ _ _ => 0
  | .weightManifestArrival _ _ _ => 0
  | .tileResendRequest _ _ _ _ => 0
  | .publisherKeyProvision _ _ => 0
  | .tdispConfigLocked _ => 0
  | .bankUnitWritePerformed _ => 0

/-- The literal word of an instruction that takes one (02 R37). -/
def Instr.literal : Instr → Option Word
  | .movl _ lit => some lit
  | .movlh _ lit => some lit
  | .vfmal _ _ _ _ lit => some lit
  | .vaddl _ _ _ _ lit => some lit
  | .vmull _ _ _ _ lit => some lit
  | .vmovl _ _ _ lit => some lit
  | _ => none

/-- The bytes of an instruction as they stand in an image and in instruction memory (02 R30, R37). -/
def encode (i : Instr) : List Byte :=
  leBytes 4 (encodeWord i) ++ (match i.literal with | some l => leBytes 4 l.toNat | none => [])

/-- The word of a bank unit's microcode without its OP (21 R399). -/
def microFields (w : Nat) : Micro :=
  { nxt := bits 2 w 58, tgt := bits 8 w 50, wait := bits 6 w 44, cx := bits 2 w 42, rs := bits 2 w 40,
    line := bits 20 w 20, rsv := bits 20 w 0 }

/-- The microcode word `w` of bank unit `k` (21 R399); OP 10 to 15 are illegal and give none (R402, reason 7). -/
def decodeMicro (k w : Nat) : Option Instr :=
  match fld w 60 4 with
  | 0 => some (.bankUnitNop k (microFields w))
  | 1 => some (.bankUnitAct k (microFields w))
  | 2 => some (.bankUnitRd k (microFields w))
  | 3 => some (.bankUnitWr k (microFields w))
  | 4 => some (.bankUnitMac k (microFields w))
  | 5 => some (.bankUnitAdda k (microFields w))
  | 6 => some (.bankUnitRed k (microFields w))
  | 7 => some (.bankUnitMova k (microFields w))
  | 8 => some (.bankUnitCtx k (microFields w))
  | 9 => some (.bankUnitEnd k (microFields w))
  | _ => none

/-- The bits of a microcode word from its OP and its fields (21 R399). -/
def encodeMicroBits (op : Nat) (m : Micro) : Nat :=
  op * 2 ^ 60 + m.nxt.toNat * 2 ^ 58 + m.tgt.toNat * 2 ^ 50 + m.wait.toNat * 2 ^ 44 + m.cx.toNat * 2 ^ 42
    + m.rs.toNat * 2 ^ 40 + m.line.toNat * 2 ^ 20 + m.rsv.toNat

/-- The microcode word of a bank-unit instruction; none for any other (21 R399). -/
def encodeMicro : Instr → Option Nat
  | .bankUnitNop _ m => some (encodeMicroBits 0 m)
  | .bankUnitAct _ m => some (encodeMicroBits 1 m)
  | .bankUnitRd _ m => some (encodeMicroBits 2 m)
  | .bankUnitWr _ m => some (encodeMicroBits 3 m)
  | .bankUnitMac _ m => some (encodeMicroBits 4 m)
  | .bankUnitAdda _ m => some (encodeMicroBits 5 m)
  | .bankUnitRed _ m => some (encodeMicroBits 6 m)
  | .bankUnitMova _ m => some (encodeMicroBits 7 m)
  | .bankUnitCtx _ m => some (encodeMicroBits 8 m)
  | .bankUnitEnd _ m => some (encodeMicroBits 9 m)
  | _ => none

end Sys2Proof
end

