-- ==== Sys2Proof/Machine/State.lean ====
section
/-!
DEFINITION. The state of the machine: the package with its units, clusters, dies, stacks, bank units, tensors, views, partitions and host rings (INVENTORY.md, State). Everything is plain data. A `Map` is a list of numbered entries in one canonical form (numbers rising, no entry equal to the map's default); its operations stand in Sparse.lean.
-/

namespace Sys2Proof.Machine

/-- Why the machine would stop. The spec gives an effect to every instruction and every move, and turns every fault into a state of the job, of the queue or of the module; so a step of this model never ends in one. -/
inductive Fault where
  /-- no step raises it; safe -/
  | unreachable
  deriving DecidableEq, Repr

/-- Why an instruction would have no meaning. -/
inductive Refusal where
  /-- raised by an arm of `exec` whose instruction has no meaning yet; safe -/
  | notModelled (mnemonic : String)
  deriving DecidableEq, Repr

/-- Numbered entries with rising numbers and none equal to the default of the map. -/
abbrev Map (α : Type) := List (Nat × α)

/-- An exact value of a float: NaN, an infinity, or (-1)^neg · m · 2^e; zero keeps its sign (05 R114, R115). -/
inductive FVal where
  | nan
  | inf (neg : Bool)
  | fin (neg : Bool) (m : Nat) (e : Int)
  deriving DecidableEq, Repr

/-- 512 bytes with their 32 poison bits: a scratchpad row, a vector register, a FIFO row, a bank unit's line (05 R124). -/
structure Row where
  data   : BitVec 4096 := 0
  poison : BitVec 32 := 0
  deriving DecidableEq, Repr, Inhabited

/-- A race tag of a scratchpad row or a tile (10 R247); `re` holds [13] set and [12:0] epoch by engine. -/
structure Tag where
  wr : BitVec 3 := 7
  we : BitVec 13 := 0
  re : Map (BitVec 14) := []
  deriving DecidableEq, Repr, Inhabited

/-- A vector of epochs by engine; an entry is [13] valid and [12:0] epoch, 0 when empty (10 R243). -/
abbrev Know := Map (BitVec 14)

/-- An entry of a PC queue (01 R22). -/
structure QEnt where
  addr : BitVec 13 := 0
  null : Bool := false
  deriving DecidableEq, Repr, Inhabited

/-- A hardware-loop level (01 R20). -/
structure Loop where
  start : BitVec 13 := 0
  stop  : BitVec 13 := 0
  cnt   : BitVec 33 := 0
  idx   : Word := 0
  act   : Bool := false
  deriving DecidableEq, Repr, Inhabited

/-- The object on which a stream waits at Q0 (08 R208, R209, R213). -/
inductive WaitOn where
  | none
  /-- a token FIFO: core-local -/
  | token (f : Nat)
  /-- a data FIFO, 0 fa, 1 fb, 2 fv, 3 fw: core-local -/
  | fifo (f : Nat)
  /-- an arrival word at a scratchpad address; remote if its REMOTE is 1 -/
  | arrival (addr : Word) (remote : Bool)
  /-- another remote object, with the object that a timeout names -/
  | remote (obj : Nat)
  /-- a permit of the Crossing with this send id (17 R366) -/
  | permit (x : Nat)
  /-- a wait on no object: an operand, a place, an earlier command -/
  | inner
  deriving DecidableEq, Repr, Inhabited

/-- What a stream does (08 R201, R206, 13 R316, 14 R327). -/
inductive Phase where
  /-- not used by the job -/
  | idle
  | running
  | joined
  /-- at `CLAUSE n` -/
  | clause (n : BitVec 16)
  /-- a `DSYNC` or `HLATCH` whose arrival has been counted waits for the close -/
  | close
  /-- a view instruction waits for its answer -/
  | answer
  deriving DecidableEq, Repr, Inhabited

/-- A stream of a job (01 R14 to R22, 10 R242, R243). -/
structure Stream where
  q0     : QEnt := {}
  q1     : QEnt := {}
  q2     : QEnt := {}
  lp0    : Loop := {}
  lp1    : Loop := {}
  /-- pending exits of the innermost active level (04 R105) -/
  exits  : Nat := 0
  b      : Map (BitVec 13) := []
  phase  : Phase := .idle
  wait   : WaitOn := .none
  /-- cycles counted of the wait that stands at Q0 (08 R209) -/
  waited : Nat := 0
  /-- the count of the wait that the tick interrupt broke off (08 R209) -/
  kept   : Nat := 0
  epoch  : BitVec 13 := 0
  know   : Know := []
  deriving DecidableEq, Repr, Inhabited

/-- A box of six half-open ranges (14 R321). -/
structure Box where
  lo : List Nat := []
  hi : List Nat := []
  deriving DecidableEq, Repr, Inhabited

/-- What a check of an access through a view saw (14 R342, R344): the form, the tensor and the view's box. -/
structure Chk where
  form : Word := 0
  tid  : Nat := 0
  box  : Box := {}
  deriving DecidableEq, Repr, Inhabited

/-- The copy commands (09 R216). -/
inductive CopyKind where
  | cpy | gath | scatb | bincfg | reduce | pusha | pushb
  deriving DecidableEq, Repr, Inhabited

/-- A copy command with the operands that it captured at issue (09 R216, R226): forms, scratchpad and index addresses, count, coordinates, first index, nest ordinal + 1, tag, checks; and what has been performed of it. -/
structure CopyCmd where
  kind  : CopyKind
  form  : Word := 0
  formB : Word := 0
  pad   : Word := 0
  idx   : Word := 0
  n     : Nat := 0
  coord : List Word := []
  first : Nat := 0
  nestK : Nat := 0
  tag   : Option Word := none
  chk   : Option Chk := none
  chkB  : Option Chk := none
  /-- rows or items performed -/
  done  : List Nat := []
  /-- partials of a `REDUCE`: tile, partial, poison (09 R222, 19 R393), and the exact sum of the tile's products, which R130 asks for over all tiles -/
  parts : List (Nat × Word × Bool × FVal) := []
  deriving DecidableEq, Repr, Inhabited

/-- The array operations (11 R272). -/
inductive ArrOp where
  | mma | mmat | mzero | mscale
  deriving DecidableEq, Repr, Inhabited

/-- A command or pending push that has been issued and is not performed (08 R204, 09 R216, 10 R245). -/
inductive CmdOp where
  | copy (c : CopyCmd)
  /-- a nest that the engine's sequencer generates (09 R226) -/
  | nest
  /-- a pending push of `SIGK` -/
  | push (f n : Nat)
  | ldg (d : Nat) (addr : DWord)
  | stg (addr val : DWord)
  /-- `HIST`: values, what its check saw, and the rows in which they lie -/
  | hist (m : Nat) (chk : Chk) (rows : Nat)
  | atom (op w d : Nat) (addr val cmp : DWord)
  | aaddnr (int : Bool) (addr : DWord) (val : Word)
  | xsend (x slot : Nat) (mb : Bool) (layer : BitVec 15) (chk : Chk) (rows : Nat) (done : List Nat)
  | bkload (sel ea : DWord)
  | bkctx (sel : DWord) (c : Nat)
  /-- `BKRUN`: block address, count, record, and whether that record has been queued at its unit -/
  | bkrun (ea : DWord) (n k : Nat) (sent : Bool)
  | array (op : ArrOp) (row n : Nat) (ent : Word)
  | acc (rd : Bool) (g srow : Nat) (ent : Word)
  deriving DecidableEq, Repr, Inhabited

/-- A command in an engine queue: its number in the bank, the word address of its instruction, its epoch stamp, whether it is held, by a translation miss (08 R211) or a fault, and whether it can for good not be performed (08 R210). -/
structure Cmd where
  seq   : Nat
  pc    : BitVec 13
  epoch : BitVec 13
  op    : CmdOp
  held  : Bool := false
  lost  : Bool := false
  /-- issued in the present cycle: no row of it leaves yet (12 R294) -/
  fresh : Bool := true
  deriving DecidableEq, Repr, Inhabited

/-- A token FIFO: its binding and its tokens, each an epoch (02 R35, 08 R203). -/
structure TokFifo where
  bound : Bool := false
  prod  : Nat := 0
  cons  : Nat := 0
  toks  : List (BitVec 13) := []
  deriving DecidableEq, Repr, Inhabited

/-- A row of a data FIFO with the engine and epoch of its push (06 R156, 09 R223). -/
structure FRow where
  row   : Row
  eng   : Nat
  epoch : BitVec 13
  deriving DecidableEq, Repr, Inhabited

/-- A data FIFO with the read position of its head row (11 R270). -/
structure DFifo where
  rows : List FRow := []
  pos  : Nat := 0
  deriving DecidableEq, Repr, Inhabited

/-- The sequencer registers, tag and bin state of a copy engine (09 R217, R224, R229); step S[l][d] stands at 6l + d. -/
structure SeqRegs where
  x    : Map Word := []
  l    : Map Word := []
  s    : Map Word := []
  tag  : Option Word := none
  nb   : Word := 0
  sp   : Word := 0
  base : Map Word := []
  cap  : Map Word := []
  bcnt : Map Word := []
  deriving DecidableEq, Repr, Inhabited

/-- A running nest of a copy engine: the captured X, L, S, the template and the next ordinal (09 R226). -/
structure Nest where
  seq   : Nat
  x     : List Word
  l     : List Word
  s     : Map Word
  n     : Nat
  tmpl  : CopyCmd
  pc    : BitVec 13
  epoch : BitVec 13
  k     : Nat
  /-- still generating -/
  gen   : Bool
  deriving DecidableEq, Repr, Inhabited

/-- The hidden vectors of a live arrival word, and the generation on which each engine last waited (08 R191, 19 R392). -/
structure ArrVec where
  live : Bool := false
  a    : Know := []
  s    : Know := []
  gens : Map Word := []
  deriving DecidableEq, Repr, Inhabited

/-- A piece of a FIFO row that an array operation has read: the bytes `lo` to `hi - 1` of the row, and the scale row of an MX row (11 R270). -/
structure Chunk where
  row   : Row
  scale : Row
  lo    : Nat
  hi    : Nat
  deriving DecidableEq, Repr, Inhabited

/-- An array operation that has started: the pieces of fb and fa that it has read (11 R269), with the read positions at which it began and the rows that it has popped. -/
structure ArrRun where
  seq  : Nat
  b    : List Chunk := []
  a    : List Chunk := []
  posB : Nat := 0
  posA : Nat := 0
  popB : List FRow := []
  popA : List FRow := []
  deriving DecidableEq, Repr, Inhabited

/-- The request of a view instruction to the coverage unit, and its answer (14 R327, R328). -/
structure ViewReq where
  /-- 0 `VDERIVE`, 1 `VNARROW`, 2 `VDROP`, 3 `VQUERY` -/
  op     : Nat
  form   : Word
  d      : Nat := 0
  ea     : DWord := 0
  box    : Box := {}
  pers   : Bool := false
  rights : BitVec 2 := 0
  /-- the move has been made at the coverage unit -/
  moved  : Bool := false
  result : Nat := 0
  out    : Word := 0
  record : List Byte := []
  deriving DecidableEq, Repr, Inhabited

/-- A fault that has stopped a job (08 R210, R212, R214). -/
structure FaultInfo where
  code    : Nat
  eng     : Nat
  precise : Bool
  da      : DWord := 0
  db      : DWord := 0
  dc      : Word := 0
  cyc     : DWord := 0
  /-- slot of the frame once it is written -/
  slot    : Option Nat := none
  deriving DecidableEq, Repr, Inhabited

/-- A landing that is made as a move of its own: arrival-word address, bytes, engine and epoch if local (08 R194). -/
structure Landing where
  addr  : Word
  n     : Nat
  eng   : Option Nat
  epoch : BitVec 13
  deriving DecidableEq, Repr, Inhabited

/-- An entry of a tile translation buffer: the tile and its machine frame with the write permission (12 R287); `ia` is the intermediate address of the frame, by which stage 2 finds its entry (12 R288), and `lent` marks the frame with which a request has departed. -/
structure Ttb where
  tid   : Nat
  tile  : Nat
  tier  : Nat
  stack : Nat
  base  : Nat
  w     : Bool
  ia    : Nat := 0
  lent  : Bool := false
  deriving DecidableEq, Repr, Inhabited

/-- A request that has left: command, row, the frame that it departed with, and the cycle at which it completes; none for an unslotted one (12 R287, R294, R296). -/
structure Depart where
  src : Nat
  row : Nat
  x   : Ttb
  due : Option Nat
  /-- cycles by which freezes delay what the core sees of it (08 R198) -/
  late : Nat := 0
  /-- a write that has been performed in memory before its acknowledgement (08 R199) -/
  wrote : Bool := false
  deriving DecidableEq, Repr, Inhabited

/-- A request that has missed its slot of a stack, tier and number: command, row, tile, slot, and the cycle of the miss; it keeps the slot (12 R295). -/
structure Missed where
  src   : Nat
  row   : Nat
  tile  : Nat
  tier  : Nat
  stack : Nat
  slot  : Nat
  at_   : Nat
  deriving DecidableEq, Repr, Inhabited

/-- A frame taken from a pool (22 R430); base in units of 4 KiB. -/
structure Frame where
  tier  : Nat
  stack : Nat
  fsz   : Nat
  base  : Nat
  part  : Nat
  deriving DecidableEq, Repr, Inhabited

/-- An input tile for which a hand-over has secured a frame: tensor, tile, frame, and whether the frame has become that of a queued move (19 R385, R396). -/
structure Secured where
  tid    : Nat
  tile   : Nat
  frame  : Frame
  joined : Bool
  deriving DecidableEq, Repr, Inhabited

/-- A climb request of a job (19 R382, R385, R389). -/
structure Climb where
  target : Nat
  /-- the reserved bank; a walker that has taken it leaves its name -/
  unit   : Option (Nat × Nat) := none
  /-- first row of the window assigned in the reserved bank -/
  base   : Nat := 0
  /-- a reservation has been held -/
  ever   : Bool := false
  taken  : Bool := false
  /-- the climb frame in transit to the reserved unit -/
  image  : Option (List Byte) := none
  /-- input tiles whose moves the hand-over asks for -/
  sec    : List Secured := []
  deriving DecidableEq, Repr, Inhabited

/-- The condition of a placed job (08 R202, R211, R212). -/
inductive JobStatus where
  | ready
  | stopped
  /-- waits for an answer to a fault range -/
  | missing
  deriving DecidableEq, Repr, Inhabited

/-- A job placed in a bank (01 R13, R24, 13 R306, R318, 19 R391). -/
structure Job where
  /-- the model's number of the job, kept through every move of it -/
  jid     : Nat
  part    : Nat
  fn      : Nat
  queue   : Nat
  packet  : Nat
  /-- flat address of the task record -/
  task    : DWord
  ord     : DWord
  code    : Nat
  mask    : BitVec 6
  climb   : Bool
  static  : Bool
  bucket  : Nat := 0
  foot    : Nat
  prio    : Nat
  pasid   : Nat := 0
  cls     : Nat
  /-- the die that owns the iteration -/
  die     : Nat
  writer  : Nat
  wbank   : Nat
  ppn     : Word
  base    : Nat
  size    : Nat
  accRow  : Nat
  accN    : Nat
  /-- the window of its core as captured, of which its own rows are a half (11 R260, R261) -/
  win     : Nat × Nat := (0, 0)
  status  : JobStatus := .ready
  /-- a stream of it has come to issue -/
  started : Bool := false
  /-- it held or awaited the matrix lease when it was moved (01 R27) -/
  leased  : Bool := false
  /-- the pending exits of its streams when it was moved, by engine (04 R106) -/
  exits   : List Nat := []
  /-- the rows of its window that held live arrival words when it was moved, by row; a row keeps its other bytes and its poison (01 R27, R29; log entry 32) -/
  rows    : Map Row := []
  /-- the forms of the views that it derived as job-held ones, in order -/
  held    : List Word := []
  request : Option Climb := none
  /-- the climb monitor is to evaluate it, for a tile of its input set has been switched or a bank of its partition has become free (19 R382) -/
  eval    : Bool := false
  /-- a pre-emption is pending; true for a discard without saving (22 R426) -/
  preempt : Option Bool := none
  /-- cycles counted toward the pre-emption limit (22 R434) -/
  preCyc  : Nat := 0
  /-- the static pause (16 R353), the engine whose instruction caused it, and the engine whose instruction may pass after its end -/
  paused  : Bool := false
  pauseBy : Option Nat := none
  passed  : Option Nat := none
  /-- arrived in the open phase, by a counted `DSYNC` or `HLATCH` -/
  arrived : Bool := false
  /-- the scope instance of the domain that it is a member of, kept through every move (13 R313, 19 R394) -/
  dscope  : Nat := 0
  /-- epochs held at the issue of the `DSYNC` that waits (13 R317) -/
  snap    : Know := []
  deriving DecidableEq, Repr, Inhabited

/-- The CSRs of a bank, field by field (01 R21, 03 R85 to R92); STATUS.TP, KBANK, LEAVE, PERMITS and CYCLE are derived. -/
structure Csr where
  frz       : BitVec 16 := 0
  th        : Bool := false
  tie       : Bool := false
  causeCode : BitVec 16 := 0
  causeKind : BitVec 8 := 0
  tvec      : BitVec 13 := 0
  epcqA     : QEnt := {}
  epcqB     : QEnt := {}
  epcqC     : QEnt := {}
  fframe    : DWord := 0
  dmrLevel  : BitVec 3 := 0
  dmrId     : BitVec 16 := 0
  ftbase    : BitVec 4 := 0
  fctl      : BitVec 4 := 0
  aborts    : BitVec 16 := 0
  climbs    : BitVec 16 := 0
  tier      : BitVec 2 := 0
  last      : BitVec 8 := 0
  waitlim   : DWord := 0x4000000
  tickcmp   : DWord := 0xFFFFFFFFFFFFFFFF
  viewst    : DWord := 0
  deriving DecidableEq, Repr, Inhabited

/-- The lease of a requester (11 R263). -/
inductive Lease where
  | none | waiting | held
  deriving DecidableEq, Repr, Inhabited

/-- The stream of the control or matrix engine as one of its commands issued, with the registers of the bank, and what the stream has done since that is not in them: what is put back where that command has not completed when a frame is written (08 R210). -/
structure Back where
  t    : Stream
  s    : Map DWord
  p    : Map Bool
  sdm  : Map Byte
  fmt  : Map Word
  csr  : Csr
  /-- the lease of the bank, and the number from which the operations of that lease count on a private array -/
  lease : Lease := .none
  from_ : Nat := 0
  /-- tokens popped since, by FIFO -/
  pops : List (Nat × List (BitVec 13)) := []
  /-- what writes of TICK have added to it since -/
  tickBy : DWord := 0
  /-- arrival words armed or disarmed since, the latest first: fields, poison and vectors as they stood -/
  arws : List (Nat × List Word × Bool × ArrVec) := []
  /-- generations on which `WAITAW` has waited since, the latest first: word, engine, the one before -/
  gens : List (Nat × Nat × Word) := []
  /-- core windows that `MCFG` has set since, the latest first: core, the window before -/
  wins : List (Nat × Option (Nat × Nat)) := []
  /-- the climb request of the job -/
  request : Option Climb := none
  deriving DecidableEq, Repr, Inhabited

/-- A context bank of a unit (01 R23). Copy register r of engine e stands at 16e + r; word a of engine e's instruction memory at 8192e + a, bit 32 its literal tag (02 R37). -/
structure Bank where
  job      : Option Job := none
  streams  : Map Stream := []
  imem     : Map (BitVec 33) := []
  s        : Map DWord := []
  p        : Map Bool := []
  v        : Map Row := []
  m        : Map (BitVec 128) := []
  a        : Map Word := []
  k        : Map Word := []
  c        : Map Word := []
  e        : Map DWord := []
  csr      : Csr := {}
  sdm      : Map Byte := []
  fmt      : Map Word := []
  tok      : Map TokFifo := []
  fifo     : Map DFifo := []
  seqr     : Map SeqRegs := []
  nests    : Map (Option Nest) := []
  cmds     : Map (List Cmd) := []
  /-- commands issued since the job began -/
  seq      : Nat := 0
  /-- the records of the commands of the control and matrix streams that are not performed, by number -/
  backs    : Map (Option Back) := []
  arr      : Map ArrVec := []
  run      : Option ArrRun := none
  view     : Option ViewReq := none
  /-- landings not yet counted; during a hand-over they are held (19 R386) -/
  landings : List Landing := []
  departed : List Depart := []
  /-- requests that missed their slots (12 R295) -/
  missed   : List Missed := []
  /-- tile tags of the open phase, by tensor and tile (10 R258) -/
  ttags    : Map Tag := []
  fault    : Option FaultInfo := none
  deriving DecidableEq, Repr, Inhabited

/-- A main, lane or store core (00 R1, 19 R372): 0 to 447 main cores in package order, 448 to 495 lane cores, 496 to 527 store cores. -/
structure Core where
  b0     : Bank := {}
  b1     : Bank := {}
  /-- the executing bank -/
  kbank  : Nat := 0
  pad    : Map Row := []
  tags   : Map Tag := []
  /-- cycles left of a correctable-error freeze (08 R197) -/
  freeze : Nat := 0
  /-- CYCLE and TICK as the difference to the unit's clock: freezes and writes move them (03 R84) -/
  cycle  : DWord := 0
  tick   : DWord := 0
  /-- jobs first placed here (13 R318) -/
  placed : Word := 0
  /-- the stream of a lane or store core that issued last (19 R373) -/
  lastE  : Nat := 5
  /-- tile translation buffer (12 R287) -/
  ttb    : List Ttb := []
  /-- send and receive tables: the Crossing at an id (17 R364) -/
  sends  : Map (Option Nat) := []
  recvs  : Map (Option Nat) := []
  deriving DecidableEq, Repr, Inhabited

/-- A row of an accumulator store: up to 256 FP32 columns, a poison bit for each four (11 R262). -/
structure AccRow where
  data   : BitVec 8192 := 0
  poison : BitVec 64 := 0
  deriving DecidableEq, Repr, Inhabited

/-- A held B tile: its BF code, its K extent, the pieces of fb that hold it (11 R263, R273), and the number of its `MMA`. -/
structure HeldTile where
  code : Nat
  kp   : Nat
  els  : List Chunk
  at_  : Nat := 0
  deriving DecidableEq, Repr, Inhabited

/-- A cluster: the accumulator store, its core windows, the lease (11 R259 to R266); bank b of lane or store core u has a private one at 448 + 2(u - 448) + b (19 R372, R373). Requester 2c + b. -/
structure Cluster where
  acc   : Map AccRow := []
  /-- first row and rows of each core; none for the window that it has after reset -/
  win   : Map (Option (Nat × Nat)) := []
  lease : Map Lease := []
  /-- the requester of the last grant: 0 before any, so that the first search begins at 1 (11 R265; log entry 2) -/
  last  : Nat := 0
  /-- cycle of the grant -/
  since : Nat := 0
  tile  : Option HeldTile := none
  /-- the number from which the commands of a private lease count, where it was granted over array operations of an earlier one (19 R373) -/
  from_ : Nat := 0
  deriving DecidableEq, Repr, Inhabited

/-- A phase stamp (12 R286, 13 R318). `scope` is the scope instance of its domain, or the number of the job of a private phase; `shut` says that the completion of its packet closed it (22 R421; log entry 15). -/
structure Stamp where
  pdom  : BitVec 16 := 0
  plvl  : BitVec 3 := 0
  pcore : BitVec 10 := 0x3FF
  pnum  : Word := 0
  pdie  : BitVec 4 := 0
  scope : Nat := 0
  shut  : Bool := false
  /-- the packet whose job wrote it -/
  pkt   : Nat := 0
  deriving DecidableEq, Repr, Inhabited

/-- An entry of a tile table (12 R286); `pend` marks a tile of a weight image that has not arrived (23 R448). -/
structure Tile where
  v     : Bool := false
  tier  : BitVec 2 := 0
  stack : BitVec 5 := 0
  d     : Bool := false
  mf    : Bool := false
  cov   : BitVec 2 := 0
  fbase : BitVec 41 := 0
  stamp : Stamp := {}
  pend  : Bool := false
  deriving DecidableEq, Repr, Inhabited

/-- An entry of a partition frame table (12 R288). -/
structure S2 where
  v     : Bool := false
  tier  : BitVec 2 := 0
  stack : BitVec 5 := 0
  d     : Bool := false
  w     : Bool := false
  mbase : BitVec 41 := 0
  deriving DecidableEq, Repr, Inhabited

/-- A tensor descriptor with its tile table, and the stamps of a DIRECT tensor's granules (12 R280, R286, 24 R466). -/
structure Tensor where
  id      : Nat
  part    : Nat
  home    : Nat
  tiled   : Bool
  covered : Bool
  ro      : Bool
  scale   : Bool
  fmt     : Nat
  ndim    : Nat
  fsz     : Nat
  order   : List Nat
  ext     : List Nat
  tsh     : List Nat
  wbase   : Nat
  tbase   : Nat
  stride  : List Nat
  scid    : Nat
  tiles   : Map Tile := []
  stamps  : Map Stamp := []
  /-- the stage-2 entries of a DIRECT tensor's frames as the buffers hold them locked, by the key of `State.stage2` (16 R352) -/
  locked  : Map S2 := []
  /-- the weight version that owns it -/
  version : Option Nat := none
  /-- a PLAIN tensor that has been freed and is deleted once no unperformed command names it (14 R342, R346) -/
  freed   : Bool := false
  deriving DecidableEq, Repr, Inhabited

/-- Who holds a view (14 R324). -/
inductive Holder where
  | persistent
  | job (jid : Nat)
  | system
  deriving DecidableEq, Repr, Inhabited

/-- A handle of the view table and its view (14 R321, R323). -/
structure View where
  used    : Bool := false
  gen     : BitVec 12 := 0
  retired : Bool := false
  part    : Nat := 0
  tid     : Nat := 0
  box     : Box := {}
  r       : Bool := false
  w       : Bool := false
  holder  : Holder := .persistent
  deriving DecidableEq, Repr, Inhabited

/-- The tiles of a COVERED tensor that one view move has uncovered and that are not elided yet (14 R338). -/
structure Uncov where
  tid   : Nat
  tiles : List Nat
  deriving DecidableEq, Repr, Inhabited

/-- A frame being scrubbed (14 R339), and the Crossing and slot to which it returns (17 R369). -/
structure Scrub where
  frame : Frame
  slot  : Option (Nat × Nat) := none
  deriving DecidableEq, Repr, Inhabited

/-- A domain of a scope instance (13 R314). Latch lists: writer, bank, job, address. -/
structure Domain where
  quota    : Nat := 0
  pn       : Word := 0
  joined   : Nat := 0
  arrivals : Nat := 0
  departed : Nat := 0
  latches  : List (Nat × Nat × Nat × DWord) := []
  /-- the tasks that name it: packet, place in the packet -/
  tasks    : List (Nat × Nat) := []
  /-- by member of a fabric domain: how many of its tasks that name it had completed when it last told (23 R446) -/
  doneBy   : Map Nat := []
  deriving DecidableEq, Repr, Inhabited

/-- A task of an accepted packet: record, code handle, class, dies, the next position of each die, iterations ended and discarded, and whether it is complete (13 R301 to R307). -/
structure Task where
  addr   : DWord
  code   : Nat
  cls    : Nat
  dies   : BitVec 16
  nextN  : Map Nat := []
  /-- its unplaced iterations have been dropped (22 R426) -/
  dropped : Bool := false
  ended  : Nat := 0
  disc   : Nat := 0
  deriving DecidableEq, Repr, Inhabited

/-- An accepted packet (22 R418, R421). -/
structure Packet where
  queue  : Nat
  idx    : Nat
  fn     : Nat
  part   : Nat
  marker : Bool
  prio   : Nat
  fence  : Bool
  pasid  : Nat
  tasks  : List Task
  wver   : Option Nat
  cq     : Nat
  vec    : Nat
  recAt  : DWord
  args   : DWord
  wq     : Nat
  wth    : Word
  tag    : DWord
  deriving DecidableEq, Repr, Inhabited

/-- STATE of a queue (22 R416). -/
inductive QState where
  | disabled | running | draining | error | paused
  deriving DecidableEq, Repr, Inhabited

/-- A packet read that waits: for the second read of its stamp, with the cycle of the first, for a task record that misses, with its bytes, or for the digests of the fabric, with its own digest or refusal, the DETAIL of that, its bytes, the task records that were read and the version that its WVER named (22 R419, 23 R445). -/
inductive Reading where
  | stamp (since : Nat)
  | records (bytes : List Byte)
  | fabric (own : Digest) (detail : Nat) (bytes : List Byte) (records : List (List Byte)) (wver : Option Nat)
  deriving DecidableEq, Repr, Inhabited

/-- A work queue (22 R415, R416, R426). -/
structure Queue where
  fn      : Nat := 0
  base    : Nat := 0
  k       : Nat := 0
  tail    : Word := 0
  head    : Word := 0
  err     : BitVec 16 := 0
  state   : QState := .disabled
  done    : Word := 0
  reading : Option Reading := none
  /-- digests and refusals received from other members and not used yet, in order (23 R445) -/
  digests : List (Nat × Digest) := []
  /-- members whose digest for a packet that this member has left is still to come, and is dropped as it arrives (23 R445) -/
  owed    : List Nat := []
  /-- a refusal of the next packet has been sent, since a pre-emption came while others waited (23 R445) -/
  gaveUp  : Bool := false
  /-- DESTROY_QUEUE in DISCARD mode (22 R426) -/
  discard : Bool := false
  deriving DecidableEq, Repr, Inhabited

/-- A completion queue with the appends that wait (22 R424): record bytes and vector. -/
structure Cq where
  live : Bool := false
  base : Nat := 0
  k    : Nat := 0
  tail : Word := 0
  pend : List (List Byte × Nat) := []
  deriving DecidableEq, Repr, Inhabited

/-- The TDISP state of a function (22 R431). -/
inductive Tdisp where
  | unlocked | locked | run
  deriving DecidableEq, Repr, Inhabited

/-- A function (22 R414, R417, R420, R431). -/
structure Func where
  part   : Option Nat := none
  base   : DWord := 0
  tail   : Word := 0
  head   : Word := 0
  err    : BitVec 16 := 0
  state  : QState := .disabled
  cqh    : Map Word := []
  qmap   : Map (Option Nat) := []
  pasid  : Map (BitVec 21) := []
  tdisp  : Tdisp := .unlocked
  cqs    : Map Cq := []
  /-- smallest wake latency tolerated, in microseconds (22 R440) -/
  tol    : Option Nat := none
  /-- keys of its partition's stacks: stack and key (22 R431) -/
  keys   : List (Nat × BitVec 512) := []
  /-- cycle of a first read of the management ring that found a stale stamp (22 R419, R429) -/
  stale  : Option Nat := none
  deriving DecidableEq, Repr, Inhabited

/-- An interrupt remapping entry (22 R424); `held` is an interrupt held while masked. -/
structure Remap where
  addr : DWord := 0
  data : Word := 0
  v    : Bool := false
  m    : Bool := false
  held : Bool := false
  deriving DecidableEq, Repr, Inhabited

/-- A job saved in the save area (19 R394): its slot, the job, and whether it had started. -/
structure Saved where
  slot : Nat
  job  : Job
  deriving DecidableEq, Repr, Inhabited

/-- The run state of a partition (22 R433). -/
inductive PState where
  | running
  /-- waits for the first slice of its group -/
  | waiting
  /-- pre-empted by a command; the jobs that are placed and not stopped are being saved -/
  | preempting
  /-- pre-empted at the end of its slice -/
  | sliced
  /-- being reset; true where a TDISP exit from RUN resets it -/
  | resetting (tdisp : Bool)
  deriving DecidableEq, Repr, Inhabited

/-- A partition (22 R430 to R436). -/
structure Part where
  cfg      : PartRecord
  state    : PState := .running
  saved    : List Saved := []
  /-- records written to the fault queue, and read replies -/
  fqTail   : Nat := 0
  fqHead   : Nat := 0
  slots    : Map Bool := []
  dirty    : Option (Nat × Nat) := none
  dlTail   : Nat := 0
  dlHead   : Nat := 0
  dlPend   : List DWord := []
  /-- cycle at which its slice began -/
  slice    : Nat := 0
  /-- a RESUME waits for its turn in the slice group; true once it has had it (22 R433) -/
  wanted   : Option Bool := none
  /-- the LOAD_WEIGHTS commands of this member that are not compared yet: version id, 0 where the record was refused, and record (23 R451) -/
  loads    : List (Nat × List Byte) := []
  /-- the records that other members have sent, in order (23 R451) -/
  peers    : List (Nat × List Byte) := []
  deriving DecidableEq, Repr, Inhabited

/-- The state of a Crossing slot (17 R364). -/
inductive SlotSt where
  | free | filling | arrived | held | releasing
  deriving DecidableEq, Repr, Inhabited

/-- A slot: state, view form, and its frame while it is away from the tile (17 R364, R369). -/
structure Slot where
  st    : SlotSt := .free
  form  : Word := 0
  frame : Option Frame := none
  deriving DecidableEq, Repr, Inhabited

/-- A Crossing (17 R362, R364). -/
structure Crossing where
  part   : Nat
  scoreU : Nat
  sid    : Nat
  rcoreU : Nat
  rid    : Nat
  rbank  : Nat
  nslots : Nat
  fmt    : Nat
  rows   : Nat
  aw     : Word
  tid    : Nat
  cnt    : Nat
  slots  : Map Slot := []
  arr    : List (Nat × Bool × BitVec 15 × Nat) := []
  /-- its unperformed `XSEND`s in issue order: bank of the sender and number of the command -/
  flight : List (Nat × Nat) := []
  /-- DESTROY_CROSSING waits for its `XSEND`s -/
  dying  : Bool := false
  deriving DecidableEq, Repr, Inhabited

/-- A loaded image (02 R35, R40). -/
structure Image where
  part   : Nat
  mask   : BitVec 6
  climb  : Bool
  static : Bool
  bucket : Nat
  entry  : List (BitVec 13)
  trap   : BitVec 13
  foot   : Nat
  toks   : Map TokFifo
  imem   : Map (BitVec 33)
  deriving DecidableEq, Repr, Inhabited

/-- An access that waits on a translation miss: unit, bank, engine, the number of its command (none for the end of the job or a latch of it), its own faulting flat address (12 R297, R299). -/
structure Waiter where
  u   : Nat
  b   : Nat
  e   : Nat
  src : Option Nat
  own : Nat
  deriving DecidableEq, Repr, Inhabited

/-- The state of a weight version (23 R450). -/
inductive VState where
  | loading | ready | failed | retired
  deriving DecidableEq, Repr, Inhabited

/-- An entry of a hash list (23 R447): its index, the tile with its tensor, the hash, and where the tile's data lie behind DATA. -/
structure HashEnt where
  idx  : Nat
  tid  : Nat
  tile : Nat
  hash : Nat
  off  : Nat
  deriving DecidableEq, Repr, Inhabited

/-- A weight version: root views, bound packets, and the load in progress with the tiles that have not arrived (23 R448, R450); `resent` holds the indices of tiles that were requested once more. -/
structure Version where
  state  : VState := .loading
  roots  : List Word := []
  tids   : List Nat := []
  bound  : Nat := 0
  cur    : Bool := false
  fn     : Nat := 0
  views  : DWord := 0
  result : DWord := 0
  stamp  : Word := 0
  /-- this package reads the image (23 R451) -/
  reader : Bool := false
  /-- TGT, OFFSET and LENGTH of the argument record, and DATA of the manifest (23 R447, R451) -/
  tgt    : Nat := 0
  offset : Nat := 0
  len    : Nat := 0
  data   : Nat := 0
  /-- the records of all members agree, and one names itself the reader (23 R451) -/
  agreed : Bool := false
  /-- the manifest has been verified and its descriptors created -/
  verified : Bool := false
  hashes : List HashEnt := []
  /-- accesses held on a pending tile: tensor, tile, and the waiter (23 R449) -/
  waits  : List (Nat × Nat × Waiter) := []
  resent : List Nat := []
  deriving DecidableEq, Repr, Inhabited

/-- A result of the exposed pipeline that becomes usable at a cycle: register (0 ACC, 1 RA, 2 RB), value (21 R400, R401). -/
structure Pend where
  due : Nat
  reg : Nat
  row : Row
  deriving DecidableEq, Repr, Inhabited

/-- A context of a bank unit (21 R397). -/
structure Ctx where
  owner : Option Nat := none
  acc   : Row := {}
  ra    : Row := {}
  rb    : Row := {}
  upc   : BitVec 8 := 0
  lc    : BitVec 16 := 0
  i     : Word := 0
  pend  : List Pend := []
  deriving DecidableEq, Repr, Inhabited

/-- The lines of a record from `first` on, as they were translated (12 R284, R287, R288): tier, stack and machine byte offset of the first of them, and the intermediate address of its page. -/
structure Seg where
  first : Nat
  tier  : Nat
  stack : Nat
  off   : Nat
  ia    : Nat
  deriving DecidableEq, Repr, Inhabited

/-- A command at a bank unit: the record of a `BKRUN`, with the unit, bank and number of that `BKRUN` (21 R406, R407). -/
structure BCmd where
  u     : Nat
  b     : Nat
  seq   : Nat
  part  : Nat
  ctx   : Nat
  va    : DWord
  tid   : Nat
  tile  : Nat
  /-- where its lines lie, as its record was translated, which it keeps (12 R287): in one machine frame, or of a DIRECT tensor in two -/
  segs  : List Seg
  entry : BitVec 8
  lc    : BitVec 16
  step  : Word
  lines : Word
  /-- epoch stamp of the `BKRUN` -/
  ep    : BitVec 13
  /-- suspended at a CTX word with this WAIT -/
  susp  : Option Nat := none
  deriving DecidableEq, Repr, Inhabited

/-- A line write that is not performed: the cycle at which it is, the line of its command, the value (21 R400). -/
structure BWrite where
  due  : Nat
  line : Nat
  row  : Row
  cmd  : BCmd
  deriving DecidableEq, Repr, Inhabited

/-- A bank unit (21 R397, R398). Pages: DRAM bank to open page and cycle of its ACT. -/
structure BUnit where
  ucode  : Map DWord := []
  ctxs   : Map Ctx := []
  /-- the running context -/
  run    : Nat := 0
  /-- cycle at which the next word issues -/
  cyc    : Nat := 0
  cmd    : Option BCmd := none
  queue  : List BCmd := []
  pages  : Map (Option (Nat × Nat)) := []
  /-- cycle of the last ACT of a DRAM bank -/
  lastAct : Map (Option Nat) := []
  wr     : List BWrite := []
  /-- bad parity of a microcode word (21 R402, R413) -/
  parity : List Nat := []
  /-- the command has ended and waits for its writes -/
  ending : Bool := false
  deriving DecidableEq, Repr, Inhabited

/-- An alert record of a base die (21 R413). -/
structure Alert where
  kind : Nat
  unit : Byte
  bank : BitVec 16
  row  : Word
  cnt  : Word
  seq  : Word
  seen : Bool := false
  deriving DecidableEq, Repr, Inhabited

/-- A stack: its slot calendar and its alert ring (12 R293, 21 R413). Calendar entry: [15] OWN, [4:0] CORE. -/
structure Stack where
  cal   : Map (BitVec 16) := []
  /-- the cycle after the one in which a slot last carried a request (12 R292) -/
  used  : Map Nat := []
  ring  : List Alert := []
  aseq  : Word := 0
  alert : Bool := false
  deriving DecidableEq, Repr, Inhabited

/-- An entry or an unanswered record of the fault range batcher (12 R297, R298). -/
structure Miss where
  va    : Nat
  pages : Nat := 1
  fsz   : Nat
  read  : Bool
  write : Bool
  host  : Bool
  stage : Nat
  tid   : Nat
  part  : Nat
  seq   : Word := 0
  batch : Word := 0
  jobs  : List Waiter
  deriving DecidableEq, Repr, Inhabited

/-- A move of the promotion engine (19 R379, R396). -/
structure PMove where
  tid     : Nat
  tile    : Nat
  tier    : Nat
  stack   : Nat
  part    : Nat
  /-- the target frame, secured or taken at the start -/
  frame   : Option Frame := none
  started : Bool := false
  fenced  : Bool := false
  deriving DecidableEq, Repr, Inhabited

/-- A task whose next iteration a walker has passed over: queue, packet, place of the task in it (13 R307). -/
structure Passed where
  queue : Nat
  pid   : Nat
  task  : Nat
  deriving DecidableEq, Repr, Inhabited

/-- A die: walker, histogram banks by partition (bin, 256 for OUT), batcher and promotion engine (12 R297, 13 R305 to R309, 19 R379). -/
structure Die where
  /-- the unit at which the next search begins -/
  lastCore : Nat := 0
  /-- by priority: the last queue served plus 1, and the iterations passed over -/
  lastQ    : Map Nat := []
  passed   : Map (List Passed) := []
  hist     : Map (Map Word) := []
  seqNo    : Word := 0
  batchNo  : Word := 0
  batch    : List Miss := []
  /-- cycle at which the batch began -/
  timer    : Nat := 0
  out      : List Miss := []
  unans    : List Miss := []
  moves    : List PMove := []
  deriving DecidableEq, Repr, Inhabited

/-- STATE of the module's boot (23 R454). -/
inductive Boot where
  | booting | running | fail
  deriving DecidableEq, Repr, Inhabited

/-- The Lenfy cores: boot state, measurements, publisher keys (23 R448, R454, R455). -/
structure Lenfy where
  boot   : Boot := .booting
  svn    : Word := 0
  step   : Nat := 0
  /-- the measurement log of each H-die -/
  logs   : Map (List Nat) := []
  keys   : Map (List Byte) := []
  /-- the H-dies whose cores have started their firmware -/
  booted : List Nat := []
  /-- the fabric maps by domain: the owner's, as the management core holds them (23 R443) -/
  fabric : Map (Option FabricMap) := []
  deriving DecidableEq, Repr, Inhabited

/-- A state image of a migrated partition, object by object (22 R435; log entry 7). -/
structure Mig where
  cfg       : PartRecord
  queues    : List (Nat × Queue)
  packets   : List (Nat × Packet)
  domains   : List (Nat × Domain)
  views     : List (Nat × View)
  tensors   : List (Nat × Tensor)
  images    : List (Nat × Image)
  versions  : List (Nat × Version)
  crossings : List (Nat × Crossing)
  hist      : List (Nat × Map Word)
  ctxs      : List (Nat × Nat × Ctx)
  /-- the bank units whose running context is the partition's, with its number -/
  runs      : List (Nat × Nat)
  /-- the frames that the device took for the partition -/
  frames    : List Frame
  saved     : List (Saved × List Byte)
  deriving DecidableEq, Repr, Inhabited

/-- The counters that RESYNC reports (22 R439). -/
structure Errs where
  corrected : DWord := 0
  replies   : BitVec 16 := 0
  bar       : BitVec 16 := 0
  tails     : BitVec 16 := 0
  irqs      : BitVec 16 := 0
  deriving DecidableEq, Repr, Inhabited

/-- What the module has sent outside: an interrupt, a fabric message, an answer. -/
inductive Sent where
  | irq (addr : DWord) (data : Word)
  | digest (queue : Nat) (d : Digest)
  | resend (part vid i : Nat)
  /-- a read of a weight image: target, offset in its namespace, length (23 R451) -/
  | nvme (part vid tgt offset len : Nat)
  /-- bytes of a weight image that the reader sends over the tree (23 R448, R451) -/
  | weights (part vid : Nat) (data : List Byte)
  /-- the argument record of a load, for the other members (23 R451) -/
  | load (part : Nat) (record : List Byte)
  | tile (part vid i member : Nat)
  | close (key : Nat)
  | news (key : Nat) (n : FabricNews)
  | answer (data : List Byte)
  deriving DecidableEq, Repr, Inhabited

/-- The machine. Byte offset `o` of stack `t` of tier `T` stands in `mem` at (32T + t)·2^64 + o; host memory is tier 3 (log entry 10). `poison` holds the poisoned granules, by address divided by 16. -/
structure State where
  /-- the moves that come next; where it is empty, the free value `Config.nextMove` names them -/
  agenda    : List Move := []
  /-- moves taken by the free value -/
  moves     : Nat := 0
  /-- free values taken -/
  free      : Nat := 0
  /-- jobs numbered -/
  jids      : Nat := 0
  /-- packets numbered -/
  pids      : Nat := 0
  /-- main-core cycles since reset (12 R292) -/
  now       : Nat := 0
  /-- the unit whose instruction is executed -/
  cur       : Nat := 0
  units     : Map Core := []
  clusters  : Map Cluster := []
  dies      : Map Die := []
  mem       : List Host.Cell := []
  poison    : Map Bool := []
  tensors   : Map (Option Tensor) := []
  stage2    : Map S2 := []
  views     : Map View := []
  /-- by view move: the tiles that it has uncovered, for the order of their elide moves -/
  uncovs    : List Uncov := []
  frames    : List Frame := []
  scrubs    : List Scrub := []
  parts     : Map (Option Part) := []
  /-- the pre-emption limit of each partition in cycles: 1 ms after reset (22 R434) -/
  limits    : Map Nat := []
  funcs     : Map Func := []
  queues    : Map Queue := []
  packets   : Map (Option Packet) := []
  domains   : Map (Option Domain) := []
  /-- what other members have told of fabric domains that no packet accepted here names yet, in order: domain, member, news (23 R446) -/
  early     : List (Nat × Nat × FabricNews) := []
  crossings : Map (Option Crossing) := []
  images    : Map (Option Image) := []
  versions  : Map (Option Version) := []
  bunits    : Map BUnit := []
  stackSt   : Map Stack := []
  remap     : Map Remap := []
  /-- the host pages that do not translate, at PASID·2^52 + page; PASID 2^20 stands for an access without one (12 R289, 22 R427; log entry 11) -/
  ats       : Map Bool := []
  lenfy     : Lenfy := {}
  errs      : Errs := {}
  /-- the state images written by MIGRATE_SAVE, in order -/
  migs      : List Mig := []
  /-- matrix-array clock in units of 100 MHz, and the cycle of the governor's last step (21 R412) -/
  clock     : Nat := 17
  governed  : Nat := 0
  /-- power level (22 R440) -/
  power     : Nat := 0
  sent      : List Sent := []
  deriving DecidableEq, Repr

/-- The machine right after reset: function 0 in partition 0 (22 R414), no partition configured, no job, the module booting (23 R454). Values that the spec does not state are named in log entry 2. -/
def State.reset : State := { funcs := [(0, { part := some 0 })] }

end Sys2Proof.Machine
end

