-- ==== Sys2Proof/Machine/Bits.lean ====
section
/-!
DEFINITION. Bit and byte helpers: sign extension, lanes of a row, little-endian bytes, CRC-32.
-/

namespace Sys2Proof.Machine

/-- A bit vector sign-extended to 64 bits. -/
def sx {n : Nat} (x : BitVec n) : DWord := x.signExtend 64

/-- A bit vector zero-extended to 64 bits. -/
def zx {n : Nat} (x : BitVec n) : DWord := x.setWidth 64

/-- The count that a field of `n` bits encodes, 0 standing for the full power (02 R41, R57). -/
def count {n : Nat} (x : BitVec n) : Nat := if x.toNat = 0 then 2 ^ n else x.toNat

/-- Element `i` of `w` bits of a wide value. -/
def elem {n : Nat} (w : Nat) (x : BitVec n) (i : Nat) : BitVec w := BitVec.ofNat w (x.toNat / 2 ^ (w * i))

/-- The number whose elements of `w` bits are `f 0` to `f (n - 1)`, the first lowest. -/
def gatherN (w : Nat) (f : Nat → Nat) : Nat → Nat → Nat
  | _, 0 => 0
  | i, n + 1 => f i % 2 ^ w + 2 ^ w * gatherN w f (i + 1) n

/-- 4096 bits from `4096 / w` elements of `w` bits. -/
def ofElems (w : Nat) (f : Nat → BitVec w) : BitVec 4096 :=
  BitVec.ofNat 4096 (gatherN w (fun i => (f i).toNat) 0 (4096 / w))

/-- Lane `j` of a row (01 R15). -/
def lane (x : BitVec 4096) (j : Nat) : Word := elem 32 x j

/-- A row of 128 lanes. -/
def ofLanes (f : Nat → Word) : BitVec 4096 := ofElems 32 f

/-- A 32-bit set of granules from a predicate. -/
def ofGran (f : Nat → Bool) : BitVec 32 :=
  BitVec.ofNat 32 (gatherN 1 (fun g => (f g).toNat) 0 32)

/-- Whether any of `f 0` to `f (n - 1)` holds. -/
def anyBelow (n : Nat) (f : Nat → Bool) : Bool := (List.range n).any f

/-- The number of leading zero bits of a doubleword (03 R70). -/
def clz64 (x : DWord) : Nat := if x = 0 then 64 else 63 - Nat.log2 x.toNat

/-- The number of one bits among the lowest `n` bits of a number (03 R70). -/
def popc : Nat → Nat → Nat
  | 0, _ => 0
  | n + 1, x => x % 2 + popc n (x / 2)

/-- The bytes of a row. -/
def rowBytes (r : BitVec 4096) : List Byte := leBytes 512 r.toNat

/-- One step of the CRC-32 shift register (19 R391), reflected form. -/
def crcBit (c : Nat) : Nat := if c % 2 = 1 then (c / 2) ^^^ 0xEDB88320 else c / 2

/-- The shift register after one byte. -/
def crcByte (c : Nat) (b : Byte) : Nat :=
  crcBit (crcBit (crcBit (crcBit (crcBit (crcBit (crcBit (crcBit (c ^^^ b.toNat))))))))

/-- The CRC-32 of bytes, with the polynomial of IEEE 802.3 (19 R391). -/
def crc32 (bs : List Byte) : Word := BitVec.ofNat 32 ((bs.foldl crcByte 0xFFFFFFFF) ^^^ 0xFFFFFFFF)

/-- A list with an entry put in ahead of the first that it does not come after. -/
def insertBy {α : Type} (le : α → α → Bool) (x : α) : List α → List α
  | [] => [x]
  | y :: ys => if le x y then x :: y :: ys else y :: insertBy le x ys

/-- A list in the order `le`; entries that are equal in it stay as they stand. -/
def sortBy {α : Type} (le : α → α → Bool) : List α → List α
  | [] => []
  | x :: xs => insertBy le x (sortBy le xs)

/-- Bytes `lo` to `lo + n - 1` of a list as a number. -/
def leAt (bs : List Byte) (lo n : Nat) : Nat := leNat ((bs.drop lo).take n)

/-- Whether bytes `lo` to `hi - 1` are zero. -/
def zeroBytes (bs : List Byte) (lo hi : Nat) : Bool := ((bs.drop lo).take (hi - lo)).all (fun b => decide (b = 0))

end Sys2Proof.Machine
end

