-- ==== Sys2Proof/Machine/Sparse.lean ====
section
/-!
DEFINITION. The operations on numbered entries: reading one, and writing one so that the canonical form is kept. Memory is such a map of bytes.
-/

namespace Sys2Proof.Machine

/-- Entry `k` of `m`, the default `d` where it is not listed. -/
def get {α : Type} (d : α) : Map α → Nat → α
  | [], _ => d
  | (i, v) :: m, k => if i = k then v else get d m k

/-- `m` with an entry put in at its place. -/
def put' {α : Type} (k : Nat) (v : α) : Map α → Map α
  | [] => [(k, v)]
  | (i, w) :: m => if i < k then (i, w) :: put' k v m else if i = k then (k, v) :: m else (k, v) :: (i, w) :: m

/-- `m` without entry `k`. -/
def drop' {α : Type} (k : Nat) (m : Map α) : Map α := m.filter (fun p => p.1 != k)

/-- `m` with entry `k` set to `v`; an entry equal to the default is not listed. -/
def set {α : Type} [DecidableEq α] (d : α) (m : Map α) (k : Nat) (v : α) : Map α :=
  if v = d then drop' k m else put' k v m

/-- The numbers of `m` rise and lie above `lo`, and no entry equals the default. -/
def canonFrom {α : Type} [DecidableEq α] (d : α) : Option Nat → Map α → Bool
  | _, [] => true
  | lo, (i, v) :: m => (match lo with | none => true | some j => decide (j < i)) && decide (v ≠ d) && canonFrom d (some i) m

/-- The canonical form of a map. -/
def canon {α : Type} [DecidableEq α] (d : α) (m : Map α) : Bool := canonFrom d none m

/-- The values listed. -/
def vals {α : Type} (m : Map α) : List α := m.map Prod.snd

/-- The listed entries of a map of options that hold something, with their numbers. -/
def somes {α : Type} (m : Map (Option α)) : List (Nat × α) :=
  m.filterMap (fun p => p.2.map (fun v => (p.1, v)))

/-- What a byte of memory that nothing has written reads as (log entry 3). -/
def unwritten : Byte := 0

/-- Memory is in its canonical form. -/
abbrev Memory.wf (m : List Host.Cell) : Prop := canon unwritten m = true

/-- The byte at address `a`. -/
def rdByte (m : List Host.Cell) (a : Nat) : Byte := get unwritten m a

/-- Memory with the byte at `a` written. -/
def wrByte (m : List Host.Cell) (a : Nat) (v : Byte) : List Host.Cell := set unwritten m a v

/-- The `n` bytes from `a` on. -/
def rdBytes (m : List Host.Cell) (a : Nat) : Nat → List Byte
  | 0 => []
  | n + 1 => rdByte m a :: rdBytes m (a + 1) n

/-- Memory with bytes written from `a` on. -/
def wrBytes (m : List Host.Cell) (a : Nat) : List Byte → List Host.Cell
  | [] => m
  | v :: vs => wrBytes (wrByte m a v) (a + 1) vs

end Sys2Proof.Machine
end

