-- ==== Sys2Proof/Machine/Ops.lean ====
section
/-!
DEFINITION. The shared operations of a core: units, banks and streams, the PC queue and the loops, waiting, faults, taking a trap and returning from it, epochs, tokens, FIFOs and the race check of rows.
-/

namespace Sys2Proof.Machine

/-- The outcome of a meaning. -/
abbrev Out := Host.Outcome State Fault Refusal

/-! ### Units and banks -/

/-- A unit. -/
def State.core (s : State) (u : Nat) : Core := get {} s.units u

/-- The state with unit `u` changed. -/
def State.setCore (s : State) (u : Nat) (c : Core) : State := { s with units := set {} s.units u c }

/-- A bank of a unit. -/
def Core.bank (c : Core) (b : Nat) : Bank := if b = 0 then c.b0 else c.b1

/-- A unit with bank `b` changed. -/
def Core.setBank (c : Core) (b : Nat) (k : Bank) : Core := if b = 0 then { c with b0 := k } else { c with b1 := k }

/-- Bank `b` of unit `u`. -/
def State.bank (s : State) (u b : Nat) : Bank := (s.core u).bank b

/-- The state with bank `b` of unit `u` set. -/
def State.setBank (s : State) (u b : Nat) (k : Bank) : State := s.setCore u ((s.core u).setBank b k)

/-- The state with bank `b` of unit `u` changed by `f`. -/
def State.onBank (s : State) (u b : Nat) (f : Bank → Bank) : State := s.setBank u b (f (s.bank u b))

/-- The executing bank of the unit whose instruction is executed. -/
def State.curB (s : State) : Nat := (s.core s.cur).kbank

/-- That bank. -/
def State.me (s : State) : Bank := s.bank s.cur s.curB

/-- The state with that bank changed. -/
def State.onMe (s : State) (f : Bank → Bank) : State := s.onBank s.cur s.curB f

/-- A stream of a bank. -/
def Bank.stream (k : Bank) (e : Nat) : Stream := get {} k.streams e

/-- A bank with the stream of engine `e` set. -/
def Bank.setStream (k : Bank) (e : Nat) (t : Stream) : Bank := { k with streams := set {} k.streams e t }

/-- A bank with the stream of engine `e` changed. -/
def Bank.onStream (k : Bank) (e : Nat) (f : Stream → Stream) : Bank := k.setStream e (f (k.stream e))

/-- The job of a bank changed by `f`. -/
def Bank.onJob (k : Bank) (f : Job → Job) : Bank := { k with job := k.job.map f }

/-- The engines that a job uses, ascending (01 R13). -/
def Job.engines (j : Job) : List Nat := (List.range 6).filter (fun e => j.mask.getLsbD e)

/-! ### Instruction memory and the PC queue -/

/-- The width of a word address of an engine (01 R18). -/
def addrWidth : Nat → Nat
  | 0 => 13 | 1 => 12 | 2 => 10 | 3 => 11 | 4 => 11 | _ => 10

/-- The low bits of an address that engine `e` keeps (01 R18). -/
def wrapAddr (e a : Nat) : BitVec 13 := BitVec.ofNat 13 (a % 2 ^ addrWidth e)

/-- The word at an address of an engine's instruction memory with its literal tag, bit 32 (02 R37). -/
def Bank.word (k : Bank) (e : Nat) (a : BitVec 13) : BitVec 33 := get 0 k.imem (8192 * e + a.toNat)

/-- Whether the word at `a` carries the literal tag. -/
def Bank.tagged (k : Bank) (e : Nat) (a : BitVec 13) : Bool := (k.word e a).getLsbD 32

/-- The sequential successor of the word at `a` (02 R38). -/
def Bank.succ (k : Bank) (e : Nat) (a : BitVec 13) : BitVec 13 :=
  let a1 := wrapAddr e (a.toNat + 1)
  if k.tagged e a1 then wrapAddr e (a.toNat + 2) else a1

/-- The innermost active level: 0, 1, or none (04 R105). -/
def Stream.inner (t : Stream) : Option Nat := if t.lp0.act then some 0 else if t.lp1.act then some 1 else none

/-- Whether an exit is pending for level `l` (04 R105). -/
def Stream.exitFor (t : Stream) (l : Nat) : Bool := decide (0 < t.exits) && (t.inner == some l)

/-- A loop level. -/
def Stream.lp (t : Stream) (l : Nat) : Loop := if l = 0 then t.lp0 else t.lp1

/-- A stream with loop level `l` set. -/
def Stream.setLp (t : Stream) (l : Nat) (p : Loop) : Stream := if l = 0 then { t with lp0 := p } else { t with lp1 := p }

/-- Whether level `l` sends the entry after `x` back to its start, with `j` entries at `x` ahead (04 R102). -/
def Stream.backs (t : Stream) (l : Nat) (x : BitVec 13) (j : Nat) : Bool :=
  (t.lp l).act && decide ((t.lp l).stop = x) && !t.exitFor l && decide (j + 1 ≤ (t.lp l).cnt.toNat)

/-- The address that the queue takes after the entries `ahead` (04 R102). -/
def Bank.fill (k : Bank) (e : Nat) (t : Stream) (ahead : List QEnt) : BitVec 13 :=
  let x := (ahead.getLastD {}).addr
  let j := (ahead.filter (fun q => q.addr = x)).length
  if t.backs 0 x j then t.lp0.start else if t.backs 1 x j then t.lp1.start else k.succ e x

/-- A stream whose queue is filled anew from address `a` (04 R101, R106, R108). -/
def Bank.refill (k : Bank) (e : Nat) (t : Stream) (a : BitVec 13) : Stream :=
  let q0 : QEnt := { addr := a }
  let q1 : QEnt := { addr := k.fill e t [q0] }
  let q2 : QEnt := { addr := k.fill e t [q0, q1] }
  { t with q0 := q0, q1 := q1, q2 := q2 }

/-- Loop level `l` after the issue of an entry at its end (04 R103). -/
def Loop.turn (p : Loop) (exit : Bool) : Loop :=
  if exit then { p with cnt := 0, act := false }
  else if p.cnt - 1 = 0 then { p with cnt := 0, act := false }
  else { p with cnt := p.cnt - 1, idx := p.idx + 1 }

/-- Whether an entry at `x` ends level `l` (04 R103). -/
def Stream.ends (t : Stream) (l : Nat) (x : BitVec 13) : Bool := (t.lp l).act && decide ((t.lp l).stop = x)

/-- Whether the issue of an entry at `x` takes the pending exit (04 R106). -/
def Stream.takesExit (t : Stream) (x : BitVec 13) : Bool :=
  (t.ends 0 x && t.exitFor 0) || (t.ends 1 x && t.exitFor 1)

/-- A stream without an active level holds no pending exit (04 R105). -/
def Stream.noLevel (t : Stream) : Stream := if t.inner = none then { t with exits := 0 } else t

/-- The loop levels of a stream after the issue of an entry at `x` (04 R103). -/
def Stream.loopEnd (t : Stream) (x : BitVec 13) : Stream :=
  let t0 := if t.ends 0 x then t.setLp 0 (t.lp0.turn (t.exitFor 0)) else t
  let t1 := if t.ends 1 x then t0.setLp 1 (t.lp1.turn (t.exitFor 1)) else t0
  ({ t1 with exits := if t.takesExit x then t.exits - 1 else t.exits }).noLevel

/-- The stream of engine `e` after the issue of its entry at Q0, with a branch target if one is taken (01 R22, 04 R97, R103, R106); what it waited for is past. -/
def Bank.advanced (k : Bank) (e : Nat) (target : Option (BitVec 13)) : Stream :=
  let t := k.stream e
  let x := t.q0.addr
  let t1 := t.loopEnd x
  let a := match target with
    | some b => b
    | none => k.fill e t1 [t.q1, t.q2]
  let t2 := { t1 with q0 := t.q1, q1 := t.q2, q2 := { addr := a }, wait := .none, waited := 0 }
  if t.takesExit x && decide (t.q1.addr ≠ k.succ e x) then k.refill e t2 (k.succ e x) else t2

/-- A bank whose stream of engine `e` has issued its entry (01 R22). -/
def Bank.advance (k : Bank) (e : Nat) (target : Option (BitVec 13) := none) : Bank :=
  k.setStream e (k.advanced e target)

/-- The outcome of an instruction of engine `e` that changes its bank by `f` and issues. -/
def State.eff (s : State) (e : Nat) (f : Bank → Bank) : Out := .next (s.onMe (fun k => (f k).advance e))

/-- The outcome of an instruction that waits at Q0: nothing has happened but that the stream waits (10 R245; log entry 1). -/
def State.waits (s : State) (e : Nat) (w : WaitOn) : Out :=
  .next (s.onMe (fun k => k.onStream e (fun t =>
    { t with wait := w, waited := if t.wait = w ∨ t.wait = .none then t.waited else 0 })))

/-! ### Jobs, faults and traps -/

/-- Whether a bank holds a ready job (08 R202). -/
def Bank.ready (k : Bank) : Bool := match k.job with
  | some j => decide (j.status = .ready)
  | none => false

/-- The unit begins to execute the other bank if that holds a ready job and bank `b`, which executed, no longer does (08 R202). -/
def State.yieldBank (s : State) (u b : Nat) : State :=
  let c := s.core u
  if c.kbank = b ∧ (c.bank (1 - b)).ready = true then s.setCore u { c with kbank := 1 - b } else s

/-- The cycles of a unit's own clock after `t` main-core cycles: 1.2 of 1.7 GHz for a lane core, 0.8 for a store core (19 R372). -/
def unitClock (u t : Nat) : Nat := if u < 448 then t else if u < 496 then t * 12 / 17 else t * 8 / 17

/-- CYCLE of a unit (03 R84). -/
def State.cycleOf (s : State) (u : Nat) : DWord := BitVec.ofNat 64 (unitClock u s.now) + (s.core u).cycle

/-- TICK of a unit (03 R84). -/
def State.tickOf (s : State) (u : Nat) : DWord := BitVec.ofNat 64 (unitClock u s.now) + (s.core u).tick

/-- A bank whose job is stopped by fault `f`: no stream issues, a sequencer generates no more; the first fault stands (08 R210). -/
def Bank.stopped (f : FaultInfo) (k : Bank) : Bank :=
  match k.fault with
  | some _ => k
  | none => { k with
      job := k.job.map (fun j => { j with status := .stopped })
      fault := some f
      nests := k.nests.map (fun p => (p.1, p.2.map (fun n => { n with gen := false }))) }

/-- A fault stops the job of a bank, at the unit's CYCLE (08 R210); the other bank may then execute. -/
def State.stopJob (s : State) (u b : Nat) (f : FaultInfo) : State :=
  (s.onBank u b (Bank.stopped { f with cyc := s.cycleOf u })).yieldBank u b

/-- The outcome of a fault that is precise for the stream of engine `e` (08 R210, R214): the instruction has had no effect. -/
def State.fault (s : State) (e code : Nat) (da db : DWord) (dc : Word := 0) : Out :=
  .next (s.stopJob s.cur s.curB { code := code, eng := e, precise := true, da := da, db := db, dc := dc })

/-- The illegal-instruction fault at the word at Q0 (02 R32, 08 R214). -/
def State.illegal (s : State) (e : Nat) : Out :=
  s.fault e 0x0001 (BitVec.ofNat 64 ((s.me.word e (s.me.stream e).q0.addr).toNat % 2 ^ 32)) 0

/-- Taking a trap (04 R108): the PC queue is saved in EPCQ, CAUSE holds code and kind, TH is set, and the queue is filled from TVEC. -/
def Bank.enterTrap (k : Bank) (code : BitVec 16) (kind : BitVec 8) : Bank :=
  let t := k.stream 0
  let k1 := { k with csr := { k.csr with
    epcqA := t.q0, epcqB := t.q1, epcqC := t.q2, causeCode := code, causeKind := kind, th := true } }
  k1.setStream 0 (k1.refill 0 t k.csr.tvec)

/-- Returning from a trap (04 R109): the queue is restored and TH cleared; a wait that the tick interrupt broke off goes on counting (08 R209). -/
def Bank.leaveTrap (k : Bank) : Bank :=
  let k1 := { k with csr := { k.csr with th := false } }
  k1.onStream 0 (fun t => { t with
    q0 := k.csr.epcqA, q1 := k.csr.epcqB, q2 := k.csr.epcqC, wait := .none, waited := t.kept, kept := 0 })

/-! ### Epochs and knowledge (10 R242, R243) -/

/-- A valid entry that holds an epoch. -/
def validEp (x : BitVec 13) : BitVec 14 := BitVec.ofNat 14 (8192 + x.toNat)

/-- The entry of engine `f`. -/
def Know.at (k : Know) (f : Nat) : BitVec 14 := get 0 k f

/-- `known(K, f, w)` of R243. -/
def known (k : Know) (f : Nat) (w : BitVec 13) : Bool :=
  (Know.at k f).getLsbD 13 && decide (w.toNat ≤ (Know.at k f).toNat % 8192)

/-- The merge of an epoch into the entry of engine `f` (10 R243). -/
def merge (k : Know) (f : Nat) (p : BitVec 13) : Know :=
  let x := Know.at k f
  set 0 k f (if x.getLsbD 13 ∧ p.toNat ≤ x.toNat % 8192 then x else validEp p)

/-- The merge of every nonempty entry of `v` (08 R195). -/
def mergeAll (k v : Know) : Know :=
  v.foldl (fun acc p => if p.2.getLsbD 13 then merge acc p.1 (BitVec.ofNat 13 (p.2.toNat % 8192)) else acc) k

/-- A bank whose engine `e` has merged epoch `p` of engine `f`. -/
def Bank.learn (k : Bank) (e f : Nat) (p : BitVec 13) : Bank :=
  k.onStream e (fun t => { t with know := merge t.know f p })

/-- The number of an engine in the 3 bits of a race tag. -/
def eng3 (e : Nat) : BitVec 3 := BitVec.ofNat 3 e

/-- The race check of R248: the engine that the access by `e` conflicts with, if one does. -/
def Tag.race (x : Tag) (k : Know) (e : Nat) (writes : Bool) : Option Nat :=
  if x.wr ≠ 7 ∧ x.wr ≠ eng3 e ∧ known k x.wr.toNat x.we = false then some x.wr.toNat
  else if writes then
    (List.range 6).find? (fun g => decide (g ≠ e) && (get 0 x.re g).getLsbD 13
      && !known k g (BitVec.ofNat 13 ((get 0 x.re g).toNat % 8192)))
  else none

/-- The tag after an access by `e` stamped `ep` (10 R248). -/
def Tag.mark (x : Tag) (e : Nat) (ep : BitVec 13) (writes : Bool) : Tag :=
  if writes then { x with wr := eng3 e, we := ep } else { x with re := merge x.re e ep }

/-! ### Scratchpad rows (01 R24, 08 R186 to R189, R196) -/

/-- The row number of a scratchpad address (08 R187). -/
def rowOf (a : Word) : Nat := a.toNat / 512

/-- The arrival word of a scratchpad address: 32·row + word (08 R187). -/
def arrOf (a : Word) : Nat := a.toNat / 16

/-- The rows of the window of a bank's job. -/
def Bank.rows (k : Bank) : Nat := match k.job with
  | some j => j.size
  | none => 0

/-- The first physical row of the window. -/
def Bank.base (k : Bank) : Nat := match k.job with
  | some j => j.base
  | none => 0

/-- Row `r` of the window of bank `b` of unit `u`. -/
def State.row (s : State) (u b r : Nat) : Row := get {} (s.core u).pad ((s.bank u b).base + r)

/-- The state with that row written. -/
def State.setRow (s : State) (u b r : Nat) (v : Row) : State :=
  s.setCore u { s.core u with pad := set {} (s.core u).pad ((s.bank u b).base + r) v }

/-- The race tag of that row. -/
def State.rowTag (s : State) (u b r : Nat) : Tag := get {} (s.core u).tags ((s.bank u b).base + r)

/-- The state with that row's race tag set. -/
def State.setRowTag (s : State) (u b r : Nat) (x : Tag) : State :=
  s.setCore u { s.core u with tags := set {} (s.core u).tags ((s.bank u b).base + r) x }

/-- Whether row `r` holds a live arrival word (08 R193, R196). -/
def Bank.arrRow (k : Bank) (r : Nat) : Bool := k.arr.any (fun p => p.2.live && decide (p.1 / 32 = r))

/-- A fault that an access meets: code and details A to C. -/
structure Flt where
  code : Nat
  da   : DWord := 0
  db   : DWord := 0
  dc   : Word := 0
  deriving DecidableEq, Repr

/-- The scratchpad-range fault (08 R214). -/
def Bank.rangeFlt (k : Bank) (a : Nat) : Flt := { code := 0x0003, da := BitVec.ofNat 64 a, db := BitVec.ofNat 64 k.rows }

/-- The race exception on a row or tile (10 R249). -/
def raceFlt (x other e : Nat) : Flt := { code := 0x000B, da := BitVec.ofNat 64 x, db := BitVec.ofNat 64 other, dc := BitVec.ofNat 32 e }

/-- A read of row `r` by engine `e` stamped `ep` (08 R189, R196, 10 R248): the row and the state with its read epoch, or the fault. -/
def State.readRow (s : State) (u b e : Nat) (ep : BitVec 13) (r : Nat) : Except Flt (Row × State) :=
  let k := s.bank u b
  if k.rows ≤ r then .error (k.rangeFlt (512 * r))
  else if k.arrRow r then .ok (s.row u b r, s)
  else match (s.rowTag u b r).race (k.stream e).know e false with
    | some g => .error (raceFlt r g e)
    | none => .ok (s.row u b r, s.setRowTag u b r ((s.rowTag u b r).mark e ep false))

/-- A write of row `r` by engine `e` stamped `ep` (08 R189, R196, 10 R248). -/
def State.writeRow (s : State) (u b e : Nat) (ep : BitVec 13) (r : Nat) (v : Row) : Except Flt State :=
  let k := s.bank u b
  if k.rows ≤ r then .error (k.rangeFlt (512 * r))
  else if k.arrRow r then .error { code := 0x0012, da := BitVec.ofNat 64 r }
  else match (s.rowTag u b r).race (k.stream e).know e true with
    | some g => .error (raceFlt r g e)
    | none => .ok ((s.setRow u b r v).setRowTag u b r ((s.rowTag u b r).mark e ep true))

/-- The outcome of a fault that an instruction meets at issue. -/
def State.flt (s : State) (e : Nat) (f : Flt) : Out := s.fault e f.code f.da f.db f.dc

/-! ### Commands and FIFOs -/

/-- The unperformed commands and pending pushes of engine `e`, in issue order. -/
def Bank.queue (k : Bank) (e : Nat) : List Cmd := get [] k.cmds e

/-- A bank with the commands of engine `e` set. -/
def Bank.setQueue (k : Bank) (e : Nat) (q : List Cmd) : Bank := { k with cmds := set [] k.cmds e q }

/-- A bank in which engine `e` has issued a command with operands `op` (09 R216): numbered, stamped with the engine's epoch, behind the earlier ones. -/
def Bank.issueCmd (k : Bank) (e : Nat) (op : CmdOp) : Bank :=
  let t := k.stream e
  { k.setQueue e (k.queue e ++ [{ seq := k.seq, pc := t.q0.addr, epoch := t.epoch, op := op }]) with seq := k.seq + 1 }

/-- A bank in which the control or matrix stream has issued a command; the stream and what it may change are noted, with the lease of the bank and the number from which that counts (08 R210). -/
def Bank.issueNoted (k : Bank) (e : Nat) (l : Lease) (op : CmdOp) (from_ : Nat := 0) : Bank :=
  { k.issueCmd e op with
    backs := set none k.backs k.seq (some {
      t := k.stream e, s := k.s, p := k.p, sdm := k.sdm, fmt := k.fmt, csr := k.csr
      lease := l, from_ := from_, request := k.job.bind (fun j => j.request) }) }

/-- A bank in which the record of command `n` is gone. -/
def Bank.forget (k : Bank) (n : Nat) : Bank := { k with backs := set none k.backs n none }

/-- A bank whose records of unperformed commands of engine `e` are changed by `f`. -/
def Bank.note (k : Bank) (e : Nat) (f : Back → Back) : Bank :=
  { k with backs := k.backs.map (fun p => (p.1, if (k.queue e).any (fun c => decide (c.seq = p.1)) then p.2.map f else p.2)) }

/-- A bank whose engine `e` merges the epochs of rows that its command `n` acquires as it is performed; the records of its later commands hold them too (10 R252). -/
def Bank.acquire (k : Bank) (e n : Nat) (rows : List FRow) : Bank :=
  let m := fun (v : Know) => rows.foldl (fun v x => merge v x.eng x.epoch) v
  { k.onStream e (fun t => { t with know := m t.know }) with
    backs := k.backs.map (fun p => (p.1, if n < p.1 ∧ (k.queue e).any (fun c => decide (c.seq = p.1)) then
      p.2.map (fun x => { x with t := { x.t with know := m x.t.know } }) else p.2)) }

/-- Command number `n` of engine `e`. -/
def Bank.cmd (k : Bank) (e n : Nat) : Option Cmd := (k.queue e).find? (fun c => c.seq = n)

/-- A bank without command number `n` of engine `e`: it has been performed. -/
def Bank.retire (k : Bank) (e n : Nat) : Bank := k.setQueue e ((k.queue e).filter (fun c => c.seq ≠ n))

/-- A bank with command number `n` of engine `e` changed. -/
def Bank.onCmd (k : Bank) (e n : Nat) (f : Cmd → Cmd) : Bank :=
  k.setQueue e ((k.queue e).map (fun c => if c.seq = n then f c else c))

/-- A fault that command `c` of engine `e` meets when it is performed: it stops the job, and the command is lost, since it cannot be performed; a race is precise (08 R210, 10 R249). -/
def State.cmdStop (s : State) (u b e : Nat) (c : Cmd) (f : Flt) (precise : Bool := false) : State :=
  (s.onBank u b (fun k => k.onCmd e c.seq (fun x => { x with held := true, lost := true }))).stopJob u b
    { code := f.code, eng := e, precise := precise || decide (f.code = 0x000B), da := f.da, db := f.db, dc := f.dc }

/-- Whether a command is a pending push. -/
def Cmd.isPush (c : Cmd) : Bool := match c.op with
  | .push _ _ => true
  | _ => false

/-- Whether a command is the entry of a nest. -/
def Cmd.isNest (c : Cmd) : Bool := match c.op with
  | .nest => true
  | _ => false

/-- Whether a command is an instance of a nest. -/
def Cmd.isInst (c : Cmd) : Bool := match c.op with
  | .copy x => decide (x.nestK ≠ 0)
  | _ => false

/-- Whether a command is a load of the control engine. -/
def Cmd.isLdg (c : Cmd) : Bool := match c.op with
  | .ldg _ _ => true
  | _ => false

/-- The commands of engine `e` that stand before command `n`. -/
def Bank.before (k : Bank) (e n : Nat) : List Cmd := (k.queue e).takeWhile (fun c => decide (c.seq ≠ n))

/-- A token FIFO. -/
def Bank.tokF (k : Bank) (f : Nat) : TokFifo := get {} k.tok f

/-- A bank with token FIFO `f` set. -/
def Bank.setTok (k : Bank) (f : Nat) (t : TokFifo) : Bank := { k with tok := set {} k.tok f t }

/-- A data FIFO: 0 fa, 1 fb, 2 fv, 3 fw (04 R98). -/
def Bank.dfifo (k : Bank) (f : Nat) : DFifo := get {} k.fifo f

/-- A bank with data FIFO `f` set. -/
def Bank.setFifo (k : Bank) (f : Nat) (t : DFifo) : Bank := { k with fifo := set {} k.fifo f t }

/-- A bank with a row appended to data FIFO `f` (06 R156, 09 R223). -/
def Bank.append (k : Bank) (f : Nat) (r : FRow) : Bank :=
  k.setFifo f { k.dfifo f with rows := (k.dfifo f).rows ++ [r] }

/-! ### Arrival words (08 R190 to R195) -/

/-- Field `i` (0 TARGET, 1 COUNT, 2 GEN, 3 EPF) of arrival word `w` in row bytes. -/
def arrField (r : Row) (w i : Nat) : Word := elem 32 r.data (4 * w + i)

/-- A row with the 16 bytes of arrival word `w` set. -/
def setArr (r : Row) (w : Nat) (f : List Word) : Row :=
  { r with data := ofLanes (fun j => if j / 4 = w then f.getD (j % 4) 0 else lane r.data j) }

/-- A row whose arrival word `w` has been written whole by `ARWINIT`: its granule is clean (05 R127, 08 R192). -/
def initArr (r : Row) (w : Nat) (f : List Word) : Row :=
  { setArr r w f with poison := ofGran (fun g => decide (g ≠ w) && r.poison.getLsbD g) }

/-- The hidden state of an arrival word. -/
def Bank.arrVec (k : Bank) (i : Nat) : ArrVec := get {} k.arr i

/-- A bank with it set. -/
def Bank.setArrVec (k : Bank) (i : Nat) (v : ArrVec) : Bank := { k with arr := set {} k.arr i v }

/-- The steps of a landing: COUNT, GEN and whether a step was made (08 R194). -/
def landSteps (t : Nat) (cnt : Nat) (gen : Word) : Nat × Word :=
  (cnt % t, gen + BitVec.ofNat 32 (cnt / t))

/-- Whether arrival word `i` of a bank is armed: live, with ARMED set (08 R190, R193). A data row that happens to hold that bit is none. -/
def State.armed (s : State) (u b i : Nat) : Bool :=
  ((s.bank u b).arrVec i).live && (arrField (s.row u b (i / 32)) (i % 32) 3).getLsbD 16

/-- A landing of `n` bytes on arrival word `i` of a bank, local from an engine with its epoch or not (08 R194). -/
def State.land (s : State) (u b i n : Nat) (from_ : Option (Nat × BitVec 13)) : State :=
  let k := s.bank u b
  let r := s.row u b (i / 32)
  let w := i % 32
  let epf := arrField r w 3
  if s.armed u b i = false then s
  else
    let c0 := (arrField r w 1).toNat + n
    let sat := decide (0xFFFFFFFF < c0)
    let c1 := if sat then 0xFFFFFFFF else c0
    let t := if arrField r w 0 = 0 then 2 ^ 32 else (arrField r w 0).toNat
    let av := k.arrVec i
    let a := match from_ with
      | some (e, ep) => merge av.a e ep
      | none => av.a
    let stepped := decide (t ≤ c1)
    let (c2, gen) := landSteps t c1 (arrField r w 2)
    let low := match from_ with
      | some (e, ep) => e * 8192 + ep.toNat
      | none => 7 * 8192
    let flags := epf.toNat / 65536 * 65536 ||| (if sat then 2 ^ 17 else 0)
    let epf' := if stepped then BitVec.ofNat 32 (flags + low) else BitVec.ofNat 32 (flags + epf.toNat % 65536)
    (s.setRow u b (i / 32) (setArr r w [arrField r w 0, BitVec.ofNat 32 c2, gen, epf'])).onBank u b
      (fun k => k.setArrVec i { av with a := a, s := if stepped then a else av.s })

end Sys2Proof.Machine
end

