-- ==== Sys2Proof/Machine/Operands.lean ====
section
/-!
DEFINITION. Register operands: every read and write of a register a stream can name goes through these (01 R14 to R19). Constants and aliases read as the spec says, and writes to them are discarded (03 R63).
-/

namespace Sys2Proof.Machine

/-- Index i0 of a stream (01 R20). -/
def Bank.i0 (k : Bank) (e : Nat) : Word := (k.stream e).lp0.idx

/-- Index i1 of a stream. -/
def Bank.i1 (k : Bank) (e : Nat) : Word := (k.stream e).lp1.idx

/-- Control register s0 to s31 (01 R14). -/
def Bank.rdS (k : Bank) (r : BitVec 5) : DWord :=
  if r = 0 then 0 else if r = 30 then zx (k.i1 0) else if r = 31 then zx (k.i0 0) else get 0 k.s r.toNat

/-- A write of a control register. -/
def Bank.wrS (k : Bank) (r : BitVec 5) (v : DWord) : Bank :=
  if r = 0 ∨ r = 30 ∨ r = 31 then k else { k with s := set 0 k.s r.toNat v }

/-- Predicate p0 to p7 (01 R14). -/
def Bank.rdP (k : Bank) (r : BitVec 3) : Bool := if r = 0 then true else get false k.p r.toNat

/-- A write of a predicate. -/
def Bank.wrP (k : Bank) (r : BitVec 3) (v : Bool) : Bank := if r = 0 then k else { k with p := set false k.p r.toNat v }

/-- Vector register v0 to v31 (01 R15). -/
def Bank.rdV (k : Bank) (r : BitVec 5) : Row := get {} k.v r.toNat

/-- A write of a vector register with its poison bits. -/
def Bank.wrV (k : Bank) (r : BitVec 5) (v : Row) : Bank := { k with v := set {} k.v r.toNat v }

/-- Mask m0 to m7 (01 R15). -/
def Bank.rdM (k : Bank) (r : BitVec 3) : BitVec 128 := if r = 0 then BitVec.allOnes 128 else get 0 k.m r.toNat

/-- A write of a mask. -/
def Bank.wrM (k : Bank) (r : BitVec 3) (v : BitVec 128) : Bank := if r = 0 then k else { k with m := set 0 k.m r.toNat v }

/-- Address register a0 to a7 (01 R15). -/
def Bank.rdA (k : Bank) (r : BitVec 3) : Word :=
  if r = 6 then k.i1 1 else if r = 7 then k.i0 1 else get 0 k.a r.toNat

/-- A write of an address register. -/
def Bank.wrA (k : Bank) (r : BitVec 3) (v : Word) : Bank :=
  if r = 6 ∨ r = 7 then k else { k with a := set 0 k.a r.toNat v }

/-- Constant k0 to k255 (01 R15). -/
def Bank.rdK (k : Bank) (r : BitVec 8) : Word := get 0 k.k r.toNat

/-- Copy register c0 to c15 of engine `e` (01 R16). -/
def Bank.rdC (k : Bank) (e : Nat) (r : BitVec 4) : Word :=
  if r = 0 then 0 else if r = 14 then k.i1 e else if r = 15 then k.i0 e else get 0 k.c (16 * e + r.toNat)

/-- A write of a copy register. -/
def Bank.wrC (k : Bank) (e : Nat) (r : BitVec 4) (v : Word) : Bank :=
  if r = 0 ∨ r = 14 ∨ r = 15 then k else { k with c := set 0 k.c (16 * e + r.toNat) v }

/-- Exchange register e0 to e7 (01 R17). -/
def Bank.rdE (k : Bank) (r : BitVec 3) : DWord := get 0 k.e r.toNat

/-- A write of an exchange register. -/
def Bank.wrE (k : Bank) (r : BitVec 3) (v : DWord) : Bank := { k with e := set 0 k.e r.toNat v }

/-- Branch target b0 to b7 of engine `e` (01 R18). -/
def Bank.rdB (k : Bank) (e : Nat) (r : BitVec 3) : BitVec 13 := get 0 (k.stream e).b r.toNat

/-- A write of a branch target, which keeps the low bits of its engine's width (01 R18). -/
def Bank.wrB (k : Bank) (e : Nat) (r : BitVec 3) (v : Nat) : Bank :=
  k.onStream e (fun t => { t with b := set 0 t.b r.toNat (wrapAddr e v) })

/-- A register of the scalar-class space of engine `e`, zero-extended (01 R19); an illegal number has been refused. -/
def Bank.scal (k : Bank) (e : Nat) (x : BitVec 5) : DWord :=
  match e with
  | 0 => k.rdS x
  | 1 => zx (k.rdA (BitVec.ofNat 3 x.toNat))
  | 3 => zx (k.rdC 3 (BitVec.ofNat 4 x.toNat))
  | 4 => zx (k.rdC 4 (BitVec.ofNat 4 x.toNat))
  | 5 => k.rdE (BitVec.ofNat 3 x.toNat)
  | _ => 0

/-- A write of a register of the scalar-class space, truncated to its width (13 R306). -/
def Bank.wrScal (k : Bank) (e r : Nat) (v : DWord) : Bank :=
  match e with
  | 0 => k.wrS (BitVec.ofNat 5 r) v
  | 1 => k.wrA (BitVec.ofNat 3 r) (v.setWidth 32)
  | 3 => k.wrC 3 (BitVec.ofNat 4 r) (v.setWidth 32)
  | 4 => k.wrC 4 (BitVec.ofNat 4 r) (v.setWidth 32)
  | 5 => k.wrE (BitVec.ofNat 3 r) v
  | _ => k

/-- The format-table entry that an instruction of engine `e` uses (07 R182). -/
def Bank.fmtEnt (k : Bank) (e : Nat) : Word := get 0 k.fmt ((k.csr.ftbase.toNat + (k.i0 e).toNat) % 16)

/-- The bytes of scalar data memory from `a` on (03 R74). -/
def Bank.sdmBytes (k : Bank) (a n : Nat) : List Byte := rdBytes k.sdm a n

/-- A bank with bytes of scalar data memory written. -/
def Bank.sdmWrite (k : Bank) (a : Nat) (bs : List Byte) : Bank := { k with sdm := wrBytes k.sdm a bs }

end Sys2Proof.Machine
end

