-- ==== Sys2Proof/Machine/Flags.lean ====
section
/-!
DEFINITION. The conditions of the control engine: this hardware has no flags (03 R63); a comparison writes a predicate.
-/

namespace Sys2Proof.Machine

/-- The condition of `CMP`: 0 eq, 1 ne, 2 lt, 3 ge, 4 ltu, 5 geu (02 R44, 03 R68). -/
def cond (x : BitVec 3) (a b : DWord) : Bool :=
  match x.toNat with
  | 0 => decide (a = b)
  | 1 => decide (a ≠ b)
  | 2 => a.slt b
  | 3 => !a.slt b
  | 4 => a.ult b
  | _ => !a.ult b

/-- The condition of `BRQ` on a FIFO: 0 to 3 on token FIFO `q`, 4 to 7 on a data FIFO (04 R98). -/
def Bank.fifoCond (k : Bank) (q : BitVec 4) (c : BitVec 3) : Bool :=
  let n := (k.tokF q.toNat).toks.length
  let rows := (k.dfifo q.toNat).rows
  match c.toNat with
  | 0 => decide (n = 0)
  | 1 => decide (1 ≤ n)
  | 2 => decide (n = 8)
  | 3 => decide (n < 8)
  | 4 => decide (rows.length = 0)
  | 5 => decide (1 ≤ rows.length)
  | 6 => match rows with
    | r :: _ => decide (r.row.poison ≠ 0)
    | [] => false
  | _ => match rows with
    | r :: _ => decide (r.row.poison = 0)
    | [] => false

/-- Signed minimum and maximum, unsigned minimum and maximum (03 R67). -/
def smin {n : Nat} (a b : BitVec n) : BitVec n := if a.slt b then a else b
def smax {n : Nat} (a b : BitVec n) : BitVec n := if a.slt b then b else a
def umin {n : Nat} (a b : BitVec n) : BitVec n := if a.ult b then a else b
def umax {n : Nat} (a b : BitVec n) : BitVec n := if a.ult b then b else a

end Sys2Proof.Machine
end

