-- ==== Sys2Proof/Machine/Control.lean ====
section
/-!
DEFINITION. The scalar instructions of the control engine: register forms, immediate forms, moves and scalar data memory (03 R62 to R77).
-/

namespace Sys2Proof.Machine

/-! ### Values -/

/-- The signed quotient truncated toward zero (03 R65, R66). -/
def divS (a b : DWord) : DWord :=
  if b = 0 then BitVec.allOnes 64 else BitVec.ofInt 64 (a.toInt.tdiv b.toInt)

/-- The signed remainder with the sign of the dividend (03 R65, R66). -/
def remS (a b : DWord) : DWord := if b = 0 then a else BitVec.ofInt 64 (a.toInt.tmod b.toInt)

/-- The unsigned quotient (03 R65, R66). -/
def divU (a b : DWord) : DWord := if b = 0 then BitVec.allOnes 64 else BitVec.ofNat 64 (a.toNat / b.toNat)

/-- The unsigned remainder (03 R65, R66). -/
def remU (a b : DWord) : DWord := if b = 0 then a else BitVec.ofNat 64 (a.toNat % b.toNat)

/-- The upper half of the signed product (03 R65). -/
def mulHS (a b : DWord) : DWord := BitVec.ofInt 64 (a.toInt * b.toInt / 2 ^ 64)

/-- The upper half of the unsigned product (03 R65). -/
def mulHU (a b : DWord) : DWord := BitVec.ofNat 64 (a.toNat * b.toNat / 2 ^ 64)

/-- The shift amount of a register operand, its low 6 bits (03 R67). -/
def shamt (b : DWord) : Nat := b.toNat % 64

/-- The position of a bit field (03 R71). -/
def fieldPos (b : DWord) : Nat := b.toNat % 64

/-- The width of a bit field (03 R71). -/
def fieldWidth (b : DWord) : Nat := b.toNat / 256 % 64 + 1

/-- BFX: the field of `a`, zero-extended (03 R71). -/
def bfxVal (a b : DWord) : DWord := BitVec.ofNat 64 (a.toNat / 2 ^ fieldPos b % 2 ^ fieldWidth b)

/-- BFI: `d` with the low bits of `a` in the field, whose bits above bit 63 do not exist (03 R71). -/
def bfiVal (d a b : DWord) : DWord :=
  let mask : DWord := BitVec.ofNat 64 ((2 ^ fieldWidth b - 1) * 2 ^ fieldPos b)
  (d &&& ~~~mask) ||| (BitVec.ofNat 64 (a.toNat * 2 ^ fieldPos b) &&& mask)

/-! ### Shapes -/

/-- A guarded register form: sd := f sa sb (03 R65). -/
def State.alu (s : State) (d a b : BitVec 5) (g : BitVec 3) (f : DWord → DWord → DWord) : Out :=
  s.eff 0 (fun k => if k.rdP g then k.wrS d (f (k.rdS a) (k.rdS b)) else k)

/-- A guarded form that writes a predicate (03 R68). -/
def State.aluP (s : State) (d g : BitVec 3) (f : Bank → Bool) : Out :=
  s.eff 0 (fun k => if k.rdP g then k.wrP d (f k) else k)

/-- An immediate form: sd := f sa (03 R72). -/
def State.aluI (s : State) (d a : BitVec 5) (f : DWord → DWord) : Out :=
  s.eff 0 (fun k => k.wrS d (f (k.rdS a)))

/-- The byte address of a scalar data memory access of `n` bytes (03 R75). -/
def Bank.cdAddr (k : Bank) (a : BitVec 5) (o : BitVec 12) (n : Nat) : DWord := k.rdS a + sx o * BitVec.ofNat 64 n

/-- The range and alignment checks of a scalar data memory access (03 R75, R76), before its effect. -/
def State.cd (s : State) (ea : DWord) (n : Nat) (f : Bank → Bank) : Out :=
  if 0xFFFF - (n - 1) < ea.toNat then s.fault 0 0x0004 ea 0
  else if ea.toNat % n ≠ 0 then s.fault 0 0x0005 ea 0
  else s.eff 0 f

/-- A load of `n` bytes (03 R75); `ext` extends the value read. -/
def State.load (s : State) (d a : BitVec 5) (o : BitVec 12) (n : Nat) (ext : Nat → DWord) : Out :=
  s.cd (s.me.cdAddr a o n) n (fun k => k.wrS d (ext (leNat (k.sdmBytes (k.cdAddr a o n).toNat n))))

/-- A store of the low `n` bytes (03 R75). -/
def State.store (s : State) (v a : BitVec 5) (o : BitVec 12) (n : Nat) : Out :=
  s.cd (s.me.cdAddr a o n) n (fun k => k.sdmWrite (k.cdAddr a o n).toNat (leBytes n (k.rdS v).toNat))

/-! ### Register forms -/

/-- ADD (03 R65). -/
def execAdd (d a b : BitVec 5) (g : BitVec 3) (s : State) : Out := s.alu d a b g (fun x y => x + y)

/-- SUB (03 R65). -/
def execSub (d a b : BitVec 5) (g : BitVec 3) (s : State) : Out := s.alu d a b g (fun x y => x - y)

/-- MUL (03 R65). -/
def execMul (d a b : BitVec 5) (g : BitVec 3) (s : State) : Out := s.alu d a b g (fun x y => x * y)

/-- MULH (03 R65). -/
def execMulh (d a b : BitVec 5) (g : BitVec 3) (s : State) : Out := s.alu d a b g (fun x y => mulHS x y)

/-- MULHU (03 R65). -/
def execMulhu (d a b : BitVec 5) (g : BitVec 3) (s : State) : Out := s.alu d a b g (fun x y => mulHU x y)

/-- DIV (03 R65, R66). -/
def execDiv (d a b : BitVec 5) (g : BitVec 3) (s : State) : Out := s.alu d a b g (fun x y => divS x y)

/-- DIVU (03 R65, R66). -/
def execDivu (d a b : BitVec 5) (g : BitVec 3) (s : State) : Out := s.alu d a b g (fun x y => divU x y)

/-- REM (03 R65, R66). -/
def execRem (d a b : BitVec 5) (g : BitVec 3) (s : State) : Out := s.alu d a b g (fun x y => remS x y)

/-- REMU (03 R65, R66). -/
def execRemu (d a b : BitVec 5) (g : BitVec 3) (s : State) : Out := s.alu d a b g (fun x y => remU x y)

/-- AND (03 R67). -/
def execAnd (d a b : BitVec 5) (g : BitVec 3) (s : State) : Out := s.alu d a b g (fun x y => x &&& y)

/-- OR (03 R67). -/
def execOr (d a b : BitVec 5) (g : BitVec 3) (s : State) : Out := s.alu d a b g (fun x y => x ||| y)

/-- XOR (03 R67). -/
def execXor (d a b : BitVec 5) (g : BitVec 3) (s : State) : Out := s.alu d a b g (fun x y => x ^^^ y)

/-- ANDN (03 R67). -/
def execAndn (d a b : BitVec 5) (g : BitVec 3) (s : State) : Out := s.alu d a b g (fun x y => x &&& ~~~y)

/-- SHL (03 R67). -/
def execShl (d a b : BitVec 5) (g : BitVec 3) (s : State) : Out := s.alu d a b g (fun x y => x <<< shamt y)

/-- SHR (03 R67). -/
def execShr (d a b : BitVec 5) (g : BitVec 3) (s : State) : Out := s.alu d a b g (fun x y => x >>> shamt y)

/-- SRA (03 R67). -/
def execSra (d a b : BitVec 5) (g : BitVec 3) (s : State) : Out := s.alu d a b g (fun x y => x.sshiftRight (shamt y))

/-- MIN (03 R67). -/
def execMin (d a b : BitVec 5) (g : BitVec 3) (s : State) : Out := s.alu d a b g (fun x y => smin x y)

/-- MAX (03 R67). -/
def execMax (d a b : BitVec 5) (g : BitVec 3) (s : State) : Out := s.alu d a b g (fun x y => smax x y)

/-- MINU (03 R67). -/
def execMinu (d a b : BitVec 5) (g : BitVec 3) (s : State) : Out := s.alu d a b g (fun x y => umin x y)

/-- MAXU (03 R67). -/
def execMaxu (d a b : BitVec 5) (g : BitVec 3) (s : State) : Out := s.alu d a b g (fun x y => umax x y)

/-- CMP (03 R68). -/
def execCmp (p : BitVec 3) (a b : BitVec 5) (g x : BitVec 3) (s : State) : Out :=
  s.aluP p g (fun k => cond x (k.rdS a) (k.rdS b))

/-- SEL (03 R69). -/
def execSel (d a b : BitVec 5) (p : BitVec 3) (s : State) : Out :=
  s.eff 0 (fun k => k.wrS d (if k.rdP p then k.rdS a else k.rdS b))

/-- CLZ (03 R70). -/
def execClz (d a : BitVec 5) (g : BitVec 3) (s : State) : Out :=
  s.eff 0 (fun k => if k.rdP g then k.wrS d (BitVec.ofNat 64 (clz64 (k.rdS a))) else k)

/-- POPC (03 R70). -/
def execPopc (d a : BitVec 5) (g : BitVec 3) (s : State) : Out :=
  s.eff 0 (fun k => if k.rdP g then k.wrS d (BitVec.ofNat 64 (popc 64 (k.rdS a).toNat)) else k)

/-- BFX (03 R71). -/
def execBfx (d a b : BitVec 5) (g : BitVec 3) (s : State) : Out := s.alu d a b g bfxVal

/-- BFI (03 R71): sd is also a source. -/
def execBfi (d a b : BitVec 5) (g : BitVec 3) (s : State) : Out :=
  s.eff 0 (fun k => if k.rdP g then k.wrS d (bfiVal (k.rdS d) (k.rdS a) (k.rdS b)) else k)

/-- PAND (03 R68). -/
def execPand (d a b g : BitVec 3) (s : State) : Out := s.aluP d g (fun k => k.rdP a && k.rdP b)

/-- POR (03 R68). -/
def execPor (d a b g : BitVec 3) (s : State) : Out := s.aluP d g (fun k => k.rdP a || k.rdP b)

/-- PXOR (03 R68). -/
def execPxor (d a b g : BitVec 3) (s : State) : Out := s.aluP d g (fun k => k.rdP a != k.rdP b)

/-- MOVP (03 R68). -/
def execMovp (d : BitVec 3) (a : BitVec 5) (g : BitVec 3) (s : State) : Out :=
  s.aluP d g (fun k => decide (k.rdS a ≠ 0))

/-! ### Immediate forms (03 R72) -/

/-- ADDI (03 R72). -/
def execAddi (d a : BitVec 5) (i : BitVec 12) (s : State) : Out := s.aluI d a (fun x => x + sx i)

/-- ANDI (03 R72). -/
def execAndi (d a : BitVec 5) (i : BitVec 12) (s : State) : Out := s.aluI d a (fun x => x &&& sx i)

/-- ORI (03 R72). -/
def execOri (d a : BitVec 5) (i : BitVec 12) (s : State) : Out := s.aluI d a (fun x => x ||| sx i)

/-- XORI (03 R72). -/
def execXori (d a : BitVec 5) (i : BitVec 12) (s : State) : Out := s.aluI d a (fun x => x ^^^ sx i)

/-- SHLI (03 R72). -/
def execShli (d a : BitVec 5) (i : BitVec 6) (s : State) : Out := s.aluI d a (fun x => x <<< i.toNat)

/-- SHRI (03 R72). -/
def execShri (d a : BitVec 5) (i : BitVec 6) (s : State) : Out := s.aluI d a (fun x => x >>> i.toNat)

/-- SRAI (03 R72). -/
def execSrai (d a : BitVec 5) (i : BitVec 6) (s : State) : Out := s.aluI d a (fun x => x.sshiftRight i.toNat)

/-- MULI (03 R72). -/
def execMuli (d a : BitVec 5) (i : BitVec 12) (s : State) : Out := s.aluI d a (fun x => x * sx i)

/-- MINI (03 R72). -/
def execMini (d a : BitVec 5) (i : BitVec 12) (s : State) : Out := s.aluI d a (fun x => smin x (sx i))

/-- MAXI (03 R72). -/
def execMaxi (d a : BitVec 5) (i : BitVec 12) (s : State) : Out := s.aluI d a (fun x => smax x (sx i))

/-- CMPEQI (03 R72). -/
def execCmpeqi (p : BitVec 3) (a : BitVec 5) (i : BitVec 12) (s : State) : Out :=
  s.eff 0 (fun k => k.wrP p (decide (k.rdS a = sx i)))

/-- CMPLTI (03 R72). -/
def execCmplti (p : BitVec 3) (a : BitVec 5) (i : BitVec 12) (s : State) : Out :=
  s.eff 0 (fun k => k.wrP p ((k.rdS a).slt (sx i)))

/-- CMPLTUI (03 R72). -/
def execCmpltui (p : BitVec 3) (a : BitVec 5) (i : BitVec 12) (s : State) : Out :=
  s.eff 0 (fun k => k.wrP p ((k.rdS a).ult (sx i)))

/-! ### Moves (03 R73) -/

/-- MOVI (03 R73). -/
def execMovi (d : BitVec 5) (i : BitVec 19) (s : State) : Out := s.eff 0 (fun k => k.wrS d (sx i))

/-- MOVL (03 R73). -/
def execMovl (d : BitVec 5) (lit : Word) (s : State) : Out := s.eff 0 (fun k => k.wrS d (sx lit))

/-- MOVLH (03 R73): the low half stays. -/
def execMovlh (d : BitVec 5) (lit : Word) (s : State) : Out :=
  s.eff 0 (fun k => k.wrS d (BitVec.ofNat 64 (lit.toNat * 2 ^ 32 + (k.rdS d).toNat % 2 ^ 32)))

/-! ### Scalar data memory (03 R74 to R77) -/

/-- LDB (03 R75). -/
def execLdb (d a : BitVec 5) (o : BitVec 12) (s : State) : Out := s.load d a o 1 (fun v => sx (BitVec.ofNat 8 v))

/-- LDBU (03 R75). -/
def execLdbu (d a : BitVec 5) (o : BitVec 12) (s : State) : Out := s.load d a o 1 (fun v => BitVec.ofNat 64 v)

/-- LDH (03 R75). -/
def execLdh (d a : BitVec 5) (o : BitVec 12) (s : State) : Out := s.load d a o 2 (fun v => sx (BitVec.ofNat 16 v))

/-- LDHU (03 R75). -/
def execLdhu (d a : BitVec 5) (o : BitVec 12) (s : State) : Out := s.load d a o 2 (fun v => BitVec.ofNat 64 v)

/-- LDW (03 R75). -/
def execLdw (d a : BitVec 5) (o : BitVec 12) (s : State) : Out := s.load d a o 4 (fun v => sx (BitVec.ofNat 32 v))

/-- LDWU (03 R75). -/
def execLdwu (d a : BitVec 5) (o : BitVec 12) (s : State) : Out := s.load d a o 4 (fun v => BitVec.ofNat 64 v)

/-- LDD (03 R75). -/
def execLdd (d a : BitVec 5) (o : BitVec 12) (s : State) : Out := s.load d a o 8 (fun v => BitVec.ofNat 64 v)

/-- STB (03 R75). -/
def execStb (v a : BitVec 5) (o : BitVec 12) (s : State) : Out := s.store v a o 1

/-- STH (03 R75). -/
def execSth (v a : BitVec 5) (o : BitVec 12) (s : State) : Out := s.store v a o 2

/-- STW (03 R75). -/
def execStw (v a : BitVec 5) (o : BitVec 12) (s : State) : Out := s.store v a o 4

/-- STD (03 R75). -/
def execStd (v a : BitVec 5) (o : BitVec 12) (s : State) : Out := s.store v a o 8

end Sys2Proof.Machine
end

