-- ==== Sys2Proof/Machine/Flow.lean ====
section
/-!
DEFINITION. The common stream class: branches, loops, tokens, arrival-word waits, clauses, traps (04; 08 R195, R201 to R207; 02 R41 to R43).
-/

namespace Sys2Proof.Machine

/-! ### Epoch rebase (10 R250) -/

/-- The value that replaces epoch `v`, with thresholds `ths` (10 R250). -/
def rebaseEp (ths : List Nat) (v : Nat) : Nat :=
  let c := (ths.eraseDups.filter (fun t => t < v)).length
  if ths.contains v then 2 * c + 2 else 2 * c + 1

/-- The epoch in a valid entry, if it is valid. -/
def epOf (x : BitVec 14) : Option Nat := if x.getLsbD 13 then some (x.toNat % 8192) else none

/-- The epochs of engine `f` that other parties hold: its thresholds (10 R250). -/
def Bank.heldEpochs (k : Bank) (f : Nat) : List Nat :=
  let ofKnow := (List.range 6).filterMap (fun g => if g = f then none else epOf (Know.at (k.stream g).know f))
  let ofTok := (k.tok.filter (fun p => p.2.prod = f)).flatMap (fun p => p.2.toks.map (fun t => t.toNat))
  let ofPush := ((k.queue f).filter (fun c => c.isPush)).map (fun c => c.epoch.toNat)
  let ofRow := k.fifo.flatMap (fun p => (p.2.rows.filter (fun r => r.eng = f)).map (fun r => r.epoch.toNat))
  let ofArr := (k.arr.filter (fun p => p.2.live)).flatMap (fun p =>
    [epOf (Know.at p.2.a f), epOf (Know.at p.2.s f)].filterMap id)
  (ofKnow ++ ofTok ++ ofPush ++ ofRow ++ ofArr).eraseDups

/-- The epochs of engine `f` in what the model keeps of a waiting `DSYNC`, of unperformed commands, a started array operation and landings not yet counted (log entry 44). -/
def Bank.keptEpochs (k : Bank) (f : Nat) : List Nat :=
  let ofSnap := match k.job with
    | some j => (epOf (Know.at j.snap f)).toList
    | none => []
  let ofBack := k.backs.flatMap (fun p => match p.2 with
    | none => []
    | some x => (if (k.queue f).any (fun c => decide (c.seq = p.1)) then [] else (epOf (Know.at x.t.know f)).toList)
        ++ (x.pops.filter (fun y => decide ((k.tokF y.1).prod = f))).flatMap (fun y => y.2.map (fun t => t.toNat))
        ++ x.arws.flatMap (fun y => if y.2.2.2.live then [epOf (Know.at y.2.2.2.a f), epOf (Know.at y.2.2.2.s f)].filterMap id else []))
  let ofRun := match k.run with
    | some r => ((r.popA ++ r.popB).filter (fun x => decide (x.eng = f))).map (fun x => x.epoch.toNat)
    | none => []
  let ofLand := (k.landings.filter (fun l => decide (l.eng = some f))).map (fun l => l.epoch.toNat)
  (ofSnap ++ ofBack ++ ofRun ++ ofLand).eraseDups

/-- The thresholds of the rebase of engine `f` (10 R250). What the model keeps besides counts only as far as the rebased E_f stays below 600 (log entry 44). -/
def Bank.thresholds (k : Bank) (f : Nat) : List Nat :=
  let held := k.heldEpochs f
  held ++ ((k.keptEpochs f).filter (fun v => !held.contains v)).take (299 - held.length)

/-- A vector of epochs after the rebase of engine `f`. -/
def rebaseKnow (ths : List Nat) (f : Nat) (v : Know) : Know :=
  v.map (fun p => if p.1 = f ∧ p.2.getLsbD 13 then (p.1, validEp (BitVec.ofNat 13 (rebaseEp ths (p.2.toNat % 8192)))) else p)

/-- An epoch after the rebase. -/
def rebase13 (ths : List Nat) (x : BitVec 13) : BitVec 13 := BitVec.ofNat 13 (rebaseEp ths x.toNat)

/-- A race tag after the rebase of engine `f`. -/
def rebaseTag (ths : List Nat) (f : Nat) (x : Tag) : Tag :=
  { x with we := if x.wr = eng3 f then rebase13 ths x.we else x.we, re := rebaseKnow ths f x.re }

/-- The EPF of an arrival word last stepped by engine `f`, after the rebase (10 R250). The control engine lands nothing; its number stands in a word that no landing has stepped. -/
def rebaseEpf (ths : List Nat) (f : Nat) (epf : Word) : Word :=
  if f ≠ 0 ∧ epf.toNat / 8192 % 8 = f ∧ epf.getLsbD 16 then
    BitVec.ofNat 32 (epf.toNat / 8192 * 8192 + rebaseEp ths (epf.toNat % 8192))
  else epf

/-- The record of a command after the rebase of engine `f`; `own` says that the command is one of that engine's. -/
def Back.rebase (k : Bank) (ths : List Nat) (f : Nat) (own : Bool) (x : Back) : Back :=
  { x with
    t := { x.t with know := rebaseKnow ths f x.t.know, epoch := if own then rebase13 ths x.t.epoch else x.t.epoch }
    pops := x.pops.map (fun y => if (k.tokF y.1).prod = f then (y.1, y.2.map (rebase13 ths)) else y)
    arws := x.arws.map (fun y => (y.1, y.2.1.modify 3 (rebaseEpf ths f), y.2.2.1,
      { y.2.2.2 with a := rebaseKnow ths f y.2.2.2.a, s := rebaseKnow ths f y.2.2.2.s })) }

/-- A row that a started array operation has popped, after the rebase. -/
def FRow.rebase (ths : List Nat) (f : Nat) (r : FRow) : FRow := if r.eng = f then { r with epoch := rebase13 ths r.epoch } else r

/-- A bank after the rebase of engine `f`: knowledge, tokens, FIFO rows, commands, arrival vectors, tile tags, noted accesses, the epochs that a waiting `DSYNC` will merge, and the counter itself (10 R250). -/
def Bank.rebase (k : Bank) (f : Nat) : Bank :=
  let ths := k.thresholds f
  { k with
    streams := k.streams.map (fun p => (p.1, { p.2 with
      know := rebaseKnow ths f p.2.know, epoch := if p.1 = f then rebase13 ths p.2.epoch else p.2.epoch }))
    tok := k.tok.map (fun p => (p.1, if p.2.prod = f then { p.2 with toks := p.2.toks.map (rebase13 ths) } else p.2))
    fifo := k.fifo.map (fun p => (p.1, { p.2 with
      rows := p.2.rows.map (FRow.rebase ths f) }))
    run := k.run.map (fun r => { r with popA := r.popA.map (FRow.rebase ths f), popB := r.popB.map (FRow.rebase ths f) })
    job := k.job.map (fun j => { j with snap := rebaseKnow ths f j.snap })
    cmds := k.cmds.map (fun p => (p.1, if p.1 = f then p.2.map (fun c => { c with epoch := rebase13 ths c.epoch }) else p.2))
    nests := k.nests.map (fun p => (p.1, if p.1 = f then p.2.map (fun n => { n with epoch := rebase13 ths n.epoch }) else p.2))
    arr := k.arr.map (fun p => (p.1, { p.2 with a := rebaseKnow ths f p.2.a, s := rebaseKnow ths f p.2.s }))
    landings := k.landings.map (fun l => if l.eng = some f then { l with epoch := rebase13 ths l.epoch } else l)
    backs := k.backs.map (fun p => (p.1, p.2.map (Back.rebase k ths f ((k.queue f).any (fun c => decide (c.seq = p.1))))))
    ttags := k.ttags.map (fun p => (p.1, rebaseTag ths f p.2)) }

/-- A row whose arrival word `w` has the EPF of the rebase of engine `f`. -/
def rebaseArr (ths : List Nat) (f w : Nat) (r : Row) : Row :=
  setArr r w [arrField r w 0, arrField r w 1, arrField r w 2, rebaseEpf ths f (arrField r w 3)]

/-- A command at a bank unit after the rebase of engine `f` of bank `b` of unit `u`: a `BKRUN` carries an epoch of the exchange engine. -/
def BCmd.rebase (ths : List Nat) (u b f : Nat) (c : BCmd) : BCmd :=
  if f = 5 ∧ c.u = u ∧ c.b = b then { c with ep := rebase13 ths c.ep } else c

/-- A bank unit after that rebase. -/
def BUnit.rebase (ths : List Nat) (u b f : Nat) (x : BUnit) : BUnit :=
  { x with cmd := x.cmd.map (BCmd.rebase ths u b f), queue := x.queue.map (BCmd.rebase ths u b f)
           wr := x.wr.map (fun w => { w with cmd := w.cmd.rebase ths u b f }) }

/-- The state after the rebase of engine `f` of a bank's job: the bank, the tags of its window, the EPF of its live arrival words, and its commands at bank units. -/
def State.rebase (s : State) (u b f : Nat) : State :=
  let k := s.bank u b
  let ths := k.thresholds f
  let c := s.core u
  let s1 := s.setCore u { c with
    tags := c.tags.map (fun p => if k.base ≤ p.1 ∧ p.1 < k.base + k.rows then (p.1, rebaseTag ths f p.2) else p) }
  let s2 := (k.arr.filter (fun p => p.2.live)).foldl
    (fun acc p => acc.setRow u b (p.1 / 32) (rebaseArr ths f (p.1 % 32) (acc.row u b (p.1 / 32)))) s1
  ({ s2 with bunits := s2.bunits.map (fun (p : Nat × BUnit) => (p.1, p.2.rebase ths u b f)) }).onBank u b (fun k => k.rebase f)

/-! ### The static pause (16 R353) -/

/-- The job's own pause: every stream of a static job stops issuing, and the instruction of engine `e` waits for the end of the pause. -/
def Job.pauseFor (j : Job) (e : Nat) : Job := { j with paused := true, pauseBy := some e }

/-- Whether a job is a static job. -/
def Bank.isStatic (k : Bank) : Bool := match k.job with
  | some j => j.static
  | none => false

/-- An instruction of engine `e` that ends a segment of a static job: it takes its effect at once in any other job; in a static job only once the pause that it causes has ended (16 R353). -/
def State.segment (s : State) (e : Nat) (w : WaitOn) (go : State → Out) : Out :=
  match s.me.job with
  | none => go s
  | some j =>
    if j.static = false then go s
    else if j.passed = some e then go (s.onMe (fun k => k.onJob (fun j => { j with passed := none })))
    else (s.onMe (fun k => k.onJob (fun j => j.pauseFor e))).waits e w

/-- An instruction that acts at once and whose completion ends a segment of a static job: the pause begins with it (16 R353). -/
def State.pauseOn (s : State) : State :=
  if s.me.isStatic then s.onMe (fun k => k.onJob (fun j => { j with paused := true, pauseBy := none })) else s

/-- An instruction of engine `e` that ends a segment of a static job only if it must wait (16 R353): it waits on `w` while `must` holds, else it acts. -/
def State.orWait (s : State) (e : Nat) (w : WaitOn) (must : Bool) (go : State → Out) : Out :=
  if must then
    (if s.me.isStatic then s.onMe (fun k => k.onJob (fun j => j.pauseFor e)) else s).waits e w
  else go (s.onMe (fun k => k.onJob (fun j => { j with passed := if j.passed = some e then none else j.passed })))

/-! ### The instructions -/

/-- NOP (04 R100). -/
def execNop (e : BitVec 3) (s : State) : Out := s.eff e.toNat id

/-- The `n` at which a stream of the job other than `e` waits at a `CLAUSE`. -/
def Bank.atClause (k : Bank) (e : Nat) : Option (BitVec 16) :=
  (List.range 6).findSome? (fun g => if g = e then none else match (k.stream g).phase with
    | .clause n => some n
    | _ => none)

/-- Whether a stream other than `e` has executed `JOIN`. -/
def Bank.otherJoined (k : Bank) (e : Nat) : Bool :=
  anyBelow 6 (fun g => decide (g ≠ e) && decide ((k.stream g).phase = .joined))

/-- All ones, where the clause-mismatch fault has no n or m (08 R207). -/
def noClause : DWord := BitVec.allOnes 64

/-- Whether the job's `HIST` is unperformed (13 R310). -/
def Bank.histPending (k : Bank) : Bool := (k.queue 0).any (fun c => match c.op with
  | .hist _ _ _ => true
  | _ => false)

/-- JOIN (08 R201, R207, 04 R109, 13 R310): the stream issues nothing more. -/
def execJoin (e : BitVec 3) (s : State) : Out :=
  let k := s.me
  if e = 0 ∧ k.csr.th = true then s.illegal 0
  else match k.atClause e.toNat with
    | some n => s.fault e.toNat 0x000F (zx n) noClause
    | none =>
      if k.histPending = true then s.waits e.toNat .inner
      else .next (s.onMe (fun k => (k.advance e.toNat).onStream e.toNat (fun t => { t with phase := .joined })))

/-- CLAUSE (08 R206, R207, 01 R26): the stream waits at the clause until the boundary forms. -/
def execClause (e : BitVec 3) (n : BitVec 16) (s : State) : Out :=
  let k := s.me
  if e = 0 ∧ k.csr.th = true then s.illegal 0
  else match k.atClause e.toNat with
    | some m =>
      if m = n then .next (s.onMe (fun k => k.onStream e.toNat (fun t => { t with phase := .clause n })))
      else s.fault e.toNat 0x000F (zx m) (zx n)
    | none =>
      if k.otherJoined e.toNat then s.fault e.toNat 0x000F noClause (zx n)
      else .next (s.onMe (fun k => k.onStream e.toNat (fun t => { t with phase := .clause n })))

/-- A bank in which the tokens that the stream of engine `e` pops are noted in the records of its commands that are not performed (08 R210). -/
def Bank.notePop (k : Bank) (e f : Nat) (l : List (BitVec 13)) : Bank :=
  k.note e (fun x => { x with pops := x.pops ++ [(f, l)] })

/-- WAITK (08 R203, R205): takes n tokens and merges the epoch of the last. -/
def execWaitk (e : BitVec 3) (f : BitVec 4) (n : BitVec 3) (s : State) : Out :=
  let t := s.me.tokF f.toNat
  if t.bound = false ∨ t.cons ≠ e.toNat then s.fault e.toNat 0x0010 (zx f) 0
  else if t.toks.length < count n then s.waits e.toNat (.token f.toNat)
  else s.eff e.toNat (fun k =>
    ((k.setTok f.toNat { t with toks := t.toks.drop (count n) }).learn e.toNat t.prod (t.toks.getD (count n - 1) 0)).notePop
      e.toNat f.toNat (t.toks.take (count n)))

/-- The places that commands take in an engine queue; `inst` says that an instance stands before them. A nest is a command until it is performed; while no instance of it stands in the queue the place of its next one is kept beside its own (09 R216, R226; log entry 21). -/
def placesOf : Bool → List Cmd → Nat
  | _, [] => 0
  | inst, c :: cs => if c.isNest then (if inst then 1 else 2) + placesOf false cs else 1 + placesOf (inst || c.isInst) cs

/-- The places taken in the queue of engine `e`, of 8. -/
def Bank.places (k : Bank) (e : Nat) : Nat := placesOf false (k.queue e)

/-- Whether a command of a copy or exchange engine reaches memory or another unit. -/
def Cmd.usesMemory (c : Cmd) : Bool := match c.op with
  | .copy x => decide (x.kind ≠ .bincfg ∧ x.kind ≠ .pusha ∧ x.kind ≠ .pushb)
  | .push _ _ => false
  | _ => true

/-- Whether the queue of engine `e` is full and waits on memory, so that a command at Q0 waits on it too (08 R208, R209). -/
def Bank.memoryFull (k : Bank) (e : Nat) : Bool := decide (8 ≤ k.places e) && (k.queue e).any Cmd.usesMemory

/-- Whether a `SIGK` of engine `e` finds its place: at most 4 pending pushes, or 8 commands in a copy or exchange engine (08 R204). -/
def Bank.pushRoom (k : Bank) (e : Nat) : Bool :=
  if e < 3 then decide (((k.queue e).filter (fun c => c.isPush)).length < 4) else decide (k.places e < 8)

/-- Whether a pending push of engine `e` is held by a full token FIFO alone: that FIFO (08 R204, R208). -/
def Bank.pushHeld (k : Bank) (e : Nat) : Option Nat := match k.queue e with
  | [] => none
  | c :: _ => match c.op with
    | .push f n => if 8 < (k.tokF f).toks.length + n then some f else none
    | _ => none

/-- What an instruction of engine `e` that finds no place in its queue waits on: memory, a full token FIFO, or an earlier command (08 R208, R213; log entry 90). -/
def Bank.roomWait (k : Bank) (e : Nat) : WaitOn :=
  if 3 ≤ e ∧ k.memoryFull e = true then .remote 0 else match k.pushHeld e with
    | some f => .token f
    | none => .inner

/-- SIGK (08 R203, R204, 10 R242, R250): makes a pending push that carries E, and advances E. -/
def execSigk (e : BitVec 3) (f : BitVec 4) (n : BitVec 3) (s : State) : Out :=
  let t := s.me.tokF f.toNat
  if t.bound = false ∨ t.prod ≠ e.toNat then s.fault e.toNat 0x0010 (zx f) 0
  else if s.me.pushRoom e.toNat = false then s.waits e.toNat (s.me.roomWait e.toNat)
  else
    let s1 := if (s.me.stream e.toNat).epoch = 8191 then s.rebase s.cur s.curB e.toNat else s
    s1.eff e.toNat (fun k => (k.issueCmd e.toNat (.push f.toNat (count n))).onStream e.toNat
      (fun t => { t with epoch := t.epoch + 1 }))

/-- The object that a fault names for an arrival word (08 R213, WOBJ). -/
def arrObj (a : Word) : DWord := BitVec.ofNat 64 (a.toNat / 16 % 65536)

/-- WAITAW (08 R195): waits until GEN has reached y, then merges the word's snapshot. -/
def execWaitaw (e : BitVec 3) (x y : BitVec 5) (s : State) : Out :=
  let k := s.me
  let a : Word := (k.scal e.toNat x).setWidth 32
  let g : Word := (k.scal e.toNat y).setWidth 32
  let r := s.row s.cur s.curB (rowOf a)
  let w := arrOf a % 32
  let remote := (arrField r w 3).getLsbD 18
  let go := fun (s : State) => s.eff e.toNat (fun k0 =>
    let v := k0.arrVec (arrOf a)
    let k := k0.note e.toNat (fun x => { x with gens := (arrOf a, e.toNat, get (BitVec.allOnes 32) v.gens e.toNat) :: x.gens })
    (k.setArrVec (arrOf a) { v with gens := set (BitVec.allOnes 32) v.gens e.toNat g }).onStream e.toNat
      (fun t => { t with know := mergeAll t.know v.s }))
  if k.rows ≤ rowOf a then s.flt e.toNat (k.rangeFlt a.toNat)
  else if s.armed s.cur s.curB (arrOf a) = false then s.fault e.toNat 0x000D (arrObj a) 3
  else if remote ∧ k.isStatic = true then s.segment e.toNat (.arrival a remote) go
  else if 2 ^ 31 ≤ (arrField r w 2 - g).toNat then s.waits e.toNat (.arrival a remote)
  else go s

/-- A loop word at level `l` with a count and an offset (04 R101). -/
def State.loopWord (s : State) (e l n o : Nat) : Out :=
  let k := s.me
  let t := k.stream e
  let a := t.q0.addr
  let stop := wrapAddr e (a.toNat + o)
  if t.q1.addr ≠ k.succ e a ∨ t.q2.addr ≠ k.succ e t.q1.addr ∨ t.q1.null = true ∨ t.q2.null = true
      ∨ ((t.lp (1 - l)).act = true ∧ (t.lp (1 - l)).stop = stop) then s.illegal e
  else .next (s.onMe (fun k =>
    let t1 := (t.setLp l { start := k.succ e a, stop := stop, cnt := BitVec.ofNat 33 n, idx := 0, act := true }).loopEnd a
    k.setStream e (k.refill e { t1 with wait := .none, waited := 0 } (k.succ e a))))

/-- LOOP (04 R101). -/
def execLoop (e : BitVec 3) (l : BitVec 1) (n o : BitVec 10) (s : State) : Out :=
  s.loopWord e.toNat l.toNat (count n) o.toNat

/-- LOOPR (04 R101): the count comes from a register, 0 meaning 2^32. -/
def execLoopr (e : BitVec 3) (l : BitVec 1) (x : BitVec 5) (o : BitVec 10) (s : State) : Out :=
  s.loopWord e.toNat l.toNat (count ((s.me.scal e.toNat x).setWidth 32 : Word)) o.toNat

/-- PBR (04 R94). -/
def execPbr (e n : BitVec 3) (o : BitVec 18) (s : State) : Out :=
  s.eff e.toNat (fun k => k.wrB e.toNat n ((zx (k.stream e.toNat).q0.addr + sx o).toNat))

/-- PBRR (04 R95). -/
def execPbrr (e n : BitVec 3) (x : BitVec 5) (s : State) : Out :=
  s.eff e.toNat (fun k => k.wrB e.toNat n (k.scal e.toNat x).toNat)

/-- A bank after a branch of engine `e` through bn (04 R97): the queue advances, the link goes to b7, the delay slots are nullified. -/
def Bank.branch (k : Bank) (e : Nat) (n : BitVec 3) (taken : Bool) (u : BitVec 2) (link : Bool) : Bank :=
  let back := (k.advanced e none).q2.addr
  let k1 := k.advance e (if taken then some (k.rdB e n) else none)
  let k2 := if taken && link then k1.wrB e 7 back.toNat else k1
  if (u = 1 ∧ taken = false) ∨ (u = 2 ∧ taken = true) then
    k2.onStream e (fun t => { t with q0 := { t.q0 with null := true }, q1 := { t.q1 with null := true } })
  else k2

/-- BR (04 R97). -/
def execBr (e n k : BitVec 3) (p : BitVec 1) (u : BitVec 2) (l : BitVec 1) (s : State) : Out :=
  .next (s.onMe (fun b => b.branch e.toNat n (b.rdP k != decide (p = 1)) u (decide (l = 1))))

/-- BRQ (04 R98, R99): observes a FIFO and takes nothing from it. -/
def execBrq (e n : BitVec 3) (q : BitVec 4) (c : BitVec 3) (u : BitVec 2) (s : State) : Out :=
  .next (s.onMe (fun b => b.branch e.toNat n (b.fifoCond q c) u false))

/-- TRAP (04 R108, R109): in the control engine it enters the handler; with TH = 1 it is the double-trap fault, in another engine the stream-trap fault. -/
def execTrap (e : BitVec 3) (c : BitVec 16) (s : State) : Out :=
  if e ≠ 0 then s.fault e.toNat 0x0014 (zx c) 0
  else if s.me.csr.th then s.fault 0 0x0013 (zx c) 0
  else .next (s.onMe (fun k => (k.advance 0).enterTrap c 2))

/-- TRET (04 R109). -/
def execTret (s : State) : Out :=
  if s.me.csr.th = false then s.illegal 0
  else .next (s.onMe (fun k => (k.onStream 0 (fun t => t.loopEnd t.q0.addr)).leaveTrap))

/-- A stream that gets one further pending exit if a level of it is active (04 R105). -/
def Stream.addExit (t : Stream) : Stream :=
  if t.inner = none ∨ t.phase = .idle then t else { t with exits := t.exits + 1 }

/-- Whether an access of the control engine is unperformed (03 R80, 13 R310). -/
def Bank.accesses (k : Bank) : Bool := (k.queue 0).any (fun c => !c.isPush)

/-- SETLEAVE (04 R105): from the cycle after it issues, each stream with an active level holds one further pending exit, the matrix stream as its records hold it too (08 R210). It issues once no earlier access of the control engine could still fault, since an exit that another stream has taken cannot be taken back (log entry 44). -/
def execSetleave (s : State) : Out :=
  if s.me.accesses then s.waits 0 (.remote 0)
  else .next (s.onMe (fun k =>
    let k1 := (k.note 2 (fun x => { x with t := x.t.addExit })).advance 0
    { k1 with streams := k1.streams.map (fun p => (p.1, p.2.addExit)) }))

end Sys2Proof.Machine
end

