-- ==== Sys2Proof/Machine/Memory.lean ====
section
/-!
DEFINITION. Global memory: tensors and their layout, windows, views and their checks, coverage, translation, phase stamps and tile tags, and the accesses that jobs make (05 R121 to R128; 09 R217 to R219; 10 R258; 12; 13 R318, R319; 14).
-/

namespace Sys2Proof.Machine

/-! ### Layout (12 R280 to R286, 09 R218) -/

/-- The bits of an element of a format: 0 FP32, 1 BF16, 2 INT32, 3 FP64, 4 U8, 5 MXINT8, 6 MXINT6, 7 MXINT4. -/
def elemBits : Nat → Nat
  | 0 => 32 | 1 => 16 | 2 => 32 | 3 => 64 | 4 => 8 | 5 => 8 | 6 => 6 | _ => 4

/-- The elements of a 512-byte row (09 R218). -/
def rowElems : Nat → Nat
  | 0 => 128 | 1 => 256 | 2 => 128 | 3 => 64 | 4 => 512 | 5 => 512 | 6 => 672 | _ => 1024

/-- Whether a format is an MX format. -/
def isMx (fmt : Nat) : Bool := decide (5 ≤ fmt ∧ fmt ≤ 7)

/-- The bytes of a frame of a size code (12 R280). -/
def frameBytes (c : Nat) : Nat := 4096 * 4 ^ c

/-- The bytes of a page of 4 KiB, the unit of frame addresses (12 R286). -/
def pageSize : Nat := 4096

/-- The bytes of a stack by tier: store, far, near (00 R3, 12 R291). -/
def stackBytes (tier : Nat) : Nat := if tier = 0 then 2 ^ 41 else if tier = 1 then 96 * 2 ^ 30 else 64 * 2 ^ 30

/-- The stacks of a tier (00 R1, 12 R286). -/
def stacksOf (tier : Nat) : Nat := if tier = 0 then 8 else if tier = 3 then 1 else 24

/-- Whether `n` bytes at byte address `a` lie inside a stack of the package; host memory has no end (00 R1, R3; log entry 78). -/
def stackHolds (tier stack a n : Nat) : Bool :=
  decide (stack < stacksOf tier) && (decide (tier = 3) || decide (a + n ≤ stackBytes tier))

/-- Coordinate, extent or bound `d` of a list of six. -/
def dim (l : List Nat) (d : Nat) : Nat := l.getD d 0

/-- The tile number of coordinates by the ORDER digits (12 R282). -/
def tileNo (ts ext x : List Nat) : List Nat → Nat
  | [] => 0
  | d :: ds => dim x d / dim ts d + dim ext d / dim ts d * tileNo ts ext x ds

/-- The element number inside a tile, dimension 0 fastest (12 R282). -/
def inTile (ts x : List Nat) : List Nat → Nat
  | [] => 0
  | d :: ds => dim x d % dim ts d + dim ts d * inTile ts x ds

/-- The bit offset of element `q` among rows of a format. -/
def elemBit (fmt q : Nat) : Nat := q / rowElems fmt * 4096 + q % rowElems fmt * elemBits fmt

/-- The bytes of the pieces in which a tensor is reached: its tiles, or for a DIRECT tensor its pages of 4 KiB, to which its base is aligned (12 R281, R284). -/
def Tensor.pieceBytes (t : Tensor) : Nat := if t.tiled then frameBytes t.fsz else pageSize

/-- Where element `x` lies: the tile, or for a DIRECT tensor the page of its window, and the bit offset inside it (12 R282, R284). -/
def Tensor.loc (t : Tensor) (x : List Nat) : Nat × Nat :=
  if t.tiled then
    (tileNo t.tsh t.ext x (t.order.take t.ndim), elemBit t.fmt (inTile t.tsh x (List.range t.ndim)))
  else
    let bit := elemBit t.fmt (dim x 0) + 8 * ((List.range 5).map (fun d => dim x (d + 1) * dim t.stride d)).sum
    (bit / (8 * pageSize), bit % (8 * pageSize))

/-- The number of tiles of a TILED tensor. -/
def Tensor.tileCount (t : Tensor) : Nat :=
  ((List.range t.ndim).map (fun d => dim t.ext d / dim t.tsh d)).foldl (· * ·) 1

/-- The bytes of a tensor's window (12 R283, R284). DESIGN CHOICE: that of a DIRECT tensor ends one row of 512 bytes after the start of the row that holds its last element, not after that element's own byte (log entry 104). -/
def Tensor.windowBytes (t : Tensor) : Nat :=
  if t.tiled then t.tileCount * frameBytes t.fsz
  else elemBit t.fmt (dim t.ext 0 - 1) / 4096 * 512
    + ((List.range 5).map (fun d => (dim t.ext (d + 1) - 1) * dim t.stride d)).sum + 512

/-- The tile coordinates of tile number `n` by the ORDER digits: dimension and coordinate. -/
def tileCoords (ts ext : List Nat) (n : Nat) : List Nat → List (Nat × Nat)
  | [] => []
  | d :: ds =>
    let c := dim ext d / dim ts d
    (d, n % c) :: tileCoords ts ext (n / c) ds

/-- Whether tile `n` holds an element of box `b` (14 R335). -/
def Tensor.tileIn (t : Tensor) (n : Nat) (b : Box) : Bool :=
  (List.range 6).all (fun d => decide (dim b.lo d < dim b.hi d)) &&
  (tileCoords t.tsh t.ext n (t.order.take t.ndim)).all (fun p =>
    decide (dim b.lo p.1 < (p.2 + 1) * dim t.tsh p.1) && decide (p.2 * dim t.tsh p.1 < dim b.hi p.1))

/-! ### Boxes and runs (09 R218, 14 R321) -/

/-- Whether a box is empty (14 R321). -/
def Box.empty (b : Box) : Bool := anyBelow 6 (fun d => decide (dim b.hi d ≤ dim b.lo d))

/-- Whether a coordinate lies in a box. -/
def Box.has (b : Box) (x : List Nat) : Bool :=
  (List.range 6).all (fun d => decide (dim b.lo d ≤ dim x d) && decide (dim x d < dim b.hi d))

/-- Whether box `a` lies inside box `b` (14 R321). -/
def Box.inside (a b : Box) : Bool :=
  a.empty || (List.range 6).all (fun d => decide (dim b.lo d ≤ dim a.lo d) && decide (dim a.hi d ≤ dim b.hi d))

/-- The elements of a box. -/
def Box.volume (b : Box) : Nat := ((List.range 6).map (fun d => dim b.hi d - dim b.lo d)).foldl (· * ·) 1

/-- The position of a coordinate in the raster order of a box. -/
def Box.pos (b : Box) (x : List Nat) : List Nat → Nat
  | [] => 0
  | d :: ds => (dim x d - dim b.lo d) + (dim b.hi d - dim b.lo d) * Box.pos b x ds

/-- The coordinates at a position of the raster order (09 R218). -/
def Box.at (b : Box) : Nat → List Nat → List Nat
  | _, [] => []
  | i, d :: ds =>
    let w := dim b.hi d - dim b.lo d
    (dim b.lo d + i % w) :: Box.at b (i / w) ds

/-- The six dimensions. -/
def dims : List Nat := [0, 1, 2, 3, 4, 5]

/-- The start point of a run: for an MX tensor the low 5 bits of coordinate 0 are ignored (09 R218). -/
def startPoint (fmt : Nat) (x : List Nat) : List Nat :=
  if isMx fmt then (dim x 0 / 32 * 32) :: x.tail else x

/-- The coordinates of the `E` elements of row `t` of the run from `p` in a box (09 R218). -/
def rowCoords (fmt : Nat) (b : Box) (p : List Nat) (t : Nat) : List (List Nat) :=
  (List.range (rowElems fmt)).map (fun i => b.at (b.pos p dims + t * rowElems fmt + i) dims)

/-! ### Views (14 R322, R323) -/

/-- The handle of a view form (14 R322). -/
def formHandle (f : Word) : Nat := f.toNat % 2 ^ 20

/-- The view that a form names, for a job of partition `p` (14 R323; log entry 17). -/
def State.viewOf (s : State) (p : Nat) (f : Word) : Option View :=
  let v := get {} s.views (formHandle f)
  if v.used ∧ v.gen.toNat = f.toNat / 2 ^ 20 ∧ formHandle f ≠ 0 ∧ v.part = p then some v else none

/-- A tensor by its id. -/
def State.tensor (s : State) (tid : Nat) : Option Tensor := get none s.tensors tid

/-- The state with a tensor changed. -/
def State.onTensor (s : State) (tid : Nat) (f : Tensor → Tensor) : State :=
  { s with tensors := set none s.tensors tid ((s.tensor tid).map f) }

/-- The coverage count of a tile: the views whose box holds an element of it (14 R335). -/
def State.covCount (s : State) (t : Tensor) (n : Nat) : Nat :=
  (s.views.filter (fun p => p.2.used && decide (p.2.tid = t.id) && t.tileIn n p.2.box)).length

/-- DB of a widening fault (14 R334). -/
def wideDb (reason d v : Nat) : DWord := BitVec.ofNat 64 (reason * 2 ^ 56 + d * 2 ^ 48 + v % 2 ^ 48)

/-- The lowest dimension in which a coordinate lies outside a box. -/
def Box.outDim (b : Box) (x : List Nat) : Nat :=
  ((List.range 6).find? (fun d => !(decide (dim b.lo d ≤ dim x d) && decide (dim x d < dim b.hi d)))).getD 0

/-- The widening fault of a run of `m` elements from `p`, if the run leaves the box (09 R219 order 4, 14 R465). DESIGN CHOICE: a negative coordinate stands in VALUE as its 32 bits, extended by zeros (log entry 42). -/
def Box.runFlt (b : Box) (f : Word) (p : List Nat) (m : Nat) : Option Flt :=
  if !b.has p then some { code := 0x0008, da := zx f, db := wideDb 2 (b.outDim p) (dim p (b.outDim p)) }
  else if b.volume < b.pos p dims + m then some { code := 0x0008, da := zx f, db := wideDb 2 5 (dim b.hi 5) }
  else none

/-- Whether a view's tensor may be reached by a static job: DIRECT and homed on the job's die (16 R351). -/
def Job.reaches (j : Job) (t : Tensor) (die : Nat) : Bool := !j.static || (!t.tiled && decide (t.home = die))

/-- The die of a unit: C-dies 0 to 7 with 24 cores, M-dies 8 to 15 with 32; a lane core belongs to the die that drives its stack, a store core to none (12 R286, R291, 19 R372). -/
def dieOf (u : Nat) : Nat :=
  if u < 192 then u / 24 else if u < 448 then 8 + (u - 192) / 32
  else if u < 496 then (let f := (u - 448) / 2; if f < 8 then f else 8 + (f - 8) / 2)
  else 16 + (u - 496) / 16

/-- Whether a form names a view of a job's partition, not stale, of a tensor whose format satisfies `bad` (02 R34: an instruction that its format makes illegal). -/
def State.formFmt (s : State) (p : Nat) (f : Word) (bad : Nat → Bool) : Bool :=
  match (s.viewOf p f).bind (fun v => s.tensor v.tid) with
  | some t => bad t.fmt
  | none => false

/-- Orders 2 and 3 of R219: the view and its tensor, if the form is not stale and grants the rights. -/
def State.checkView (s : State) (j : Job) (u : Nat) (f : Word) (r w : Bool) : Except Flt (View × Tensor) :=
  match s.viewOf j.part f with
  | none => .error { code := 0x0009, da := zx f }
  | some v =>
    match s.tensor v.tid with
    | none => .error { code := 0x0009, da := zx f }
    | some t =>
      if (r ∧ v.r = false) ∨ (w ∧ v.w = false) ∨ j.reaches t (dieOf u) = false then
        .error { code := 0x0007, da := zx f }
      else .ok (v, t)

/-- Orders 2 to 4 of R219 for a run of `n` rows from `x`. -/
def State.checkRun (s : State) (j : Job) (u : Nat) (f : Word) (r w : Bool) (x : List Nat) (n : Nat) :
    Except Flt Chk :=
  match s.checkView j u f r w with
  | .error e => .error e
  | .ok (v, t) =>
    match v.box.runFlt f (startPoint t.fmt x) (n * rowElems t.fmt) with
    | some e => .error e
    | none => .ok { form := f, tid := t.id, box := v.box }

/-! ### Windows and translation (12 R283 to R290) -/

/-- The tensor of partition `p` whose window holds flat address `va` (12 R285); one that has been freed has none. -/
def State.window (s : State) (p va : Nat) : Option Tensor :=
  ((somes s.tensors).find? (fun q => !q.2.freed && decide (q.2.part = p) && decide (q.2.wbase ≤ va)
    && decide (va < q.2.wbase + q.2.windowBytes))).map Prod.snd

/-- Tile, or page of a DIRECT tensor, and byte offset of a flat address in a tensor's window. -/
def Tensor.ofFlat (t : Tensor) (va : Nat) : Nat × Nat :=
  ((va - t.wbase) / t.pieceBytes, (va - t.wbase) % t.pieceBytes)

/-- The stamp granule of tile or page `n`: the tile itself; for a DIRECT tensor the frame of its window that holds the page (24 R466). -/
def Tensor.granule (t : Tensor) (n : Nat) : Nat := if t.tiled then n else n * pageSize / frameBytes t.fsz

/-- The flat address at which tile or page `n` starts. -/
def Tensor.flat (t : Tensor) (n : Nat) : Nat := t.wbase + n * t.pieceBytes

/-- The flat address of the tile, or of the stamp granule of a DIRECT tensor, that holds piece `n`: what a race names (13 R319). -/
def Tensor.raceAt (t : Tensor) (n : Nat) : Nat := t.wbase + t.granule n * frameBytes t.fsz

/-- The address in `State.mem` of a byte of a stack or of host memory (log entry 10). -/
def physAddr (tier stack off : Nat) : Nat := (tier * 32 + stack) * 2 ^ 64 + off

/-- Host memory (log entry 11). -/
def hostAddr (a : Nat) : Nat := physAddr 3 0 a

/-- The tile-table entry of a tile. -/
def Tensor.tile (t : Tensor) (n : Nat) : Tile := get {} t.tiles n

/-- Whether a partition translates through stage 2: every one but that of the physical function (12 R288). -/
def stage2On (p : Nat) : Bool := decide (p ≠ 0)

/-- Whether a tile-table entry is valid (12 R286): one that names a stack which the package does not hold, or without stage 2 a frame beyond its end, is not (log entry 78). -/
def Tensor.tileOk (t : Tensor) (n : Nat) : Bool :=
  let e := t.tile n
  e.v && decide (e.fbase.toNat % 4 ^ t.fsz = 0) && decide (e.stack.toNat < stacksOf e.tier.toNat)
  && (stage2On t.part || stackHolds e.tier.toNat e.stack.toNat (e.fbase.toNat * pageSize) (frameBytes t.fsz))

/-- The place of a partition frame table entry: partition, frame size code, index (12 R288). -/
def s2Key (p fsz i : Nat) : Nat := (p * 16 + fsz) * 2 ^ 41 + i

/-- A translation: a machine frame, or the miss with its stage: 1, 2, 3 for host memory (12 R290, R298), 4 for a pending tile of a weight image (23 R449); or a write that stage 2 forbids. -/
inductive Trans where
  | frame (tier stack base : Nat)
  | miss (stage : Nat)
  | noWrite
  /-- held behind a move fence (19 R379) -/
  | held
  deriving DecidableEq, Repr

/-- The stage-2 entry through which a tensor's frame is reached: for a DIRECT tensor the one that every buffer of its partition holds locked since it was created, if one is (16 R352). -/
def State.s2Of (s : State) (t : Tensor) (i : Nat) : S2 :=
  let key := s2Key t.part t.fsz i
  let e : S2 := get {} t.locked key
  if e.v then e else get {} s.stage2 key

/-- Whether a stage-2 entry maps a frame of `tier` and `stack`: valid, of the same tier and stack, and with a machine frame that the stack holds (12 R288; log entry 78). -/
def S2.maps (e : S2) (tier stack fsz : Nat) : Bool :=
  e.v && decide (e.tier.toNat = tier) && decide (e.stack.toNat = stack)
  && stackHolds tier stack (e.mbase.toNat * pageSize) (frameBytes fsz)

/-- Stage 2 of the piece of `t` at `tier`, `stack` and intermediate byte address `a`: the machine frame, and the place of `a` in it (12 R284, R288). DESIGN CHOICE: a piece in host memory does not pass through the partition frame table; ATS alone translates it (log entry 104). -/
def State.stage2Of (s : State) (t : Tensor) (tier stack a : Nat) (write : Bool) : Trans :=
  if stage2On t.part = false ∨ tier = 3 then .frame tier stack a
  else
    let e := s.s2Of t (a / frameBytes t.fsz)
    if e.maps tier stack t.fsz = false then .miss 2
    else if write ∧ e.w = false then .noWrite
    else .frame tier stack (e.mbase.toNat * pageSize + a % frameBytes t.fsz)

/-- The number that stands for an access without a PASID: one that no job makes (log entry 11). -/
def noPasid : Nat := 2 ^ 20

/-- Whether the host translates a page under a PASID (12 R289). -/
def State.hostOk (s : State) (pasid page : Nat) : Bool := !get false s.ats (pasid * 2 ^ 52 + page)

/-- What a host access is tagged with: the function whose PASID table is asked, and the PASID of the packet (12 R289, 22 R420). -/
structure Pasid where
  fn : Nat
  id : Nat
  deriving DecidableEq, Repr

/-- An access without a PASID. -/
def Pasid.none : Pasid := { fn := 0, id := noPasid }

/-- The tag of a job's accesses, and of those that the device makes for it: the PASID of its launch packet (12 R289). -/
def Job.asid (j : Job) : Pasid := { fn := j.fn, id := j.pasid }

/-- The tag of the accesses that the device makes for a packet (12 R289). -/
def Packet.asid (p : Packet) : Pasid := { fn := p.fn, id := p.pasid }

/-- The tag of the accesses of a bank's job. -/
def Bank.pasid (k : Bank) : Pasid := match k.job with
  | some j => j.asid
  | .none => { fn := 0, id := 0 }

/-- Whether the function holds the PASID, or the access has none (22 R420). -/
def State.pasidHeld (s : State) (x : Pasid) : Bool :=
  decide (x.id = noPasid) || (get {} s.funcs x.fn : Func).pasid.any (fun e => decide (e.2.toNat = 2 ^ 20 + x.id))

/-- The machine frame of tile `n` of a TILED tensor, or of page `n` of a DIRECT one, which never misses (12 R284, R286 to R290; log entry 18). `offs` are the bytes of the frame that the access reaches; where it is host memory ATS translates the page of each. -/
def State.translate (s : State) (t : Tensor) (n : Nat) (x : Pasid) (write : Bool) (offs : List Nat := [0]) : Trans :=
  if t.tiled then
    let e := t.tile n
    if e.pend then .miss 4
    else if t.tileOk n = false then .miss 1
    else if e.tier = 3 then
      (if s.pasidHeld x = true ∧ offs.all (fun o => s.hostOk x.id (e.fbase.toNat + o / pageSize)) = true then .frame 3 0 (e.fbase.toNat * pageSize) else .miss 3)
    else s.stage2Of t e.tier.toNat e.stack.toNat (e.fbase.toNat * pageSize) write
  else
    let stack := t.tbase / 2 ^ 36 % 32
    let a := t.tbase % 2 ^ 36 + n * pageSize
    match s.stage2Of t 2 stack a write with
    | .miss _ => .frame 2 stack a
    | r => r

/-- The entry of unit `u`'s tile translation buffer for a tile (12 R287). -/
def State.look (s : State) (u tid n : Nat) : Option Ttb :=
  (s.core u).ttb.find? (fun x => decide (x.tid = tid) && decide (x.tile = n))

/-- The translation that an access of unit `u` finds: the buffer's entry, else the walk. An access that has not departed is held while the tile's move fence holds (12 R287, R295, 19 R379). -/
def State.transAt (s : State) (u : Nat) (t : Tensor) (n : Nat) (pasid : Pasid) (write : Bool) (offs : List Nat := [0]) : Trans :=
  match s.look u t.id n with
  | some x =>
    if (t.tile n).mf ∧ x.lent = false then .held
    else if write ∧ x.w = false then .noWrite
    else .frame x.tier x.stack x.base
  | none => if t.tiled ∧ (t.tile n).mf = true then .held else s.translate t n pasid write offs

/-! ### Phase stamps and tile tags (13 R318, R319, 10 R258) -/

/-- The number of a tile tag in a bank: tensor and granule. -/
def tagKey (tid n : Nat) : Nat := tid * 2 ^ 40 + n

/-- The phase stamp of a tile, or of the granule that holds a page of a DIRECT tensor. -/
def Tensor.stamp (t : Tensor) (n : Nat) : Stamp := if t.tiled then (t.tile n).stamp else get {} t.stamps (t.granule n)

/-- A tensor with that stamp set. -/
def Tensor.setStamp (t : Tensor) (n : Nat) (x : Stamp) : Tensor :=
  if t.tiled then { t with tiles := set {} t.tiles n { t.tile n with stamp := x } }
  else { t with stamps := set {} t.stamps (t.granule n) x }

/-- The number of a domain in the table: level, scope instance, id (13 R313). -/
def domKey (level scope id : Nat) : Nat := (level * 2 ^ 20 + scope) * 2 ^ 16 + id

/-- The scope instance that a stamp of level `l` of a job names: found from PCORE, the writer's unit, at levels 0 and 1, from PDIE at level 2; else that of the job's domain (13 R318). -/
def Job.scope (j : Job) (l : Nat) : Nat :=
  match l with
  | 0 => j.writer
  | 1 => j.writer / 4
  | 2 => j.die
  | _ => j.dscope

/-- The stamp of a job's private phase (13 R313, R318). -/
def Job.privateStamp (j : Job) : Stamp :=
  { pdom := BitVec.ofNat 16 (j.wbank * 2 ^ 15), plvl := 0, pcore := BitVec.ofNat 10 j.writer, pnum := j.ppn,
    pdie := BitVec.ofNat 4 j.die, scope := j.jid, pkt := j.packet }

/-- The stamp that a plain write of a job writes (13 R318). -/
def State.stampOf (s : State) (j : Job) (k : Bank) : Stamp :=
  let id := k.csr.dmrId
  let l := k.csr.dmrLevel.toNat
  if id = 0 then
    j.privateStamp
  else
    let d := (get none s.domains (domKey l j.dscope id.toNat)).getD {}
    { pdom := if l = 0 then BitVec.ofNat 16 (j.wbank * 2 ^ 15 + id.toNat) else id, plvl := k.csr.dmrLevel,
      pcore := BitVec.ofNat 10 j.writer, pnum := d.pn, pdie := BitVec.ofNat 4 j.die, scope := j.scope l, pkt := j.packet }

/-- Whether some bank holds the job with number `i`. -/
def State.placedJob (s : State) (i : Nat) : Bool :=
  s.units.any (fun p => (match p.2.b0.job with | some j => decide (j.jid = i) | none => false)
    || (match p.2.b1.job with | some j => decide (j.jid = i) | none => false))
  || (somes s.parts).any (fun p => p.2.saved.any (fun x => x.job.jid = i))

/-- Whether a stamp names a private phase. -/
def Stamp.isPrivate (x : Stamp) : Bool := decide (x.plvl = 0) && decide (x.pdom.toNat % 2 ^ 15 = 0)

/-- Whether a stamp is open (13 R318, 22 R421). -/
def State.stampOpen (s : State) (x : Stamp) : Bool :=
  !x.shut && decide (x.pcore ≠ 0x3FF) &&
  (if x.isPrivate then s.placedJob x.scope
   else
    let id := if x.plvl = 0 then x.pdom.toNat % 2 ^ 15 else x.pdom.toNat
    match get none s.domains (domKey x.plvl.toNat x.scope id) with
    | some d => decide (d.pn = x.pnum)
    | none => false)

/-- Whether a stamp names the writer's own phase and identity (13 R319). -/
def Stamp.same (x mine : Stamp) : Bool :=
  decide (x.plvl = mine.plvl) && decide (x.pdom = mine.pdom) && decide (x.scope = mine.scope)
  && decide (x.pnum = mine.pnum) && decide (x.pcore = mine.pcore)

/-- Whether a stamp names the phase of a job's domain, or its private phase, and its writer (13 R319). -/
def State.ownStamp (s : State) (j : Job) (k : Bank) (x : Stamp) : Bool := x.same (s.stampOf j k) || x.same j.privateStamp

/-- What an access is to the race rules. -/
inductive AccKind where
  | read | write | atomic
  deriving DecidableEq, Repr

/-- The step of R319 and R258: engine `e` of bank `b` of unit `u`, stamped `ep`, accesses tile or granule `n` of `t`. A plain write stamps the tile; an atomic stamps it as R318 says; an access of the same phase is checked and marked in the tile tag, an atomic as a write. -/
def State.raceTile (s : State) (u b e : Nat) (ep : BitVec 13) (t : Tensor) (n : Nat) (a : AccKind) :
    Except Flt State :=
  let k := s.bank u b
  match k.job with
  | none => .ok s
  | some j =>
    let x := t.stamp n
    let mine := s.stampOf j k
    let opn := s.stampOpen x
    let same := s.ownStamp j k x
    let bad := opn && (if a = .atomic then decide (x.pcore ≠ 0x3FE) && !same else decide (x.pcore = 0x3FE) || !same)
    if bad then .error { code := 0x000B, da := BitVec.ofNat 64 (t.raceAt n), db := zx x.pcore, dc := BitVec.ofNat 32 e }
    else
      let key := tagKey t.id (t.granule n)
      let tag := if same then get {} k.ttags key else {}
      match (if same then tag.race (k.stream e).know e (decide (a ≠ .read)) else none) with
      | some g => .error (raceFlt (t.raceAt n) g e)
      | none =>
        let s1 := match a with
          | .read => s
          | .write => s.onTensor t.id (fun t => t.setStamp n mine)
          | .atomic => s.onTensor t.id (fun t => t.setStamp n
              (if opn then { x with pcore := 0x3FE } else { mine with pcore := 0x3FE }))
        let tagged := same || decide (a = .write)
        .ok (if tagged then
          s1.onBank u b (fun k => { k with ttags := set {} k.ttags key (tag.mark e ep (decide (a ≠ .read))) })
        else s1)

/-! ### Bytes -/

/-- Whether any granule of `n` bytes at `a` is poisoned. -/
def State.poisoned (s : State) (a n : Nat) : Bool :=
  (List.range ((a + n - 1) / 16 - a / 16 + 1)).any (fun i => get false s.poison (a / 16 + i))

/-- The bits `lo` to `lo + w - 1` of memory from byte address `a` on. -/
def State.memBits (s : State) (a lo w : Nat) : Nat :=
  leNat (rdBytes s.mem (a + lo / 8) ((lo % 8 + w + 7) / 8)) / 2 ^ (lo % 8) % 2 ^ w

/-- Memory with those bits written. -/
def State.setMemBits (s : State) (a lo w v : Nat) : State :=
  let n := (lo % 8 + w + 7) / 8
  let old := leNat (rdBytes s.mem (a + lo / 8) n)
  let sh := 2 ^ (lo % 8)
  let cleared := old / (sh * 2 ^ w) * (sh * 2 ^ w) + old % sh
  { s with mem := wrBytes s.mem (a + lo / 8) (leBytes n (cleared + v % 2 ^ w * sh)) }

/-- Whether a byte offset inside a tile falls in the pad bytes of an MXINT6 row (12 R283). -/
def Tensor.pad (t : Tensor) (off : Nat) : Bool := decide (t.fmt = 6) && decide (504 ≤ off % 512)

/-- Marks a partition's frame dirty in its stage-2 entry; while the dirty log is on, a D bit newly set is logged (12 R288, 22 R436). -/
def State.dirtyFrame (s : State) (p fsz ia : Nat) : State :=
  let key := s2Key p fsz (ia / frameBytes fsz)
  let x := get {} s.stage2 key
  if stage2On p = false ∨ x.d ∨ x.v = false then s
  else
    let s1 := { s with stage2 := set {} s.stage2 key { x with d := true } }
    { s1 with parts := set none s1.parts p ((get none s1.parts p).map (fun q =>
        if q.dirty = none then q else { q with dlPend := q.dlPend ++ [BitVec.ofNat 64 (ia / frameBytes fsz * frameBytes fsz + fsz)] })) }

/-- The tier and the intermediate byte address of piece `n` as the tile table, or a DIRECT tensor's base, has it now (12 R284, R286). -/
def Tensor.iaNow (t : Tensor) (n : Nat) : Nat × Nat :=
  if t.tiled then ((t.tile n).tier.toNat, (t.tile n).fbase.toNat * pageSize) else (2, t.tbase % 2 ^ 36 + n * pageSize)

/-- The tier and the intermediate byte address through which unit `u` reaches piece `n`: those of its buffer's entry, else the present ones (12 R287, R288). -/
def State.iaOf (s : State) (u : Nat) (t : Tensor) (n : Nat) : Nat × Nat := match s.look u t.id n with
  | some x => (x.tier, x.ia)
  | none => t.iaNow n

/-- Marks piece `n`, and its frame by the stage-2 entry of intermediate address `via` through which a write has gone, dirty (12 R286, R288). -/
def State.dirtyVia (s : State) (t : Tensor) (n : Nat) (via : Nat × Nat) : State :=
  let s1 := if t.tiled then s.onTensor t.id (fun t => { t with tiles := set {} t.tiles n { t.tile n with d := true } }) else s
  if via.1 = 3 then s1 else s1.dirtyFrame t.part t.fsz via.2

/-- Marks a tile and its frame dirty at a write through the present translation (12 R286, R288). -/
def State.dirty (s : State) (t : Tensor) (n : Nat) : State := s.dirtyVia t n (t.iaNow n)

/-- Whether a partition's dirty log holds more entries than its ring has room for (22 R436). -/
def State.logOver (s : State) (p : Nat) : Bool := match get none s.parts p with
  | some q => (match q.dirty with
    | some (_, k) => decide (2 ^ k + q.dlHead < q.dlTail + q.dlPend.length)
    | none => false)
  | none => false

/-- The state `t` after a move that writes frames of partition `p`; the move waits where the dirty log is full (22 R436). -/
def State.ifRoom (s : State) (p : Nat) (t : State) : State := if t.logOver p then s else t

/-! ### Accesses -/

/-- What an access meets instead of its effect: a fault, a translation miss of a tile with its stage, whether it writes and its own flat address, or a hold: behind a move fence, or of a write for which the dirty log is full (22 R436). -/
inductive Stop where
  | flt (f : Flt)
  | miss (tid n stage : Nat) (write : Bool) (va : Nat)
  | held
  deriving DecidableEq, Repr

/-- Translates piece `n`, of which it reaches the named bytes, and makes the race step, in the order of R79 (orders 3, 5, 6): the machine frame's address and the state. -/
def State.reach (s : State) (u b e : Nat) (ep : BitVec 13) (t : Tensor) (n : Nat) (a : AccKind) (offs : List Nat) :
    Except Stop (Nat × State) :=
  match s.transAt u t n (s.bank u b).pasid (decide (a ≠ .read)) offs with
  | .miss st => .error (.miss t.id n st (decide (a ≠ .read)) (t.flat n + offs.headD 0))
  | .held => .error .held
  | .noWrite => .error (.flt { code := 0x0007, da := BitVec.ofNat 64 (t.flat n) })
  | .frame tier stack base =>
    match s.raceTile u b e ep t n a with
    | .error f => .error (.flt f)
    | .ok s1 =>
      if a = .read then .ok (physAddr tier stack base, s1)
      else
        let s2 := s1.dirtyVia t n (s.iaOf u t n)
        if s2.logOver t.part then .error .held else .ok (physAddr tier stack base, s2)

/-- Reaches every tile of a list, at the named bytes of it; the state and the frames. -/
def State.reachAll (s : State) (u b e : Nat) (ep : BitVec 13) (t : Tensor) (a : AccKind) :
    List (Nat × List Nat) → Except Stop (Map Nat × State)
  | [] => .ok ([], s)
  | n :: ns =>
    match s.reach u b e ep t n.1 a n.2 with
    | .error x => .error x
    | .ok (f, s1) =>
      match s1.reachAll u b e ep t a ns with
      | .error x => .error x
      | .ok (m, s2) => .ok ((n.1, f) :: m, s2)

/-- Where the elements of a row lie: index in the row, tile, bit offset. -/
def Tensor.locs (t : Tensor) (cs : List (List Nat)) : List (Nat × Nat × Nat) :=
  (cs.zipIdx).map (fun p => (p.2, (t.loc p.1).1, (t.loc p.1).2))

/-- The tiles that elements lie in, each once, with the bytes of it that they reach. -/
def tilesOf (ls : List (Nat × Nat × Nat)) : List (Nat × List Nat) :=
  ((ls.map (fun l => l.2.1)).eraseDups).map (fun n => (n, (ls.filter (fun l => decide (l.2.1 = n))).map (fun l => l.2.2 / 8)))

/-- The machine byte address of an element and its bit in that byte. -/
def elemAddr (fr : Map Nat) (l : Nat × Nat × Nat) : Nat := get 0 fr l.2.1

/-- Row `r` of a run read from global memory (09 R218, R220): the row with its poison bits (05 R127), its pad bytes zero (05 R122). -/
def State.readRun (s : State) (u b e : Nat) (ep : BitVec 13) (t : Tensor) (cs : List (List Nat)) :
    Except Stop (Row × State) :=
  let ls := t.locs cs
  let w := elemBits t.fmt
  match s.reachAll u b e ep t .read (tilesOf ls) with
  | .error x => .error x
  | .ok (fr, s1) =>
    let vals := ls.map (fun l => s.memBits (elemAddr fr l) l.2.2 w)
    let bad := (ls.filter (fun l => s.poisoned (elemAddr fr l + l.2.2 / 8) ((w + 7) / 8))).map (fun l => l.1 * w / 128)
    .ok ({ data := BitVec.ofNat 4096 (gatherN w (fun i => vals.getD i 0) 0 (rowElems t.fmt)),
           poison := ofGran (fun g => bad.contains g) }, s1)

/-- The row as memory after the elements `ls` have been written. -/
def State.writeElems (s : State) (fr : Map Nat) (w : Nat) (r : Row) : List (Nat × Nat × Nat) → State
  | [] => s
  | l :: ls => (s.setMemBits (elemAddr fr l) l.2.2 w (r.data.toNat / 2 ^ (w * l.1) % 2 ^ w)).writeElems fr w r ls

/-- The granules that a row's elements touch in memory: granule address, the bits of it written, the row's granules that feed it. -/
def granules (fr : Map Nat) (ls : List (Nat × Nat × Nat)) : List Nat :=
  (ls.map (fun l => (elemAddr fr l + l.2.2 / 8) / 16)).eraseDups

/-- Poison after a write of a row's elements: a granule written whole takes the bit of the row's granules that feed it; a granule written in part keeps its bit (05 R127). Pad bytes count as written (09 R220). -/
def State.writePoison (s : State) (t : Tensor) (fr : Map Nat) (w : Nat) (r : Row) (ls : List (Nat × Nat × Nat)) : State :=
  (granules fr ls).foldl (fun acc g =>
    let here := ls.filter (fun l => (elemAddr fr l + l.2.2 / 8) / 16 = g)
    let full := decide (128 ≤ here.length * w + (if t.fmt = 6 ∧ g % 32 = 31 then 64 else 0) + (if t.fmt = 6 then 4 else 0))
    let bad := here.any (fun l => r.poison.getLsbD (l.1 * w / 128))
    if full then { acc with poison := set false acc.poison g bad } else acc) s

/-- A row written as row of a run of global memory (09 R220, R221): its elements, its pad bytes as zero, its poison. -/
def State.writeRun (s : State) (u b e : Nat) (ep : BitVec 13) (t : Tensor) (cs : List (List Nat)) (r : Row) :
    Except Stop State :=
  let ls := t.locs cs
  let w := elemBits t.fmt
  match s.reachAll u b e ep t .write (tilesOf ls) with
  | .error x => .error x
  | .ok (fr, s1) =>
    let s2 := s1.writeElems fr w r ls
    let s3 := if t.fmt = 6 then
        ((ls.filter (fun l => l.2.2 % 4096 = 671 * 6)).foldl
          (fun acc l => acc.setMemBits (elemAddr fr l) (l.2.2 / 4096 * 4096 + 4032) 64 0) s2)
      else s2
    .ok (s3.writePoison t fr w r ls)

/-- The checks of a flat access of `n` bytes at issue: alignment and window (03 R79 orders 1 and 2, 09 R236); the tensor. -/
def State.flatAt (s : State) (j : Job) (u n : Nat) (va : DWord) : Except Flt Tensor :=
  if va.toNat % n ≠ 0 then .error { code := 0x0006, da := va }
  else match s.window j.part va.toNat with
    | none => .error { code := 0x0007, da := va }
    | some t => if j.reaches t (dieOf u) then .ok t else .error { code := 0x0007, da := va }

/-- Orders 3 and 4 of R79: a write to a read-only tensor, a tile that no view covers (14 R343). -/
def State.flatFlt (s : State) (t : Tensor) (va : DWord) (write : Bool) : Option Flt :=
  let n := (t.ofFlat va.toNat).1
  if write ∧ t.ro then some { code := 0x0007, da := va }
  else if t.covered ∧ s.covCount t n = 0 then some { code := 0x0008, da := 0, db := wideDb 3 0 va.toNat }
  else none

/-- A read of `n` bytes at a flat address (03 R79 orders 3 to 7): the value. -/
def State.readFlat (s : State) (u b e : Nat) (ep : BitVec 13) (t : Tensor) (va : DWord) (n : Nat) :
    Except Stop (Nat × State) :=
  match s.flatFlt t va false with
  | some f => .error (.flt f)
  | none =>
    let (i, off) := t.ofFlat va.toNat
    match s.reach u b e ep t i .read [off] with
    | .error x => .error x
    | .ok (f, s1) =>
      if s.poisoned (f + off) n then .error (.flt { code := 0x000A, da := va, db := 1 })
      else .ok (if t.pad off then 0 else leNat (rdBytes s.mem (f + off) n), s1)

/-- A write of bytes at a flat address (03 R79 orders 3 to 6); a poison bit of a part of a granule stays (05 R127). -/
def State.writeFlat (s : State) (u b e : Nat) (ep : BitVec 13) (t : Tensor) (va : DWord) (bs : List Byte) :
    Except Stop State :=
  match s.flatFlt t va true with
  | some f => .error (.flt f)
  | none =>
    let (i, off) := t.ofFlat va.toNat
    match s.reach u b e ep t i .write [off] with
    | .error x => .error x
    | .ok (f, s1) => .ok (if t.pad off then s1 else { s1 with mem := wrBytes s1.mem (f + off) bs })

/-- One read-modify-write of `n` bytes at a flat address (09 R236, R237): the old value and the state. -/
def State.atomFlat (s : State) (u b e : Nat) (ep : BitVec 13) (t : Tensor) (va : DWord) (n : Nat) (f : Nat → Nat) :
    Except Stop (Nat × State) :=
  match s.flatFlt t va true with
  | some x => .error (.flt x)
  | none =>
    let (i, off) := t.ofFlat va.toNat
    match s.reach u b e ep t i .atomic [off] with
    | .error x => .error x
    | .ok (a, s1) =>
      if s.poisoned (a + off) n then .error (.flt { code := 0x000A, da := va, db := 1 })
      else
        let old := if t.pad off then 0 else leNat (rdBytes s.mem (a + off) n)
        .ok (old, if t.pad off then s1 else { s1 with mem := wrBytes s1.mem (a + off) (leBytes n (f old)) })

/-- The byte of memory at a flat address in the window of `t`, as the device itself reaches it under tag `x` (12 R285, R289); none where it misses, or where stage 2 forbids the write (12 R288). -/
def State.devAddr (s : State) (t : Tensor) (va : Nat) (x : Pasid) (write : Bool) : Option Nat :=
  match s.translate t (t.ofFlat va).1 x write [(t.ofFlat va).2] with
  | .frame tier stack base => some (physAddr tier stack base + (t.ofFlat va).2)
  | _ => none

/-- The byte that the device reads there: zero in the pad bytes of an MXINT6 row (12 R283). -/
def State.devByte (s : State) (t : Tensor) (va : Nat) (x : Pasid) : Option Byte :=
  (s.devAddr t va x false).map (fun a => if t.pad (t.ofFlat va).2 then 0 else rdByte s.mem a)

/-- The first of `n` bytes at a flat address that misses where the device itself reaches it under tag `a`: tensor, tile, stage and address (12 R290). -/
def State.devMiss (s : State) (p va n : Nat) (a : Pasid) : Option (Tensor × Nat × Nat × Nat) :=
  match s.window p va with
  | none => none
  | some t => (List.range n).findSome? (fun i =>
    let x := t.ofFlat (va + i)
    match s.translate t x.1 a false [x.2] with
    | .miss st => some (t, x.1, st, va + i)
    | _ => none)

/-- Whether `n` bytes at a flat address lie in one window of partition `p` (13 R302). -/
def State.inWindow (s : State) (p va n : Nat) : Bool :=
  match s.window p va with
  | none => false
  | some t => decide (va + n ≤ t.wbase + t.windowBytes)

/-- Whether stage 2 forbids one of the device's own writes to `n` bytes at a flat address (12 R288). -/
def State.devBars (s : State) (p va n : Nat) (x : Pasid) : Bool := match s.window p va with
  | none => false
  | some t => anyBelow n (fun i => decide (s.translate t (t.ofFlat (va + i)).1 x true [(t.ofFlat (va + i)).2] = .noWrite))

/-- Bytes that the device itself reads at a flat address of partition `p` under tag `x`, without race checks (12 R285, R289); none where they do not lie in one window, or miss. -/
def State.devRead (s : State) (p va n : Nat) (x : Pasid) : Option (List Byte) :=
  match s.window p va with
  | none => none
  | some t =>
    if va + n ≤ t.wbase + t.windowBytes then
      (List.range n).mapM (fun i => s.devByte t (va + i) x)
    else none

/-- Bytes that the device itself writes at a flat address; a byte outside a window, a pad byte (12 R283), one that misses or that stage 2 forbids (12 R288), is not written. -/
def State.devWrite (s : State) (p va : Nat) (x : Pasid) : List Byte → State
  | [] => s
  | v :: vs =>
    (match s.window p va with
      | none => s
      | some t => match s.devAddr t va x true with
        | none => s
        | some a => if t.pad (t.ofFlat va).2 then s
          else (let s1 := s.dirty t (t.ofFlat va).1; { s1 with mem := wrByte s1.mem a v })).devWrite p (va + 1) x vs

end Sys2Proof.Machine
end

