-- ==== Sys2Proof/Machine/System.lean ====
section
/-!
DEFINITION. The system instructions of the control engine: CSRs, domains, views, histogram, format table, arrival words, and the issue of LDG and STG (03 R78 to R92; 08 R192; 13 R310 to R316; 14 R326 to R329; 16 R353).
-/

namespace Sys2Proof.Machine

/-! ### CSRs (02 R49, 03 R81 to R92) -/

/-- A PC-queue entry as EPCQ shows it (03 R87). -/
def QEnt.bits (q : QEnt) : Nat := q.addr.toNat + (if q.null then 8192 else 0)

/-- The entry that EPCQ bits hold. -/
def QEnt.ofBits (v : DWord) : QEnt := { addr := v.setWidth 13, null := v.getLsbD 13 }

/-- STATUS.TP: TICK ≥ TICKCMP, unsigned (04 R107). -/
def State.tp (s : State) (u : Nat) (k : Bank) : Bool := decide (k.csr.tickcmp.toNat ≤ (s.tickOf u).toNat)

/-- STATUS (03 R85). -/
def State.statusCsr (s : State) (u : Nat) (k : Bank) : Nat :=
  k.csr.frz.toNat * 2 ^ 48 + k.csr.th.toNat * 8 + (s.tp u k).toNat * 4 + k.csr.tie.toNat * 2

/-- CLST (03 R89). -/
def Csr.clst (c : Csr) : Nat :=
  c.aborts.toNat * 2 ^ 32 + c.climbs.toNat * 2 ^ 16 + c.tier.toNat * 256 + c.last.toNat

/-- PERMITS: the free permits of each send Crossing of the core (03 R91). -/
def State.permits (s : State) (u : Nat) : Nat :=
  ((List.range 8).map (fun x => (match get none (s.core u).sends x with
    | none => 0
    | some i => match get none s.crossings i with
      | some c => c.cnt
      | none => 0) * 16 ^ x)).sum

/-- LEAVE: whether any stream holds a pending exit (04 R105). -/
def Bank.leaveFlag (k : Bank) : Bool := k.streams.any (fun p => decide (0 < p.2.exits))

/-- The value of CSR `n` in bank `b` of unit `u` (02 R49, 03 R81). -/
def State.csr (s : State) (u b n : Nat) : DWord :=
  let k := s.bank u b
  let c := k.csr
  match n with
  | 0 => BitVec.ofNat 64 (s.statusCsr u k)
  | 1 => BitVec.ofNat 64 (c.causeCode.toNat * 2 ^ 32 + c.causeKind.toNat)
  | 2 => zx c.tvec
  | 3 => BitVec.ofNat 64 c.epcqA.bits
  | 4 => BitVec.ofNat 64 c.epcqB.bits
  | 5 => BitVec.ofNat 64 c.epcqC.bits
  | 6 => c.fframe
  | 7 => BitVec.ofNat 64 (c.dmrLevel.toNat * 2 ^ 16 + c.dmrId.toNat)
  | 8 => zx c.ftbase
  | 9 => zx c.fctl
  | 10 => BitVec.ofNat 64 c.clst
  | 11 => c.waitlim
  | 12 => s.tickOf u
  | 13 => c.tickcmp
  | 14 => BitVec.ofNat 64 (s.core u).kbank
  | 15 => BitVec.ofNat 64 k.leaveFlag.toNat
  | 16 => s.cycleOf u
  | 17 => BitVec.ofNat 64 (s.permits u)
  | 18 => c.viewst
  | _ => 0

/-- CSRR (03 R81). -/
def execCsrr (d n : BitVec 5) (s : State) : Out :=
  let v := s.csr s.cur s.curB n.toNat
  s.eff 0 (fun k => k.wrS d v)

/-- The CSRs of a bank after a write of CSR `n`: its RW fields take the value, no other field changes (03 R81 to R90). DMR and TICK are written elsewhere. -/
def Csr.write (c : Csr) (n : Nat) (v : DWord) : Csr :=
  match n with
  | 0 => { c with frz := BitVec.ofNat 16 (v.toNat / 2 ^ 48), tie := v.getLsbD 1 }
  | 1 => { c with causeCode := BitVec.ofNat 16 (v.toNat / 2 ^ 32), causeKind := v.setWidth 8 }
  | 2 => { c with tvec := v.setWidth 13 }
  | 3 => { c with epcqA := QEnt.ofBits v }
  | 4 => { c with epcqB := QEnt.ofBits v }
  | 5 => { c with epcqC := QEnt.ofBits v }
  | 6 => { c with fframe := BitVec.ofNat 64 (v.toNat / 8 * 8) }
  | 8 => { c with ftbase := v.setWidth 4 }
  | 9 => { c with fctl := v.setWidth 4 }
  | 11 => { c with waitlim := v }
  | 13 => { c with tickcmp := v }
  | _ => c

/-! ### Domains (13 R313 to R316) -/

/-- A domain of the table. -/
def State.domain (s : State) (key : Nat) : Option Domain := get none s.domains key

/-- The state with a domain changed. -/
def State.onDomain (s : State) (key : Nat) (f : Domain → Domain) : State :=
  { s with domains := set none s.domains key ((s.domain key).map f) }

/-- The scope instance of level 4 for a partition: its fabric domain, by the number of that; a partition without one is alone, under a number that no fabric domain has (13 R313, 23 R446). -/
def State.fabricScope (s : State) (p : Nat) : Nat := match get none s.parts p with
  | some x => (match x.cfg.fabric with
    | some (f, _, _) => f
    | none => 2 ^ 19 + p)
  | none => 2 ^ 19 + p

/-- The scope instance of level `l` in which unit `u` joins a domain for job `j`: the unit, its cluster, the die that owns the iteration, the partition, the fabric domain (13 R313, R315, 19 R376). -/
def State.joinScope (s : State) (u : Nat) (j : Job) (l : Nat) : Nat :=
  match l with
  | 0 => u
  | 1 => u / 4
  | 2 => j.die
  | 3 => j.part
  | _ => s.fabricScope j.part

/-- The state in which a member tells the other members of the fabric of a level-4 domain (23 R446). -/
def State.tell (s : State) (key : Nat) (n : FabricNews) : State :=
  if key / 2 ^ 36 = 4 then { s with sent := s.sent ++ [.news key n] } else s

/-- The domain that DMR of bank `b` of unit `u` names; none with id 0. -/
def State.dmrKey (s : State) (u b : Nat) : Option Nat :=
  let k := s.bank u b
  match k.job with
  | none => none
  | some j => if k.csr.dmrId = 0 then none
      else some (domKey k.csr.dmrLevel.toNat j.dscope k.csr.dmrId.toNat)

/-- A domain that a member has left: it counts as arrived in PN and in every later phase, and its arrival, if it made one, no more (13 R316). -/
def Domain.depart (d : Domain) (arrived : Bool) : Domain :=
  { d with departed := d.departed + 1, arrivals := if arrived then d.arrivals - 1 else d.arrivals }

/-- PN of a domain, of which a member tells the others with an arrival or a departure (23 R446). -/
def State.phaseOf (s : State) (key : Nat) : Nat := match s.domain key with
  | some d => d.pn.toNat
  | none => 0

/-- A job leaves its domain: it counts as arrived in PN and in every later phase (13 R316); at level 4 the other members are told (23 R446). -/
def State.leaveDomain (s : State) (u b : Nat) : State :=
  let arrived := match (s.bank u b).job with
    | some j => j.arrived
    | none => false
  let s1 := match s.dmrKey u b with
    | none => s
    | some key =>
      (s.onDomain key (fun d => d.depart arrived)).tell key (.depart arrived (s.phaseOf key))
  s1.onBank u b (fun k => { k.onJob (fun j => { j with arrived := false }) with csr := { k.csr with dmrLevel := 0, dmrId := 0 } })

/-- Whether the other bank of unit `u` holds a member of a domain. -/
def State.otherMember (s : State) (u b key : Nat) : Bool := decide (s.dmrKey u (1 - b) = some key)

/-- The member joins domain (l, i) at its current phase, or raises the address fault and changes nothing (13 R315). -/
def State.joinDomain (s : State) (l : BitVec 3) (i : BitVec 16) (done : State → Out) : Out :=
  let u := s.cur
  let b := s.curB
  let da : DWord := BitVec.ofNat 64 (l.toNat * 65536 + i.toNat)
  if i = 0 then done ((s.leaveDomain u b).onMe (fun k => { k with csr := { k.csr with dmrLevel := l, dmrId := 0 } }))
  else match s.me.job with
    | none => done s
    | some j =>
      let x := s.joinScope u j l.toNat
      let key := domKey l.toNat x i.toNat
      match s.domain key with
      | none => s.fault 0 0x0007 da 0
      | some d =>
        if d.quota ≤ d.joined ∨ (l ≠ 0 ∧ s.otherMember u b key = true) then s.fault 0 0x0007 da 0
        else
          let s1 := ((s.leaveDomain u b).onDomain key (fun d => { d with joined := d.joined + 1 })).tell key .join
          done (s1.onMe (fun k => { k.onJob (fun j => { j with dscope := x }) with csr := { k.csr with dmrLevel := l, dmrId := i } }))

/-! ### Format table, histogram, arrival words -/

/-- FMTSET (07 R183). -/
def execFmtset (q : BitVec 4) (a : BitVec 5) (s : State) : Out :=
  s.eff 0 (fun k => { k with fmt := set 0 k.fmt q.toNat ((k.rdS a).setWidth 32) })

/-- HIST at issue (13 R310): the checks, the format's before those of the order of R219 but for the stale view, without which there is no format (02 R34); then a command. -/
def execHist (a b : BitVec 5) (s : State) : Out :=
  let f : Word := (s.me.rdS a).setWidth 32
  let m := (s.me.rdS b).toNat % 2 ^ 32
  if s.me.histPending then s.waits 0 .inner
  else match s.me.job with
    | none => s.eff 0 id
    | some j =>
      if s.formFmt j.part f (fun n => decide (n ≠ 4 ∧ n ≠ 2)) then s.illegal 0
      else match s.checkView j s.cur f true false with
        | .error e => s.flt 0 e
        | .ok (v, t) =>
          match (if m = 0 then none else v.box.runFlt f v.box.lo m) with
          | some e => s.flt 0 e
          | none => s.eff 0 (fun k => k.issueNoted 0 .none (.hist m { form := f, tid := t.id, box := v.box } ((m + rowElems t.fmt - 1) / rowElems t.fmt)))

/-- Whether a copy command is tagged with arrival word `i` (08 R192). -/
def Cmd.taggedWith (c : Cmd) (i : Nat) : Bool := match c.op with
  | .copy x => decide (x.tag.map arrOf = some i)
  | _ => false

/-- Whether a copy of the job tagged with word `i` is unperformed, or a landing on the word has not been counted: one from outside that has passed the port test is counted before the word is armed anew (08 R192, R194). -/
def Bank.tagBusy (k : Bank) (i : Nat) : Bool :=
  k.cmds.any (fun p => p.2.any (fun c => c.taggedWith i))
  || (somes k.nests).any (fun p => p.2.gen && decide (p.2.tmpl.tag.map arrOf = some i))
  || k.landings.any (fun l => decide (arrOf l.addr = i))

/-- EPF of a word that is armed, with REMOTE (08 R190, R192). -/
def armedEpf (remote : Bool) : Word := BitVec.ofNat 32 (2 ^ 16 + (if remote then 2 ^ 18 else 0))

/-- A bank in which an `ARWINIT` of word `i` is noted, with the fields, poison and vectors that it replaces (08 R210). -/
def Bank.noteArw (k : Bank) (i : Nat) (r : Row) : Bank :=
  k.note 0 (fun x => { x with arws := (i, (List.range 4).map (arrField r (i % 32)), r.poison.getLsbD (i % 32), k.arrVec i) :: x.arws })

/-- ARWINIT (08 R192): arms or disarms an arrival word, whose granule it writes whole (05 R127). -/
def execArwinit (a b : BitVec 5) (s : State) : Out :=
  let k := s.me
  let x : Word := (k.rdS a).setWidth 32
  let v := k.rdS b
  let i := arrOf x
  let r := s.row s.cur s.curB (rowOf x)
  if k.rows ≤ rowOf x then s.flt 0 (k.rangeFlt x.toNat)
  else if v.getLsbD 33 then
    (s.setRow s.cur s.curB (rowOf x) (initArr r (i % 32) [0, 0, 0, 0])).eff 0 (fun k => (k.noteArw i r).setArrVec i {})
  else if (k.arrVec i).live = false ∧ 32 ≤ (k.arr.filter (fun p => p.2.live)).length then s.fault 0 0x0011 (zx x) 0
  else if k.tagBusy i then s.waits 0 (.arrival x false)
  else (s.setRow s.cur s.curB (rowOf x) (initArr r (i % 32) [v.setWidth 32, 0, 0, armedEpf (v.getLsbD 32)])).eff 0
    (fun k => (k.noteArw i r).setArrVec i { live := true })

/-! ### Views at issue (14 R326, R327, R329) -/

/-- The box of a box record (14 R326). -/
def boxOf (bs : List Byte) : Box :=
  { lo := (List.range 6).map (fun d => leAt bs (4 * d) 4), hi := (List.range 6).map (fun d => leAt bs (24 + 4 * d) 4) }

/-- A view instruction at issue: orders 1 to 3 of R329, then the request to the coverage unit; the stream waits for the answer. -/
def State.viewIssue (s : State) (record : Bool) (ea : DWord) (op : Nat) (form : Word) (d : Nat) (rights : BitVec 2) : Out :=
  let bs := s.me.sdmBytes ea.toNat 64
  let flags := (bs.getD 48 0).toNat
  if record ∧ 0xFFC0 < ea.toNat then s.fault 0 0x0004 ea 0
  else if record ∧ ea.toNat % 8 ≠ 0 then s.fault 0 0x0005 ea 0
  else if op = 0 ∧ 2 ≤ flags then s.illegal 0
  else
    let q : ViewReq := { op := op, form := form, d := d, ea := ea, box := boxOf bs, pers := decide (flags % 2 = 1), rights := rights }
    .next ((s.onMe (fun k => ({ k with view := some q }).onStream 0
      (fun t => { t with phase := .answer, wait := .none, waited := 0 }))).pauseOn)

/-- VDERIVE at issue (14 R327, R330). -/
def execVderive (d a b : BitVec 5) (w r : BitVec 1) (s : State) : Out :=
  s.viewIssue true (s.me.rdS b) 0 ((s.me.rdS a).setWidth 32) d.toNat (w ++ r)

/-- VNARROW at issue (14 R327, R331). -/
def execVnarrow (a b : BitVec 5) (s : State) : Out :=
  s.viewIssue true (s.me.rdS b) 1 ((s.me.rdS a).setWidth 32) 0 0

/-- VDROP at issue (14 R327, R332). -/
def execVdrop (a : BitVec 5) (s : State) : Out := s.viewIssue false 0 2 ((s.me.rdS a).setWidth 32) 0 0

/-- VQUERY at issue (14 R327, R333). -/
def execVquery (a b : BitVec 5) (s : State) : Out :=
  s.viewIssue true (s.me.rdS b) 3 ((s.me.rdS a).setWidth 32) 0 0

/-! ### LDG and STG at issue (03 R78 to R80) -/

/-- The flat address of LDG and STG (03 R78). -/
def Bank.flatAddr (k : Bank) (a : BitVec 5) (o : BitVec 12) : DWord := k.rdS a + sx o * 8

/-- LDG (03 R78, R79): alignment and window are checked, then the access is a command of the control engine. -/
def execLdg (d a : BitVec 5) (o : BitVec 12) (s : State) : Out :=
  let va := s.me.flatAddr a o
  match s.me.job with
  | none => s.eff 0 id
  | some j =>
    match s.flatAt j s.cur 8 va with
    | .error e => s.flt 0 e
    | .ok _ => s.eff 0 (fun k => k.issueNoted 0 .none (.ldg d.toNat va))

/-- STG (03 R78, R79). -/
def execStg (v a : BitVec 5) (o : BitVec 12) (s : State) : Out :=
  let va := s.me.flatAddr a o
  match s.me.job with
  | none => s.eff 0 id
  | some j =>
    match s.flatAt j s.cur 8 va with
    | .error e => s.flt 0 e
    | .ok _ => s.eff 0 (fun k => k.issueNoted 0 .none (.stg va (k.rdS v)))

end Sys2Proof.Machine
end

