-- ==== Sys2Proof/Machine/Float.lean ====
section
/-!
DEFINITION. Number formats and rounding (05): a float is read as an exact value, an operation is computed exactly, and the result is rounded once.
-/

namespace Sys2Proof.Machine

/-- A float format: exponent and fraction bits (05 R113). -/
structure Fmt where
  ew : Nat
  fw : Nat
  deriving DecidableEq, Repr

def fp32 : Fmt := ⟨8, 23⟩
def bf16 : Fmt := ⟨8, 7⟩
def fp64 : Fmt := ⟨11, 52⟩

/-- The bias of a format. -/
def Fmt.bias (f : Fmt) : Nat := 2 ^ (f.ew - 1) - 1

/-- The width of a format. -/
def Fmt.width (f : Fmt) : Nat := f.ew + f.fw + 1

/-- Plus zero. -/
def FVal.zero : FVal := .fin false 0 0

/-- The value of a word of a format (05 R114). -/
def Fmt.val (f : Fmt) (w : Nat) : FVal :=
  let neg := decide (w / 2 ^ (f.ew + f.fw) % 2 = 1)
  let e := w / 2 ^ f.fw % 2 ^ f.ew
  let m := w % 2 ^ f.fw
  if e = 2 ^ f.ew - 1 then (if m = 0 then .inf neg else .nan)
  else if e = 0 then .fin neg m (1 - (f.bias : Int) - f.fw)
  else .fin neg (2 ^ f.fw + m) ((e : Int) - f.bias - f.fw)

/-- The sign bit of a word of a format, at its place. -/
def Fmt.sign (f : Fmt) (neg : Bool) : Nat := if neg then 2 ^ (f.ew + f.fw) else 0

/-- The bits of infinity. -/
def Fmt.infBits (f : Fmt) : Nat := (2 ^ f.ew - 1) * 2 ^ f.fw

/-- The canonical NaN (05 R115). -/
def Fmt.nanBits (f : Fmt) : Nat := f.infBits + 2 ^ (f.fw - 1)

/-- The number of bits of a number. -/
def bitLen (n : Nat) : Nat := if n = 0 then 0 else Nat.log2 n + 1

/-- Whether a magnitude with remainder `r` of `d` above an even or odd significand rounds up, by RM: 0 nearest even, 1 toward zero, 2 up, 3 down (05 R117). -/
def roundsUp (rm : Nat) (neg : Bool) (odd : Bool) (r d : Nat) : Bool :=
  match rm with
  | 0 => decide (d < 2 * r) || (decide (2 * r = d) && odd)
  | 1 => false
  | 2 => decide (r ≠ 0) && !neg
  | _ => decide (r ≠ 0) && neg

/-- Rounding of m · 2^e to a format in mode `rm` (05 R117): the bits. -/
def Fmt.roundMag (f : Fmt) (rm : Nat) (neg : Bool) (m : Nat) (e : Int) : Nat :=
  if m = 0 then f.sign neg
  else
    let emin : Int := 1 - (f.bias : Int) - f.fw
    let q : Int := max (e + bitLen m - (f.fw + 1 : Nat)) emin
    let sig :=
      if q ≤ e then m * 2 ^ (e - q).toNat
      else
        let d := 2 ^ (q - e).toNat
        m / d + (if roundsUp rm neg (decide (m / d % 2 = 1)) (m % d) d then 1 else 0)
    let bits := (q + f.bias + f.fw - 1).toNat * 2 ^ f.fw + sig
    if f.infBits ≤ bits then
      (if rm = 0 ∨ (rm = 2 ∧ neg = false) ∨ (rm = 3 ∧ neg = true) then f.sign neg + f.infBits
       else f.sign neg + f.infBits - 1)
    else f.sign neg + bits

/-- Rounding of an exact value to a format (05 R115, R117). -/
def Fmt.round (f : Fmt) (rm : Nat) : FVal → Nat
  | .nan => f.nanBits
  | .inf neg => f.sign neg + f.infBits
  | .fin neg m e => f.roundMag rm neg m e

/-- A subnormal word becomes zero of the same sign (FZI and FZO, 05 R118). -/
def Fmt.flush (f : Fmt) (on : Bool) (w : Nat) : Nat :=
  if on ∧ w / 2 ^ f.fw % 2 ^ f.ew = 0 then w / 2 ^ (f.ew + f.fw) * 2 ^ (f.ew + f.fw) else w

/-! ### Exact operations -/

/-- The negated value. -/
def FVal.neg : FVal → FVal
  | .nan => .nan
  | .inf s => .inf (!s)
  | .fin s m e => .fin (!s) m e

/-- The signed significand of a finite value at exponent `e0 ≤ e`. -/
def signedAt (neg : Bool) (m : Nat) (e e0 : Int) : Int :=
  (if neg then -1 else 1) * ((m * 2 ^ (e - e0).toNat : Nat) : Int)

/-- The exact sum; the sign of an exact zero follows R117 in mode `rm` (05 R115, R117). -/
def FVal.add (rm : Nat) : FVal → FVal → FVal
  | .nan, _ => .nan
  | _, .nan => .nan
  | .inf a, .inf b => if a = b then .inf a else .nan
  | .inf a, _ => .inf a
  | _, .inf b => .inf b
  | .fin s1 m1 e1, .fin s2 m2 e2 =>
    let e0 := min e1 e2
    let v := signedAt s1 m1 e1 e0 + signedAt s2 m2 e2 e0
    if v = 0 then .fin (if m1 = 0 ∧ m2 = 0 ∧ s1 = s2 then s1 else decide (rm = 3)) 0 0
    else .fin (decide (v < 0)) v.natAbs e0

/-- The exact product (05 R115). -/
def FVal.mul : FVal → FVal → FVal
  | .nan, _ => .nan
  | _, .nan => .nan
  | .inf a, .inf b => .inf (a != b)
  | .inf a, .fin s m _ => if m = 0 then .nan else .inf (a != s)
  | .fin s m _, .inf b => if m = 0 then .nan else .inf (s != b)
  | .fin s1 m1 e1, .fin s2 m2 e2 => .fin (s1 != s2) (m1 * m2) (e1 + e2)

/-- A quotient that is exact or lies strictly between two values far finer than any format: the last bit says that something was cut off. -/
def quot (neg : Bool) (m1 : Nat) (e1 : Int) (m2 : Nat) (e2 : Int) : FVal :=
  let k := 64 + bitLen m2
  .fin neg (2 * (m1 * 2 ^ k / m2) + (if m1 * 2 ^ k % m2 = 0 then 0 else 1)) (e1 - e2 - k - 1)

/-- The quotient (06 R143, 05 R115). -/
def FVal.div : FVal → FVal → FVal
  | .nan, _ => .nan
  | _, .nan => .nan
  | .inf _, .inf _ => .nan
  | .inf a, .fin s _ _ => .inf (a != s)
  | .fin s _ _, .inf b => .fin (s != b) 0 0
  | .fin s1 m1 e1, .fin s2 m2 e2 =>
    if m2 = 0 then (if m1 = 0 then .nan else .inf (s1 != s2))
    else quot (s1 != s2) m1 e1 m2 e2

/-- The integer square root of `x` from bit `b` down, with `r` found so far. -/
def isqrtFrom (x : Nat) : Nat → Nat → Nat
  | 0, r => if (r + 1) * (r + 1) ≤ x then r + 1 else r
  | b + 1, r => isqrtFrom x b (if (r + 2 ^ (b + 1)) * (r + 2 ^ (b + 1)) ≤ x then r + 2 ^ (b + 1) else r)

/-- The integer square root. -/
def isqrt (x : Nat) : Nat := if x = 0 then 0 else isqrtFrom x (bitLen x / 2 + 1) 0

/-- A significand and an even exponent for a finite value. -/
def evenExp (m : Nat) (e : Int) : Nat × Int := if e % 2 = 0 then (m, e) else (2 * m, e - 1)

/-- The square root (06 R145). -/
def FVal.sqrt : FVal → FVal
  | .nan => .nan
  | .inf s => if s then .nan else .inf false
  | .fin s m e =>
    if m = 0 then .fin s 0 0
    else if s then .nan
    else
      let (m1, e1) := evenExp m e
      let x := m1 * 2 ^ 128
      let r := isqrt x
      .fin false (2 * r + (if r * r = x then 0 else 1)) (e1 / 2 - 65)

/-- The reciprocal square root (06 R145). -/
def FVal.rsq : FVal → FVal
  | .nan => .nan
  | .inf s => if s then .nan else .fin false 0 0
  | .fin s m e =>
    if m = 0 then .inf s
    else if s then .nan
    else
      let (m1, e1) := evenExp m e
      let t := 64 + bitLen m1
      let r := isqrt (2 ^ (2 * t) / m1)
      .fin false (2 * r + (if r * r * m1 = 2 ^ (2 * t) then 0 else 1)) (-(e1 / 2) - t - 1)

/-! ### 2^a and log2(a) (06 R145) -/

/-- The working precision of the enclosures, in bits. -/
def prec : Nat := 192

/-- Bounds of 2^(f / 2^n) at precision `prec`, f taken bit by bit: `c` holds bounds of 2^(2^-i) for the next bit, `r` those of the product so far. -/
def exp2Bounds (f : Nat) : Nat → (Nat × Nat) → (Nat × Nat) → Nat × Nat
  | 0, _, r => r
  | n + 1, c, r =>
    let c1 := (isqrt (c.1 * 2 ^ prec), isqrt (c.2 * 2 ^ prec) + 1)
    let r1 := if f / 2 ^ n % 2 = 1 then (r.1 * c1.1 / 2 ^ prec, r.2 * c1.2 / 2 ^ prec + 1) else r
    exp2Bounds f n c1 r1

/-- The fraction bits of the exponent that `exp2Bounds` takes. -/
def expBits : Nat := 128

/-- The greatest `r` of at most `b` further bits above `r0` with r^n ≤ x. -/
def rootFrom (n x : Nat) : Nat → Nat → Nat
  | 0, r0 => r0
  | b + 1, r0 => rootFrom n x b (if (r0 + 2 ^ b) ^ n ≤ x then r0 + 2 ^ b else r0)

/-- The first `prec` fraction bits of 2^(g / 2^s) for 0 < g < 2^s, by powers of integers: the greatest r with r^(2^s) ≤ 2^(prec · 2^s + g). The value is irrational, so it lies strictly above r. -/
def exp2Root (g s : Nat) : Nat := rootFrom (2 ^ s) (2 ^ (prec * 2 ^ s + g)) (prec + 1) 0

/-- 2^a rounded, for a finite nonzero a: exactly for an integer; otherwise by an enclosure, and by the root of integers where the enclosure leaves the rounding open. -/
def Fmt.exp2Fin (f : Fmt) (rm : Nat) (neg : Bool) (m : Nat) (e : Int) : Nat :=
  if 0 ≤ e ∨ m % 2 ^ (-e).toNat = 0 then
    let a := if 0 ≤ e then m * 2 ^ e.toNat else m / 2 ^ (-e).toNat
    f.roundMag rm false 1 ((if neg then -1 else 1) * ((min a 8192 : Nat) : Int))
  else
    let s := (-e).toNat
    let whole := m / 2 ^ s
    let part := m % 2 ^ s
    let k : Int := if neg then -(whole : Int) - 1 else whole
    let g := if neg then 2 ^ s - part else part
    if 8192 ≤ whole then f.roundMag rm false 1 (if neg then -8192 else 8192)
    else
      let fr := if s ≤ expBits then g * 2 ^ (expBits - s) else g / 2 ^ (s - expBits)
      let b := exp2Bounds fr expBits (2 ^ (prec + 1), 2 ^ (prec + 1)) (2 ^ prec, 2 ^ prec)
      let hi := min (if s ≤ expBits then b.2 else b.2 + b.2 / 2 ^ expBits + 1) (2 ^ (prec + 1))
      let lo := f.roundMag rm false (2 * max b.1 (2 ^ prec) + 1) (k - prec - 1)
      let up := f.roundMag rm false (2 * hi - 1) (k - prec - 1)
      if lo = up then lo else f.roundMag rm false (2 * exp2Root g s + 1) (k - prec - 1)

/-- The first `n` fraction bits of log2 of a value in [1, 2) with bounds at precision `2 · prec`; none where the bounds disagree. -/
def log2Bits : Nat → Nat × Nat → Nat → Option Nat
  | 0, _, acc => some acc
  | n + 1, y, acc =>
    let lo := y.1 * y.1 / 2 ^ (2 * prec)
    let hi := y.2 * y.2 / 2 ^ (2 * prec) + 1
    if 2 ^ (2 * prec + 1) ≤ lo then log2Bits n (lo / 2, hi / 2 + 1) (2 * acc + 1)
    else if hi < 2 ^ (2 * prec + 1) then log2Bits n (lo, hi) (2 * acc)
    else none

/-- The first `expBits` fraction bits of log2(m / 2^l) for m of l + 1 bits, by the length of a power of an integer. -/
def log2Pow (m l : Nat) : Nat := Nat.log2 (m ^ 2 ^ expBits) - l * 2 ^ expBits

/-- log2 of a positive finite value, rounded: exactly for a power of two, by its fraction bits otherwise, which no other logarithm fills. The logarithm of 1.0 is +0.0 in every mode (06 R145; log entry 5). -/
def Fmt.log2Fin (f : Fmt) (rm : Nat) (m : Nat) (e : Int) : Nat :=
  let l := bitLen m - 1
  let k : Int := e + l
  if m = 2 ^ l then f.roundMag rm (decide (k < 0)) k.natAbs 0
  else
    let y := m * 2 ^ (2 * prec - l)
    let fr := match log2Bits expBits (y, y) 0 with
      | none => log2Pow m l
      | some x => x
    if 0 ≤ k then f.roundMag rm false (2 * (k.toNat * 2 ^ expBits + fr) + 1) (-(expBits : Int) - 1)
    else f.roundMag rm true (2 * (k.natAbs * 2 ^ expBits - fr) - 1) (-(expBits : Int) - 1)

/-- VEXP2 of a value (06 R145): the bits of the result. -/
def Fmt.exp2 (f : Fmt) (rm : Nat) : FVal → Nat
  | .nan => f.nanBits
  | .inf s => if s then 0 else f.infBits
  | .fin s m e =>
    if m = 0 then f.roundMag rm false 1 0
    else f.exp2Fin rm s m e

/-- VLOG2 of a value (06 R145). -/
def Fmt.log2 (f : Fmt) (rm : Nat) : FVal → Nat
  | .nan => f.nanBits
  | .inf s => if s then f.nanBits else f.infBits
  | .fin s m e =>
    if m = 0 then f.sign true + f.infBits
    else if s then f.nanBits
    else f.log2Fin rm m e

/-! ### Comparisons (06 R143, R146) -/

/-- Whether a value is smaller than another, -0 and +0 equal; false with a NaN. -/
def FVal.lt : FVal → FVal → Bool
  | .nan, _ => false
  | _, .nan => false
  | .inf a, .inf b => a && !b
  | .inf a, _ => a
  | _, .inf b => !b
  | .fin s1 m1 e1, .fin s2 m2 e2 =>
    let e0 := min e1 e2
    decide (signedAt s1 m1 e1 e0 < signedAt s2 m2 e2 e0)

/-- Whether two values are equal, -0 and +0 equal; false with a NaN. -/
def FVal.eqv : FVal → FVal → Bool
  | .nan, _ => false
  | _, .nan => false
  | a, b => !a.lt b && !b.lt a

/-- Whether a value is negative, by its sign. -/
def FVal.isNeg : FVal → Bool
  | .nan => false
  | .inf s => s
  | .fin s _ _ => s

/-- Whether a value is a NaN. -/
def FVal.isNan : FVal → Bool
  | .nan => true
  | _ => false

/-- The order of VMIN and VMAX, with -0 < +0 (06 R143). -/
def FVal.below (a b : FVal) : Bool := a.lt b || (a.eqv b && a.isNeg && !b.isNeg)

/-! ### Integers -/

/-- The exact value of an integer. -/
def FVal.ofInt (x : Int) : FVal := .fin (decide (x < 0)) x.natAbs 0

/-- A value rounded to an integer in mode `rm` and saturated to INT32 (06 R149). -/
def FVal.toI32 (rm : Nat) : FVal → BitVec 32
  | .nan => 0
  | .inf s => if s then 0x80000000 else 0x7FFFFFFF
  | .fin s m e =>
    let mag :=
      if 0 ≤ e then (if 40 < e then (if m = 0 then 0 else 2 ^ 40) else m * 2 ^ e.toNat)
      else
        let d := 2 ^ (-e).toNat
        m / d + (if roundsUp rm s (decide (m / d % 2 = 1)) (m % d) d then 1 else 0)
    let v : Int := if s then -(mag : Int) else mag
    if v < -(2 ^ 31) then 0x80000000 else if 2 ^ 31 ≤ v then 0x7FFFFFFF else BitVec.ofInt 32 v

/-! ### Summation orders (05 R130 to R136); every node to nearest even -/

/-- The sum of two words, rounded to nearest even. -/
def Fmt.addRne (f : Fmt) (a b : Nat) : Nat := f.round 0 (FVal.add 0 (f.val a) (f.val b))

/-- One level of the tree of R134: t[i] + t[i + w] for i below w. -/
def treeLevel (f : Fmt) (w : Nat) (t : List Nat) : List Nat :=
  (List.range w).map (fun i => f.addRne (t.getD i 0) (t.getD (i + w) 0))

/-- The tree of R134 over 2^n leaves. -/
def tree (f : Fmt) : Nat → List Nat → Nat
  | 0, t => t.getD 0 0
  | n + 1, t => tree f n (treeLevel f (2 ^ n) t)

/-- The exact sum of values; an exact zero is +0 (05 R130). -/
def exactSum (xs : List FVal) : FVal :=
  match xs.foldl (FVal.add 0) .zero with
  | .fin _ 0 _ => .zero
  | v => v

/-- The sum of the terms `xs` whose additions, in one of the orders of R130, give the word `r`: infinite terms of one sign make it that infinity, and an exact zero sum is no -0.0 (log entry 23). -/
def Fmt.sumOf (f : Fmt) (xs : List FVal) (r : Nat) : Nat :=
  match exactSum xs with
  | .inf s => f.sign s + f.infBits
  | .fin _ 0 _ => if r = f.sign true then 0 else r
  | _ => r

/-- The sum of the tree of R134 (05 R130): with infinite terms of one sign it is that infinity, whatever finite terms overflow to on the way (log entry 23). -/
def treeSum (f : Fmt) (n : Nat) (t : List Nat) : Nat := f.sumOf (t.map f.val) (tree f n t)

/-- A sum from left to right, each addition rounded (05 R135). R130 speaks of more than two terms (log entry 23); a sum of two, as of a bin and one contribution, is the addition of R117, so that -0.0 and -0.0 give -0.0. -/
def leftSum (f : Fmt) (start : Nat) (xs : List Nat) : Nat :=
  let r := xs.foldl f.addRne start
  if xs.length ≤ 1 then r else f.sumOf (f.val start :: xs.map f.val) r

/-- The groups of `n` of a list, the last one shorter. -/
def groupsOf {α : Type} (n : Nat) : Nat → List α → List (List α)
  | 0, _ => []
  | fuel + 1, xs => if xs.isEmpty then [] else xs.take n :: groupsOf n fuel (xs.drop n)

/-! ### MX blocks (05 R120, R121) -/

/-- The bits of a code of an MX format: 5 MXINT8, 6 MXINT6, 7 MXINT4. -/
def mxBits (fmt : Nat) : Nat := if fmt = 5 then 8 else if fmt = 6 then 6 else 4

/-- A code of `k` bits as a signed integer (05 R121). -/
def mxCode (k : Nat) (w : Nat) : Int := if 2 ^ (k - 1) ≤ w % 2 ^ k then (w % 2 ^ k : Nat) - (2 ^ k : Nat) else ((w % 2 ^ k : Nat) : Int)

/-- The value of an MX element with code `q` of `k` bits and scale `e` (05 R121). -/
def mxVal (k : Nat) (q : Int) (e : Nat) : FVal :=
  .fin (decide (q < 0)) q.natAbs ((e : Int) - 127 - ((k : Int) - 2))

/-- The bytes of a block and the blocks of a row (05 R121). -/
def blockBytes (fmt : Nat) : Nat := 4 * mxBits fmt
def rowBlocks (fmt : Nat) : Nat := 512 / blockBytes fmt

/-- A finite value rounded to the nearest integer, ties to even; none for NaN and infinity. -/
def FVal.rneInt : FVal → Option Int
  | .nan => none
  | .inf _ => none
  | .fin s m e =>
    let mag :=
      if 0 ≤ e then m * 2 ^ e.toNat
      else
        let d := 2 ^ (-e).toNat
        m / d + (if roundsUp 0 s (decide (m / d % 2 = 1)) (m % d) d then 1 else 0)
    some (if s then -(mag : Int) else mag)

/-- A value times a power of two. -/
def FVal.scale (n : Int) : FVal → FVal
  | .fin s m e => .fin s m (e + n)
  | v => v

/-- The code of `x` at scale `e`, if it lies in the code range (06 R164, 05 R121). -/
def mxCodeOf (k e : Nat) (x : FVal) : Option Int :=
  match (x.scale ((k : Int) - 2 + 127 - e)).rneInt with
  | none => none
  | some q => if -((2 ^ (k - 1) : Nat) : Int) ≤ q ∧ q < ((2 ^ (k - 1) : Nat) : Int) then some q else none

/-- A packed block: its bit string, its scale, whether it overflowed (05 R126). -/
structure Packed where
  bits  : Nat
  scale : Nat
  ovf  : Bool
  deriving DecidableEq, Repr

/-- The bit string of 32 codes of `k` bits (05 R121). -/
def codesBits (k : Nat) (qs : List Int) : Nat :=
  gatherN k (fun i => (qs.getD i 0 % ((2 ^ k : Nat) : Int)).toNat) 0 32

/-- A block packed at a fixed scale; it overflows if an element has no code (05 R126). -/
def packAt (k e : Nat) (xs : List FVal) : Packed :=
  let qs := xs.map (mxCodeOf k e)
  if qs.any (fun q => q.isNone) then { bits := 0, scale := e, ovf := true }
  else { bits := codesBits k (qs.map (fun q => q.getD 0)), scale := e, ovf := false }

/-- A block packed with the least fitting scale (06 R164). -/
def packLeast (k : Nat) (xs : List FVal) : Packed :=
  match (List.range 256).find? (fun e => !(packAt k e xs).ovf) with
  | some e => packAt k e xs
  | none => { bits := 0, scale := 255, ovf := true }

end Sys2Proof.Machine
end

