-- ==== Sys2Proof/Machine/Vector.lean ====
section
/-!
DEFINITION. The lane-wise instructions of the vector engine: arithmetic, comparisons, bit operations, conversions, multiply-adds, constants and literals (06 R137 to R150, 07 R170 to R175).
-/

namespace Sys2Proof.Machine

/-! ### Types and elements (06 R137 to R139) -/

/-- A resolved element type. -/
inductive VT where
  | f32 | b16 | i32 | f64
  deriving DecidableEq, Repr

/-- The bits of an element. -/
def VT.bits : VT → Nat
  | .f32 => 32 | .b16 => 16 | .i32 => 32 | .f64 => 64

/-- The float format of a type; none for INT32. -/
def VT.fmt : VT → Option Fmt
  | .f32 => some fp32 | .b16 => some bf16 | .i32 => none | .f64 => some fp64

/-- The elements of a register. -/
def VT.count (t : VT) : Nat := 4096 / t.bits

/-- The type that a format code names (07 R181, VF). -/
def VT.ofVf : Nat → Option VT
  | 0 => some .f32 | 1 => some .b16 | 2 => some .i32 | 3 => some .f64 | _ => none

/-- The type that a type code resolves to; none for a reserved vector format (06 R138). -/
def Bank.vtype (k : Bank) (t : BitVec 2) : Option VT :=
  match t.toNat with
  | 0 => some .f32
  | 1 => some .b16
  | 2 => some .i32
  | _ => VT.ofVf ((k.fmtEnt 1).toNat / 2 ^ 28)

/-- Whether element `j` is governed by mask `m` (06 R137). -/
def VT.gov (t : VT) (m : BitVec 128) (j : Nat) : Bool :=
  match t with
  | .b16 => m.getLsbD (j / 2)
  | .f64 => m.getLsbD (2 * j)
  | _ => m.getLsbD j

/-- Element `j` of a register. -/
def Row.el (r : Row) (w j : Nat) : Nat := r.data.toNat / 2 ^ (w * j) % 2 ^ w

/-- The poison of the granule that holds element `j` of `w` bits. -/
def Row.bad (r : Row) (w j : Nat) : Bool := r.poison.getLsbD (w * j / 128)

/-- A register with its governed elements written by `f`; a granule is poisoned if a source of a written element was, or a kept element was (05 R127, 06 R139). -/
def Row.write (old : Row) (w : Nat) (gov : Nat → Bool) (f : Nat → Nat) (bad : Nat → Bool) : Row :=
  { data := BitVec.ofNat 4096 (gatherN w (fun j => if gov j then f j else old.el w j) 0 (4096 / w))
    poison := ofGran (fun g => anyBelow (128 / w) (fun i =>
      let j := 128 / w * g + i
      if gov j then bad j else old.poison.getLsbD g)) }

/-! ### The control of float arithmetic (03 R88, 05 R118) -/

/-- FCTL.RM. -/
def Bank.rm (k : Bank) : Nat := k.csr.fctl.toNat % 4

/-- FCTL.FZO. -/
def Bank.fzo (k : Bank) : Bool := k.csr.fctl.getLsbD 2

/-- FCTL.FZI. -/
def Bank.fzi (k : Bank) : Bool := k.csr.fctl.getLsbD 3

/-- A float source under FZI. -/
def Bank.fin (k : Bank) (f : Fmt) (w : Nat) : FVal := f.val (f.flush k.fzi w)

/-- A float result rounded by FCTL. -/
def Bank.fout (k : Bank) (f : Fmt) (v : FVal) : Nat := f.flush k.fzo (f.round k.rm v)

/-! ### Shapes -/

/-- A vector instruction of type code `t`: the illegal-instruction fault where the type does not resolve or is not allowed (06 R138), else its effect. -/
def State.vec (s : State) (t : BitVec 2) (ok : VT → Bool) (f : VT → Bank → Bank) : Out :=
  match s.me.vtype t with
  | none => s.illegal 1
  | some ty => if ok ty then s.eff 1 (f ty) else s.illegal 1

/-- Any resolved type. -/
def anyType (_ : VT) : Bool := true

/-- Float only. -/
def floatOnly (t : VT) : Bool := decide (t ≠ .i32)

/-- INT32 only. -/
def intOnly (t : VT) : Bool := decide (t = .i32)

/-- A lane-wise result of one source: `ff` on floats, `fi` on INT32. -/
def Bank.map1 (k : Bank) (ty : VT) (d a : BitVec 5) (m : BitVec 128) (f : Nat → Nat) : Bank :=
  let va := k.rdV a
  k.wrV d ((k.rdV d).write ty.bits (ty.gov m) (fun j => f (va.el ty.bits j)) (fun j => va.bad ty.bits j))

/-- A lane-wise result of two sources. -/
def Bank.map2 (k : Bank) (ty : VT) (d a b : BitVec 5) (m : BitVec 128) (f : Nat → Nat → Nat) : Bank :=
  let va := k.rdV a
  let vb := k.rdV b
  k.wrV d ((k.rdV d).write ty.bits (ty.gov m) (fun j => f (va.el ty.bits j) (vb.el ty.bits j))
    (fun j => va.bad ty.bits j || vb.bad ty.bits j))

/-- A lane-wise result of three sources. -/
def Bank.map3 (k : Bank) (ty : VT) (d a b c : BitVec 5) (m : BitVec 128) (f : Nat → Nat → Nat → Nat) : Bank :=
  let va := k.rdV a
  let vb := k.rdV b
  let vc := k.rdV c
  k.wrV d ((k.rdV d).write ty.bits (ty.gov m) (fun j => f (va.el ty.bits j) (vb.el ty.bits j) (vc.el ty.bits j))
    (fun j => va.bad ty.bits j || vb.bad ty.bits j || vc.bad ty.bits j))

/-- An element operation of two operands: exact on floats and rounded by FCTL, on 32-bit words for INT32. -/
def Bank.op2 (k : Bank) (ty : VT) (ff : FVal → FVal → FVal) (fi : Word → Word → Word) (x y : Nat) : Nat :=
  match ty.fmt with
  | some f => k.fout f (ff (k.fin f x) (k.fin f y))
  | none => (fi (BitVec.ofNat 32 x) (BitVec.ofNat 32 y)).toNat

/-- A guarded arithmetic form of two sources (06 R143). -/
def State.vbin (s : State) (d a b : BitVec 5) (m : BitVec 3) (t : BitVec 2) (ok : VT → Bool)
    (ff : Nat → FVal → FVal → FVal) (fi : Word → Word → Word) : Out :=
  s.vec t ok (fun ty k => k.map2 ty d a b (k.rdM m) (k.op2 ty (ff k.rm) fi))

/-- VMIN and VMAX of two elements: an operand, unrounded; any NaN gives NaN (06 R143; log entry 19). -/
def Bank.pick2 (k : Bank) (ty : VT) (first : FVal → FVal → Bool) (fi : Word → Word → Word) (x y : Nat) : Nat :=
  match ty.fmt with
  | some f =>
    let a := f.flush k.fzi x
    let b := f.flush k.fzi y
    if (f.val a).isNan ∨ (f.val b).isNan then f.nanBits else if first (f.val a) (f.val b) then a else b
  | none => (fi (BitVec.ofNat 32 x) (BitVec.ofNat 32 y)).toNat

/-- A one-source form: on the bits of a float, or on INT32. -/
def State.vun (s : State) (d a : BitVec 5) (m : BitVec 3) (t : BitVec 2) (ok : VT → Bool)
    (ff : Bank → Fmt → Nat → Nat) (fi : Word → Word) : Out :=
  s.vec t ok (fun ty k => k.map1 ty d a (k.rdM m) (fun x =>
    match ty.fmt with
    | some f => ff k f x
    | none => (fi (BitVec.ofNat 32 x)).toNat))

/-- A sign operation on a float: NaN becomes canonical, FZI and FZO apply (06 R144). -/
def Bank.signOp (k : Bank) (g : FVal → FVal) (f : Fmt) (x : Nat) : Nat := k.fout f (g (k.fin f x))

/-- The magnitude of a value. -/
def FVal.abs : FVal → FVal
  | .nan => .nan
  | .inf _ => .inf false
  | .fin _ m e => .fin false m e

/-! ### Arithmetic (06 R143 to R145) -/

/-- VADD (06 R143). -/
def execVadd (d a b : BitVec 5) (m : BitVec 3) (t : BitVec 2) (s : State) : Out :=
  s.vbin d a b m t anyType (fun rm x y => FVal.add rm x y) (fun x y => x + y)

/-- VSUB (06 R143). -/
def execVsub (d a b : BitVec 5) (m : BitVec 3) (t : BitVec 2) (s : State) : Out :=
  s.vbin d a b m t anyType (fun rm x y => FVal.add rm x y.neg) (fun x y => x - y)

/-- VMUL (06 R143). -/
def execVmul (d a b : BitVec 5) (m : BitVec 3) (t : BitVec 2) (s : State) : Out :=
  s.vbin d a b m t anyType (fun _ x y => FVal.mul x y) (fun x y => x * y)

/-- VDIV (06 R143), float only. -/
def execVdiv (d a b : BitVec 5) (m : BitVec 3) (t : BitVec 2) (s : State) : Out :=
  s.vbin d a b m t floatOnly (fun _ x y => FVal.div x y) (fun x _ => x)

/-- VMIN (06 R143). -/
def execVmin (d a b : BitVec 5) (m : BitVec 3) (t : BitVec 2) (s : State) : Out :=
  s.vec t anyType (fun ty k => k.map2 ty d a b (k.rdM m) (k.pick2 ty (fun x y => x.below y) smin))

/-- VMAX (06 R143). -/
def execVmax (d a b : BitVec 5) (m : BitVec 3) (t : BitVec 2) (s : State) : Out :=
  s.vec t anyType (fun ty k => k.map2 ty d a b (k.rdM m) (k.pick2 ty (fun x y => y.below x) smax))

/-- VABS (06 R144). -/
def execVabs (d a : BitVec 5) (m : BitVec 3) (t : BitVec 2) (s : State) : Out :=
  s.vun d a m t anyType (fun k f x => k.signOp FVal.abs f x) (fun x => if x.msb then -x else x)

/-- VNEG (06 R144). -/
def execVneg (d a : BitVec 5) (m : BitVec 3) (t : BitVec 2) (s : State) : Out :=
  s.vun d a m t anyType (fun k f x => k.signOp FVal.neg f x) (fun x => -x)

/-- VSQRT (06 R145), float only. -/
def execVsqrt (d a : BitVec 5) (m : BitVec 3) (t : BitVec 2) (s : State) : Out :=
  s.vun d a m t floatOnly (fun k f x => k.fout f (k.fin f x).sqrt) id

/-- VRCP (06 R145), float only. -/
def execVrcp (d a : BitVec 5) (m : BitVec 3) (t : BitVec 2) (s : State) : Out :=
  s.vun d a m t floatOnly (fun k f x => k.fout f (FVal.div (.fin false 1 0) (k.fin f x))) id

/-- VRSQ (06 R145), float only. -/
def execVrsq (d a : BitVec 5) (m : BitVec 3) (t : BitVec 2) (s : State) : Out :=
  s.vun d a m t floatOnly (fun k f x => k.fout f (k.fin f x).rsq) id

/-- VEXP2 (06 R145), float only. -/
def execVexp2 (d a : BitVec 5) (m : BitVec 3) (t : BitVec 2) (s : State) : Out :=
  s.vun d a m t floatOnly (fun k f x => f.flush k.fzo (f.exp2 k.rm (k.fin f x))) id

/-- VLOG2 (06 R145), float only. -/
def execVlog2 (d a : BitVec 5) (m : BitVec 3) (t : BitVec 2) (s : State) : Out :=
  s.vun d a m t floatOnly (fun k f x => f.flush k.fzo (f.log2 k.rm (k.fin f x))) id

/-! ### Comparisons (06 R146) -/

/-- The truth value of an element. -/
def Bank.cmpEl (k : Bank) (ty : VT) (ff : FVal → FVal → Bool) (fi : Word → Word → Bool) (x y : Nat) : Bool :=
  match ty.fmt with
  | some f => ff (k.fin f x) (k.fin f y)
  | none => fi (BitVec.ofNat 32 x) (BitVec.ofNat 32 y)

/-- Bit `i` of a compare's mask (06 R146). -/
def VT.maskBit (ty : VT) (c : Nat → Bool) (i : Nat) : Bool :=
  match ty with
  | .b16 => c (2 * i) && c (2 * i + 1)
  | .f64 => c (i / 2)
  | _ => c i

/-- Whether bit `i` of a compare's mask is written (06 R146). -/
def VT.maskWr (ty : VT) (m : BitVec 128) (i : Nat) : Bool :=
  match ty with
  | .f64 => m.getLsbD (2 * (i / 2))
  | _ => m.getLsbD i

/-- A mask from its bits. -/
def ofMask (f : Nat → Bool) : BitVec 128 := BitVec.ofNat 128 (gatherN 1 (fun i => (f i).toNat) 0 128)

/-- A compare (06 R146). -/
def State.vcmp (s : State) (d : BitVec 3) (a b : BitVec 5) (m : BitVec 3) (t : BitVec 2)
    (ff : FVal → FVal → Bool) (fi : Word → Word → Bool) : Out :=
  s.vec t anyType (fun ty k =>
    let c := fun j => k.cmpEl ty ff fi ((k.rdV a).el ty.bits j) ((k.rdV b).el ty.bits j)
    k.wrM d (ofMask (fun i => if ty.maskWr (k.rdM m) i then ty.maskBit c i else (k.rdM d).getLsbD i)))

/-- VCMPEQ (06 R146). -/
def execVcmpeq (d : BitVec 3) (a b : BitVec 5) (m : BitVec 3) (t : BitVec 2) (s : State) : Out :=
  s.vcmp d a b m t FVal.eqv (fun x y => decide (x = y))

/-- VCMPLT (06 R146). -/
def execVcmplt (d : BitVec 3) (a b : BitVec 5) (m : BitVec 3) (t : BitVec 2) (s : State) : Out :=
  s.vcmp d a b m t FVal.lt (fun x y => x.slt y)

/-- VCMPLE (06 R146). -/
def execVcmple (d : BitVec 3) (a b : BitVec 5) (m : BitVec 3) (t : BitVec 2) (s : State) : Out :=
  s.vcmp d a b m t (fun x y => x.lt y || x.eqv y) (fun x y => !y.slt x)

/-! ### Bit operations on INT32 lanes (06 R147, R148) -/

/-- A lane-wise operation on words, for a type that resolves to INT32 (06 R138). -/
def State.vbit (s : State) (d a b : BitVec 5) (m : MaskType) (f : Word → Word → Word) : Out :=
  s.vec m.t intOnly (fun _ k => k.map2 .i32 d a b (k.rdM m.m) (fun x y => (f (BitVec.ofNat 32 x) (BitVec.ofNat 32 y)).toNat))

/-- VAND (06 R147). -/
def execVand (d a b : BitVec 5) (m : MaskType) (s : State) : Out := s.vbit d a b m (fun x y => x &&& y)

/-- VOR (06 R147). -/
def execVor (d a b : BitVec 5) (m : MaskType) (s : State) : Out := s.vbit d a b m (fun x y => x ||| y)

/-- VXOR (06 R147). -/
def execVxor (d a b : BitVec 5) (m : MaskType) (s : State) : Out := s.vbit d a b m (fun x y => x ^^^ y)

/-- VNOT (06 R147). -/
def execVnot (d a : BitVec 5) (m : MaskType) (s : State) : Out :=
  s.vec m.t intOnly (fun _ k => k.map1 .i32 d a (k.rdM m.m) (fun x => (~~~(BitVec.ofNat 32 x : Word)).toNat))

/-- VSHL (06 R147). -/
def execVshl (d a b : BitVec 5) (m : MaskType) (s : State) : Out := s.vbit d a b m (fun x y => x <<< (y.toNat % 32))

/-- VSHR (06 R147). -/
def execVshr (d a b : BitVec 5) (m : MaskType) (s : State) : Out := s.vbit d a b m (fun x y => x >>> (y.toNat % 32))

/-- VSRA (06 R147). -/
def execVsra (d a b : BitVec 5) (m : MaskType) (s : State) : Out := s.vbit d a b m (fun x y => x.sshiftRight (y.toNat % 32))

/-- VMOV (06 R147): bits unchanged. -/
def execVmov (d a : BitVec 5) (m : MaskType) (s : State) : Out := s.vec m.t intOnly (fun _ k => k.map1 .i32 d a (k.rdM m.m) id)

/-- VMULHI (06 R147). -/
def execVmulhi (d a b : BitVec 5) (m : MaskType) (s : State) : Out :=
  s.vbit d a b m (fun x y => BitVec.ofInt 32 (x.toInt * y.toInt / 2 ^ 32))

/-- VSELM (06 R148): the mask selects the source; each lane takes its source's poison. -/
def execVselm (d a b : BitVec 5) (m : MaskType) (s : State) : Out :=
  s.vec m.t intOnly (fun _ k =>
    let va := k.rdV a
    let vb := k.rdV b
    let sel := fun j => if (k.rdM m.m).getLsbD j then va else vb
    k.wrV d ((k.rdV d).write 32 (fun _ => true) (fun j => (sel j).el 32 j) (fun j => (sel j).bad 32 j)))

/-! ### Conversion (06 R149) -/

/-- One element converted (06 R149). -/
def Bank.convert (k : Bank) (src dst : VT) (x : Nat) : Nat :=
  match src.fmt, dst.fmt with
  | some f, some g => k.fout g (k.fin f x)
  | some f, none => ((k.fin f x).toI32 k.rm).toNat
  | none, some g => k.fout g (FVal.ofInt (BitVec.ofNat 32 x : Word).toInt)
  | none, none => x

/-- VCVT (06 R149). -/
def execVcvt (d a : BitVec 5) (c : BitVec 2) (m : BitVec 3) (t : BitVec 2) (s : State) : Out :=
  match s.me.vtype c with
  | none => s.illegal 1
  | some src => s.vec t anyType (fun dst k =>
      let va := k.rdV a
      let n := min src.count dst.count
      k.wrV d ((k.rdV d).write dst.bits (dst.gov (k.rdM m))
        (fun j => if j < n then k.convert src dst (va.el src.bits j) else 0)
        (fun j => decide (j < n) && va.bad src.bits j)))

/-! ### Multiply-adds (06 R150) -/

/-- A V4 form: one exact product and sum, rounded once. -/
def State.vfma4 (s : State) (d a b c : BitVec 5) (t : BitVec 2) (np nc : Bool) : Out :=
  s.vec t floatOnly (fun ty k => k.map3 ty d a b c (BitVec.allOnes 128) (fun x y z =>
    match ty.fmt with
    | some f =>
      let p := FVal.mul (k.fin f x) (k.fin f y)
      k.fout f (FVal.add k.rm (if np then p.neg else p) (if nc then (k.fin f z).neg else k.fin f z))
    | none => x))

/-- VFMA (06 R150). -/
def execVfma (d a b c : BitVec 5) (t : BitVec 2) (s : State) : Out := s.vfma4 d a b c t false false

/-- VFMS (06 R150). -/
def execVfms (d a b c : BitVec 5) (t : BitVec 2) (s : State) : Out := s.vfma4 d a b c t false true

/-- VNFMA (06 R150). -/
def execVnfma (d a b c : BitVec 5) (t : BitVec 2) (s : State) : Out := s.vfma4 d a b c t true false

/-- VNFMS (06 R150). -/
def execVnfms (d a b c : BitVec 5) (t : BitVec 2) (s : State) : Out := s.vfma4 d a b c t true true

/-! ### Constants and literals (07 R172 to R175) -/

/-- The value of a float constant: K is an FP32 value, under FZI like any source (07 R174). -/
def Bank.kVal (k : Bank) (c : Word) : FVal := fp32.val (fp32.flush k.fzi c.toNat)

/-- VFMAK and VFMAL: vd × va + K, rounded once (07 R173). -/
def State.vkFma (s : State) (d a : BitVec 5) (m : BitVec 3) (t : BitVec 2) (c : Bank → Word) : Out :=
  s.vec t anyType (fun ty k => k.map2 ty d d a (k.rdM m) (fun x y =>
    match ty.fmt with
    | some f => k.fout f (FVal.add k.rm (FVal.mul (k.fin f x) (k.fin f y)) (k.kVal (c k)))
    | none => (BitVec.ofNat 32 x * BitVec.ofNat 32 y + c k : Word).toNat))

/-- VADDK and VADDL (07 R173). -/
def State.vkAdd (s : State) (d a : BitVec 5) (m : BitVec 3) (t : BitVec 2) (c : Bank → Word) : Out :=
  s.vec t anyType (fun ty k => k.map1 ty d a (k.rdM m) (fun x =>
    match ty.fmt with
    | some f => k.fout f (FVal.add k.rm (k.fin f x) (k.kVal (c k)))
    | none => (BitVec.ofNat 32 x + c k : Word).toNat))

/-- VMULK and VMULL (07 R173). -/
def State.vkMul (s : State) (d a : BitVec 5) (m : BitVec 3) (t : BitVec 2) (c : Bank → Word) : Out :=
  s.vec t anyType (fun ty k => k.map1 ty d a (k.rdM m) (fun x =>
    match ty.fmt with
    | some f => k.fout f (FVal.mul (k.fin f x) (k.kVal (c k)))
    | none => (BitVec.ofNat 32 x * c k : Word).toNat))

/-- The element that VMOVK and VMOVL write (07 R174). -/
def Bank.kElem (k : Bank) (ty : VT) (c : Word) : Nat :=
  match ty with
  | .f32 => c.toNat
  | .i32 => c.toNat
  | .b16 => k.fout bf16 (k.kVal c)
  | .f64 => k.fout fp64 (k.kVal c)

/-- VMOVK and VMOVL: clean elements (07 R174, R175). -/
def State.vkMov (s : State) (d : BitVec 5) (m : BitVec 3) (t : BitVec 2) (c : Bank → Word) : Out :=
  s.vec t anyType (fun ty k =>
    k.wrV d ((k.rdV d).write ty.bits (ty.gov (k.rdM m)) (fun _ => k.kElem ty (c k)) (fun _ => false)))

/-- VFMAK (07 R173). -/
def execVfmak (d a : BitVec 5) (i : BitVec 8) (t : BitVec 2) (m : BitVec 3) (s : State) : Out := s.vkFma d a m t (fun k => k.rdK i)

/-- VFMAL (07 R173). -/
def execVfmal (d a : BitVec 5) (t : BitVec 2) (m : BitVec 3) (lit : Word) (s : State) : Out := s.vkFma d a m t (fun _ => lit)

/-- VADDK (07 R173). -/
def execVaddk (d a : BitVec 5) (i : BitVec 8) (t : BitVec 2) (m : BitVec 3) (s : State) : Out := s.vkAdd d a m t (fun k => k.rdK i)

/-- VADDL (07 R173). -/
def execVaddl (d a : BitVec 5) (t : BitVec 2) (m : BitVec 3) (lit : Word) (s : State) : Out := s.vkAdd d a m t (fun _ => lit)

/-- VMULK (07 R173). -/
def execVmulk (d a : BitVec 5) (i : BitVec 8) (t : BitVec 2) (m : BitVec 3) (s : State) : Out := s.vkMul d a m t (fun k => k.rdK i)

/-- VMULL (07 R173). -/
def execVmull (d a : BitVec 5) (t : BitVec 2) (m : BitVec 3) (lit : Word) (s : State) : Out := s.vkMul d a m t (fun _ => lit)

/-- VMOVK (07 R174). -/
def execVmovk (d : BitVec 5) (i : BitVec 8) (t : BitVec 2) (m : BitVec 3) (s : State) : Out :=
  s.vkMov d m t (fun k => k.rdK i)

/-- VMOVL (07 R174). -/
def execVmovl (d : BitVec 5) (t : BitVec 2) (m : BitVec 3) (lit : Word) (s : State) : Out :=
  s.vkMov d m t (fun _ => lit)

/-- VMOVF (07 R170). -/
def execVmovf (d : BitVec 5) (i : BitVec 20) (s : State) : Out :=
  s.eff 1 (fun k => k.wrV d { data := ofLanes (fun _ => BitVec.ofNat 32 (i.toNat * 4096)) })

/-- VMOVN (07 R170). -/
def execVmovn (d : BitVec 5) (i : BitVec 20) (s : State) : Out :=
  s.eff 1 (fun k => k.wrV d { data := ofLanes (fun _ => i.signExtend 32) })

end Sys2Proof.Machine
end

