-- ==== Sys2Proof/Machine/VectorX.lean ====
section
/-!
DEFINITION. The vector instructions that cross lanes or touch the scratchpad, the FIFOs, the constant bank and the address registers (06 R151 to R166, 07 R177).
-/

namespace Sys2Proof.Machine

/-! ### Address registers (06 R151) -/

/-- AMOVI (06 R151). -/
def execAmovi (a : BitVec 3) (i : BitVec 14) (s : State) : Out := s.eff 1 (fun k => k.wrA a (i.signExtend 32))

/-- AADDI (06 R151). -/
def execAaddi (a : BitVec 3) (i : BitVec 14) (s : State) : Out :=
  s.eff 1 (fun k => k.wrA a (k.rdA a + i.signExtend 32))

/-- AADD (06 R151). -/
def execAadd (b a : BitVec 3) (s : State) : Out := s.eff 1 (fun k => k.wrA a (k.rdA a + k.rdA b))

/-! ### Row accesses (06 R152, R167) -/

/-- An address register plus an offset in rows (06 R152). -/
def Bank.rowAddr (k : Bank) (a : BitVec 3) (i : BitVec 14) : Word := k.rdA a + i.signExtend 32 * 512

/-- The epoch of the vector engine. -/
def Bank.vep (k : Bank) : BitVec 13 := (k.stream 1).epoch

/-- A load of the row at `addr`, with an update of the bank that goes with it (06 R152). -/
def State.vload (s : State) (v : BitVec 5) (addr : Word) (upd : Bank → Bank) : Out :=
  if s.me.rows ≤ rowOf addr then s.flt 1 (s.me.rangeFlt addr.toNat)
  else match s.readRow s.cur s.curB 1 s.me.vep (rowOf addr) with
    | .error f => s.flt 1 f
    | .ok (r, s1) => s1.eff 1 (fun k => (upd k).wrV v r)

/-- A store of a register to the row at `addr` (06 R152). -/
def State.vstore (s : State) (v : BitVec 5) (addr : Word) (upd : Bank → Bank) : Out :=
  if s.me.rows ≤ rowOf addr then s.flt 1 (s.me.rangeFlt addr.toNat)
  else match s.writeRow s.cur s.curB 1 s.me.vep (rowOf addr) (s.me.rdV v) with
    | .error f => s.flt 1 f
    | .ok s1 => s1.eff 1 upd

/-- VLD (06 R152). -/
def execVld (v : BitVec 5) (a : BitVec 3) (i : BitVec 14) (s : State) : Out := s.vload v (s.me.rowAddr a i) id

/-- VST (06 R152). -/
def execVst (v : BitVec 5) (a : BitVec 3) (i : BitVec 14) (s : State) : Out := s.vstore v (s.me.rowAddr a i) id

/-- VLDP (06 R152): the address register moves after the load. -/
def execVldp (v : BitVec 5) (a : BitVec 3) (i : BitVec 14) (s : State) : Out :=
  s.vload v (s.me.rdA a) (fun k => k.wrA a (k.rowAddr a i))

/-- VSTP (06 R152). -/
def execVstp (v : BitVec 5) (a : BitVec 3) (i : BitVec 14) (s : State) : Out :=
  s.vstore v (s.me.rdA a) (fun k => k.wrA a (k.rowAddr a i))

/-! ### Moves of bytes (06 R153 to R156, R159) -/

/-- A row whose byte `i` is copied from byte `(f i).2` of a source row, or is fresh; a granule is poisoned if a byte of it came from a poisoned granule (06 R153). -/
def moveBytes (f : Nat → Option (Row × Nat)) : Row :=
  { data := ofElems 8 (fun i => match f i with
      | some (r, j) => elem 8 r.data j
      | none => 0)
    poison := ofGran (fun g => anyBelow 16 (fun c => match f (16 * g + c) with
      | some (r, j) => r.poison.getLsbD (j / 16)
      | none => false)) }

/-- VROTM (06 R154). -/
def execVrotm (v : BitVec 5) (a : BitVec 3) (vs : BitVec 5) (s : State) : Out :=
  s.eff 1 (fun k =>
    let x := k.rdV v
    let y := k.rdV vs
    let n := (k.rdA a).toNat % 512
    k.wrV v (moveBytes (fun i => if i + n < 512 then some (x, i + n) else some (y, i + n - 512))))

/-- VPOP (06 R155, R168): takes the head row of fv and acquires its push. -/
def execVpop (v : BitVec 5) (s : State) : Out :=
  match (s.me.dfifo 2).rows with
  | [] => s.waits 1 (.fifo 2)
  | r :: rs => s.eff 1 (fun k => ((k.setFifo 2 { k.dfifo 2 with rows := rs }).learn 1 r.eng r.epoch).wrV v r.row)

/-- VPUSH (06 R156, R168). -/
def execVpush (v : BitVec 5) (s : State) : Out :=
  if 16 ≤ (s.me.dfifo 3).rows.length then s.waits 1 (.fifo 3)
  else s.eff 1 (fun k => k.append 3 { row := k.rdV v, eng := 1, epoch := k.vep })

/-- A register whose governed lanes are copied from lane `f j` of `va` (06 R159). -/
def Bank.moveLanes (k : Bank) (d a : BitVec 5) (m : BitVec 3) (f : Nat → Nat) : Bank :=
  let va := k.rdV a
  k.wrV d ((k.rdV d).write 32 (fun j => (k.rdM m).getLsbD j) (fun j => va.el 32 (f j)) (fun j => va.bad 32 (f j)))

/-- VPERM (06 R159). -/
def execVperm (d a b : BitVec 5) (m : BitVec 3) (s : State) : Out :=
  s.eff 1 (fun k => k.moveLanes d a m (fun j => (k.rdV b).el 32 j % 128))

/-- VBCAST (06 R159). -/
def execVbcast (d a : BitVec 5) (b m : BitVec 3) (s : State) : Out :=
  s.eff 1 (fun k => k.moveLanes d a m (fun _ => (k.rdA b).toNat % 128))

/-- VIOTA (06 R160): fresh lanes. -/
def execViota (d : BitVec 5) (m : BitVec 3) (s : State) : Out :=
  s.eff 1 (fun k => k.wrV d ((k.rdV d).write 32 (fun j => (k.rdM m).getLsbD j) (fun j => j) (fun _ => false)))

/-- VMASKLEN (06 R160). -/
def execVmasklen (d a : BitVec 3) (s : State) : Out :=
  s.eff 1 (fun k => k.wrM d (ofMask (fun j => decide ((j : Int) < (k.rdA a).toInt))))

/-! ### Reductions (06 R157, R158) -/

/-- A register with the value `x` in every element, all poisoned or none (06 R157). -/
def allElems (ty : VT) (x : Nat) (bad : Bool) : Row :=
  { data := BitVec.ofNat 4096 (gatherN ty.bits (fun _ => x) 0 ty.count)
    poison := if bad then BitVec.allOnes 32 else 0 }

/-- Whether a governed element of `va` is poisoned. -/
def anyBad (ty : VT) (va : Row) (m : BitVec 128) : Bool := anyBelow ty.count (fun j => ty.gov m j && va.bad ty.bits j)

/-- Minus zero of a format. -/
def Fmt.negZero (f : Fmt) : Nat := f.sign true

/-- The sum of the governed elements (06 R157, 05 R134); an exact zero sum is +0.0, also where every leaf is -0.0 (05 R130, 16 R360). -/
def vsum (ty : VT) (va : Row) (m : BitVec 128) : Nat :=
  match ty with
  | .f32 => treeSum fp32 7 ((List.range 128).map (fun j => if m.getLsbD j then va.el 32 j else fp32.negZero))
  | .b16 =>
    let el := fun i => if m.getLsbD (i / 2) then bf16.val (va.el 16 i) else fp32.val fp32.negZero
    let x := tree fp32 7 ((List.range 128).map (fun j => fp32.round 0 (FVal.add 0 (el (2 * j)) (el (2 * j + 1)))))
    bf16.round 0 (fp32.val (fp32.sumOf ((List.range 256).map el) x))
  | .f64 => treeSum fp64 6 ((List.range 64).map (fun j => if m.getLsbD (2 * j) then va.el 64 j else fp64.negZero))
  | .i32 => ((List.range 128).map (fun j => if m.getLsbD j then va.el 32 j else 0)).sum % 2 ^ 32

/-- VRSUM (06 R157). -/
def execVrsum (d a : BitVec 5) (m : BitVec 3) (t : BitVec 2) (s : State) : Out :=
  s.vec t anyType (fun ty k =>
    let va := k.rdV a
    k.wrV d (allElems ty (vsum ty va (k.rdM m)) (anyBad ty va (k.rdM m))))

/-- The first of the words `xs` in an order, from `x` on. -/
def bestOf (before : Nat → Nat → Bool) (x : Nat) (xs : List Nat) : Nat :=
  xs.foldl (fun acc y => if before y acc then y else acc) x

/-- The largest (`mx`) or smallest governed element (06 R158). -/
def vbest (mx : Bool) (ty : VT) (va : Row) (m : BitVec 128) : Nat :=
  let xs := ((List.range ty.count).filter (ty.gov m)).map (va.el ty.bits)
  match ty.fmt with
  | some f =>
    if xs.any (fun x => (f.val x).isNan) then f.nanBits
    else
      let start := f.sign mx + f.infBits
      bestOf (fun y z => if mx then (f.val z).below (f.val y) else (f.val y).below (f.val z)) start xs
  | none =>
    bestOf (fun y z => if mx then (BitVec.ofNat 32 z : Word).slt (BitVec.ofNat 32 y) else (BitVec.ofNat 32 y : Word).slt (BitVec.ofNat 32 z))
      (if mx then 0x80000000 else 0x7FFFFFFF) xs

/-- VRMAX and VRMIN. -/
def State.vbestOp (s : State) (mx : Bool) (d a : BitVec 5) (m : BitVec 3) (t : BitVec 2) : Out :=
  s.vec t anyType (fun ty k =>
    let va := k.rdV a
    k.wrV d (allElems ty (vbest mx ty va (k.rdM m)) (anyBad ty va (k.rdM m))))

/-- VRMAX (06 R158). -/
def execVrmax (d a : BitVec 5) (m : BitVec 3) (t : BitVec 2) (s : State) : Out := s.vbestOp true d a m t

/-- VRMIN (06 R158). -/
def execVrmin (d a : BitVec 5) (m : BitVec 3) (t : BitVec 2) (s : State) : Out := s.vbestOp false d a m t

/-! ### Scaling (06 R161) -/

/-- The lane of `vb` that holds the exponent for element `j` (06 R161). -/
def VT.expLane : VT → Nat → Nat
  | .b16, j => j / 2
  | .f64, j => 2 * j
  | _, j => j

/-- VSCALE (06 R161): a × 2^n, rounded by FCTL. -/
def execVscale (d a b : BitVec 5) (m : BitVec 3) (t : BitVec 2) (s : State) : Out :=
  s.vec t floatOnly (fun ty k =>
    let va := k.rdV a
    let vb := k.rdV b
    k.wrV d ((k.rdV d).write ty.bits (ty.gov (k.rdM m))
      (fun j => match ty.fmt with
        | some f => k.fout f ((k.fin f (va.el ty.bits j)).scale (lane vb.data (ty.expLane j)).toInt)
        | none => va.el ty.bits j)
      (fun j => va.bad ty.bits j || vb.bad 32 (ty.expLane j))))

/-! ### Tables and histograms (06 R162, R163, 05 R135) -/

/-- VLUTACC (06 R162). -/
def execVlutacc (d a b : BitVec 5) (m : BitVec 3) (s : State) : Out :=
  s.eff 1 (fun k =>
    let old := k.rdV d
    let vb := k.rdV b
    let code := fun g p => vb.el 8 (128 * g + p)
    let table := fun g c => k.rdV (BitVec.ofNat 5 (a.toNat + 2 * g + c / 128))
    let parts := [0, 1, 2, 3]
    k.wrV d (old.write 32 (fun p => (k.rdM m).getLsbD p)
      (fun p => leftSum fp32 (old.el 32 p) (parts.map (fun g => (table g (code g p)).el 32 (code g p % 128))))
      (fun p => old.bad 32 p || parts.any (fun g => vb.bad 8 (128 * g + p) || (table g (code g p)).bad 32 (code g p % 128)))))

/-- A register of VHISTACC: bins 128·h to 128·h + 127 of set `g` (06 R163). -/
def histReg (old va vb : Row) (m : BitVec 128) (g h : Nat) : Row :=
  let into := fun l => (List.range 128).filter (fun p => m.getLsbD p && decide (vb.el 8 (128 * g + p) = 128 * h + l))
  old.write 32 (fun _ => true) (fun l => leftSum fp32 (old.el 32 l) ((into l).map (va.el 32)))
    (fun l => old.bad 32 l || (into l).any (fun p => va.bad 32 p || vb.bad 8 (128 * g + p)))

/-- VHISTACC (06 R163). -/
def execVhistacc (d a b : BitVec 5) (m : BitVec 3) (s : State) : Out :=
  s.eff 1 (fun k =>
    let va := k.rdV a
    let vb := k.rdV b
    (List.range 8).foldl (fun acc i =>
      let r := BitVec.ofNat 5 (d.toNat + i)
      acc.wrV r (histReg (k.rdV r) va vb (k.rdM m) (i / 2) (i % 2))) k)

/-! ### MX packing (06 R164 to R166) -/

/-- The MX format of the x field: MXINT8, MXINT6, MXINT4 (02 R55). -/
def mxOf (x : BitVec 3) : Nat := 5 + x.toNat

/-- The selected groups of a mask: the groups of 32 lanes with a bit set, ascending (06 R165). -/
def selected (m : BitVec 128) : List Nat := (List.range 4).filter (fun g => anyBelow 32 (fun i => m.getLsbD (32 * g + i)))

/-- The pack of a group of lanes (06 R164, R165). -/
def packGroup (fmt : Nat) (va : Row) (m : BitVec 128) (g : Nat) : Packed :=
  packLeast (mxBits fmt) ((List.range 32).map (fun i =>
    if m.getLsbD (32 * g + i) then fp32.val (va.el 32 (32 * g + i)) else .zero))

/-- Whether a lane that enters the pack of group `g` is poisoned. -/
def groupBad (va : Row) (m : BitVec 128) (g : Nat) : Bool :=
  anyBelow 32 (fun i => m.getLsbD (32 * g + i) && va.bad 32 (32 * g + i))

/-- The data row after a pack of `ps` (block and poison): the blocks move down, the new ones stand at the top (06 R165). -/
def packRow (fmt : Nat) (old : Row) (ps : List (Packed × Bool)) : Row :=
  let bb := blockBytes fmt
  let keep := (rowBlocks fmt - ps.length) * bb
  let r := moveBytes (fun i => if i < keep then some (old, i + ps.length * bb) else none)
  let new := gatherN (8 * bb) (fun t => (ps.map (fun p => p.1.bits)).getD t 0) 0 ps.length
  let bads := (ps.zipIdx).filter (fun p => p.1.2 || p.1.1.ovf)
  { data := r.data ||| BitVec.ofNat 4096 (new * 2 ^ (8 * keep))
    poison := r.poison ||| ofGran (fun g => bads.any (fun p =>
      decide (keep + p.2 * bb < 16 * g + 16) && decide (16 * g < keep + (p.2 + 1) * bb))) }

/-- The scale row after a pack (06 R165). -/
def packScales (fmt : Nat) (old : Row) (ps : List (Packed × Bool)) : Row :=
  let keep := rowBlocks fmt - ps.length
  let r := moveBytes (fun i => if i < keep then some (old, i + ps.length) else none)
  let new := gatherN 8 (fun t => (ps.map (fun p => p.1.scale)).getD t 0) 0 ps.length
  { r with data := r.data ||| BitVec.ofNat 4096 (new * 2 ^ (8 * keep)) }

/-- VPACK (06 R165). -/
def execVpack (d a b : BitVec 5) (m x : BitVec 3) (s : State) : Out :=
  s.eff 1 (fun k =>
    let va := k.rdV a
    let fmt := mxOf x
    let ps := (selected (k.rdM m)).map (fun g => (packGroup fmt va (k.rdM m) g, groupBad va (k.rdM m) g))
    (k.wrV d (packRow fmt (k.rdV d) ps)).wrV b (packScales fmt (k.rdV b) ps))

/-- The code of element `i` of block `t` of an MX row (05 R121). -/
def mxEl (fmt : Nat) (r : Row) (t i : Nat) : Int :=
  mxCode (mxBits fmt) (r.data.toNat / 2 ^ (8 * blockBytes fmt * t + mxBits fmt * i))

/-- Whether a block of an MX row is poisoned (05 R125). -/
def blockBad (fmt : Nat) (r : Row) (t : Nat) : Bool :=
  anyBelow 32 (fun g => r.poison.getLsbD g && decide (blockBytes fmt * t < 16 * g + 16) && decide (16 * g < blockBytes fmt * (t + 1)))

/-- The place of a group among the selected ones. -/
def rankOf (gs : List Nat) (g : Nat) : Nat := (gs.takeWhile (fun h => decide (h ≠ g))).length

/-- VUNPACK (06 R166). -/
def execVunpack (d a b : BitVec 5) (m x : BitVec 3) (s : State) : Out :=
  s.eff 1 (fun k =>
    let va := k.rdV a
    let vb := k.rdV b
    let fmt := mxOf x
    let gs := selected (k.rdM m)
    let n := gs.length
    let bb := blockBytes fmt
    let out := (k.rdV d).write 32 (fun j => (k.rdM m).getLsbD j)
      (fun j => fp32.round 0 (mxVal (mxBits fmt) (mxEl fmt va (rankOf gs (j / 32)) (j % 32)) (vb.el 8 (rankOf gs (j / 32)))))
      (fun j => blockBad fmt va (rankOf gs (j / 32)) || vb.bad 8 (rankOf gs (j / 32)))
    let down := moveBytes (fun i => if i < (rowBlocks fmt - n) * bb then some (va, i + n * bb) else none)
    let scales := moveBytes (fun i => if i < rowBlocks fmt - n then some (vb, i + n) else none)
    ((k.wrV d out).wrV a down).wrV b scales)

/-! ### The constant bank (07 R177) -/

/-- VLDKB (07 R177): two reads of rows; poison raises the machine check. -/
def execVldkb (a : BitVec 3) (i : BitVec 14) (s : State) : Out :=
  let addr := s.me.rowAddr a i
  let r := rowOf addr
  if s.me.rows ≤ r + 1 then s.flt 1 (s.me.rangeFlt (if s.me.rows ≤ r then addr.toNat else 512 * (r + 1)))
  else match s.readRow s.cur s.curB 1 s.me.vep r with
    | .error f => s.flt 1 f
    | .ok (x, s1) => match s1.readRow s.cur s.curB 1 s.me.vep (r + 1) with
      | .error f => s.flt 1 f
      | .ok (y, s2) =>
        if x.poison ≠ 0 ∨ y.poison ≠ 0 then
          s.fault 1 0x000A (BitVec.ofNat 64 (512 * r)) (BitVec.ofNat 64 (x.poison.toNat + 2 ^ 32 * y.poison.toNat))
        else s2.eff 1 (fun k => (List.range 256).foldl (fun acc j =>
          { acc with k := set 0 acc.k j (if j < 128 then lane x.data j else lane y.data (j - 128)) }) k)

end Sys2Proof.Machine
end

