-- ==== Sys2Proof/Machine/Matrix.lean ====
section
/-!
DEFINITION. The matrix engine: lease, accumulator windows, array operations and the accumulator port, at issue and when they are performed (11 R259 to R279, 07 R180 to R182, 19 R373).
-/

namespace Sys2Proof.Machine

/-! ### Clusters and shapes (11 R259, R260, R263) -/

/-- The cluster of bank `b` of unit `u`: a main core's cluster, or the private store of a bank of a lane or store core (19 R372). -/
def clusterOf (u b : Nat) : Nat := if u < 448 then u / 4 else 448 + 2 * (u - 448) + b

/-- The requester of bank `b` of unit `u` (11 R263). -/
def requester (u b : Nat) : Nat := 2 * (if u < 448 then u % 4 else 0) + b

/-- Whether a unit's store has the shape of an M-die (11 R259). -/
def isM (u : Nat) : Bool := decide (192 ≤ u ∧ u < 448)

/-- The shape that a bank's job sees: a climbable job sees that of a C-die (11 R259). -/
def State.narrow (s : State) (u b : Nat) : Bool :=
  isM u && !(match (s.bank u b).job with | some j => j.climb | none => false)

/-- The columns of the array, and its rows. -/
def arrW (narrow : Bool) : Nat := if narrow then 128 else 256
def arrH (narrow : Bool) : Nat := if narrow then 64 else 256

/-- The rows of a unit's accumulator store. -/
def storeRows (u : Nat) : Nat := if isM u then 512 else 1024

/-- A cluster. -/
def State.cluster (s : State) (i : Nat) : Cluster := get {} s.clusters i

/-- The state with a cluster changed. -/
def State.onCluster (s : State) (i : Nat) (f : Cluster → Cluster) : State :=
  { s with clusters := set {} s.clusters i (f (s.cluster i)) }

/-- The window of core `c` of unit `u`'s cluster as configured (11 R260). -/
def Cluster.window (x : Cluster) (u c : Nat) : Nat × Nat :=
  match get none x.win c with
  | some w => w
  | none => (c * (storeRows u / 4), storeRows u / 4)

/-- The window of unit `u` as a job placed there now captures it whole (11 R260). -/
def State.coreWindow (s : State) (u : Nat) : Nat × Nat :=
  if 448 ≤ u then (0, 128) else (s.cluster (u / 4)).window u (u % 4)

/-- The window that bank `b` of unit `u` gives a job placed now: first row and rows (11 R260, 19 R372). A climbable job has 128 rows on every unit (11 R259, 19 R376); where the half of the core's window is none of 128 rows of the C-die shape, its rows stand behind those of the store (log entry 76). -/
def State.accWindow (s : State) (u b : Nat) (climb : Bool) : Nat × Nat :=
  let w := s.coreWindow u
  if 448 ≤ u then w
  else
    if climb ∧ (isM u ∨ w.2 / 2 ≠ 128) then (1024 + 128 * (2 * (u % 4) + b), 128)
    else (w.1 + b * (w.2 / 2), w.2 / 2)

/-- The lease of a requester. -/
def Cluster.leaseOf (x : Cluster) (r : Nat) : Lease := get .none x.lease r

/-- A cluster with it set. -/
def Cluster.setLease (x : Cluster) (r : Nat) (l : Lease) : Cluster := { x with lease := set .none x.lease r l }

/-- The lease of a bank. -/
def State.leaseOf (s : State) (u b : Nat) : Lease := (s.cluster (clusterOf u b)).leaseOf (requester u b)

/-- Whether a command is an array operation (11 R271). -/
def Cmd.isArray (c : Cmd) : Bool := match c.op with
  | .array _ _ _ _ => true
  | _ => false

/-- Whether a command uses the accumulator port. -/
def Cmd.isAcc (c : Cmd) : Bool := match c.op with
  | .acc _ _ _ _ => true
  | _ => false

/-- Whether a bank holds unperformed array operations. -/
def Bank.arrayBusy (k : Bank) : Bool := (k.queue 2).any Cmd.isArray

/-- The banks of a cluster: unit and bank. -/
def banksOf (i : Nat) : List (Nat × Nat) :=
  if i < 448 then (List.range 8).map (fun r => (4 * i + r / 2, r % 2)) else [(448 + (i - 448) / 2, i % 2)]

/-- A waiting requester's grant (11 R265): the first in ascending number after the last holder. -/
def Cluster.grant (x : Cluster) (now : Nat) : Cluster :=
  match ((List.range 8).map (fun j => (x.last + 1 + j) % 8)).find? (fun r => x.leaseOf r = .waiting) with
  | some r => { x.setLease r .held with last := r, since := now, tile := none, from_ := 0 }
  | none => x

/-- The move of LEASE_GRANT (11 R265): no requester holds the lease and every array operation of the last holder has been performed. -/
def State.leaseGrant (s : State) (i : Nat) : State :=
  if (List.range 8).any (fun r => (s.cluster i).leaseOf r = .held)
      || (banksOf i).any (fun p => (s.bank p.1 p.2).arrayBusy) then s
  else s.onCluster i (fun x => x.grant s.now)

/-! ### Lease and windows at issue (11 R261, R264) -/

/-- A private lease granted over array operations of an earlier one that are not performed: they keep their held tile, and the commands numbered from `n` on are those of the new lease, which finds no tile (11 R263, 19 R373). DESIGN CHOICE: log entry 110. -/
def Cluster.grantOver (x : Cluster) (r now n : Nat) : Cluster :=
  { x.setLease r .held with last := r, since := now, from_ := n }

/-- MLEASE (11 R264); the private lease of a lane or store core is granted at once (19 R373). -/
def execMlease (s : State) : Out :=
  let u := s.cur
  let b := s.curB
  if s.leaseOf u b = .none then
    let s1 := s.onCluster (clusterOf u b) (fun x => x.setLease (requester u b) .waiting)
    (if 448 ≤ u then s1.onCluster (clusterOf u b) (fun x =>
        if s.me.arrayBusy then x.grantOver (requester u b) s.now s.me.seq else x.grant s.now)
      else s1).eff 2 id
  else s.eff 2 id

/-- MREL (11 R264). -/
def execMrel (s : State) : Out :=
  (s.onCluster (clusterOf s.cur s.curB) (fun x => x.setLease (requester s.cur s.curB) .none)).eff 2 id

/-- Whether two runs of rows overlap. -/
def overlap (a n b m : Nat) : Bool := decide (a < b + m) && decide (b < a + n)

/-- The partition that a unit belongs to, if it is configured in one. -/
def State.partOf (s : State) (u : Nat) : Option Nat :=
  ((somes s.parts).find? (fun p => p.2.cfg.units.contains u)).map Prod.fst

/-- Whether rows `r` to `r + n - 1` overlap the window of a core of the cluster other than `c`, as configured or as captured whole by a job placed there (11 R260, R261). -/
def State.windowClash (s : State) (u c r n : Nat) : Bool :=
  let x := s.cluster (u / 4)
  (List.range 4).any (fun d =>
    let v := u / 4 * 4 + d
    decide (d ≠ c) && (overlap r n (x.window u d).1 (x.window u d).2
      || [0, 1].any (fun b => match (s.bank v b).job with
        | some j => overlap r n j.win.1 j.win.2
        | none => false)))

/-- Whether a partition holds a unit (22 R430). -/
def State.partHas (s : State) (p u : Nat) : Bool := match get none s.parts p with
  | some x => x.cfg.units.contains u
  | none => false

/-- Whether core `c` belongs to another partition than `p`: to some partition, and not to `p` too (11 R261, 22 R433; log entry 72). -/
def State.foreign (s : State) (p u : Nat) : Bool := (s.partOf u).isSome && !s.partHas p u

/-- MCFG (11 R261). -/
def execMcfg (c : BitVec 2) (r n : BitVec 10) (s : State) : Out :=
  let u := s.cur
  let rows := count n
  if storeRows u < r.toNat + rows then s.illegal 2
  else if 448 ≤ u then s.eff 2 id
  else if s.windowClash u c.toNat r.toNat rows then s.illegal 2
  else if (match s.me.job with
      | some j => s.foreign j.part (u / 4 * 4 + c.toNat)
      | none => false) then s.fault 2 0x0007 (zx c) 0
  else (s.onCluster (u / 4) (fun x => { x with win := set none x.win c.toNat (some (r.toNat, rows)) })).eff 2 (fun k =>
    k.note 2 (fun x => { x with wins := (c.toNat, get none (s.cluster (u / 4)).win c.toNat) :: x.wins }))

/-! ### Format entries (07 R180, R181) -/

/-- The fields AF, BF, OF, SP and FE of an entry. -/
def entAF (e : Word) : Nat := e.toNat / 2 ^ 24 % 16
def entBF (e : Word) : Nat := e.toNat / 2 ^ 20 % 16
def entOF (e : Word) : Nat := e.toNat / 2 ^ 16 % 16
def entSP (e : Word) : Nat := e.toNat / 2 ^ 14 % 4
def entFE (e : Word) : Nat := e.toNat % 256

/-- Whether a matrix instruction may use an entry (07 R181). -/
def entOk (e : Word) : Bool :=
  decide (entAF e < 5) && decide (entBF e < 5) && decide (entOF e < 6) && decide (entSP e < 2)
  && decide ((entAF e = 4) = (entBF e = 4)) && (decide (entOF e ≠ 5) || decide (entAF e = 4))

/-- The element format of an operand code: BF16, MXINT8, MXINT6, MXINT4, FP64. -/
def opFmt : Nat → Nat
  | 0 => 1 | 1 => 5 | 2 => 6 | 3 => 7 | _ => 3

/-- The MACs per PE and cycle of a pair of operand codes (11 R268). -/
def macs (a b : Nat) : Nat := if a = 0 ∨ b = 0 then 1 else 32 / (mxBits (opFmt a) * mxBits (opFmt b) / 4)

/-- The K extent of one operation (11 R268). -/
def kExtent (narrow : Bool) (e : Word) : Nat := if entAF e = 4 then 64 else arrH narrow * macs (entAF e) (entBF e)

/-- The N extent of one operation (11 R268). -/
def nExtent (narrow : Bool) (e : Word) : Nat := if entAF e = 4 then arrW narrow / 2 else arrW narrow

/-! ### Reading fa and fb (11 R269 to R271) -/

/-- The elements of an operand format in one piece of rows: bytes per element, or per block of 32. -/
def unitBytes (fmt : Nat) : Nat := if isMx fmt then blockBytes fmt else elemBits fmt / 8

/-- The elements in such a unit. -/
def unitElems (fmt : Nat) : Nat := if isMx fmt then 32 else 1

/-- The bytes of a row that hold elements of a format. -/
def usedBytes (fmt : Nat) : Nat := if isMx fmt then rowBlocks fmt * blockBytes fmt else 512

/-- The elements of a piece with their poison (11 R270, 05 R125). -/
def Chunk.elems (fmt : Nat) (c : Chunk) : List (FVal × Bool) :=
  if isMx fmt then
    let bb := blockBytes fmt
    (List.range ((c.hi - c.lo) / bb)).flatMap (fun t =>
      let blk := c.lo / bb + t
      let bad := blockBad fmt c.row blk || c.scale.bad 8 blk
      (List.range 32).map (fun i => (mxVal (mxBits fmt) (mxEl fmt c.row blk i) (c.scale.el 8 blk), bad)))
  else
    let w := elemBits fmt
    let f := if fmt = 0 then fp32 else if fmt = 1 then bf16 else fp64
    (List.range ((c.hi - c.lo) * 8 / w)).map (fun i =>
      let j := c.lo * 8 / w + i
      (f.val (c.row.el w j), c.row.bad w j))

/-- The elements that pieces hold. -/
def pieceCount (fmt : Nat) (cs : List Chunk) : Nat :=
  (cs.map (fun c => (c.hi - c.lo) / unitBytes fmt * unitElems fmt)).sum

/-- The next piece of at most `need` elements that the array reads from a FIFO, and the FIFO behind it; none where a row is missing (11 R270). -/
def DFifo.piece (q : DFifo) (fmt need : Nat) : Option (Chunk × DFifo) :=
  let ub := unitBytes fmt
  let lo := (q.pos + ub - 1) / ub * ub
  let cut := fun (r sc : FRow) (rest : List FRow) =>
    let hi := min (usedBytes fmt) (lo + (need + unitElems fmt - 1) / unitElems fmt * ub)
    ({ row := r.row, scale := sc.row, lo := lo, hi := hi : Chunk },
     if hi = usedBytes fmt then { rows := rest, pos := 0 : DFifo } else { q with pos := hi })
  match q.rows with
  | [] => none
  | r :: rs =>
    if isMx fmt then (match rs with
      | [] => none
      | sc :: rest => some (cut r sc rest))
    else some (cut r r rs)

/-- What an operation reads: format and elements of fb, then of fa (11 R269). -/
def arrNeeds (narrow : Bool) (op : ArrOp) (n : Nat) (e : Word) : (Nat × Nat) × (Nat × Nat) :=
  let kp := kExtent narrow e
  match op with
  | .mma => ((opFmt (entBF e), kp * nExtent narrow e), (opFmt (entAF e), n * kp))
  | .mmat => ((opFmt (entBF e), 0), (opFmt (entAF e), n * kp))
  | .mscale => ((0, arrW narrow), (0, 0))
  | .mzero => ((0, 0), (0, 0))

/-- The oldest array operation of a bank. -/
def Bank.firstArray (k : Bank) : Option Cmd := (k.queue 2).find? Cmd.isArray

/-- The pieces that the oldest operation has read. -/
def Bank.runOf (k : Bank) (c : Cmd) : ArrRun := match k.run with
  | some r => if r.seq = c.seq then r else { seq := c.seq }
  | none => { seq := c.seq }

/-- The FIFO from which the oldest array operation reads next, with format and elements still to read: 1 for fb, 0 for fa; none where it has read all. -/
def State.arrNext (s : State) (u b : Nat) (c : Cmd) : Option (Nat × Nat × Nat) :=
  match c.op with
  | .array op _ n e =>
    let needs := arrNeeds (s.narrow u b) op n e
    let r := (s.bank u b).runOf c
    let gotB := pieceCount needs.1.1 r.b
    let gotA := pieceCount needs.2.1 r.a
    if gotB < needs.1.2 then some (1, needs.1.1, needs.1.2 - gotB)
    else if gotA < needs.2.2 then some (0, needs.2.1, needs.2.2 - gotA)
    else none
  | _ => none

/-- The data FIFO on which the oldest array operation of a bank waits for rows (11 R271). -/
def State.arrStarved (s : State) (u b : Nat) : Option Nat :=
  let k := s.bank u b
  match k.firstArray with
  | none => none
  | some c => match s.arrNext u b c with
    | none => none
    | some (f, fmt, need) => if ((k.dfifo f).piece fmt need).isNone then some f else none

/-- What the matrix stream waits on behind its unperformed array operations: the FIFO whose rows the oldest lacks, if one does (08 R208, R213; 11 R271). -/
def State.arrayWait (s : State) (u b : Nat) : WaitOn := match s.arrStarved u b with
  | some f => .fifo f
  | none => .inner

/-! ### Array operations and the port at issue (11 R271 to R278) -/

/-- The accumulator groups that a command touches: first and last (11 R276, R278). -/
def Cmd.groups (c : Cmd) : Option (Nat × Nat) := match c.op with
  | .array _ row n _ => some (row / 4, (row + n - 1) / 4)
  | .acc _ g _ _ => some (g, g)
  | _ => none

/-- The first group of `lo` to `hi` that an unperformed command of the other side touches, with the address of the oldest such command: the lowest, where several are busy (11 R278; log entry 93). -/
def Bank.busyGroup (k : Bank) (array : Bool) (lo hi : Nat) : Option (Nat × BitVec 13) :=
  let other := (k.queue 2).filter (fun c => if array then c.isAcc else c.isArray)
  (List.range (hi - lo + 1)).findSome? (fun i => (other.find? (fun c => match c.groups with
    | some (a, z) => decide (a ≤ lo + i ∧ lo + i ≤ z)
    | none => false)).map (fun c => (lo + i, c.pc)))

/-- The BF code of the tile that an MMAT issued now would find: that of the last unperformed MMA of its lease, else of the tile held under it (11 R272; log entry 20). -/
def State.tileCode (s : State) (u b : Nat) : Option Nat :=
  let x := s.cluster (clusterOf u b)
  match ((s.bank u b).queue 2).reverse.findSome? (fun c => match c.op with
    | .array .mma _ _ e => if x.from_ ≤ c.seq then some (entBF e) else none
    | _ => none) with
  | some e => some e
  | none => (x.tile.filter (fun t => decide (x.from_ ≤ t.at_))).map (fun t => t.code)

/-- The accumulator rows of a bank's job. -/
def Bank.accRows (k : Bank) : Nat := match k.job with
  | some j => j.accN
  | none => 0

/-- The lease bound (11 R266): the holder's lease returns to waiting. -/
def State.leaseBound (s : State) (u b : Nat) : Bool :=
  let x := s.cluster (clusterOf u b)
  decide (u < 448) && decide (16384 ≤ s.now - x.since) && !(s.bank u b).isStatic
  && (List.range 8).any (fun r => decide (r ≠ requester u b) && decide (x.leaseOf r = .waiting))

/-- The accumulator-busy trap (11 R278). -/
def State.accBusy (s : State) (p : Nat × BitVec 13) : Out := s.fault 2 0x000C (BitVec.ofNat 64 p.1) (zx p.2)

/-- An array operation at issue (11 R263, R266, R271, R272). -/
def State.arrayIssue (s : State) (op : ArrOp) (row : Nat) (n : Nat) : Out :=
  let u := s.cur
  let b := s.curB
  let k := s.me
  let e := k.fmtEnt 2
  if s.leaseOf u b = .none then s.illegal 2
  else if op = .mma ∧ s.leaseOf u b = .held ∧ s.leaseBound u b = true then
    (s.onCluster (clusterOf u b) (fun x => x.setLease (requester u b) .waiting)).waits 2 (.remote 0)
  else s.orWait 2 (.remote 0) (decide (s.leaseOf u b = .waiting)) (fun s =>
    if 8 ≤ ((k.queue 2).filter Cmd.isArray).length then s.waits 2 (s.arrayWait u b)
    else if k.accRows < row + n then s.illegal 2
    else if op ≠ .mzero ∧ (entOk e = false ∨ (op = .mscale ∧ entAF e = 4)) then s.illegal 2
    else if op = .mmat ∧ s.tileCode u b ≠ some (entBF e) then s.illegal 2
    else match k.busyGroup true (row / 4) ((row + n - 1) / 4) with
      | some p => s.accBusy p
      | none => s.eff 2 (fun k => k.issueNoted 2 (s.leaseOf u b) (.array op row n e) (s.cluster (clusterOf u b)).from_))

/-- MZERO (11 R272). -/
def execMzero (r n : BitVec 10) (s : State) : Out := s.arrayIssue .mzero r.toNat (count n)

/-- MMA (11 R272). -/
def execMma (r n : BitVec 10) (s : State) : Out := s.arrayIssue .mma r.toNat (count n)

/-- MMAT (11 R272). -/
def execMmat (r n : BitVec 10) (s : State) : Out := s.arrayIssue .mmat r.toNat (count n)

/-- MSCALE (11 R272). -/
def execMscale (r n : BitVec 10) (s : State) : Out := s.arrayIssue .mscale r.toNat (count n)


/-- MDRAIN (11 R275): waits until the array operations and port accesses of the stream have been performed. -/
def execMdrain (s : State) : Out :=
  if (s.me.queue 2).any (fun c => c.isArray || c.isAcc) then s.waits 2 (s.arrayWait s.cur s.curB) else s.eff 2 id

/-- The blocks of 32 elements of a group. -/
def groupBlocks (w : Nat) : Nat := 4 * w / 32

/-- The scratchpad rows that ACCRD writes, by OF (11 R277). -/
def accRdRows (w of : Nat) : Nat :=
  match of with
  | 1 => 4 * w / 256
  | 2 => 2 * ((groupBlocks w + 15) / 16)
  | 3 => 2 * ((groupBlocks w + 20) / 21)
  | 4 => 2 * ((groupBlocks w + 31) / 32)
  | _ => 4 * w / 128

/-- ACCRD and ACCWR at issue (11 R276). -/
def State.accIssue (s : State) (rd : Bool) (g srow : Nat) : Out :=
  let k := s.me
  let e := k.fmtEnt 2
  let w := arrW (s.narrow s.cur s.curB)
  let rows := if rd then accRdRows w (entOF e) else 4 * w / 128
  if k.accRows / 4 ≤ g then s.illegal 2
  else if entOk e = false ∨ (rd = false ∧ entOF e = 5) then s.illegal 2
  else if k.rows < srow + rows then s.flt 2 (k.rangeFlt (512 * max srow k.rows))
  else match k.busyGroup false g g with
    | some p => s.accBusy p
    | none => s.eff 2 (fun k => k.issueNoted 2 (s.leaseOf s.cur s.curB) (.acc rd g srow e) (s.cluster (clusterOf s.cur s.curB)).from_)

/-- ACCRD (11 R276). -/
def execAccrd (g : BitVec 8) (r : BitVec 14) (s : State) : Out := s.accIssue true g.toNat r.toNat

/-- ACCWR (11 R276). -/
def execAccwr (g : BitVec 8) (r : BitVec 14) (s : State) : Out := s.accIssue false g.toNat r.toNat

/-! ### When the array and the port may go on (10 R245) -/

/-- The commands of the matrix engine before `c`, if none of them is held by a fault; each still has to be performed. -/
def Bank.aheadOf (k : Bank) (c : Cmd) : Option (List Cmd) :=
  if c.held ∨ (k.before 2 c.seq).any (fun p => p.held) = true then none else some (k.before 2 c.seq)

/-- Whether the frame of a bank's fault has been written: the state put back then stands until the restart (08 R210, R212). -/
def Bank.framed (k : Bank) : Bool := match k.fault with
  | some f => f.slot.isSome
  | none => false

/-- Whether the oldest array operation may read: no earlier access of the port is unperformed (10 R245), and no frame has been written. -/
def State.mayRead (s : State) (u b : Nat) (c : Cmd) : Bool :=
  decide ((s.core u).freeze = 0) && !(s.bank u b).framed && (match (s.bank u b).aheadOf c with
    | some l => !l.any Cmd.isAcc
    | none => false)

/-- Whether an access of the port may be performed: every earlier array operation has made its pops (10 R245). -/
def State.mayPort (s : State) (u b : Nat) (c : Cmd) : Bool :=
  decide ((s.core u).freeze = 0) && (match (s.bank u b).aheadOf c with
    | some l => l.all (fun p => (s.arrNext u b p).isNone)
    | none => false)

/-- A run that has read one piece more of FIFO `f`, 1 for fb: the piece, the position at which the first one began, the rows popped. -/
def ArrRun.more (r : ArrRun) (f : Nat) (ch : Chunk) (pos : Nat) (pop : List FRow) : ArrRun :=
  if f = 1 then { r with b := r.b ++ [ch], posB := if r.b.isEmpty then pos else r.posB, popB := r.popB ++ pop }
  else { r with a := r.a ++ [ch], posA := if r.a.isEmpty then pos else r.posA, popA := r.popA ++ pop }

/-- The move of ARRAY_OP_START (11 R270, R271, R274): the oldest array operation starts, or reads on, if the piece that it reads next is present; the rows of the piece are acquired. -/
def State.arrayStart (s : State) (u b : Nat) : State :=
  let k := s.bank u b
  match k.firstArray.filter (s.mayRead u b) with
  | none => s
  | some c => match s.arrNext u b c with
    | none => s.onBank u b (fun k => { k with run := some (k.runOf c) })
    | some (f, fmt, need) => match (k.dfifo f).piece fmt need with
      | none => s
      | some (ch, q) =>
        let used := (k.dfifo f).rows.take (if isMx fmt then 2 else 1)
        let pop := (k.dfifo f).rows.take ((k.dfifo f).rows.length - q.rows.length)
        s.onBank u b (fun k =>
          { (k.setFifo f q).acquire 2 c.seq used with
            run := some ((k.runOf c).more f ch (k.dfifo f).pos pop) })

/-! ### The effect of an array operation (11 R273, 05 R130 to R133) -/

/-- An FP32 accumulator plus one group of products: the group is exact, and rounded to FP32 first where a BF16 operand takes part (05 R131, R132). -/
def dotGroup (first : Bool) (acc : Nat) (ps : List (FVal × FVal)) : Nat :=
  let x := exactSum (ps.map (fun p => p.1.mul p.2))
  fp32.round 0 (FVal.add 0 (fp32.val acc) (if first then fp32.val (fp32.round 0 x) else x))

/-- The terms of a matrix product from `acc` on: the accumulator and the exact products (05 R130). -/
def dotTerms (f : Fmt) (acc : Nat) (ps : List (FVal × FVal)) : List FVal := f.val acc :: ps.map (fun p => p.1.mul p.2)

/-- The sum of R131 and R132 from `acc` on (05 R130). -/
def dot32 (first : Bool) (acc : Nat) (ps : List (FVal × FVal)) : Nat :=
  fp32.sumOf (dotTerms fp32 acc ps) ((groupsOf 32 (ps.length + 1) ps).foldl (dotGroup first) acc)

/-- The sum of R133 from `acc` on (05 R130). -/
def dot64 (acc : Nat) (ps : List (FVal × FVal)) : Nat :=
  fp64.sumOf (dotTerms fp64 acc ps) (ps.foldl (fun a p => fp64.round 0 (FVal.add 0 (fp64.val a) (p.1.mul p.2))) acc)

/-- An accumulator row after one A row: `f` the columns of N elements of `w` bits, `bad` their poison (11 R262, R273). -/
def AccRow.update (old : AccRow) (w cols : Nat) (f : Nat → Nat) (bad : Nat → Bool) : AccRow :=
  { data := BitVec.ofNat 8192 (gatherN w f 0 cols)
    poison := BitVec.ofNat 64 (gatherN 1 (fun g => (old.poison.getLsbD g
      || anyBelow (128 / w) (fun i => decide (128 / w * g + i < cols) && bad (128 / w * g + i))).toNat) 0 64) }

/-- Element `j` of `w` bits of an accumulator row. -/
def AccRow.el (r : AccRow) (w j : Nat) : Nat := r.data.toNat / 2 ^ (w * j) % 2 ^ w

/-- Row `i` of the product of A row `a` with the tile's columns. -/
def mmaRow (e : Word) (n : Nat) (tile : List (List (FVal × Bool))) (a : List (FVal × Bool)) (old : AccRow) : AccRow :=
  let w := if entAF e = 4 then 64 else 32
  let pairs := fun j => (a.zip (tile.getD j [])).map (fun p => (p.1.1, p.2.1))
  old.update w n
    (fun j => if entAF e = 4 then dot64 (old.el 64 j) (pairs j)
      else dot32 (decide (entAF e = 0 ∨ entBF e = 0)) (old.el 32 j) (pairs j))
    (fun j => a.any (fun x => x.2) || (tile.getD j []).any (fun x => x.2))

/-- An accumulator row scaled by s[0] to s[W - 1] (11 R273). -/
def scaleRow (w : Nat) (sv : List (FVal × Bool)) (old : AccRow) : AccRow :=
  old.update 32 w (fun j => fp32.round 0 ((fp32.val (old.el 32 j)).mul (sv.getD j (.nan, false)).1))
    (fun j => (sv.getD j (.nan, false)).2)

/-- A cluster with accumulator rows `first + i` changed for the `i` below `n`. -/
def Cluster.onRows (x : Cluster) (first n : Nat) (f : Nat → AccRow → AccRow) : Cluster :=
  { x with acc := (List.range n).foldl (fun m i => set {} m (first + i) (f i (get {} m (first + i)))) x.acc }

/-- Column `j` of a held tile for an operation of extent `kp`: its elements, and free ones beyond the extent with which it was loaded (log entry 77). -/
def HeldTile.column (t : HeldTile) (free kp j : Nat) (els : List (FVal × Bool)) : List (FVal × Bool) :=
  let col := ((els.drop (j * t.kp)).take t.kp).take kp
  col ++ (List.range (kp - t.kp)).map (fun i => (fp32.val (Config.freeTile free (t.kp + i) j % 2 ^ 32), false))

/-- The effect of an array operation on its cluster (11 R273); `free` is the counter of free values. -/
def Cluster.perform (x : Cluster) (narrow : Bool) (first : Nat) (op : ArrOp) (n : Nat) (e : Word) (r : ArrRun) (free : Nat) : Cluster :=
  let kp := kExtent narrow e
  let nn := nExtent narrow e
  match op with
  | .mzero => x.onRows first n (fun _ _ => {})
  | .mscale =>
    let sv := r.b.flatMap (Chunk.elems 0)
    x.onRows first n (fun _ old => scaleRow (arrW narrow) sv old)
  | .mma =>
    let x1 := { x with tile := some { code := entBF e, kp := kp, els := r.b, at_ := r.seq } }
    let cols := groupsOf kp (nn + 1) (r.b.flatMap (Chunk.elems (opFmt (entBF e))))
    let rows := groupsOf kp (n + 1) (r.a.flatMap (Chunk.elems (opFmt (entAF e))))
    x1.onRows first n (fun i old => mmaRow e nn cols (rows.getD i []) old)
  | .mmat =>
    let cols := match x.tile with
      | some t =>
        let els := t.els.flatMap (Chunk.elems (opFmt (entBF e)))
        (List.range nn).map (fun j => t.column free kp j els)
      | none => []
    let rows := groupsOf kp (n + 1) (r.a.flatMap (Chunk.elems (opFmt (entAF e))))
    x.onRows first n (fun i old => mmaRow e nn cols (rows.getD i []) old)

/-- The first accumulator row of a bank's job. -/
def Bank.accBase (k : Bank) : Nat := match k.job with
  | some j => j.accRow
  | none => 0

/-- The move of ARRAY_OP_PERFORMED (11 R273, R274): the operation that has started and read all its operands takes its effect. -/
def State.arrayPerform (s : State) (u b : Nat) : State :=
  let k := s.bank u b
  match k.run, k.firstArray with
  | some r, some c =>
    if r.seq ≠ c.seq ∨ s.mayRead u b c = false ∨ (s.arrNext u b c).isSome then s
    else match c.op with
      | .array op row n e =>
        let s1 := s.onCluster (clusterOf u b) (fun x => x.perform (s.narrow u b) (k.accBase + row) op n e r s.free)
        { s1.onBank u b (fun k => { (k.retire 2 c.seq).forget c.seq with run := none }) with free := s.free + 1 }
      | _ => s
  | _, _ => s

/-! ### The accumulator port (11 R276, R277) -/

/-- Element `i` of a group, row by row (11 R277). -/
def groupEl (x : Cluster) (w first i : Nat) : Nat := (get {} x.acc (first + i / w)).el 32 (i % w)

/-- Its poison. -/
def groupElBad (x : Cluster) (w first i : Nat) : Bool := (get {} x.acc (first + i / w) : AccRow).poison.getLsbD (i % w / 4)

/-- A row of 128 elements from `i0` on, bits unchanged (FP32 and FP64). -/
def accRow32 (x : Cluster) (w first i0 : Nat) : Row :=
  { data := ofElems 32 (fun i => BitVec.ofNat 32 (groupEl x w first (i0 + i)))
    poison := ofGran (fun g => groupElBad x w first (i0 + 4 * g)) }

/-- A row of 256 elements rounded to BF16. -/
def accRow16 (x : Cluster) (w first i0 : Nat) : Row :=
  { data := ofElems 16 (fun i => BitVec.ofNat 16 (bf16.round 0 (fp32.val (groupEl x w first (i0 + i)))))
    poison := ofGran (fun g => groupElBad x w first (i0 + 8 * g) || groupElBad x w first (i0 + 8 * g + 4)) }

/-- Block `t` of a group packed by the entry's scale policy, with the poison of its sources (11 R277). -/
def accBlock (x : Cluster) (w first fmt : Nat) (e : Word) (t : Nat) : Packed × Bool :=
  let xs := (List.range 32).map (fun i => fp32.val (groupEl x w first (32 * t + i)))
  (if entSP e = 0 then packLeast (mxBits fmt) xs else packAt (mxBits fmt) (entFE e) xs,
   anyBelow 32 (fun i => groupElBad x w first (32 * t + i)))

/-- A data row of blocks from block 0 on (11 R277). -/
def blocksRow (fmt : Nat) (ps : List (Packed × Bool)) : Row :=
  let bb := blockBytes fmt
  { data := BitVec.ofNat 4096 (gatherN (8 * bb) (fun t => (ps.map (fun p => p.1.bits)).getD t 0) 0 ps.length)
    poison := ofGran (fun g => (ps.zipIdx).any (fun p => (p.1.2 || p.1.1.ovf)
      && decide (p.2 * bb < 16 * g + 16) && decide (16 * g < (p.2 + 1) * bb))) }

/-- Its scale row. -/
def scalesRow (ps : List (Packed × Bool)) : Row :=
  { data := BitVec.ofNat 4096 (gatherN 8 (fun t => (ps.map (fun p => p.1.scale)).getD t 0) 0 ps.length) }

/-- The rows that ACCRD writes (11 R277). -/
def accRdOut (x : Cluster) (w first : Nat) (e : Word) : List Row :=
  match entOF e with
  | 1 => (List.range (4 * w / 256)).map (fun r => accRow16 x w first (256 * r))
  | 2 | 3 | 4 =>
    let fmt := entOF e + 3
    let ps := (List.range (groupBlocks w)).map (accBlock x w first fmt e)
    (groupsOf (rowBlocks fmt) (groupBlocks w + 1) ps).flatMap (fun q => [blocksRow fmt q, scalesRow q])
  | _ => (List.range (4 * w / 128)).map (fun r => accRow32 x w first (128 * r))

/-- Rows written from row `r` on by engine `e`. -/
def State.writeRows (s : State) (u b e : Nat) (ep : BitVec 13) (r : Nat) : List Row → Except Flt State
  | [] => .ok s
  | v :: vs => match s.writeRow u b e ep r v with
    | .error f => .error f
    | .ok s1 => s1.writeRows u b e ep (r + 1) vs

/-- `n` rows read from row `r` on by engine `e`. -/
def State.readRows (s : State) (u b e : Nat) (ep : BitVec 13) (r : Nat) : Nat → Except Flt (List Row × State)
  | 0 => .ok ([], s)
  | n + 1 => match s.readRow u b e ep r with
    | .error f => .error f
    | .ok (v, s1) => match s1.readRows u b e ep (r + 1) n with
      | .error f => .error f
      | .ok (vs, s2) => .ok (v :: vs, s2)

/-- A cluster whose group at row `first` holds rows of the FP32 layout (11 R276, R277). -/
def Cluster.load (x : Cluster) (w first : Nat) (rs : List Row) : Cluster :=
  x.onRows first 4 (fun i _ =>
    { data := BitVec.ofNat 8192 (gatherN 32 (fun c =>
        (rs.getD ((i * w + c) / 128) {}).el 32 ((i * w + c) % 128)) 0 w)
      poison := BitVec.ofNat 64 (gatherN 1 (fun g => (decide (4 * g < w)
        && (rs.getD ((i * w + 4 * g) / 128) {}).poison.getLsbD ((i * w + 4 * g) % 128 / 4)).toNat) 0 64) })

/-- The move of ACC_PORT_PERFORMED (10 R245; 11 R276 to R279): the oldest access of the port; a fault on the scratchpad side stops the job and moves nothing. -/
def State.accPerform (s : State) (u b : Nat) : State :=
  let k := s.bank u b
  let w := arrW (s.narrow u b)
  match ((k.queue 2).find? Cmd.isAcc).filter (s.mayPort u b) with
  | none => s
  | some c => match c.op with
    | .acc rd g srow e =>
      let cl := clusterOf u b
      if rd then
        match s.writeRows u b 2 c.epoch srow (accRdOut (s.cluster cl) w (k.accBase + 4 * g) e) with
        | .error f => s.cmdStop u b 2 c f
        | .ok s1 => s1.onBank u b (fun k => (k.retire 2 c.seq).forget c.seq)
      else
        match s.readRows u b 2 c.epoch srow (4 * w / 128) with
        | .error f => s.cmdStop u b 2 c f
        | .ok (rs, s1) => (s1.onCluster cl (fun x => x.load w (k.accBase + 4 * g) rs)).onBank u b (fun k => (k.retire 2 c.seq).forget c.seq)
    | _ => s

/-- ARRAY_OP_START. -/
def execArrayOpStart (u b : Nat) (s : State) : Out := .next (s.arrayStart u b)

/-- ARRAY_OP_PERFORMED. -/
def execArrayOpPerformed (u b : Nat) (s : State) : Out := .next (s.arrayPerform u b)

/-- ACC_PORT_PERFORMED. -/
def execAccPortPerformed (u b : Nat) (s : State) : Out := .next (s.accPerform u b)

/-- LEASE_GRANT (11 R265). -/
def execLeaseGrant (cl : Nat) (s : State) : Out := .next (s.leaseGrant cl)

end Sys2Proof.Machine
end

