-- ==== Sys2Proof/Machine/Domains.lean ====
section
/-!
DEFINITION. The control instructions that wait for every command of the job: DMRSET, CSRW to DMR, DSYNC and HLATCH (03 R81 to R83; 13 R311, R315 to R317; 11 R271).
-/

namespace Sys2Proof.Machine

/-- The array operation that does not count as an unperformed command, since it waits for rows (11 R271). -/
def State.starvedCmd (s : State) (u b : Nat) : Option Nat := match s.arrStarved u b with
  | none => none
  | some _ => (s.bank u b).firstArray.map (fun c => c.seq)

/-- Whether a command of the job is unperformed: what DSYNC, DMRSET and HLATCH wait for (13 R311, R315, R316; log entry 16). -/
def State.undone (s : State) (u b : Nat) : Bool :=
  (s.bank u b).cmds.any (fun p => p.2.any (fun c => decide (s.starvedCmd u b ≠ some c.seq)))

/-- An instruction of the control stream that waits on `w` for every command of the job; in a static job the wait is a pause (13 R311, R315, R316; 16 R353). -/
def State.afterAll (s : State) (w : WaitOn) (go : State → Out) : Out :=
  if s.undone s.cur s.curB = true then
    (if s.me.isStatic then s.onMe (fun k => k.onJob (fun j => j.pauseFor 0)) else s).waits 0 w
  else go s

/-- The effect of DMRSET (13 R315, 19 R376): it waits for the job's commands, leaves the domain and joins another. -/
def State.dmrSet (s : State) (l : BitVec 3) (i : BitVec 16) : Out :=
  if 4 < l.toNat ∨ (l = 0 ∧ 32767 < i.toNat) then s.illegal 0
  else if (match s.me.job with | some j => j.climb | none => false) = true ∧ l.toNat < 2 then s.illegal 0
  else s.afterAll .inner (fun s => s.segment 0 .inner (fun s => s.joinDomain l i (fun s => s.eff 0 id)))

/-- DMRSET (13 R315). -/
def execDmrset (l : BitVec 3) (i : BitVec 16) (s : State) : Out := s.dmrSet l i

/-- CSRW (03 R81 to R83): writes the RW fields of a CSR; to DMR it acts as DMRSET. -/
def execCsrw (a n : BitVec 5) (s : State) : Out :=
  let v := s.me.rdS a
  if n = 7 then s.dmrSet (BitVec.ofNat 3 (v.toNat / 65536)) (v.setWidth 16)
  else if n = 12 then
    let new := v - BitVec.ofNat 64 (unitClock s.cur s.now)
    let by_ := new - (s.core s.cur).tick
    (s.setCore s.cur { s.core s.cur with tick := new }).eff 0 (fun k => k.note 0 (fun x => { x with tickBy := x.tickBy + by_ }))
  else s.eff 0 (fun k => { k with csr := k.csr.write n.toNat v })

/-- The epochs that a job holds, by engine (13 R317). -/
def Bank.epochs (k : Bank) : Know := (List.range 6).foldl (fun acc e => merge acc e (k.stream e).epoch) []

/-- A member's arrival in the open phase of its domain (13 R316), with the latch list of an HLATCH (R311): the stream waits for the close. -/
def State.arrive (s : State) (key : Nat) (latch : Option DWord) : Out :=
  match s.me.job with
  | none => s.eff 0 id
  | some j =>
    let s1 := s.onDomain key (fun d => { d with
      arrivals := d.arrivals + 1
      latches := match latch with
        | some a => d.latches ++ [(j.writer, j.wbank, j.jid, a)]
        | none => d.latches })
    let s2 := s1.tell key (.arrive (s.phaseOf key))
    .next ((s2.onMe (fun k => (k.onJob (fun j => { j with arrived := true, snap := k.epochs })).onStream 0
      (fun t => { t with phase := .close, wait := .remote 0, waited := if t.wait = .remote 0 then t.waited else 0 }))).pauseOn)

/-- DSYNC (13 R316): the wait for the job's commands is a part of its wait on the domain, a remote object (08 R208, R209). -/
def execDsync (s : State) : Out :=
  s.afterAll (if (s.dmrKey s.cur s.curB).isSome then .remote 0 else .inner) (fun s => match s.dmrKey s.cur s.curB with
    | none => s.segment 0 .inner (fun s => s.eff 0 id)
    | some key => s.arrive key none)

/-- HLATCH (13 R311): legal only in a job whose DMR has level 3 and a nonzero id. -/
def execHlatch (a : BitVec 5) (s : State) : Out :=
  if s.me.csr.dmrLevel ≠ 3 ∨ s.me.csr.dmrId = 0 then s.illegal 0
  else s.afterAll (.remote 0) (fun s => match s.dmrKey s.cur s.curB with
    | none => s.illegal 0
    | some key => s.arrive key (some (s.me.rdS a)))

end Sys2Proof.Machine
end

