-- ==== Sys2Proof/Machine/Copy.lean ====
section
/-!
DEFINITION. The copy engines at issue: scalar work, sequencer registers, nests, copy commands and bins (09 R215 to R232).
-/

namespace Sys2Proof.Machine

/-! ### Scalar work (09 R215) -/

/-- CMOVI (09 R215). -/
def execCmovi (e : BitVec 3) (d : BitVec 4) (i : BitVec 16) (s : State) : Out :=
  s.eff e.toNat (fun k => k.wrC e.toNat d (i.signExtend 32))

/-- CADD (09 R215). -/
def execCadd (e : BitVec 3) (d a b : BitVec 4) (s : State) : Out :=
  s.eff e.toNat (fun k => k.wrC e.toNat d (k.rdC e.toNat a + k.rdC e.toNat b))

/-- CADDI (09 R215). -/
def execCaddi (e : BitVec 3) (d a : BitVec 4) (i : BitVec 16) (s : State) : Out :=
  s.eff e.toNat (fun k => k.wrC e.toNat d (k.rdC e.toNat a + i.signExtend 32))

/-- CSUB (09 R215). -/
def execCsub (e : BitVec 3) (d a b : BitVec 4) (s : State) : Out :=
  s.eff e.toNat (fun k => k.wrC e.toNat d (k.rdC e.toNat a - k.rdC e.toNat b))

/-! ### Sequencer registers (09 R217, R224, R225) -/

/-- The sequencer registers, tag and bin state of a copy engine. -/
def Bank.sq (k : Bank) (e : Nat) : SeqRegs := get {} k.seqr e

/-- A bank with them changed. -/
def Bank.onSq (k : Bank) (e : Nat) (f : SeqRegs → SeqRegs) : Bank := { k with seqr := set {} k.seqr e (f (k.sq e)) }

/-- The coordinates X0 to X5. -/
def SeqRegs.coords (q : SeqRegs) : List Word := (List.range 6).map (fun d => get 0 q.x d)

/-- SEQL (09 R225). -/
def execSeql (e l : BitVec 3) (b : BitVec 4) (s : State) : Out :=
  s.eff e.toNat (fun k => k.onSq e.toNat (fun q => { q with l := set 0 q.l l.toNat (k.rdC e.toNat b) }))

/-- SEQB (09 R225). -/
def execSeqb (e d : BitVec 3) (b : BitVec 4) (s : State) : Out :=
  s.eff e.toNat (fun k => k.onSq e.toNat (fun q => { q with x := set 0 q.x d.toNat (k.rdC e.toNat b) }))

/-- SEQS (09 R225). -/
def execSeqs (e l d : BitVec 3) (b : BitVec 4) (s : State) : Out :=
  s.eff e.toNat (fun k => k.onSq e.toNat (fun q => { q with s := set 0 q.s (6 * l.toNat + d.toNat) (k.rdC e.toNat b) }))

/-- ARWSET (09 R224): c0 clears the tag. -/
def execArwset (e : BitVec 3) (a : BitVec 4) (s : State) : Out :=
  s.eff e.toNat (fun k => k.onSq e.toNat (fun q => { q with tag := if a = 0 then none else some (k.rdC e.toNat a) }))

/-! ### The checks of a copy command (09 R219, R222, R231) -/

/-- The scratchpad rows of a command behind `pad`. -/
def CopyCmd.rows (c : CopyCmd) : Nat := match c.kind with
  | .reduce => 1
  | .bincfg => 5
  | _ => c.n

/-- Whether a command has index rows. -/
def CopyCmd.indexed (c : CopyCmd) : Bool := decide (c.kind = .gath) || decide (c.kind = .scatb)

/-- The start coordinates of a command as numbers. -/
def CopyCmd.point (c : CopyCmd) : List Nat := c.coord.map (fun x => x.toNat)

/-- A point with dimension 1 replaced. -/
def line (p : List Nat) (y : Nat) : List Nat := p.take 1 ++ [y] ++ p.drop 2

/-- The region of a `REDUCE`: A's box with dimensions 2 to 5 at X2 to X5 (09 R222). -/
def Box.region (b : Box) (x : List Nat) : Box :=
  { lo := dims.map (fun d => if d < 2 then dim b.lo d else max (dim b.lo d) (dim x d))
    hi := dims.map (fun d => if d < 2 then dim b.hi d else min (dim b.hi d) (dim x d + 1)) }

/-- The first element of a nonempty region, in raster order, that lies outside a box (09 R222, 14 R465): dimension and coordinate. -/
def Box.firstOut (r b : Box) : Option (Nat × Nat) :=
  if r.empty then none
  else if !b.has r.lo then some (b.outDim r.lo, dim r.lo (b.outDim r.lo))
  else if dim b.hi 0 < dim r.hi 0 then some (0, dim b.hi 0)
  else if dim b.hi 1 < dim r.hi 1 then some (1, dim b.hi 1)
  else none

/-- The lines of bin `i` that are checked at issue, up to the first beyond the box (09 R231). -/
def SeqRegs.binLines (q : SeqRegs) (b : Box) (i : Nat) : List Nat :=
  let base := (get 0 q.base i : Word).toNat
  (List.range (min (get 0 q.cap i : Word).toNat (dim b.hi 1 - base + 1))).map (fun j => base + j)

/-- The first widening fault of the bins' lines. -/
def SeqRegs.binFlt (q : SeqRegs) (t : Tensor) (b : Box) (c : CopyCmd) : Option Flt :=
  (List.range q.nb.toNat).findSome? (fun i => (q.binLines b i).findSome? (fun y =>
    b.runFlt c.form (startPoint t.fmt (line c.point y)) (rowElems t.fmt)))

/-- The formats that `REDUCE` does not take (09 R222): INT32, U8, FP64. -/
def reduceBad (fmt : Nat) : Bool := decide (fmt = 2 ∨ fmt = 3 ∨ fmt = 4)

/-- Whether a `REDUCE` has a view whose format makes it an illegal instruction (02 R34, 09 R222; log entry 79). -/
def State.reduceIllegal (s : State) (j : Job) (c : CopyCmd) : Bool :=
  s.formFmt j.part c.form reduceBad || (decide (c.formB ≠ 0) && s.formFmt j.part c.formB reduceBad)

/-- The checks that a command of engine `e` of bank `b` of unit `u` makes at issue, in the order of R219 behind the illegal instruction (02 R34); `iw` is its instruction word. It answers the command with what the checks saw. -/
def State.copyCheck (s : State) (u b e : Nat) (iw : DWord) (c : CopyCmd) : Except Flt CopyCmd :=
  let k := s.bank u b
  let lastIdx := rowOf c.idx + (c.first + c.n - 1) / 128
  if (match k.job with | some j => decide (c.kind = .reduce) && s.reduceIllegal j c | none => false) = true then .error { code := 0x0001, da := iw }
  else if k.rows < rowOf c.pad + c.rows then .error (k.rangeFlt (512 * max (rowOf c.pad) k.rows))
  else if c.indexed ∧ k.rows ≤ lastIdx then .error (k.rangeFlt (512 * max (rowOf c.idx) k.rows))
  else match k.job with
    | none => .ok c
    | some j =>
      match c.kind with
      | .pusha => .ok c
      | .pushb => .ok c
      | .bincfg => .ok c
      | .cpy => match s.checkRun j u c.form (decide (e = 3)) (decide (e = 4)) c.point c.n with
        | .error f => .error f
        | .ok x => .ok { c with chk := some x }
      | .gath => match s.checkView j u c.form (decide (e = 3)) (decide (e = 4)) with
        | .error f => .error f
        | .ok (v, t) => .ok { c with chk := some { form := c.form, tid := t.id, box := v.box } }
      | .scatb => match s.checkView j u c.form false true with
        | .error f => .error f
        | .ok (v, t) => match (k.sq e).binFlt t v.box c with
          | some f => .error f
          | none => .ok { c with chk := some { form := c.form, tid := t.id, box := v.box } }
      | .reduce => match s.checkView j u c.form true false with
        | .error f => .error f
        | .ok (v, t) =>
          let c1 := { c with chk := some { form := c.form, tid := t.id, box := v.box } }
          if c.formB = 0 then .ok c1
          else match s.checkView j u c.formB true false with
            | .error f => .error f
            | .ok (w, tb) =>
              match (v.box.region c.point).firstOut w.box with
                | some (d, x) => .error { code := 0x0008, da := zx c.formB, db := wideDb 2 d x }
                | none => .ok { c1 with chkB := some { form := c.formB, tid := tb.id, box := w.box } }

/-! ### Copy commands at issue (09 R216, R220 to R223, R230, R231) -/

/-- The instruction word at an address, as a fault names it. -/
def Bank.iword (k : Bank) (e : Nat) (a : BitVec 13) : DWord := BitVec.ofNat 64 ((k.word e a).toNat % 2 ^ 32)

/-- A copy command with the operands that engine `e` captures (09 R216). -/
def Bank.capture (k : Bank) (e : Nat) (kind : CopyKind) (v p i : BitVec 4) (n : Nat) : CopyCmd :=
  { kind := kind, form := k.rdC e v, formB := if kind = .reduce then k.rdC e (v + 1) else 0
    pad := k.rdC e p, idx := k.rdC e i, n := n, coord := (k.sq e).coords, tag := (k.sq e).tag }

/-- A command of engine `e` at issue (09 R216): it waits for a place, makes its checks and enters the queue. -/
def State.copyIssue (s : State) (e : Nat) (c : CopyCmd) : Out :=
  if 8 ≤ s.me.places e then s.waits e (s.me.roomWait e)
  else match s.copyCheck s.cur s.curB e (s.me.iword e (s.me.stream e).q0.addr) c with
    | .error f => s.flt e f
    | .ok c1 => s.eff e (fun k => k.issueCmd e (.copy c1))

/-- CPY (09 R220). -/
def execCpy (e : BitVec 3) (v p : BitVec 4) (n : BitVec 14) (s : State) : Out :=
  s.copyIssue e.toNat (s.me.capture e.toNat .cpy v p 0 (count n))

/-- GATH (09 R221). -/
def execGath (e : BitVec 3) (v p i : BitVec 4) (n : BitVec 10) (s : State) : Out :=
  s.copyIssue e.toNat (s.me.capture e.toNat .gath v p i (count n))

/-- Whether a command is a `BINCFG`. -/
def Cmd.isBincfg (c : Cmd) : Bool := match c.op with
  | .copy x => decide (x.kind = .bincfg)
  | _ => false

/-- Whether a command is a `SCATB`. -/
def Cmd.isScatb (c : Cmd) : Bool := match c.op with
  | .copy x => decide (x.kind = .scatb)
  | _ => false

/-- SCATB (09 R231): it waits for every earlier BINCFG. -/
def execScatb (v p i : BitVec 4) (n : BitVec 10) (s : State) : Out :=
  if (s.me.queue 4).any Cmd.isBincfg then s.waits 4 .inner
  else s.copyIssue 4 (s.me.capture 4 .scatb v p i (count n))

/-- BINCFG (09 R230). -/
def execBincfg (e : BitVec 3) (a : BitVec 4) (s : State) : Out :=
  s.copyIssue e.toNat { s.me.capture e.toNat .bincfg 0 a 0 0 with tag := none }

/-- BINRD (09 R232): it waits for every earlier BINCFG and SCATB. -/
def execBinrd (e : BitVec 3) (d : BitVec 4) (b : BitVec 8) (s : State) : Out :=
  if (s.me.queue e.toNat).any (fun c => c.isBincfg || c.isScatb) then s.waits e.toNat .inner
  else s.eff e.toNat (fun k =>
    let q := k.sq e.toNat
    k.wrC e.toNat d (if b.toNat < q.nb.toNat then get 0 q.bcnt b.toNat else 0))

/-- REDUCE (09 R222). -/
def execReduce (e : BitVec 3) (v p : BitVec 4) (s : State) : Out :=
  s.copyIssue e.toNat (s.me.capture e.toNat .reduce v p 0 0)

/-- PUSHA (09 R223). -/
def execPusha (p : BitVec 4) (n : BitVec 14) (s : State) : Out :=
  s.copyIssue 3 (s.me.capture 3 .pusha 0 p 0 (count n))

/-- PUSHB (09 R223). -/
def execPushb (p : BitVec 4) (n : BitVec 14) (s : State) : Out :=
  s.copyIssue 3 (s.me.capture 3 .pushb 0 p 0 (count n))

/-! ### Nests (09 R226, R227) -/

/-- The template that an instruction makes in engine `e`, if it may be one (09 R226). -/
def Bank.template (k : Bank) (e : Nat) : Instr → Option CopyCmd
  | .cpy _ v p n => some (k.capture e .cpy v p 0 (count n))
  | .gath _ v p i n => some (k.capture e .gath v p i (count n))
  | .reduce _ v p => some (k.capture e .reduce v p 0 0)
  | .pusha p n => some (k.capture e .pusha 0 p 0 (count n))
  | .pushb p n => some (k.capture e .pushb 0 p 0 (count n))
  | _ => none

/-- The template at Q1 of engine `e`; none where the `SEQGO` is illegal (09 R226). -/
def Bank.templateAt (k : Bank) (e : Nat) : Option CopyCmd :=
  let q := (k.stream e).q1
  if q.null ∨ k.tagged e q.addr then none
  else match decode ((k.word e q.addr).toNat % 2 ^ 32) 0 with
    | .ok i => if i.engine = some e then k.template e i else none
    | .error _ => none

/-- The nest of engine `e` that is recorded. -/
def Bank.nest (k : Bank) (e : Nat) : Option Nest := get none k.nests e

/-- A bank with it set. -/
def Bank.setNest (k : Bank) (e : Nat) (n : Option Nest) : Bank := { k with nests := set none k.nests e n }

/-- Whether engine `e` generates instances. -/
def Bank.generating (k : Bank) (e : Nat) : Bool := match k.nest e with
  | some n => n.gen
  | none => false

/-- The queue after the entry at Q0 and the entry behind it have issued together (09 R226). -/
def Bank.advanceTwice (k : Bank) (e : Nat) : Bank :=
  let x := (k.stream e).q1.addr
  let k1 := k.advance e
  if (k1.stream e).q0.addr = x then k1.advance e else k1.onStream e (fun t => t.loopEnd x)

/-- SEQGO (09 R226): it captures X, L, S and the template's operands; the nest enters the queue as one command. -/
def execSeqgo (e n : BitVec 3) (s : State) : Out :=
  let k := s.me
  match k.templateAt e.toNat with
  | none => s.illegal e.toNat
  | some c =>
    if 8 ≤ k.places e.toNat then s.waits e.toNat (k.roomWait e.toNat)
    else if k.generating e.toNat then s.waits e.toNat .inner
    else .next (s.onMe (fun k =>
      let t := k.stream e.toNat
      let q := k.sq e.toNat
      let k1 := k.issueCmd e.toNat .nest
      let k2 := k1.onCmd e.toNat k.seq (fun c => { c with pc := t.q1.addr })
      (k2.setNest e.toNat (some { seq := k.seq, x := q.coords, l := (List.range 6).map (fun i => get 0 q.l i), s := q.s,
                                  n := n.toNat, tmpl := c, pc := t.q1.addr, epoch := t.epoch, k := 0, gen := true })).advanceTwice e.toNat))

/-- A queue without the entries of nests that are performed: those that generate no more and have no instance before them (09 R226). -/
def dropNests (run : Option Nat) : Bool → List Cmd → List Cmd
  | _, [] => []
  | inst, c :: cs =>
    if c.isNest then
      (if inst ∨ run = some c.seq then c :: dropNests run false cs else dropNests run false cs)
    else c :: dropNests run (inst || c.isInst) cs

/-- A bank whose performed nests of engine `e` have left the queue. -/
def Bank.tidy (k : Bank) (e : Nat) : Bank :=
  k.setQueue e (dropNests ((k.nest e).map (fun n => n.seq)) false (k.queue e))

/-- SEQSTOP (09 R227). -/
def execSeqstop (e : BitVec 3) (s : State) : Out :=
  s.eff e.toNat (fun k => if k.generating e.toNat then (k.setNest e.toNat none).tidy e.toNat else k)

/-- The iteration counts j[0] to j[n-1] of ordinal `i`; level 0 fastest (09 R226). -/
def nestIdx : List Nat → Nat → List Nat
  | [], _ => []
  | l :: ls, i => i % l :: nestIdx ls (i / l)

/-- The bounds of a nest's levels. -/
def Nest.bounds (n : Nest) : List Nat := (n.l.take n.n).map (fun x => x.toNat)

/-- The number of instances of a nest. -/
def Nest.total (n : Nest) : Nat := n.bounds.foldl (· * ·) 1

/-- The coordinates of instance `i` (09 R226). -/
def Nest.coords (n : Nest) (i : Nat) : List Word :=
  let js := nestIdx n.bounds i
  dims.map (fun d => n.x.getD d 0 + (js.zipIdx).foldl (fun acc p => acc + BitVec.ofNat 32 p.1 * get 0 n.s (6 * p.2 + d)) 0)

/-- Instance `i` of a nest (09 R226). -/
def Nest.instance_ (n : Nest) (i : Nat) : CopyCmd :=
  let step := if n.tmpl.kind = .reduce then i else i * n.tmpl.n
  { n.tmpl with
    coord := n.coords i
    pad := BitVec.ofNat 32 (512 * (rowOf n.tmpl.pad + step))
    first := if n.tmpl.kind = .gath then i * n.tmpl.n else 0
    nestK := i + 1 }

/-- A queue with a command put before the entry of nest `q`. -/
def putBefore (q : Nat) (x : Cmd) : List Cmd → List Cmd
  | [] => [x]
  | c :: cs => if c.seq = q then x :: c :: cs else c :: putBefore q x cs

/-- A bank in which instance `c` of the nest of engine `e` has entered the queue, and the nest goes on behind it. -/
def Bank.enterInst (k : Bank) (e : Nat) (n : Nest) (c : CopyCmd) : Bank :=
  let k1 := k.setQueue e (putBefore n.seq { seq := k.seq, pc := n.pc, epoch := n.epoch, op := .copy c } (k.queue e))
  let k2 := { k1 with seq := k.seq + 1 }
  (if n.k + 1 < n.total then k2.setNest e (some { n with k := n.k + 1 }) else k2.setNest e none).tidy e

/-- The move of NEST_INSTANCE_GENERATE (09 R226): the next instance is checked and enters the queue while it has room (R216; log entry 21), but not in a freeze (08 R197); one that fails is the faulting command. -/
def State.nestGenerate (s : State) (u b e : Nat) : State :=
  let k := s.bank u b
  match k.nest e with
  | none => s
  | some n =>
    if n.gen = false then s
    else if n.total ≤ n.k then s.onBank u b (fun k => (k.setNest e none).tidy e)
    else if (s.core u).freeze ≠ 0 ∨ 8 < placesOf false (putBefore n.seq { seq := k.seq, pc := n.pc, epoch := n.epoch, op := .copy (n.instance_ n.k) } (k.queue e)) then s
    else
      let c := n.instance_ n.k
      -- the address of a row beyond 32 bits is beyond every window
      let beyond := decide (2 ^ 32 ≤ 512 * (rowOf n.tmpl.pad + (if n.tmpl.kind = .reduce then n.k else n.k * n.tmpl.n)))
      match (if beyond then .error (k.rangeFlt (512 * k.rows)) else s.copyCheck u b e (k.iword e n.pc) c) with
      | .error f => s.stopJob u b { code := f.code, eng := e, precise := false, da := f.da, db := f.db, dc := f.dc }
      | .ok c1 => s.onBank u b (fun k => k.enterInst e n c1)

/-- NEST_INSTANCE_GENERATE (09 R226). -/
def execNestInstanceGenerate (u b e : Nat) (s : State) : Out := .next (s.nestGenerate u b e)

end Sys2Proof.Machine
end

