-- ==== Sys2Proof/Machine/Exchange.lean ====
section
/-!
DEFINITION. The exchange engine at issue: Crossings, atomics and bank-unit commands (09 R236 to R239; 17 R362 to R368; 21 R403 to R409).
-/

namespace Sys2Proof.Machine

/-- A command of the exchange engine at issue (09 R216): one that finds its queue full waits at Q0; else it makes its checks. -/
def State.xroom (s : State) (go : Out) : Out :=
  if 8 ≤ s.me.places 5 then s.waits 5 (s.me.roomWait 5) else go

/-- A command of the exchange engine enters its queue (09 R216). -/
def State.xcmd (s : State) (op : CmdOp) : Out := s.eff 5 (fun k => k.issueCmd 5 op)

/-! ### Crossings (17 R364, R366 to R368) -/

/-- The Crossing at send id `x` of a unit. -/
def State.sendEntry (s : State) (u x : Nat) : Option (Nat × Crossing) :=
  match get none (s.core u).sends x with
  | none => none
  | some i => (get none s.crossings i).map (fun c => (i, c))

/-- The Crossing at receive id `x` of a unit. -/
def State.recvEntry (s : State) (u x : Nat) : Option (Nat × Crossing) :=
  match get none (s.core u).recvs x with
  | none => none
  | some i => (get none s.crossings i).map (fun c => (i, c))

/-- The state with a Crossing changed. -/
def State.onCrossing (s : State) (i : Nat) (f : Crossing → Crossing) : State :=
  { s with crossings := set none s.crossings i ((get none s.crossings i).map f) }

/-- A slot of a Crossing. -/
def Crossing.slot (c : Crossing) (n : Nat) : Slot := get {} c.slots n

/-- A Crossing with a slot changed. -/
def Crossing.onSlot (c : Crossing) (n : Nat) (f : Slot → Slot) : Crossing := { c with slots := set {} c.slots n (f (c.slot n)) }

/-- The lowest free slot. -/
def Crossing.freeSlot (c : Crossing) : Nat := ((List.range c.nslots).find? (fun n => (c.slot n).st = .free)).getD 0

/-- A Crossing whose permit has been taken (17 R366). -/
def Crossing.take (c : Crossing) : Crossing :=
  { c.onSlot c.freeSlot (fun x => { x with st := .filling }) with cnt := c.cnt - 1 }

/-- XSEND at issue (17 R366). -/
def execXsend (x v l : BitVec 3) (b : BitVec 1) (s : State) : Out := s.xroom <|
  let k := s.me
  let i := (k.rdE x).toNat % 8
  let f : Word := (k.rdE v).setWidth 32
  match s.sendEntry s.cur i, k.job with
  | none, _ => s.fault 5 0x0007 (BitVec.ofNat 64 i) 0
  | _, none => s.eff 5 id
  | some (n, c), some j =>
    match s.checkView j s.cur f true false with
    | .error e => s.flt 5 e
    | .ok (w, t) =>
      let elems := if w.box.empty then 0 else w.box.volume
      let p := elems / rowElems t.fmt
      match (if w.box.empty then none else w.box.runFlt f (startPoint t.fmt w.box.lo) elems) with
      | some e => s.flt 5 e
      | none =>
      if t.fmt ≠ c.fmt ∨ elems % rowElems t.fmt ≠ 0 ∨ c.rows < p then s.fault 5 0x0007 (zx f) 0
      else s.orWait 5 (.permit i) (decide (c.cnt = 0)) (fun s =>
        (s.onCrossing n (fun c => { c.take with flight := c.flight ++ [(s.curB, k.seq)] })).eff 5 (fun k => k.issueCmd 5 (.xsend n c.freeSlot (decide (b = 1))
          ((k.rdE l).setWidth 15) { form := f, tid := t.id, box := w.box } p [])))

/-- What XRECV writes to ed (17 R367). -/
def recvWord (form : Word) (p slot : Nat) (b : Bool) (layer : BitVec 15) : DWord :=
  BitVec.ofNat 64 (form.toNat * 2 ^ 32 + (p + 2 ^ 14 - 1) % 2 ^ 14 * 2 ^ 18 + slot % 4 * 2 ^ 16 + b.toNat * 2 ^ 15 + layer.toNat)

/-- The state with the rights of a view set. -/
def State.setRights (s : State) (form : Word) (r w : Bool) : State :=
  { s with views := set {} s.views (formHandle form) { get {} s.views (formHandle form) with r := r, w := w } }

/-- XRECV (17 R367): waits for an arrival, then takes the slot. -/
def execXrecv (d x : BitVec 3) (s : State) : Out :=
  let i := (s.me.rdE x).toNat % 8
  match s.recvEntry s.cur i with
  | none => s.fault 5 0x0007 (BitVec.ofNat 64 i) 0
  | some (n, c) =>
    let take := fun (s : State) => (match c.arr with
      | [] => s.waits 5 (.remote 0)
      | (sl, b, layer, p) :: rest =>
        let form := (c.slot sl).form
        let s1 := s.onCrossing n (fun c => { c.onSlot sl (fun y => { y with st := .held }) with arr := rest })
        (s1.setRights form true true).eff 5 (fun k => k.wrE d (recvWord form p sl b layer)))
    if s.me.isStatic then s.segment 5 (.remote 0) take else if c.arr.isEmpty then s.waits 5 (.remote 0) else take s

/-- XPERM (17 R368). -/
def execXperm (d x : BitVec 3) (s : State) : Out :=
  let i := (s.me.rdE x).toNat % 8
  let v := match s.sendEntry s.cur i with
    | some (_, c) => c.cnt
    | none => 0
  s.eff 5 (fun k => k.wrE d (BitVec.ofNat 64 v))

/-! ### Atomics (09 R236 to R238) -/

/-- ATOM at issue (09 R236). -/
def execAtom (d a b : BitVec 3) (o : BitVec 4) (w : BitVec 1) (s : State) : Out := s.xroom <|
  let k := s.me
  let va := k.rdE a
  match k.job with
  | none => s.eff 5 id
  | some j => match s.flatAt j s.cur (if w = 1 then 8 else 4) va with
    | .error e => s.flt 5 e
    | .ok _ => s.xcmd (.atom o.toNat w.toNat d.toNat va (k.rdE b) (k.rdE d))

/-- AADDNR at issue (09 R237). -/
def execAaddnr (a b : BitVec 3) (t : BitVec 1) (s : State) : Out := s.xroom <|
  let k := s.me
  let va := k.rdE a
  match k.job with
  | none => s.eff 5 id
  | some j => match s.flatAt j s.cur 4 va with
    | .error e => s.flt 5 e
    | .ok _ => s.xcmd (.aaddnr (decide (t = 1)) va ((k.rdE b).setWidth 32))

/-- Whether a command is an `AADDNR`. -/
def Cmd.isAaddnr (c : Cmd) : Bool := match c.op with
  | .aaddnr _ _ _ => true
  | _ => false

/-- An instruction of the exchange engine that waits until `busy` is false and does nothing else; it ends a segment of a static job (16 R353). -/
def State.fence (s : State) (busy : Bool) : Out :=
  if s.me.isStatic then s.segment 5 (.remote 0) (fun s => s.eff 5 id)
  else if busy then s.waits 5 (.remote 0) else s.eff 5 id

/-- AFENCE (09 R238). -/
def execAfence (s : State) : Out := s.fence ((s.me.queue 5).any Cmd.isAaddnr)

/-! ### Bank-unit commands (21 R403 to R409) -/

/-- The bank unit that a selector names: near units 0 to 767, far ones from 768 on (21 R397, R403). -/
def selUnit (sel : DWord) : Nat :=
  (if sel.getLsbD 10 then 768 else 0) + 32 * (sel.toNat / 32 % 32) + sel.toNat % 32

/-- Whether a partition may select a bank unit (21 R403). -/
def State.selOk (s : State) (p : Nat) (sel : DWord) : Bool :=
  decide (sel.toNat < 2 ^ 28) && decide (sel.toNat / 32 % 32 < 24)
  && (match get none s.parts p with
    | some x => x.cfg.bankUnits.contains (selUnit sel)
    | none => false)

/-- The partition of a bank's job. -/
def Bank.part (k : Bank) : Nat := match k.job with
  | some j => j.part
  | none => 0

/-- The address fault with DA = the selector. -/
def State.selFault (s : State) (sel : DWord) : Out := s.fault 5 0x0007 sel 0

/-- BKLOAD at issue (21 R404). -/
def execBkload (a b : BitVec 3) (s : State) : Out := s.xroom <|
  let ea := s.me.rdE a
  let sel := s.me.rdE b
  let nw := sel.toNat / 2 ^ 19 % 512
  let fw := sel.toNat / 2 ^ 11 % 256
  if s.selOk s.me.part sel = false then s.selFault sel
  else if ea.toNat % 8 ≠ 0 then s.fault 5 0x0006 ea 0
  else if nw = 0 ∨ 256 < nw ∨ 256 < fw + nw then s.selFault sel
  else s.xcmd (.bkload sel ea)

/-- BKRUN at issue (21 R407). -/
def execBkrun (a b : BitVec 3) (s : State) : Out := s.xroom <|
  let ea := s.me.rdE a
  let eb := s.me.rdE b
  if eb = 0 ∨ 64 < eb.toNat then s.selFault eb
  else if ea.toNat % 32 ≠ 0 then s.fault 5 0x0006 ea 0
  else s.xcmd (.bkrun ea eb.toNat 0 false)

/-- BKCTX at issue (21 R405). -/
def execBkctx (b : BitVec 3) (c : BitVec 2) (s : State) : Out := s.xroom <|
  let sel := s.me.rdE b
  if s.selOk s.me.part sel = false then s.selFault sel else s.xcmd (.bkctx sel c.toNat)

/-- Whether `BKWAIT` on unit `n` waits for a command (21 R409). -/
def Cmd.holdsWait (c : Cmd) (n : Nat) : Bool := match c.op with
  | .bkload sel _ => decide (selUnit sel = n)
  | .bkctx sel _ => decide (selUnit sel = n)
  | .bkrun _ _ _ _ => true
  | _ => false

/-- BKWAIT (21 R409). -/
def execBkwait (b : BitVec 3) (s : State) : Out :=
  let sel := s.me.rdE b
  if s.selOk s.me.part sel = false then s.selFault sel
  else s.fence ((s.me.queue 5).any (fun c => c.holdsWait (selUnit sel)))

end Sys2Proof.Machine
end

