-- ==== Sys2Proof/Machine/Perform.lean ====
section
/-!
DEFINITION. Commands when they are performed: the order rules, departures in slots, copies, bins, reductions, atomics, histogram, control loads and stores, pushes and landings (03 R78 to R80; 08 R194, R204, R210; 09 R220 to R239; 12 R287 to R296; 13 R310; 17 R366; 19 R393).
-/

namespace Sys2Proof.Machine

/-! ### What a command touches -/

/-- The scratchpad rows that a copy command of engine `e` writes: first and count. -/
def CopyCmd.padWrites (e : Nat) (c : CopyCmd) : Nat × Nat := match c.kind with
  | .cpy => (rowOf c.pad, if e = 3 then c.n else 0)
  | .gath => (rowOf c.pad, if e = 3 then c.n else 0)
  | .reduce => (rowOf c.pad, 1)
  | _ => (0, 0)

/-- The scratchpad rows that it reads behind `pad`. -/
def CopyCmd.padReads (e : Nat) (c : CopyCmd) : Nat × Nat := match c.kind with
  | .cpy => (rowOf c.pad, if e = 4 then c.n else 0)
  | .gath => (rowOf c.pad, if e = 4 then c.n else 0)
  | .scatb => (rowOf c.pad, c.n)
  | .pusha => (rowOf c.pad, c.n)
  | .pushb => (rowOf c.pad, c.n)
  | .bincfg => (rowOf c.pad, 5)
  | .reduce => (0, 0)

/-- Its index rows. -/
def CopyCmd.idxReads (c : CopyCmd) : Nat × Nat :=
  if c.indexed then (rowOf c.idx + c.first / 128, (c.first + c.n - 1) / 128 + 1 - c.first / 128) else (0, 0)

/-- Whether two runs of rows overlap. -/
def runsMeet (a b : Nat × Nat) : Bool := overlap a.1 a.2 b.1 b.2

/-- Whether a command writes a scratchpad row that the other reads or writes (09 R234). -/
def CopyCmd.padClash (e : Nat) (c d : CopyCmd) : Bool :=
  let w := c.padWrites e
  [d.padWrites e, d.padReads e, d.idxReads].any (runsMeet w)

/-- Whether a copy command writes global memory. -/
def CopyCmd.writesGlobal (e : Nat) (c : CopyCmd) : Bool :=
  decide (e = 4) && (decide (c.kind = .cpy) || decide (c.kind = .gath) || decide (c.kind = .scatb))

/-- Where the elements of a global access lie: tensor, tile, bit offset. -/
abbrev Places := List (Nat × Nat × Nat)

/-- The elements of row `r` of a run, placed. -/
def State.runPlaces (s : State) (x : Chk) (p : List Nat) (r : Nat) : Places :=
  match s.tensor x.tid with
  | none => []
  | some t => (rowCoords t.fmt x.box (startPoint t.fmt p) r).map (fun y => (t.id, t.loc y))

/-- The index `i` of an indexed command, as the scratchpad holds it (09 R221). -/
def State.idxAt (s : State) (u b : Nat) (c : CopyCmd) (i : Nat) : Word :=
  lane (s.row u b (rowOf c.idx + (c.first + i) / 128)).data ((c.first + i) % 128)

/-- The start point of item `i` of a `GATH` (09 R221). -/
def gathPoint (c : CopyCmd) (x : Word) : List Nat := line c.point ((c.coord.getD 1 0) + x).toNat

/-- The elements of the bins' lines of a `SCATB`: those that it may write (09 R231). -/
def State.binPlaces (s : State) (u b : Nat) (c : CopyCmd) (x : Chk) : Places :=
  let q := (s.bank u b).sq 4
  (List.range q.nb.toNat).flatMap (fun i => (q.binLines x.box i).flatMap (fun y => s.runPlaces x (line c.point y) 0))

/-- The elements of the region of a `REDUCE` in a view's tensor, or in the scale companion of an MX one (05 R123, 09 R222). -/
def State.redPlaces (s : State) (c : CopyCmd) (a x : Chk) : Places :=
  match s.tensor x.tid with
  | none => []
  | some t =>
    let r := a.box.region c.point
    let ps := if r.empty then [] else (List.range r.volume).map (fun i => r.at i dims)
    ps.map (fun y => (t.id, t.loc y)) ++ (match (if isMx t.fmt then s.tensor t.scid else none) with
      | some q => ps.map (fun y => (q.id, q.loc ((dim y 0 / 32) :: y.tail)))
      | none => [])

/-- The global elements that a copy command of bank `b` of unit `u` reaches, as far as they are known before it is performed: an index is that which the scratchpad holds (09 R234). -/
def State.copyPlaces (s : State) (u b : Nat) (c : CopyCmd) : Places :=
  match c.chk with
  | none => []
  | some x => match c.kind with
    | .cpy => (List.range c.n).flatMap (s.runPlaces x c.point)
    | .gath => (List.range c.n).flatMap (fun i => s.runPlaces x (gathPoint c (s.idxAt u b c i)) 0)
    | .scatb => s.binPlaces u b c x
    | .reduce => s.redPlaces c x x ++ (match c.chkB with | some y => s.redPlaces c x y | none => [])
    | _ => []

/-- Whether a command writes a global element that the other reads or writes (09 R234). -/
def State.globalClash (s : State) (u b e : Nat) (c d : CopyCmd) : Bool :=
  (c.writesGlobal e || d.writesGlobal e) && (let ps := s.copyPlaces u b d
    (s.copyPlaces u b c).any (fun x => ps.contains x))

/-- Whether both of two commands are bin commands (09 R230). -/
def binPair (c d : CopyCmd) : Bool :=
  [c, d].all (fun x => decide (x.kind = .bincfg) || decide (x.kind = .scatb))

/-- Whether two pushes go to one FIFO (09 R223). -/
def pushPair (c d : CopyCmd) : Bool := decide (c.kind = d.kind) && (decide (c.kind = .pusha) || decide (c.kind = .pushb))

/-- The flat address and bytes of an atomic or control access. -/
def Cmd.flat (c : Cmd) : Option (Nat × Nat) := match c.op with
  | .ldg _ a => some (a.toNat, 8)
  | .stg a _ => some (a.toNat, 8)
  | .atom _ w _ a _ _ => some (a.toNat, if w = 1 then 8 else 4)
  | .aaddnr _ a _ => some (a.toNat, 4)
  | _ => none

/-- Whether two commands reach a common byte by flat address. -/
def Cmd.sameBytes (c d : Cmd) : Bool := match c.flat, d.flat with
  | some x, some y => runsMeet x y
  | _, _ => false

/-- Whether a command is an `ATOM`. -/
def Cmd.isAtom (c : Cmd) : Bool := match c.op with
  | .atom _ _ _ _ _ _ => true
  | _ => false

/-- Whether a command is a bank-unit command. -/
def Cmd.isBk (c : Cmd) : Bool := match c.op with
  | .bkload _ _ => true
  | .bkctx _ _ => true
  | .bkrun _ _ _ _ => true
  | _ => false

/-- Whether command `c` of engine `e` must wait for the earlier command `p` (03 R80, 09 R226, R234, R239, 17 R366, 21 R410). -/
def State.behind (s : State) (u b e : Nat) (p c : Cmd) : Bool :=
  match p.op, c.op with
  | .copy x, .copy y =>
    y.padClash e x || x.padClash e y || binPair x y || pushPair x y || s.globalClash u b e x y
  | .nest, .copy y => decide (y.nestK = 0)
  | _, _ =>
    if e = 0 then p.sameBytes c
    else if c.isAtom then p.isAtom || (p.isAaddnr && p.sameBytes c)
    else if c.isAaddnr then p.isAtom || (p.isAaddnr && p.sameBytes c)
    else if c.isBk then p.isBk || p.isAtom || p.isAaddnr
    else false

/-! ### When a command may be performed (08 R197, R210, R211) -/

/-- Whether a command is performed although its job has stopped (08 R210). -/
def Cmd.survives (c : Cmd) : Bool := match c.op with
  | .copy x => decide (x.kind = .scatb) || decide (x.kind = .bincfg)
  | .nest => false
  | .push _ _ => false
  | _ => true

/-- Whether command `c` of engine `e` cannot be performed although nothing but its own streams could release it: an array operation that waits for rows and what stands behind it (11 R271), a push into a full token FIFO and those behind it (08 R208). -/
def State.stuck (s : State) (u b e : Nat) (c : Cmd) : Bool :=
  let k := s.bank u b
  (decide (e = 2) && (match s.starvedCmd u b with
    | some n => decide (n ≤ c.seq)
    | none => false))
  || (c.isPush && (k.pushHeld e).isSome && (k.before e c.seq).all Cmd.isPush)

/-- Whether command `c` of engine `e` cannot be performed while its job waits on a miss: a held one, one that only the job's streams could release, a push of tokens or rows into a full FIFO (08 R211). -/
def State.blocked (s : State) (u b e : Nat) (c : Cmd) : Bool :=
  let k := s.bank u b
  c.held || s.stuck u b e c
  || (match c.op with
    | .copy x => (decide (x.kind = .pusha) && decide (16 ≤ (k.dfifo 0).rows.length)) || (decide (x.kind = .pushb) && decide (16 ≤ (k.dfifo 1).rows.length))
    | .push f n => decide (8 < (k.tokF f).toks.length + n)
    | _ => false)

/-- The commands of engine `e` that the drain of a job that waits on a miss performs, pending pushes among them; `no` are the earlier ones that it does not: none goes behind a held one, a push behind none of them, another command not behind one that it has to wait for (08 R204, R211). -/
def State.drainOf (s : State) (u b e : Nat) (no : List Cmd) : List Cmd → List Cmd
  | [] => []
  | c :: cs =>
    if s.blocked u b e c || no.any (fun p => p.held || c.isPush || s.behind u b e p c) then s.drainOf u b e (c :: no) cs
    else c :: s.drainOf u b e no cs

/-- Whether engine `e` of a job that waits on a miss has nothing left to drain (08 R211). -/
def State.drained (s : State) (u b e : Nat) : Bool := (s.drainOf u b e [] ((s.bank u b).queue e)).isEmpty

/-- Whether engine `e` of a job that waits on a miss drains now: the engines drain in a fixed order (08 R211). -/
def State.drainTurn (s : State) (u b e : Nat) : Bool :=
  ([2, 1, 3, 4, 5, 0].takeWhile (fun f => decide (f ≠ e))).all (s.drained u b)

/-- Whether the job of a bank is stopped. -/
def Bank.halted (k : Bank) : Bool := match k.job with
  | some j => decide (j.status = .stopped)
  | none => false

/-- Whether every `XSEND` that was issued to a Crossing before command `n` of bank `b` of its sender has been performed, or for good can not be; one that waits on a translation miss keeps its turn (17 R366, 08 R210, R211). -/
def State.sendTurn (s : State) (u b x n : Nat) : Bool :=
  match get none s.crossings x with
  | none => true
  | some c => (c.flight.takeWhile (fun p => decide (p ≠ (b, n)))).all (fun p => match (s.bank u p.1).cmd 5 p.2 with
    | some d => d.lost
    | none => true)

/-- Whether a command of the control engine stands behind a lost access to the same 8 bytes, which is never performed before it (03 R80). -/
def Bank.shadowed (k : Bank) (e : Nat) (c : Cmd) : Bool :=
  decide (e = 0) && (k.before 0 c.seq).any (fun p => p.lost && p.sameBytes c)

/-- Whether the order rules and the job's condition allow command `c` of engine `e` to be performed next. A job that waits on a miss drains; a ready job's commands go on while its bank executes (08 R211). In a stopped job a command waits only for those that are still to be performed, one held by a miss among them, and goes past no lost access to its own 8 bytes (08 R210, R211, 03 R80). -/
def State.mayGo (s : State) (u b e : Nat) (c : Cmd) : Bool :=
  let k := s.bank u b
  let ahead := (k.before e c.seq).filter (fun p => !k.halted || (p.survives && !p.lost))
  !c.held && !k.shadowed e c && !ahead.any (fun p => p.held) && !ahead.any (fun p => s.behind u b e p c)
  && (match c.op with
    | .xsend x _ _ _ _ _ _ => s.sendTurn u b x c.seq
    | _ => true)
  && (match k.job with
    | none => true
    | some j => match j.status with
      | .ready => decide ((s.core u).kbank = b)
      | .stopped => c.survives
      | .missing => s.drainTurn u b e)

/-- Whether command `c` of engine `e` may be performed next: not while the core is frozen (08 R197). -/
def State.mayPerform (s : State) (u b e : Nat) (c : Cmd) : Bool := decide ((s.core u).freeze = 0) && s.mayGo u b e c

/-- The command has been performed: it leaves its queue, and so do its departures. -/
def Bank.finish (k : Bank) (e : Nat) (c : Cmd) : Bank :=
  let k1 := (k.retire e c.seq).tidy e
  { k1 with departed := k1.departed.filter (fun d => decide (d.src ≠ c.seq)), missed := k1.missed.filter (fun d => decide (d.src ≠ c.seq)) }

/-- A command changed by its copy operands. -/
def Cmd.onCopy (c : Cmd) (f : CopyCmd → CopyCmd) : Cmd := match c.op with
  | .copy x => { c with op := .copy (f x) }
  | _ => c

/-- The landing of bytes of a tagged command (08 R194, 09 R224), made as a move of its own. -/
def Bank.landed (k : Bank) (e : Nat) (c : Cmd) (tag : Option Word) (n : Nat) : Bank :=
  match tag with
  | none => k
  | some a => { k with landings := k.landings ++ [{ addr := a, n := n, eng := some e, epoch := c.epoch }] }

/-! ### Departures (12 R287, R292 to R296) -/

/-- The outcome that a flat access meets before its translation as the windows and views now are (03 R79, orders 2 to 4, 16 R351): its tensor, or the fault. -/
def State.flatNow (s : State) (u b : Nat) (va : DWord) (write : Bool) : Except Flt Tensor :=
  match s.window (s.bank u b).part va.toNat with
  | none => .error { code := 0x0007, da := va }
  | some t =>
    if (match (s.bank u b).job with | some j => j.reaches t (dieOf u) | none => true) = false then .error { code := 0x0007, da := va }
    else match s.flatFlt t va write with
      | some f => .error f
      | none => .ok t

/-- The check of item `i` of a `GATH` against the view as it now is, with the index that the scratchpad holds (09 R221, 14 R342). -/
def State.gathCheck (s : State) (u b e : Nat) (j : Job) (x : CopyCmd) (i : Nat) : Except Flt Chk :=
  s.checkRun j u x.form (decide (e = 3)) (decide (e = 4)) (gathPoint x (s.idxAt u b x i)) 1

/-- The bin of an index and the slot that it takes (09 R231). -/
def SeqRegs.binOf (q : SeqRegs) (x : Word) : Nat :=
  let b0 := if x.toNat < q.nb.toNat then x.toNat % 256 else q.sp.toNat
  if b0 ≠ q.sp.toNat ∧ (get 0 q.cap b0 : Word).toNat ≤ (get 0 q.bcnt b0 : Word).toNat then q.sp.toNat else b0

/-- The bin state after one row has been counted (09 R231). -/
def SeqRegs.bump (q : SeqRegs) (b : Nat) : SeqRegs :=
  let n : Word := get 0 q.bcnt b
  { q with bcnt := set 0 q.bcnt b (if n = 0xFFFFFFFF then n else n + 1) }

/-- The coordinates of a region in raster order. -/
def Box.points (b : Box) : List (List Nat) := if b.empty then [] else (List.range b.volume).map (fun i => b.at i dims)

/-- The line to which item `r` of a `SCATB` goes, with `idx` its indices; none where it is dropped (09 R231). -/
def SeqRegs.scatLine (q : SeqRegs) (idx : Nat → Word) (r : Nat) : Option Nat :=
  ((List.range (r + 1)).foldl (fun (z : SeqRegs × Option Nat) i =>
    let bin := z.1.binOf (idx i)
    let slot : Word := get 0 z.1.bcnt bin
    (z.1.bump bin, if slot.toNat < (get 0 z.1.cap bin : Word).toNat then some ((get 0 z.1.base bin : Word) + slot).toNat else none))
    (q, none)).2

/-- The views of a `REDUCE`: A, B, the region. -/
def State.redViews (s : State) (x : CopyCmd) : Option (Tensor × Option Tensor × List (List Nat)) :=
  match x.chk with
  | none => none
  | some k => (s.tensor k.tid).map (fun t => (t, x.chkB.bind (fun q => s.tensor q.tid), (k.box.region x.point).points))

/-- The scale companion through which the elements of an MX tensor are read (05 R123). -/
def State.companion (s : State) (t : Tensor) : Option Tensor := if isMx t.fmt then s.tensor t.scid else none

/-- The elements of `t` at some points by the 512-byte row that holds them: one list of places for each row. -/
def Tensor.rowsAt (t : Tensor) (ps : List (List Nat)) : List (Tensor × List (Nat × Nat × Nat)) :=
  let ls := t.locs ps
  ((ls.map (fun l => (l.2.1, l.2.2 / 4096))).eraseDups).map (fun k => (t, ls.filter (fun l => decide ((l.2.1, l.2.2 / 4096) = k))))

/-- The rows that a `REDUCE` reads, in order: those of A, of A's scale companion, of B and of B's (09 R222, 16 R351; log entry 52). -/
def State.redRows (s : State) (x : CopyCmd) : List (Tensor × List (Nat × Nat × Nat)) := match s.redViews x with
  | none => []
  | some (a, b, ps) => (a :: b.toList).flatMap (fun t => t.rowsAt ps
      ++ (s.companion t).toList.flatMap (fun q => q.rowsAt (ps.map (fun y => (dim y 0 / 32) :: y.tail))))

/-- The bytes at `va` that a `BKLOAD` of `n` doublewords reads in its line of 512 bytes number `r`: their flat addresses, by doubleword. -/
def bkLine (va n r : Nat) : List Nat := ((List.range n).map (fun i => va + 8 * i)).filter (fun a => decide (a / 512 = va / 512 + r))

/-- The lines that a `BKLOAD` of `n` doublewords at `va` reads. -/
def bkLines (va n : Nat) : Nat := (va + 8 * n + 511) / 512 - va / 512

/-- The words of a `BKLOAD` (21 R404). -/
def bkWords (sel : DWord) : Nat := sel.toNat / 2 ^ 19 % 512

/-- A row of a command that is to be performed: its number is one of the command's, and it is not done. -/
def Cmd.pends (c : Cmd) (r : Nat) : Bool := match c.op with
  | .copy x => if x.kind = .cpy ∨ x.kind = .gath then decide (r < x.n) && !x.done.contains r else true
  | .xsend _ _ _ _ _ rows done => decide (r < rows) && !done.contains r
  | .hist _ _ rows => decide (r < rows)
  | .bkload sel ea => decide (r < bkLines ea.toNat (bkWords sel))
  | .bkrun _ _ k sent => decide (r = k) && !sent
  | _ => decide (r = 0)

/-- The elements that row `r` of a command reaches: tensor, places, whether it writes; the fault that the row meets before its translation; none where it reaches nothing. The rows of `SCATB`, `HIST` and `REDUCE`, the lines of a `BKLOAD` and the records of a `BKRUN` count only in a static job, whose every request travels in slots of the core (16 R351; log entry 52). -/
def State.rowTiles (s : State) (u b e : Nat) (c : Cmd) (r : Nat) : Option (Except Flt (Tensor × List (Nat × Nat × Nat) × Bool)) :=
  let flat := fun (va : DWord) (w : Bool) => some ((s.flatNow u b va w).map (fun t =>
    let x := t.ofFlat va.toNat
    (t, [(0, x.1, 8 * x.2)], w)))
  let words := fun (as : List Nat) => if (s.bank u b).isStatic then as.head?.map (fun a =>
      (s.flatNow u b (BitVec.ofNat 64 a) false).map (fun t =>
        (t, (as.zipIdx).map (fun p => (p.2, (t.ofFlat p.1).1, 8 * (t.ofFlat p.1).2)), false))) else none
  if c.pends r = false then none
  else match c.op with
  | .bkload sel ea => words (bkLine ea.toNat (bkWords sel) r)
  | .bkrun ea _ k _ => words ((List.range 4).map (fun i => ea.toNat + 32 * k + 8 * i))
  | .ldg _ a => flat a false
  | .stg a _ => flat a true
  | .atom _ _ _ a _ _ => flat a true
  | .aaddnr _ a _ => flat a true
  | .copy x => match x.kind, x.chk, (s.bank u b).job with
    | .cpy, some k, _ => (s.tensor k.tid).map (fun t => .ok (t, t.locs (rowCoords t.fmt k.box (startPoint t.fmt x.point) r), decide (e = 4)))
    | .gath, _, some j => match s.gathCheck u b e j x r with
      | .error f => some (.error f)
      | .ok q => (s.tensor q.tid).map (fun t =>
        .ok (t, t.locs (rowCoords t.fmt q.box (startPoint t.fmt (gathPoint x (s.idxAt u b x r))) 0), decide (e = 4)))
    | .scatb, some k, some j => if j.static then
        (((s.bank u b).sq 4).scatLine (s.idxAt u b x) r).bind (fun y => (s.tensor k.tid).map (fun t =>
          .ok (t, t.locs (rowCoords t.fmt k.box (startPoint t.fmt (line x.point y)) 0), true)))
      else none
    | .reduce, _, some j => if j.static then (s.redRows x)[r]?.map (fun p => .ok (p.1, p.2, false)) else none
    | _, _, _ => none
  | .hist m k _ => if (s.bank u b).isStatic then (s.tensor k.tid).map (fun t =>
      let n := rowElems t.fmt
      .ok (t, t.locs ((List.range (min n (m - n * r))).map (fun i => k.box.at (n * r + i) dims)), false)) else none
  | .xsend _ _ _ _ k _ _ => (s.tensor k.tid).map (fun t =>
      .ok (t, t.locs (rowCoords t.fmt k.box (startPoint t.fmt k.box.lo) r), false))
  | _ => none

/-- The die that drives a near stack or the far chain behind it (12 R291). -/
def stackDie (i : Nat) : Nat := if i < 8 then i else 8 + (i - 8) / 2

/-- Whether slot `n` of a calendar is owned by unit `u`: OWN set and CORE the core's number within its die (12 R293). -/
def slotMine (cal : Map (BitVec 16)) (u n : Nat) : Bool :=
  decide ((get 0 cal n).toNat = 2 ^ 15 + (if u < 192 then u % 24 else (u - 192) % 32))

/-- The calendar of a near or far stack. -/
def State.calOf (s : State) (T i : Nat) : Map (BitVec 16) := (get {} s.stackSt (32 * T + i) : Stack).cal

/-- Whether a main core owns a slot of a stack of its die. -/
def State.ownsSlot (s : State) (u T i : Nat) : Bool :=
  decide (u < 448) && decide (T = 1 ∨ T = 2) && decide (stackDie i = dieOf u) && anyBelow 256 (slotMine (s.calOf T i) u)

/-- The slots of a stack in a cycle: near slots 4ρ to 4ρ + 3, far slot ρ / 4 (12 R292). -/
def slotsAt (T cyc : Nat) : List Nat :=
  let rho := cyc % 64
  if T = 2 then (List.range 4).map (fun l => 4 * rho + l) else if rho % 4 = 0 then [rho / 4] else []

/-- The first slot of cycle `cyc` that unit `u` owns on a stack, that has carried nothing in that cycle, and that no missed request keeps (12 R292, R295). -/
def State.freeSlotAt (s : State) (u T i cyc : Nat) : Option Nat :=
  let x : Stack := get {} s.stackSt (32 * T + i)
  let kept := ((s.core u).b0.missed ++ (s.core u).b1.missed).filter (fun m => decide (m.tier = T) && decide (m.stack = i))
  (slotsAt T cyc).find? (fun n => slotMine x.cal u n && decide (get 0 x.used n ≠ cyc + 1) && !kept.any (fun m => decide (m.slot = n)))

/-- The state in which slot `n` of a stack has carried a request in the present cycle. -/
def State.useSlot (s : State) (T i n : Nat) : State :=
  let x : Stack := get {} s.stackSt (32 * T + i)
  { s with stackSt := set {} s.stackSt (32 * T + i) { x with used := set 0 x.used n (s.now + 1) } }

/-- The cycles from a request's slot to its completion (12 R294). -/
def latency (c : Cmd) (T : Nat) (write : Bool) : Nat :=
  let near := match c.op with
    | .atom _ _ _ _ _ _ => 288
    | _ => if write then 160 else 288
  if T = 2 then near else near + 256

/-- A buffer with one entry more; the oldest entry gives way to the 257th (log entry 22). -/
def ttbAdd (x : Ttb) (l : List Ttb) : List Ttb := (l ++ [x]).drop (l.length - 255)

/-- The stack at which a request of unit `u` for tile or page `n` is aimed: that of its buffer's entry, else that of the tile table (12 R287, R295). -/
def State.target (s : State) (u : Nat) (t : Tensor) (n : Nat) : Nat × Nat := match s.look u t.id n with
  | some x => (x.tier, x.stack)
  | none => if t.tiled then ((t.tile n).tier.toNat, (t.tile n).stack.toNat) else (2, t.tbase / 2 ^ 36 % 32)

/-- The frame with which a request for the bytes `offs` of tile `n` would depart: the buffer's entry, or that of a tile that needs no entry there. -/
def State.departFrame (s : State) (u : Nat) (t : Tensor) (n : Nat) (pasid : Pasid) (offs : List Nat) : Option Ttb :=
  if t.tiled ∧ (t.tile n).mf = true then none
  else match s.look u t.id n with
    | some x => some x
    | none =>
      if t.tiled ∧ (t.tile n).tier ≠ 3 then none
      else match s.translate t n pasid false offs with
        | .frame tier stack base => some { tid := t.id, tile := n, tier := tier, stack := stack, base := base, ia := (t.iaNow n).2
                                           w := (match s.translate t n pasid true offs with | .noWrite => false | _ => true) }
        | _ => none

/-- The walk that fills a unit's buffer for tile `n` (12 R295). -/
def State.walk (s : State) (u : Nat) (t : Tensor) (n : Nat) : State :=
  if t.tiled = false ∨ (s.look u t.id n).isSome ∨ (t.tile n).tier = 3 then s
  else match s.translate t n .none false with
    | .frame tier stack base =>
      let w := match s.translate t n .none true with
        | .frame _ _ _ => true
        | _ => false
      let c := s.core u
      s.setCore u { c with ttb := ttbAdd { tid := t.id, tile := n, tier := tier, stack := stack, base := base, w := w, ia := (t.iaNow n).2 } c.ttb }
    | _ => s

/-- Whether the request of row `r` of a command for a tile has departed. -/
def Bank.hasDeparted (k : Bank) (src r n : Nat) : Bool :=
  k.departed.any (fun d => decide (d.src = src) && decide (d.row = r) && decide (d.x.tile = n))

/-- The missed request of a row for a tile. -/
def Bank.missedOf (k : Bank) (src r n : Nat) : Option Missed :=
  k.missed.find? (fun m => decide (m.src = src) && decide (m.row = r) && decide (m.tile = n))

/-- The rows of a command of bank `b` of unit `u`, as its requests are numbered. -/
def State.rowNumbers (s : State) (u b : Nat) (c : Cmd) : List Nat := match c.op with
  | .copy x => if x.kind = .reduce then List.range (if (s.bank u b).isStatic then (s.redRows x).length else 0) else List.range x.n
  | .xsend _ _ _ _ _ rows _ => List.range rows
  | .hist _ _ rows => List.range rows
  | .bkload sel ea => List.range (bkLines ea.toNat (bkWords sel))
  | .bkrun _ _ k _ => [k]
  | _ => [0]

/-- The tiles of row `r` of a command for which no request has departed, with the bytes reached, the tensor and whether it writes. -/
def State.undeparted (s : State) (u b e : Nat) (c : Cmd) (r : Nat) : List (Tensor × Nat × List Nat × Bool) :=
  match s.rowTiles u b e c r with
  | some (.ok (t, ls, w)) => ((tilesOf ls).filter (fun p => !(s.bank u b).hasDeparted c.seq r p.1)).map (fun p => (t, p.1, p.2, w))
  | _ => []

/-- Whether an earlier request of engine `e` to a stack has still to leave: requests to one stack leave in program order (12 R294). -/
def State.earlierLeaves (s : State) (u b e : Nat) (c : Cmd) (r : Nat) (x : Nat × Nat) : Bool :=
  let toX := fun (d : Cmd) (q : Nat) => (s.undeparted u b e d q).any (fun p => decide (s.target u p.1 p.2.1 = x))
  ((s.rowNumbers u b c).takeWhile (fun q => decide (q ≠ r))).any (toX c)
  || ((s.bank u b).before e c.seq).any (fun d => s.mayGo u b e d && (s.rowNumbers u b d).any (toX d))

/-- The engine and command of a number. -/
def Bank.findCmd (k : Bank) (src : Nat) : Option (Nat × Cmd) :=
  (List.range 6).findSome? (fun e => (k.cmd e src).map (fun c => (e, c)))

/-- A request for tile `n` that leaves with frame `x`, in `slot` of its stack where it has one (12 R287, R294). -/
def State.leave (s : State) (u b r : Nat) (c : Cmd) (w : Bool) (x : Ttb) (slot : Option Nat) : State :=
  let s1 := match slot with
    | some n => s.useSlot x.tier x.stack n
    | none => s
  s1.onBank u b (fun k => { k with
    departed := k.departed ++ [{ src := c.seq, row := r, x := x, due := slot.map (fun _ => s.now + latency c x.tier w) }]
    missed := k.missed.filter (fun m => !(decide (m.src = c.seq) && decide (m.row = r) && decide (m.tile = x.tile))) })

/-- A request that has missed slot `m.slot` in the present cycle: it keeps the slot, and the walk fills the buffer meanwhile (12 R295). -/
def State.missSlot (s : State) (u b : Nat) (t : Tensor) (m : Missed) : State :=
  (((s.useSlot m.tier m.stack m.slot).onBank u b (fun k => { k with
    missed := m :: k.missed.filter (fun y => !(decide (y.src = m.src) && decide (y.row = m.row) && decide (y.tile = m.tile))) }))).walk u t m.tile

/-- One request of row `r` of command `c`: in the first owned slot of its stack from the cycle after the issue on, in program order, or as shared traffic; a missed one in the slot that it keeps, one rotation later (12 R292 to R295). -/
def State.request (s : State) (u b e r : Nat) (c : Cmd) (retry : Bool) (p : Tensor × Nat × List Nat × Bool) : State :=
  let t := p.1
  let n := p.2.1
  let w := p.2.2.2
  let x := s.target u t n
  let fr := s.departFrame u t n (s.bank u b).pasid p.2.2.1
  if s.ownsSlot u x.1 x.2 = false then
    (match fr with
      | some f => s.leave u b r c w f none
      | none => s.walk u t n)
  else
    let slot := match (s.bank u b).missedOf c.seq r n with
      | some m => if retry ∧ m.at_ < s.now ∧ (slotsAt x.1 s.now).contains m.slot then some m.slot else none
      | none => if retry ∨ s.earlierLeaves u b e c r x then none else s.freeSlotAt u x.1 x.2 s.now
    match slot with
    | none => s
    | some q => match fr with
      | some f => s.leave u b r c w f (some q)
      | none => s.missSlot u b t { src := c.seq, row := r, tile := n, tier := x.1, stack := x.2, slot := q, at_ := s.now }

/-- The move of REQUEST_DEPART, and with `retry` that of SLOT_MISS_RETRY (12 R294, R295): the requests of row `r` that can leave now do so. -/
def State.depart (s : State) (u b src r : Nat) (retry : Bool) : State :=
  match (s.bank u b).findCmd src with
  | none => s
  | some (e, c) =>
    if c.fresh ∨ s.mayPerform u b e c = false then s
    else (s.undeparted u b e c r).foldl (fun s p => s.request u b e r c retry p) s

/-- Whether a request of unit `u` has to leave in its slot within the next `n` cycles, or in the present one: time does not pass it (12 R294, R295). -/
def State.mustLeave (s : State) (u n : Nat) : Bool :=
  decide (u < 448) && decide ((s.core u).freeze = 0) && s.stackSt.any (fun x => !x.2.cal.isEmpty)
  && [0, 1].any (fun b => anyBelow 6 (fun e => ((s.bank u b).queue e).any (fun c => s.mayGo u b e c && (s.rowNumbers u b c).any (fun r =>
    (s.undeparted u b e c r).any (fun p =>
      let x := s.target u p.1 p.2.1
      s.ownsSlot u x.1 x.2 && anyBelow (min n 64) (fun i =>
        if i = 0 ∧ c.fresh = true then false
        else match (s.bank u b).missedOf c.seq r p.2.1 with
          | some m => decide (m.at_ < s.now + i) && (slotsAt x.1 (s.now + i)).contains m.slot
          | none => !s.earlierLeaves u b e c r x && (s.freeSlotAt u x.1 x.2 (s.now + i)).isSome))))))

/-- A state in which the buffer of unit `u` holds the frames with which a row has departed (12 R287). -/
def State.lend (s : State) (u b src r : Nat) : State :=
  let c := s.core u
  let ds := ((s.bank u b).departed.filter (fun d => decide (d.src = src) && decide (d.row = r))).map (fun d => { d.x with lent := true })
  s.setCore u { c with ttb := ds ++ c.ttb }

/-- The state with the buffer of unit `u` as in `old`. -/
def State.unlend (s old : State) (u : Nat) : State := s.setCore u { s.core u with ttb := (old.core u).ttb }

/-- Whether a row of a command meets a fault before its translation, so that it departs nowhere and has its answer at once. -/
def State.barred (s : State) (u b e : Nat) (c : Cmd) (r : Nat) : Bool := match s.rowTiles u b e c r with
  | some (.error _) => true
  | _ => false

/-- The requests of a row that have departed. -/
def Bank.requests (k : Bank) (src r : Nat) : List Depart := k.departed.filter (fun d => decide (d.src = src) && decide (d.row = r))

/-- Whether every request of a row of a command of engine `e` has departed and reached memory, and with `seen` whether the core sees its answer (08 R198; 12 R294). -/
def State.arrived (s : State) (u b e : Nat) (c : Cmd) (r : Nat) (seen : Bool := true) : Bool :=
  s.barred u b e c r
  || ((s.undeparted u b e c r).isEmpty && (let ds := (s.bank u b).requests c.seq r
    !ds.isEmpty && ds.all (fun d => match d.due with
      | none => true
      | some n => decide (n + (if seen then d.late else 0) ≤ s.now))))

/-- Whether every request that a whole command makes in slots of the core has its answer; a command that makes none, as outside a static job, has nothing to wait for (16 R351). -/
def State.allArrived (s : State) (u b e : Nat) (c : Cmd) : Bool :=
  (s.rowNumbers u b c).all (fun r => (s.rowTiles u b e c r).isNone || s.arrived u b e c r)

/-- Whether the write of a row has been performed in memory and only its acknowledgement is awaited (08 R199). -/
def Bank.wrote (k : Bank) (src r : Nat) : Bool := (k.requests src r).any (fun d => d.wrote)

/-- A bank in which the write of a row has been performed in memory. -/
def Bank.nowWrote (k : Bank) (src r : Nat) : Bank :=
  { k with departed := k.departed.map (fun d => if d.src = src ∧ d.row = r then { d with wrote := true } else d) }

/-- The effect of performing a row of a command: `act` under the departed frames; a miss or a hold changes nothing, a fault stops the job, else `done` follows. A write is performed in memory at its own time, and a freeze delays only what the core sees of it (08 R198, R199). -/
def State.performRow (s : State) (u b e r : Nat) (c : Cmd) (precise write : Bool) (act : State → Except Stop State)
    (done : Bank → Bank) : State :=
  let seen := decide ((s.core u).freeze = 0) && s.arrived u b e c r
  if s.mayGo u b e c = false then s
  else if (s.bank u b).wrote c.seq r then (if seen then s.onBank u b done else s)
  else if !seen && !(write && s.arrived u b e c r false && !s.barred u b e c r) then s
  else match act (s.lend u b c.seq r) with
    | .error (.flt f) => s.cmdStop u b e c f precise
    | .error _ => s
    | .ok s1 => (s1.unlend s u).onBank u b (fun k => if seen then done k else k.nowWrote c.seq r)

/-! ### Control loads and stores (03 R78 to R80) -/

/-- A flat access performed: its window as it now is, then `act` on the tensor (03 R79). -/
def State.flatDo {α : Type} (s : State) (u b : Nat) (va : DWord) (write : Bool) (act : Tensor → Except Stop α) : Except Stop α :=
  match s.flatNow u b va write with
  | .error f => .error (.flt f)
  | .ok t => act t

/-- A bank in which load `n` has written register `d`: the records of later accesses hold its value too (08 R210). -/
def Bank.returned (k : Bank) (n : Nat) (d : BitVec 5) (v : DWord) : Bank :=
  let k1 := (k.wrS d v).forget n
  { k1 with backs := k1.backs.map (fun p => (p.1, if n < p.1 then p.2.map (fun x => { x with s := ({ k with s := x.s }.wrS d v).s }) else p.2)) }

/-- The move of LDG_RETURN (03 R79, 12 R294). -/
def State.ldgReturn (s : State) (u b src : Nat) : State :=
  match (s.bank u b).cmd 0 src with
  | none => s
  | some c => match c.op with
    | .ldg d a =>
      match (if s.mayPerform u b 0 c && s.arrived u b 0 c 0 then
          (let s1 := s.lend u b src 0; s1.flatDo u b a false (fun t => s1.readFlat u b 0 c.epoch t a 8))
        else .error .held) with
      | .error (.flt f) => s.cmdStop u b 0 c f true
      | .error _ => s
      | .ok (v, s1) => (s1.unlend s u).onBank u b (fun k => (k.finish 0 c).returned c.seq (BitVec.ofNat 5 d) (BitVec.ofNat 64 v))
    | _ => s

/-- The move of STG_PERFORMED (03 R79, 12 R294). -/
def State.stgPerform (s : State) (u b src : Nat) : State :=
  match (s.bank u b).cmd 0 src with
  | none => s
  | some c => match c.op with
    | .stg a v => s.performRow u b 0 0 c true true
        (fun s => s.flatDo u b a true (fun t => s.writeFlat u b 0 c.epoch t a (leBytes 8 v.toNat))) (fun k => (k.finish 0 c).forget c.seq)
    | _ => s

/-! ### Copies (09 R220, R221) -/

/-- The result of a scratchpad access as that of a global one. -/
def liftFlt {α : Type} (x : Except Flt α) : Except Stop α := match x with
  | .ok v => .ok v
  | .error f => .error (.flt f)

/-- One row moved between the run elements `cs` of a tensor and scratchpad row `r` (09 R220): by the load engine into the scratchpad, by the store engine into the tensor. -/
def State.moveRow (s : State) (u b e : Nat) (ep : BitVec 13) (t : Tensor) (cs : List (List Nat)) (r : Nat) : Except Stop State :=
  if e = 3 then match s.readRun u b e ep t cs with
    | .error x => .error x
    | .ok (v, s1) => liftFlt (s1.writeRow u b e ep r v)
  else match s.readRow u b e ep r with
    | .error f => .error (.flt f)
    | .ok (v, s1) => s1.writeRun u b e ep t cs v

/-- A bank in which row `r` of copy command `c` is performed; the command leaves with its last row. -/
def Bank.rowDone (k : Bank) (e : Nat) (c : Cmd) (x : CopyCmd) (r : Nat) : Bank :=
  let k1 := k.landed e c x.tag 512
  if x.n ≤ x.done.length + 1 then k1.finish e c
  else { k1.onCmd e c.seq (fun c => c.onCopy (fun y => { y with done := r :: y.done })) with
         departed := k1.departed.filter (fun d => !(decide (d.src = c.seq) && decide (d.row = r))) }

/-- The move of COPY_ROW_PERFORMED for row `r` of a `CPY` (09 R220). -/
def State.cpyRow (s : State) (u b e r : Nat) (c : Cmd) (x : CopyCmd) : State :=
  match x.chk with
  | none => s
  | some k => match s.tensor k.tid with
    | none => s
    | some t =>
      if x.n ≤ r ∨ x.done.contains r then s
      else s.performRow u b e r c false (decide (e = 4))
        (fun s => s.moveRow u b e c.epoch t (rowCoords t.fmt k.box (startPoint t.fmt x.point) r) (rowOf x.pad + r))
        (fun k => k.rowDone e c x r)

/-- Whether an item of lower number that is not performed writes an element of item `i` (09 R221). -/
def State.gathBehind (s : State) (u b e : Nat) (x : CopyCmd) (t : Tensor) (box : Box) (i : Nat) : Bool :=
  decide (e = 4) && anyBelow i (fun j => !x.done.contains j
    && (let a := box.pos (startPoint t.fmt (gathPoint x (s.idxAt u b x i))) dims
        let c := box.pos (startPoint t.fmt (gathPoint x (s.idxAt u b x j))) dims
        overlap a (rowElems t.fmt) c (rowElems t.fmt)))

/-- The move of GATH_ITEM_PERFORMED (09 R221, 14 R342): the index is read, the item is checked against the view as it then is, and its row is moved. -/
def State.gathItem (s : State) (u b e src i : Nat) : State :=
  match (s.bank u b).cmd e src, (s.bank u b).job with
  | some c, some j => match c.op with
    | .copy x => match x.chk with
      | none => s
      | some k =>
        if x.kind ≠ .gath ∨ x.n ≤ i ∨ x.done.contains i ∨ (s.tensor k.tid).any (fun t => s.gathBehind u b e x t k.box i) then s
        else s.performRow u b e i c false (decide (e = 4))
          (fun s => match s.readRow u b e c.epoch (rowOf x.idx + (x.first + i) / 128) with
            | .error f => .error (.flt f)
            | .ok (v, s1) => match s1.gathCheck u b e j x i with
              | .error f => .error (.flt f)
              | .ok q => match s1.tensor q.tid with
                | none => .error .held
                | some t => s1.moveRow u b e c.epoch t
                    (rowCoords t.fmt q.box (startPoint t.fmt (gathPoint x (lane v.data ((x.first + i) % 128)))) 0) (rowOf x.pad + i))
          (fun k => k.rowDone e c x i)
    | _ => s
  | _, _ => s

/-! ### XSEND (17 R366, R370) -/

/-- The machine frame of a slot's tile, as the Crossing reaches it to write: a write that stage 2 forbids is the address fault of the flat address (12 R288). -/
def State.slotFrame (s : State) (st : Tensor) (slot : Nat) : Except Stop Nat :=
  match s.translate st slot .none true with
  | .frame tier stack base => .ok (physAddr tier stack base)
  | .noWrite => .error (.flt { code := 0x0007, da := BitVec.ofNat 64 (st.flat slot) })
  | _ => .error .held

/-- Row `r` of an `XSEND`: read as a row of the source, written as line slot × ROWS + r of the slot tensor, whose stamp is closed (17 R366, R370). -/
def State.xsendRow (s : State) (u b : Nat) (ep : BitVec 13) (t : Tensor) (box : Box) (cr : Crossing) (slot r : Nat) : Except Stop State :=
  match s.readRun u b 5 ep t (rowCoords t.fmt box (startPoint t.fmt box.lo) r) with
  | .error x => .error x
  | .ok (v, s1) => match s1.tensor cr.tid with
    | none => .ok s1
    | some st =>
      let cs := (List.range (rowElems st.fmt)).map (fun i => [i, slot * cr.rows + r, 0, 0, 0, 0])
      let ls := st.locs cs
      match s1.slotFrame st slot with
      | .error x => .error x
      | .ok f =>
        if (s1.dirty st slot).logOver st.part then .error .held
        else
        let fr : Map Nat := [(slot, f)]
        let s2 := (((s1.dirty st slot).onTensor st.id (fun t => t.setStamp slot {}))).writeElems fr (elemBits st.fmt) v ls
        .ok (s2.writePoison st fr (elemBits st.fmt) v ls)

/-- The move of COPY_ROW_PERFORMED for row `r` of an `XSEND`. -/
def State.xsendRowMove (s : State) (u b src r : Nat) (c : Cmd) (x slot : Nat) (mb : Bool) (layer : BitVec 15) (chk : Chk)
    (rows : Nat) (done : List Nat) : State :=
  match s.tensor chk.tid, get none s.crossings x with
  | some t, some cr =>
    if rows ≤ r ∨ done.contains r then s
    else s.performRow u b 5 r c false true (fun s => s.xsendRow u b c.epoch t chk.box cr slot r)
      (fun k => { k.onCmd 5 src (fun c => { c with op := .xsend x slot mb layer chk rows (r :: done) }) with
        departed := k.departed.filter (fun d => !(decide (d.src = src) && decide (d.row = r))) })
  | _, _ => s

/-- The move of COPY_ROW_PERFORMED (09 R220, 17 R366). -/
def State.copyRow (s : State) (u b e src r : Nat) : State :=
  match (s.bank u b).cmd e src with
  | none => s
  | some c => match c.op with
    | .copy x => if x.kind = .cpy then s.cpyRow u b e r c x else s
    | .xsend x slot mb layer chk rows done => s.xsendRowMove u b src r c x slot mb layer chk rows done
    | _ => s

/-- Whether a landing from outside the core on a word of a bank is counted (08 R194): the word is armed with REMOTE 1; a word that is not armed has REMOTE 0, whatever its bytes hold. -/
def State.remoteOk (s : State) (u b : Nat) (a : Word) : Bool :=
  let epf := arrField (s.row u b (rowOf a)) (arrOf a % 32) 3
  decide (rowOf a < (s.bank u b).rows) && s.armed u b (arrOf a) && epf.getLsbD 18

/-- The move of XSEND_ARRIVAL (17 R366): the arrival is queued, and the receiver's word gets its landing; a refused landing makes the `XSEND` the faulting command. -/
def State.xsendArrive (s : State) (u b src : Nat) : State :=
  match (s.bank u b).cmd 5 src with
  | none => s
  | some c => match c.op with
    | .xsend x slot mb layer chk rows done =>
      match get none s.crossings x with
      | none => s
      | some cr =>
        if done.length < rows ∨ s.mayPerform u b 5 c = false then s
        else
          let s1 := (s.onCrossing x (fun cr => { cr.onSlot slot (fun y => { y with st := .arrived }) with
            arr := cr.arr ++ [(slot, mb, layer, rows)], flight := cr.flight.filter (fun p => decide (p ≠ (b, src))) })).onBank u b (fun k => k.finish 5 c)
          if cr.aw = 0xFFFFFFFF ∨ (s1.bank cr.rcoreU cr.rbank).job = none then s1
          else if s1.remoteOk cr.rcoreU cr.rbank cr.aw then
            s1.onBank cr.rcoreU cr.rbank (fun k => { k with
              landings := k.landings ++ [{ addr := cr.aw, n := cr.rows * 512, eng := none, epoch := 0 }] })
          else s1.stopJob u b { code := 0x0007, eng := 5, precise := false, da := zx chk.form }
    | _ => s

/-! ### Bins (09 R229 to R231) -/

/-- The move of BINCFG_PERFORMED (09 R230). -/
def State.bincfgPerform (s : State) (u b e : Nat) : State :=
  let k := s.bank u b
  match (k.queue e).find? Cmd.isBincfg with
  | none => s
  | some c => match c.op with
    | .copy x =>
      if s.mayPerform u b e c = false then s
      else match s.readRows u b e c.epoch (rowOf x.pad) 5 with
        | .error f => s.cmdStop u b e c f
        | .ok (rs, s1) =>
          let ln := fun (r j : Nat) => lane (rs.getD r {}).data j
          let nb := ln 4 0
          let sp := ln 4 1
          if nb = 0 ∨ 256 < nb.toNat ∨ nb.toNat ≤ sp.toNat ∨ (List.range 126).any (fun j => decide (ln 4 (j + 2) ≠ 0)) then
            s.cmdStop u b e c { code := 0x0001, da := k.iword e c.pc }
          else s1.onBank u b (fun k => (k.onSq e (fun q => { q with
            nb := nb, sp := sp, bcnt := []
            base := (List.range 256).foldl (fun m i => set 0 m i (ln (i / 128) (i % 128))) []
            cap := (List.range 256).foldl (fun m i => set 0 m i (ln (2 + i / 128) (i % 128))) [] })).finish e c)
    | _ => s

/-- Rows `i` on of a `SCATB` (09 R231): the state, the bin state, the rows written. -/
def State.scatRows (s : State) (u b : Nat) (c : Cmd) (x : CopyCmd) (t : Tensor) (box : Box) (q : SeqRegs) (i : Nat) :
    Nat → Except Stop (State × SeqRegs × Nat)
  | 0 => .ok (s, q, 0)
  | m + 1 =>
    match s.readRow u b 4 c.epoch (rowOf x.idx + i / 128) with
    | .error f => .error (.flt f)
    | .ok (v, s1) =>
      let bin := q.binOf (lane v.data (i % 128))
      let slot := (get 0 q.bcnt bin : Word)
      let q1 := q.bump bin
      if slot.toNat < (get 0 q.cap bin : Word).toNat then
        let y := ((get 0 q.base bin : Word) + slot).toNat
        match s1.readRow u b 4 c.epoch (rowOf x.pad + i) with
        | .error f => .error (.flt f)
        | .ok (r, s2) => match s2.writeRun u b 4 c.epoch t (rowCoords t.fmt box (startPoint t.fmt (line x.point y)) 0) r with
          | .error e => .error e
          | .ok s3 => match s3.scatRows u b c x t box q1 (i + 1) m with
            | .error e => .error e
            | .ok (s4, q2, n) => .ok (s4, q2, n + 1)
      else s1.scatRows u b c x t box q1 (i + 1) m

/-- The move of SCATB_PERFORMED (09 R231): the whole command. -/
def State.scatbPerform (s : State) (u b : Nat) : State :=
  let k := s.bank u b
  match (k.queue 4).find? Cmd.isScatb with
  | none => s
  | some c => match c.op with
    | .copy x => match x.chk with
      | none => s
      | some ck => match s.tensor ck.tid with
        | none => s
        | some t =>
          if s.mayPerform u b 4 c = false ∨ s.allArrived u b 4 c = false then s
          else match s.scatRows u b c x t ck.box (k.sq 4) 0 x.n with
            | .error (.flt f) => s.cmdStop u b 4 c f
            | .error _ => s
            | .ok (s1, q, n) => s1.onBank u b (fun k =>
                ((k.onSq 4 (fun _ => q)).landed 4 c (if n = 0 then none else x.tag) (512 * n)).finish 4 c)
    | _ => s

/-! ### REDUCE (09 R222, 05 R136, 19 R393) -/

/-- The tile of an element for `REDUCE`: a DIRECT tensor counts as one tile (09 R222). -/
def Tensor.redTile (t : Tensor) (x : List Nat) : Nat := if t.tiled then (t.loc x).1 else 0

/-- Element `x` of a tensor as a value, with its poison, read by engine `e`; an MX element with the scale of its companion (05 R123). DESIGN CHOICE: an MX tensor without a companion gives NaN; the companion is read wherever it lies, in a static job too, whose views alone R351 checks (log entry 31). -/
def State.readEl (s : State) (u b e : Nat) (ep : BitVec 13) (t : Tensor) (x : List Nat) : Except Stop ((FVal × Bool) × State) :=
  let (n, bit) := t.loc x
  match s.reach u b e ep t n .read [bit / 8] with
  | .error z => .error z
  | .ok (f, s1) =>
    let w := elemBits t.fmt
    let raw := s.memBits f bit w
    let bad := s.poisoned (f + bit / 8) ((bit % 8 + w + 7) / 8)
    if isMx t.fmt then
      match s.companion t with
      | none => .ok ((.nan, bad), s1)
      | some c =>
        let (m, sb) := c.loc ((dim x 0 / 32) :: x.tail)
        match s1.reach u b e ep c m .read [sb / 8] with
        | .error z => .error z
        | .ok (g, s2) => .ok ((mxVal (mxBits t.fmt) (mxCode (mxBits t.fmt) raw) (rdByte s.mem (g + sb / 8)).toNat,
            bad || s.poisoned (g + sb / 8) 1), s2)
    else .ok (((if t.fmt = 0 then fp32 else bf16).val raw, bad), s1)

/-- The products of a list of points: A's element times B's, or times 1.0 (09 R222). -/
def State.products (s : State) (u b e : Nat) (ep : BitVec 13) (ta : Tensor) (tb : Option Tensor) :
    List (List Nat) → Except Stop (List (FVal × Bool) × State)
  | [] => .ok ([], s)
  | x :: xs =>
    match s.readEl u b e ep ta x with
    | .error z => .error z
    | .ok ((va, pa), s1) =>
      match (match tb with
        | none => (Except.ok ((FVal.fin false 1 0, false), s1) : Except Stop _)
        | some t => s1.readEl u b e ep t x) with
      | .error z => .error z
      | .ok ((vb, pb), s2) => match s2.products u b e ep ta tb xs with
        | .error z => .error z
        | .ok (ps, s3) => .ok ((va.mul vb, pa || pb) :: ps, s3)

/-- A group of at most 32 exact products summed by the tree of R134 cut to 32 leaves; an absent leaf enters as -0.0 (05 R136; log entry 23). -/
def groupSum (ps : List FVal) : Nat :=
  let leaf := fun i => ps.getD i (.fin true 0 0)
  tree fp32 4 ((List.range 16).map (fun i => fp32.round 0 (FVal.add 0 (leaf i) (leaf (i + 16)))))

/-- Partials added from left to right, starting from the first itself; +0.0 where there is none (05 R136, 09 R222). -/
def firstSum : List Nat → Nat
  | [] => 0
  | x :: xs => xs.foldl fp32.addRne x

/-- The partial of a tile, a sum of its exact products (05 R130, R136). -/
def partialOf (ps : List FVal) : Nat := fp32.sumOf ps (firstSum ((groupsOf 32 (ps.length + 1) ps).map groupSum))

/-- The points of a region in tile `n`, in the order of the tile's enumeration (05 R136). -/
def Tensor.redPoints (t : Tensor) (n : Nat) (ps : List (List Nat)) : List (List Nat) := ps.filter (fun x => decide (t.redTile x = n))

/-- The move of REDUCE_TILE_PARTIAL (19 R393): the partial of tile `n`. -/
def State.redPartial (s : State) (u b e src n : Nat) : State :=
  match (s.bank u b).cmd e src with
  | none => s
  | some c => match c.op with
    | .copy x => match (if x.kind = .reduce then s.redViews x else none) with
      | none => s
      | some (ta, tb, ps) =>
        let mine := ta.redPoints n ps
        if mine.isEmpty ∨ x.parts.any (fun p => decide (p.1 = n)) ∨ s.mayPerform u b e c = false ∨ s.allArrived u b e c = false then s
        else match s.products u b e c.epoch ta tb mine with
          | .error (.flt f) => s.cmdStop u b e c f
          | .error _ => s
          | .ok (vs, s1) => s1.onBank u b (fun k => k.onCmd e src (fun c => c.onCopy (fun y => { y with
              parts := y.parts ++ [(n, BitVec.ofNat 32 (partialOf (vs.map (fun v => v.1))), vs.any (fun v => v.2), exactSum (vs.map (fun v => v.1)))] })))
    | _ => s

/-- The result of a `REDUCE` from its partials in ascending order of tiles: their sum, whose terms are the products of all tiles (05 R130, R136). -/
def redResult (parts : List (Nat × Word × Bool × FVal)) : Nat :=
  fp32.sumOf (parts.map (fun p => p.2.2.2)) (firstSum (parts.map (fun p => p.2.1.toNat)))

/-- The move of REDUCE_PERFORMED (09 R222, 19 R393): with every partial present, the result row is written. -/
def State.redPerform (s : State) (u b e src : Nat) : State :=
  match (s.bank u b).cmd e src with
  | none => s
  | some c => match c.op with
    | .copy x => match (if x.kind = .reduce then s.redViews x else none) with
      | none => s
      | some (ta, _, ps) =>
        let tiles := (ps.map ta.redTile).eraseDups
        if tiles.length ≠ x.parts.length ∨ s.mayPerform u b e c = false then s
        else
          let sorted := sortBy (fun p q => decide (p.1 ≤ q.1)) x.parts
          let row : Row := { data := BitVec.ofNat 4096 (redResult sorted), poison := if sorted.any (fun p => p.2.2.1) then 1 else 0 }
          match s.writeRow u b e c.epoch (rowOf x.pad) row with
          | .error f => s.cmdStop u b e c f
          | .ok s1 => s1.onBank u b (fun k => (k.landed e c x.tag 512).finish e c)
    | _ => s

/-! ### Pushes and landings (08 R194, R204, 09 R223) -/

/-- The move of PUSH_ROW_APPEND (09 R223): the next row of a `PUSHA` or `PUSHB` is appended. -/
def State.pushRow (s : State) (u b src : Nat) : State :=
  let k := s.bank u b
  match k.cmd 3 src with
  | none => s
  | some c => match c.op with
    | .copy x =>
      let f := if x.kind = .pusha then 0 else 1
      let i := x.done.length
      if (x.kind ≠ .pusha ∧ x.kind ≠ .pushb) ∨ 16 ≤ (k.dfifo f).rows.length ∨ s.mayPerform u b 3 c = false then s
      else match s.readRow u b 3 c.epoch (rowOf x.pad + i) with
        | .error g => s.cmdStop u b 3 c g
        | .ok (r, s1) => s1.onBank u b (fun k => (k.append f { row := r, eng := 3, epoch := c.epoch }).rowDone 3 c x i)
    | _ => s

/-- Whether a pending push of engine `e` may be made: in a ready job, and in the drain of one that waits on a miss (08 R204, R210, R211). -/
def State.mayPush (s : State) (u b e : Nat) : Bool := decide ((s.core u).freeze = 0) && (match (s.bank u b).job with
  | none => false
  | some j => match j.status with
    | .ready => true
    | .stopped => false
    | .missing => s.drainTurn u b e)

/-- The move of TOKEN_PUSH (08 R204): the oldest pending push of engine `e` is made once every earlier command of the stream has been performed and its FIFO has room. For the control stream that is every earlier access, a load too: one that faults leaves no token behind (08 R210; log entry 44). -/
def State.tokenPush (s : State) (u b e : Nat) : State :=
  let k := s.bank u b
  match (k.queue e).find? Cmd.isPush with
  | none => s
  | some c => match c.op with
    | .push f n =>
      let t := k.tokF f
      if k.before e c.seq ≠ [] ∨ 8 < t.toks.length + n ∨ s.mayPush u b e = false then s
      else s.onBank u b (fun k => (k.setTok f { t with toks := t.toks ++ List.replicate n c.epoch }).retire e c.seq)
    | _ => s

/-- Whether the climb frame of a bank's job is in transit (19 R386). -/
def Bank.inTransit (k : Bank) : Bool := match k.job with
  | some j => (match j.request with | some r => r.image.isSome | none => false)
  | none => false

/-- The move of LANDING (08 R194): the oldest landing is counted into its word. -/
def State.landNext (s : State) (u b : Nat) : State :=
  match (s.bank u b).landings with
  | [] => s
  | l :: ls =>
    let s1 := s.onBank u b (fun k => { k with landings := ls })
    if (s.core u).freeze ≠ 0 ∨ (s.bank u b).inTransit then s
    else if (s1.bank u b).rows ≤ rowOf l.addr then s1
    else s1.land u b (arrOf l.addr) l.n (l.eng.map (fun e => (e, l.epoch)))

/-! ### Atomics (09 R236, R237) -/

/-- The new value of `ATOM` (09 R236). -/
def atomNew (op n old v cmp : Nat) : Nat :=
  let f := fun (g : DWord → DWord → DWord) (h : Word → Word → Word) =>
    if n = 8 then (g (BitVec.ofNat 64 old) (BitVec.ofNat 64 v)).toNat else (h (BitVec.ofNat 32 old) (BitVec.ofNat 32 v)).toNat
  match op with
  | 0 => f (fun a b => a + b) (fun a b => a + b)
  | 1 => f (fun a b => a &&& b) (fun a b => a &&& b)
  | 2 => f (fun a b => a ||| b) (fun a b => a ||| b)
  | 3 => f (fun a b => a ^^^ b) (fun a b => a ^^^ b)
  | 4 => f smin smin
  | 5 => f smax smax
  | 6 => f umin umin
  | 7 => f umax umax
  | 8 => v
  | _ => if old = cmp then v else old

/-- The move of ATOM_PERFORMED (09 R236): the oldest `ATOM` of the stream. -/
def State.atomPerform (s : State) (u b : Nat) : State :=
  match ((s.bank u b).queue 5).find? Cmd.isAtom with
  | none => s
  | some c => match c.op with
    | .atom op w d a v x =>
      let n := if w = 1 then 8 else 4
      let m := 2 ^ (8 * n)
      s.performRow u b 5 0 c false true
        (fun s => (s.flatDo u b a true (fun t => s.atomFlat u b 5 c.epoch t a n (fun old => atomNew op n old (v.toNat % m) (x.toNat % m)))).map
          (fun r => r.2.onBank u b (fun k => k.wrE (BitVec.ofNat 3 d) (BitVec.ofNat 64 r.1))))
        (fun k => k.finish 5 c)
    | _ => s

/-- The sum of `AADDNR` (09 R237). -/
def addnr (int : Bool) (old v : Nat) : Nat := if int then (old + v) % 2 ^ 32 else fp32.addRne old v

/-- The move of AADDNR_PERFORMED (09 R237). -/
def State.aaddnrPerform (s : State) (u b src : Nat) : State :=
  match (s.bank u b).cmd 5 src with
  | none => s
  | some c => match c.op with
    | .aaddnr int a v => s.performRow u b 5 0 c false true
        (fun s => (s.flatDo u b a true (fun t => s.atomFlat u b 5 c.epoch t a 4 (fun old => addnr int old v.toNat))).map (fun r => r.2))
        (fun k => k.finish 5 c)
    | _ => s

/-! ### The histogram (13 R309, R310) -/

/-- A bank of bins after one value (13 R310). -/
def histAdd (m : Map Word) (v : Int) : Map Word :=
  let i := if 0 ≤ v ∧ v < 256 then v.toNat else 256
  let n : Word := get 0 m i
  set 0 m i (if n = 0xFFFFFFFF then n else n + 1)

/-- The elements of a run of `m` elements from a box's lower corner, read by the control engine (13 R310): values in order. -/
def State.histRead (s : State) (u b : Nat) (ep : BitVec 13) (t : Tensor) (box : Box) (i : Nat) : Nat → Except Stop (List Int × State)
  | 0 => .ok ([], s)
  | m + 1 =>
    let (n, bit) := t.loc (box.at i dims)
    match s.reach u b 0 ep t n .read [bit / 8] with
    | .error z => .error z
    | .ok (f, s1) =>
      let w := elemBits t.fmt
      if s.poisoned (f + bit / 8) (w / 8) then
        .error (.flt { code := 0x000A, da := BitVec.ofNat 64 (t.flat n + bit / 8), db := 1 })
      else
        let raw := s.memBits f bit w
        let v : Int := if t.fmt = 2 then (BitVec.ofNat 32 raw : Word).toInt else raw
        match s1.histRead u b ep t box (i + 1) m with
        | .error z => .error z
        | .ok (vs, s2) => .ok (v :: vs, s2)

/-- The move of HIST_PERFORMED (13 R310): the values are counted into the bank of the die that owns the iteration, for the job's partition. -/
def State.histPerform (s : State) (u b : Nat) : State :=
  let k := s.bank u b
  match (k.queue 0).find? (fun c => match c.op with | .hist _ _ _ => true | _ => false), k.job with
  | some c, some j => match c.op with
    | .hist m chk _ => match s.tensor chk.tid with
      | none => s
      | some t =>
        if s.mayPerform u b 0 c = false ∨ s.allArrived u b 0 c = false then s
        else match s.histRead u b c.epoch t chk.box 0 m with
          | .error (.flt f) => s.cmdStop u b 0 c f
          | .error _ => s
          | .ok (vs, s1) =>
            let d := get {} s1.dies j.die
            let bank := vs.foldl histAdd (get [] d.hist j.part)
            ({ s1 with dies := set {} s1.dies j.die { d with hist := set [] d.hist j.part bank } }).onBank u b (fun k => (k.finish 0 c).forget c.seq)
    | _ => s
  | _, _ => s

/-! ### The moves -/

/-- TOKEN_PUSH. -/
def execTokenPush (u b e : Nat) (s : State) : Out := .next (s.tokenPush u b e)
/-- LANDING. -/
def execLanding (u b : Nat) (s : State) : Out := .next (s.landNext u b)
/-- REQUEST_DEPART. -/
def execRequestDepart (u b src row : Nat) (s : State) : Out := .next (s.depart u b src row false)
/-- SLOT_MISS_RETRY: a request that missed its slot tries the same slot one rotation later. -/
def execSlotMissRetry (u b src row : Nat) (s : State) : Out := .next (s.depart u b src row true)
/-- LDG_RETURN. -/
def execLdgReturn (u b src : Nat) (s : State) : Out := .next (s.ldgReturn u b src)
/-- STG_PERFORMED. -/
def execStgPerformed (u b src : Nat) (s : State) : Out := .next (s.stgPerform u b src)
/-- COPY_ROW_PERFORMED. -/
def execCopyRowPerformed (u b e src row : Nat) (s : State) : Out := .next (s.copyRow u b e src row)
/-- GATH_ITEM_PERFORMED. -/
def execGathItemPerformed (u b e src item : Nat) (s : State) : Out := .next (s.gathItem u b e src item)
/-- SCATB_PERFORMED. -/
def execScatbPerformed (u b : Nat) (s : State) : Out := .next (s.scatbPerform u b)
/-- BINCFG_PERFORMED. -/
def execBincfgPerformed (u b e : Nat) (s : State) : Out := .next (s.bincfgPerform u b e)
/-- REDUCE_PERFORMED. -/
def execReducePerformed (u b e src : Nat) (s : State) : Out := .next (s.redPerform u b e src)
/-- REDUCE_TILE_PARTIAL. -/
def execReduceTilePartial (u b e src tile : Nat) (s : State) : Out := .next (s.redPartial u b e src tile)
/-- PUSH_ROW_APPEND. -/
def execPushRowAppend (u b src : Nat) (s : State) : Out := .next (s.pushRow u b src)
/-- ATOM_PERFORMED. -/
def execAtomPerformed (u b : Nat) (s : State) : Out := .next (s.atomPerform u b)
/-- AADDNR_PERFORMED. -/
def execAaddnrPerformed (u b src : Nat) (s : State) : Out := .next (s.aaddnrPerform u b src)
/-- HIST_PERFORMED. -/
def execHistPerformed (u b : Nat) (s : State) : Out := .next (s.histPerform u b)
/-- XSEND_ARRIVAL. -/
def execXsendArrival (u b src : Nat) (s : State) : Out := .next (s.xsendArrive u b src)

end Sys2Proof.Machine
end

