-- ==== Sys2Proof/Machine/BankUnit.lean ====
section
/-!
DEFINITION. The bank units of the memory stacks: BKLOAD, the records of BKRUN, contexts, and the microcode with its exposed pipeline (21 R397 to R411).
-/

namespace Sys2Proof.Machine

/-- A bank unit. -/
def State.bunit (s : State) (k : Nat) : BUnit := get {} s.bunits k

/-- The state with a bank unit changed. -/
def State.onBunit (s : State) (k : Nat) (f : BUnit → BUnit) : State := { s with bunits := set {} s.bunits k (f (s.bunit k)) }

/-- A context of a unit. -/
def BUnit.ctx (x : BUnit) (c : Nat) : Ctx := get {} x.ctxs c

/-- A unit with a context changed. -/
def BUnit.onCtx (x : BUnit) (c : Nat) (f : Ctx → Ctx) : BUnit := { x with ctxs := set {} x.ctxs c (f (x.ctx c)) }

/-- The bank unit's own cycle: half the main-core clock (21 R397). -/
def State.bcycle (s : State) : Nat := s.now / 2

/-! ### BKLOAD (21 R404) -/

/-- Whether a unit has a command in progress in any context (21 R404). -/
def BUnit.busy (x : BUnit) : Bool := x.cmd.isSome || x.queue.any (fun c => c.susp.isSome) || !x.wr.isEmpty

/-- `n` doublewords read at flat addresses from `va` on by the exchange engine (21 R404, R407). -/
def State.readDwords (s : State) (u b : Nat) (ep : BitVec 13) (va : Nat) : Nat → Except Stop (List DWord × State)
  | 0 => .ok ([], s)
  | n + 1 =>
    match s.flatNow u b (BitVec.ofNat 64 va) false with
    | .error f => .error (.flt f)
    | .ok t => match s.readFlat u b 5 ep t (BitVec.ofNat 64 va) 8 with
      | .error z => .error z
      | .ok (v, s1) => match s1.readDwords u b ep (va + 8) n with
        | .error z => .error z
        | .ok (vs, s2) => .ok (BitVec.ofNat 64 v :: vs, s2)

/-- The first command of engine 5 that satisfies `f` and is not lost: one that cannot be performed lets later ones by (08 R210). -/
def Bank.xfind (k : Bank) (f : CmdOp → Bool) : Option Cmd := (k.queue 5).find? (fun c => f c.op && !c.lost)

/-- The move of BKLOAD_PERFORMED (21 R404). -/
def State.bkloadPerform (s : State) (u b : Nat) : State :=
  let k := s.bank u b
  match k.xfind (fun o => match o with | .bkload _ _ => true | _ => false) with
  | none => s
  | some c => match c.op with
    | .bkload sel ea =>
      let n := selUnit sel
      let nw := bkWords sel
      let fw := sel.toNat / 2 ^ 11 % 256
      if s.mayPerform u b 5 c = false ∨ s.allArrived u b 5 c = false ∨ (s.bunit n).busy then s
      else match s.readDwords u b c.epoch ea.toNat nw with
        | .error (.flt f) => s.cmdStop u b 5 c f
        | .error _ => s
        | .ok (ws, s1) =>
          match (ws.zipIdx).find? (fun p => decide (((s.bunit n).ctx (p.1.toNat / 2 ^ 42 % 4)).owner ≠ some k.part)) with
          | some p => s.cmdStop u b 5 c { code := 0x0007, da := sel, db := ea + BitVec.ofNat 64 (8 * p.2) }
          | none => (s1.onBunit n (fun x => { x with
              ucode := (ws.zipIdx).foldl (fun m p => set 0 m (fw + p.2) p.1) x.ucode
              parity := x.parity.filter (fun i => decide (i < fw) || decide (fw + nw ≤ i)) })).onBank u b (fun k => k.finish 5 c)
    | _ => s

/-! ### Contexts (21 R405) -/

/-- A context that partition `p` claims: it takes it zeroed where it is free (21 R405). -/
def Ctx.claim (x : Ctx) (p : Nat) : Ctx := if x.owner = none then { owner := some p } else x

/-- Whether a partition may claim context `i` of unit `n` (22 R430). -/
def State.mayClaim (s : State) (p n i : Nat) : Bool := match get none s.parts p with
  | some x => x.cfg.contexts.contains (n, i)
  | none => false

/-- Whether context `i` of unit `n` is partition `p`'s, or free for it to claim; another one raises the address fault (21 R405, 22 R430; log entry 80). -/
def State.mayTake (s : State) (p n i : Nat) : Bool := match ((s.bunit n).ctx i).owner with
  | some q => decide (q = p)
  | none => s.mayClaim p n i

/-- A `BKCTX` that may be performed on unit `n` now and satisfies `f` of its partition and context: unit, bank and command. -/
def State.ctxRequest (s : State) (n : Nat) (f : Nat → Nat → Bool) : Option (Nat × Nat × Cmd) :=
  s.units.findSome? (fun p => [0, 1].findSome? (fun b =>
    ((s.bank p.1 b).queue 5).findSome? (fun c => match c.op with
      | .bkctx sel i => if selUnit sel = n ∧ s.mayPerform p.1 b 5 c = true ∧ f (s.bank p.1 b).part i = true then some (p.1, b, c) else none
      | _ => none)))

/-- Whether a context of unit `n` is requested as its running one: by a `BKCTX` that does not fault (21 R405). -/
def State.ctxAsked (s : State) (n : Nat) : Bool := (s.ctxRequest n (fun p i => s.mayTake p n i)).isSome

/-- The move of CONTEXT_SWITCH (21 R405): at a switch point the requested context becomes the running one; a context of another partition, or a free one that the partition may not claim (22 R430; log entry 80), raises the address fault. -/
def State.contextSwitch (s : State) (n : Nat) : State :=
  match s.ctxRequest n (fun _ _ => true) with
  | none => s
  | some (u, b, c) => match c.op with
    | .bkctx sel i =>
      let p := (s.bank u b).part
      if s.mayTake p n i = false then s.cmdStop u b 5 c { code := 0x0007, da := sel }
      else if (s.bunit n).cmd.isSome then s
      else (s.onBunit n (fun x => { x.onCtx i (fun y => y.claim p) with run := i })).onBank u b (fun k => k.finish 5 c)
    | _ => s

/-! ### The records of BKRUN (21 R406 to R408) -/

/-- A bank-unit fault of record `k` of the block at `ea` (21 R408). -/
def bkFlt (ea : DWord) (k reason word : Nat) : Flt :=
  { code := 0x0016, da := ea, db := BitVec.ofNat 64 k, dc := BitVec.ofNat 32 (reason + 256 * word) }

/-- The bytes of a near or far stack per bank unit (21 R398). -/
def unitSpan (tier : Nat) : Nat := (if tier = 2 then 2 else 3) * 2 ^ 30

/-- The bank unit of a machine byte offset. -/
def unitOf (tier stack off : Nat) : Nat := (if tier = 2 then 0 else 768) + 32 * stack + off / unitSpan tier

/-- The fields of a record (21 R406). -/
structure BkRec where
  va    : Nat
  entry : Nat
  ctx   : Nat
  lc    : Nat
  step  : Word
  lines : Nat
  zero  : Bool
  deriving DecidableEq, Repr

/-- A record from its four doublewords. -/
def bkRec (ws : List DWord) : BkRec :=
  let w := fun i => (ws.getD i 0).toNat
  { va := w 0, entry := w 1 % 256, ctx := w 1 / 256 % 4, lc := w 1 / 2 ^ 16 % 2 ^ 16, step := BitVec.ofNat 32 (w 1 / 2 ^ 32)
    lines := w 2 % 2 ^ 32, zero := decide (w 1 / 1024 % 64 = 0) && decide (w 2 / 2 ^ 32 = 0) && decide (w 3 = 0) }

/-- The machine frame of tile or page `i` of a tensor: tier, stack, offset. -/
def State.frameOf (s : State) (t : Tensor) (i : Nat) (pasid : Pasid) : Option (Nat × Nat × Nat) :=
  match s.translate t i pasid false with
  | .frame tier stack base => some (tier, stack, base)
  | _ => none

/-- The runs of lines of a record that lie in one frame each: first line, piece, and byte offset in it. Of a DIRECT tensor with stage 2, whose base need not be that of a frame, the lines from the next frame of the intermediate address on are a second run (12 R281, R284, R288). -/
def Tensor.recordRuns (t : Tensor) (va lines : Nat) : List (Nat × Nat × Nat) :=
  let run := fun l => (l, t.ofFlat (va + 512 * l))
  let room := (frameBytes t.fsz - (t.tbase + (va - t.wbase)) % frameBytes t.fsz) / 512
  if t.tiled ∨ stage2On t.part = false ∨ lines ≤ room then [run 0] else [run 0, run room]

/-- Such a run as it is translated now. -/
def State.runSeg (s : State) (t : Tensor) (pasid : Pasid) (r : Nat × Nat × Nat) : Option Seg :=
  (s.frameOf t r.2.1 pasid).map (fun x => { first := r.1, tier := x.1, stack := x.2.1, off := x.2.2 + r.2.2, ia := (t.iaNow r.2.1).2 })

/-- Whether a unit's microcode for a context holds a WR (21 R407; log entry 24). -/
def BUnit.writes (x : BUnit) (c : Nat) : Bool :=
  x.ucode.any (fun p => decide (p.2.toNat / 2 ^ 60 = 3) && decide (p.2.toNat / 2 ^ 42 % 4 = c))

/-- The checks of record `k` (21 R407): the unit and the command that is queued there. -/
def State.bkCheck (s : State) (u b : Nat) (c : Cmd) (ea : DWord) (k : Nat) (r : BkRec) : Except Stop (Nat × BCmd) :=
  let p := (s.bank u b).part
  let pasid := (s.bank u b).pasid
  if r.zero = false ∨ r.lines = 0 then .error (.flt (bkFlt ea k 1 0))
  else if r.va % 512 ≠ 0 then .error (.flt { code := 0x0006, da := BitVec.ofNat 64 r.va })
  else match s.window p r.va with
    | none => .error (.flt { code := 0x0007, da := BitVec.ofNat 64 r.va })
    | some t =>
      let (i, off) := t.ofFlat r.va
      let runs := t.recordRuns r.va r.lines
      if (match (s.bank u b).job with | some j => j.reaches t (dieOf u) | none => true) = false then .error (.flt { code := 0x0007, da := BitVec.ofNat 64 r.va })
      else if frameBytes t.fsz < (r.va - t.wbase) % frameBytes t.fsz + 512 * r.lines ∨ t.wbase + t.windowBytes < r.va + 512 * r.lines then .error (.flt (bkFlt ea k 1 0))
      else
        let place := s.frameOf t i pasid
        let wr := match place with
          | some (tier, stack, base) => decide (tier = 1 ∨ tier = 2) && (s.bunit (unitOf tier stack (base + off))).writes r.ctx
          | none => false
        match s.flatFlt t (BitVec.ofNat 64 r.va) wr with
        | some f => .error (.flt f)
        | none =>
          if (t.tile i).mf then .error .held
          else match place with
            | none => .error (.miss t.id i (match s.translate t i pasid false with | .miss n => n | _ => 1) wr r.va)
            | some (tier, stack, base) =>
              if tier = 0 ∨ tier = 3 then .error (.flt (bkFlt ea k 2 0))
              else if wr = true ∧ runs.any (fun x => decide (s.translate t x.2.1 pasid true = .noWrite)) = true then .error (.flt { code := 0x0007, da := BitVec.ofNat 64 r.va })
              else
                let n := unitOf tier stack (base + off)
                if ((s.bunit n).ctx r.ctx).owner ≠ some p then .error (.flt (bkFlt ea k 3 0))
                else .ok (n, { u := u, b := b, seq := c.seq, part := p, ctx := r.ctx, va := BitVec.ofNat 64 r.va, tid := t.id, tile := i
                               segs := runs.filterMap (s.runSeg t pasid)
                               entry := BitVec.ofNat 8 r.entry, lc := BitVec.ofNat 16 r.lc, step := r.step
                               lines := BitVec.ofNat 32 r.lines, ep := c.epoch })

/-- A fault of record `k` of a `BKRUN`: DB names the record (21 R408), but for a race, where it names the engine of the tag (10 R249). -/
def State.bkStop (s : State) (u b : Nat) (c : Cmd) (k : Nat) (f : Flt) : State :=
  s.cmdStop u b 5 c (if f.code = 0x000B then f else { f with db := BitVec.ofNat 64 k })

/-- The next record of the oldest `BKRUN` of a bank that is ready to be checked: command, block address, count, record. -/
def State.nextRecord (s : State) (u b : Nat) : Option (Cmd × DWord × Nat × Nat) :=
  match (s.bank u b).xfind (fun o => match o with | .bkrun _ _ _ _ => true | _ => false) with
  | none => none
  | some c => match c.op with
    | .bkrun ea n k sent => if sent ∨ s.mayPerform u b 5 c = false ∨ s.allArrived u b 5 c = false then none else some (c, ea, n, k)
    | _ => none

/-- A record read and checked. -/
def State.bkRead (s : State) (u b : Nat) (c : Cmd) (ea : DWord) (k : Nat) : Except Stop ((Nat × BCmd) × State) :=
  match s.readDwords u b c.epoch (ea.toNat + 32 * k) 4 with
  | .error z => .error z
  | .ok (ws, s1) => match s1.bkCheck u b c ea k (bkRec ws) with
    | .error z => .error z
    | .ok q => .ok (q, s1)

/-- The move of BKRUN_RECORD_START (21 R407). -/
def State.recordStart (s : State) (u b : Nat) : State :=
  match s.nextRecord u b with
  | none => s
  | some (c, ea, n, k) => match s.bkRead u b c ea k with
    | .error (.flt f) => s.bkStop u b c k f
    | .error _ => s
    | .ok ((i, q), s1) => (s1.onBunit i (fun x => { x with queue := x.queue ++ [q] })).onBank u b
        (fun b => b.onCmd 5 c.seq (fun c => { c with op := .bkrun ea n k true }))

/-! ### Running commands (21 R405, R407) -/

/-- The move of BANK_UNIT_COMMAND_START (21 R405, R407): the running context's suspended command resumes, its WAIT counted from here, or the oldest queued one begins. -/
def State.commandStart (s : State) (n : Nat) : State :=
  let x := s.bunit n
  if x.cmd.isSome ∨ s.ctxAsked n then s
  else
    let mine := x.queue.filter (fun c => decide (c.ctx = x.run))
    let t := max x.cyc s.bcycle
    match mine.find? (fun c => c.susp.isSome) with
    | some c => s.onBunit n (fun x => { x with
        cmd := some { c with susp := none }, queue := x.queue.erase c, cyc := t + c.susp.getD 0 + 1, ending := false })
    | none => match mine with
      | [] => s
      | c :: _ => s.onBunit n (fun x => { x.onCtx c.ctx (fun y => { y with upc := c.entry, lc := c.lc, i := 0 }) with
          cmd := some c, queue := x.queue.erase c, cyc := t, ending := false })

/-- The `BKRUN` of a command has done a record: it goes on with the next, or is performed (21 R407). -/
def State.recordDone (s : State) (c : BCmd) : State :=
  match (s.bank c.u c.b).cmd 5 c.seq with
  | none => s
  | some q => match q.op with
    | .bkrun ea n k _ => s.onBank c.u c.b (fun b =>
        if n ≤ k + 1 then b.finish 5 q else b.onCmd 5 c.seq (fun q => { q with op := .bkrun ea n (k + 1) false }))
    | _ => s

/-- A unit whose running command has ended. -/
def State.commandEnd (s : State) (n : Nat) : State :=
  match (s.bunit n).cmd with
  | none => s
  | some c => (s.onBunit n (fun x => { x with cmd := none, ending := false })).recordDone c

/-- Whether two commands at a unit are of one record of one `BKRUN`. -/
def BCmd.same (c d : BCmd) : Bool := decide (c.u = d.u) && decide (c.b = d.b) && decide (c.seq = d.seq)

/-- A unit without command `c`, which ran or was suspended. -/
def BUnit.drop (x : BUnit) (c : BCmd) : BUnit :=
  let run := x.cmd.any (fun d => c.same d)
  { x with cmd := if run then none else x.cmd, ending := x.ending && !run, queue := x.queue.filter (fun d => !c.same d) }

/-- Command `c` of unit `n` faults: its `BKRUN` stops, and the unit's context stands (21 R402, R408). -/
def State.recordFault (s : State) (n : Nat) (c : BCmd) (f : DWord → Nat → Flt) : State :=
    let s1 := s.onBunit n (fun x => x.drop c)
    match (s.bank c.u c.b).cmd 5 c.seq with
    | none => s1
    | some q => match q.op with
      | .bkrun ea m k _ => (s1.onBank c.u c.b (fun b => b.onCmd 5 c.seq (fun q => { q with op := .bkrun ea m k false }))).bkStop
          c.u c.b q k (f ea k)
      | _ => s1

/-- The running command faults. -/
def State.unitFault (s : State) (n : Nat) (f : DWord → Nat → Flt) : State :=
  match (s.bunit n).cmd with
  | none => s
  | some c => s.recordFault n c f

/-- A context with the results that are usable by cycle `t`: in the order of their cycles, the later-issued last (21 R401). -/
def Ctx.retire (x : Ctx) (t : Nat) : Ctx :=
  let due := sortBy (fun p q => decide (p.due ≤ q.due)) (x.pend.filter (fun p => decide (p.due ≤ t)))
  due.foldl (fun y p => if p.reg = 0 then { y with acc := p.row } else if p.reg = 1 then { y with ra := p.row } else { y with rb := p.row })
    { x with pend := x.pend.filter (fun p => decide (t < p.due)) }

/-- The line of a command that a word names: LINE + I × STEP, signed (21 R400). -/
def lineOf (m : Micro) (i : Word) (c : BCmd) : Int := m.line.toInt + (i.toNat : Int) * c.step.toInt

/-- The run of lines that holds line `l` of a command. -/
def BCmd.seg (c : BCmd) (l : Nat) : Seg := (c.segs.filter (fun x => decide (x.first ≤ l))).getLastD default

/-- The place of line `l` of a command, in the frame that its record was translated to (12 R287): its tensor, tier, stack and machine byte offset. -/
def State.linePlace (s : State) (c : BCmd) (l : Nat) : Option (Tensor × Nat × Nat × Nat) :=
  (s.tensor c.tid).map (fun t => (t, (c.seg l).tier, (c.seg l).stack, (c.seg l).off + 512 * (l - (c.seg l).first)))

/-- The DRAM page of a machine byte offset in its unit (21 R398). -/
def pageOf (tier off : Nat) : Nat := off % unitSpan tier / 2048

/-- The reason for which a word may not issue, in the order of R402; `lop` says whether its OP uses LINE, `rsMax` the largest RS. -/
def State.wordBad (s : State) (n : Nat) (m : Micro) (c : BCmd) (lop : Bool) (rsMax : Nat) (isAct : Bool) : Option Nat :=
  let x := s.bunit n
  let l := lineOf m (x.ctx c.ctx).i c
  if m.cx.toNat ≠ c.ctx then some 4
  else if lop ∧ (l < 0 ∨ (c.lines.toNat : Int) ≤ l) then some 5
  else
    let early := match (if lop then s.linePlace c l.toNat else none) with
      | none => false
      | some (_, tier, _, off) =>
        let pg := pageOf tier off
        let open_ := get none x.pages (pg % 16)
        if isAct then (match get none x.lastAct (pg % 16) with | some t => decide (x.cyc < t + 40) | none => false)
        else match open_ with
          | some (q, t) => decide (q ≠ pg) || decide (x.cyc < t + 12)
          | none => true
    if early then some 6
    else if rsMax < m.rs.toNat ∨ m.rsv ≠ 0 ∨ (lop = false ∧ m.line ≠ 0) ∨ x.parity.contains (x.ctx c.ctx).upc.toNat then some 7
    else none

/-- A context after the choice of the next word (21 R401). -/
def Ctx.next (x : Ctx) (m : Micro) : Ctx :=
  match m.nxt.toNat with
  | 0 => { x with upc := x.upc + 1 }
  | 1 => { x with upc := m.tgt }
  | 2 => if x.lc ≠ 0 then { x with upc := m.tgt, lc := x.lc - 1, i := x.i + 1 } else { x with upc := x.upc + 1 }
  | _ => x

/-- A unit whose word has issued: the next word and its cycle; HALT ends the command as END does (21 R399, R401). At a switch point `sw` with a context requested the command is suspended behind the word, and its WAIT is counted from the resumption (21 R405). -/
def State.wordDone (s : State) (n : Nat) (m : Micro) (c : BCmd) (ends sw : Bool) : State :=
  if ends ∨ m.nxt = 3 then
    (let s1 := s.onBunit n (fun x => { x with ending := true, cyc := x.cyc + 1 })
     if (s.bunit n).wr.any (fun w => c.same w.cmd) then s1
     else s1.commandEnd n)
  else if sw ∧ s.ctxAsked n then s.onBunit n (fun x => { x.onCtx c.ctx (fun y => y.next m) with
    cmd := none, queue := x.queue ++ [{ c with susp := some m.wait.toNat }], cyc := x.cyc + 1 })
  else s.onBunit n (fun x => { x.onCtx c.ctx (fun y => y.next m) with cyc := x.cyc + m.wait.toNat + 1 })

/-- The word of unit `n` issues (21 R400 to R402): the results due by now are in their registers, the checks are made, `act` has the word's effect. Nothing happens while no command runs, before the word's cycle, or while a write due by now is not performed. -/
def State.word (s : State) (n : Nat) (m : Micro) (lop : Bool) (rsMax : Nat) (isAct ends sw : Bool)
    (act : State → BCmd → Nat → Except Flt State) : Out :=
  let x := s.bunit n
  match x.cmd with
  | none => .next s
  | some c =>
    if x.ending ∨ s.bcycle < x.cyc ∨ x.wr.any (fun w => decide (w.due ≤ x.cyc)) then .next s
    else
      let s1 := s.onBunit n (fun x => x.onCtx c.ctx (fun y => y.retire x.cyc))
      match s1.wordBad n m c lop rsMax isAct with
      | some r => .next (s1.unitFault n (fun ea k => bkFlt ea k r ((s1.bunit n).ctx c.ctx).upc.toNat))
      | none => match act s1 c (lineOf m ((s1.bunit n).ctx c.ctx).i c).toNat with
        | .error f => .next (s1.unitFault n (fun _ _ => f))
        | .ok s2 => .next (s2.wordDone n m c ends sw)

/-- The state in which a result of the running context becomes usable `d` cycles on (21 R400). -/
def State.pending (s : State) (n : Nat) (c : BCmd) (reg d : Nat) (r : Row) : State :=
  s.onBunit n (fun x => x.onCtx c.ctx (fun y => { y with pend := y.pend ++ [{ due := x.cyc + d, reg := reg, row := r }] }))

/-- BANK_UNIT_NOP (21 R400). -/
def execBankUnitNop (k : Nat) (m : Micro) (s : State) : Out := s.word k m false 0 false false false (fun s _ _ => .ok s)

/-- BANK_UNIT_END (21 R400). -/
def execBankUnitEnd (k : Nat) (m : Micro) (s : State) : Out := s.word k m false 0 false true false (fun s _ _ => .ok s)

/-- BANK_UNIT_ACT (21 R400): opens a page in its bank, closing the open one. -/
def execBankUnitAct (k : Nat) (m : Micro) (s : State) : Out :=
  s.word k m true 0 true false false (fun s c l => match s.linePlace c l with
    | none => .ok s
    | some (_, tier, _, off) =>
      let pg := pageOf tier off
      .ok (s.onBunit k (fun x => { x with pages := set none x.pages (pg % 16) (some (pg, x.cyc)), lastAct := set none x.lastAct (pg % 16) (some x.cyc) })))

/-- The bytes of a 512-byte line of a tensor that are not pad (12 R283). -/
def Tensor.lineBytes (t : Tensor) : Nat := if t.pad 504 then 504 else 512

/-- A line of a tensor in memory with its poison: its pad bytes read zero (12 R283). -/
def State.memRow (s : State) (t : Tensor) (a : Nat) : Row :=
  { data := BitVec.ofNat 4096 (leNat (rdBytes s.mem a t.lineBytes)), poison := ofGran (fun g => get false s.poison (a / 16 + g)) }

/-- The state with a line of a tensor written: its pad bytes are not (12 R283), nor is the poison of a granule written in part (05 R127). -/
def State.setMemRow (s : State) (t : Tensor) (a : Nat) (r : Row) : State :=
  { s with
    mem := wrBytes s.mem a ((rowBytes r.data).take t.lineBytes)
    poison := (List.range (t.lineBytes / 16)).foldl (fun m g => set false m (a / 16 + g) (r.poison.getLsbD g)) s.poison }

/-- BANK_UNIT_RD (21 R400, R410): a plain read of the exchange engine. -/
def execBankUnitRd (k : Nat) (m : Micro) (s : State) : Out :=
  s.word k m true 1 false false false (fun s c l => match s.linePlace c l with
    | none => .ok s
    | some (t, tier, stack, off) => match s.raceTile c.u c.b 5 c.ep t c.tile .read with
      | .error f => .error f
      | .ok s1 => .ok (s1.pending k c (if m.rs = 0 then 1 else 2) 10 (s.memRow t (physAddr tier stack off))))

/-- BANK_UNIT_WR (21 R400): the line is written eight cycles on with ACC as it is at issue. -/
def execBankUnitWr (k : Nat) (m : Micro) (s : State) : Out :=
  s.word k m true 0 false false false (fun s c l => .ok (s.onBunit k (fun x => { x with
    wr := x.wr ++ [{ due := x.cyc + 8, line := l, row := (x.ctx c.ctx).acc, cmd := c }] })))

/-- A row of 128 FP32 results with its poison. -/
def rowOf32 (f : Nat → Nat) (p : BitVec 32) : Row := { data := BitVec.ofNat 4096 (gatherN 32 f 0 128), poison := p }

/-- BANK_UNIT_MAC (21 R400). -/
def execBankUnitMac (k : Nat) (m : Micro) (s : State) : Out :=
  s.word k m false 0 false false false (fun s c _ =>
    let x := (s.bunit k).ctx c.ctx
    .ok (s.pending k c 0 4 (rowOf32 (fun j => fp32.round 0 (FVal.add 0 (fp32.val (x.acc.el 32 j))
      ((fp32.val (x.ra.el 32 j)).mul (fp32.val (x.rb.el 32 j))))) (x.acc.poison ||| x.ra.poison ||| x.rb.poison))))

/-- BANK_UNIT_ADDA (21 R400). -/
def execBankUnitAdda (k : Nat) (m : Micro) (s : State) : Out :=
  s.word k m false 1 false false false (fun s c _ =>
    let x := (s.bunit k).ctx c.ctx
    let y := if m.rs = 0 then x.ra else x.rb
    .ok (s.pending k c 0 4 (rowOf32 (fun j => fp32.addRne (x.acc.el 32 j) (y.el 32 j)) (x.acc.poison ||| y.poison))))

/-- BANK_UNIT_RED (21 R400): the tree of R134 into lane 0. -/
def execBankUnitRed (k : Nat) (m : Micro) (s : State) : Out :=
  s.word k m false 0 false false false (fun s c _ =>
    let x := (s.bunit k).ctx c.ctx
    .ok (s.pending k c 0 12 { data := BitVec.ofNat 4096 (treeSum fp32 7 ((List.range 128).map (x.acc.el 32)))
                              poison := if x.acc.poison = 0 then 0 else 1 }))

/-- BANK_UNIT_MOVA (21 R400). -/
def execBankUnitMova (k : Nat) (m : Micro) (s : State) : Out :=
  s.word k m false 1 false false false (fun s c _ =>
    let x := (s.bunit k).ctx c.ctx
    .ok (if m.rs = 0 then s.pending k c 0 1 x.ra else s.pending k c 1 1 x.acc))

/-- BANK_UNIT_CTX (21 R405): a switch point; with a context requested, the command is suspended behind this word. -/
def execBankUnitCtx (k : Nat) (m : Micro) (s : State) : Out := s.word k m false 0 false false true (fun s _ _ => .ok s)

/-- Whether a word of the running command issues in an earlier cycle than `t`: a write due at `t` waits for it (21 R400). -/
def BUnit.wordsUntil (x : BUnit) (t : Nat) : Bool := x.cmd.isSome && !x.ending && decide (x.cyc < t)

/-- The move of BANK_UNIT_WRITE_PERFORMED (21 R400, R401, R410): the oldest write that is due is performed, after every word of an earlier cycle; once the ending command has none left it ends. -/
def State.writePerform (s : State) (n : Nat) : State :=
  match (s.bunit n).wr with
  | [] => s
  | w :: ws =>
    if s.bcycle < w.due ∨ (s.bunit n).wordsUntil w.due then s
    else
      let s1 := s.onBunit n (fun x => { x with wr := ws })
      let s2 := match s.linePlace w.cmd w.line with
        | none => s1
        | some (t, tier, stack, off) => match s1.raceTile w.cmd.u w.cmd.b 5 w.cmd.ep t w.cmd.tile .write with
          | .error f => s1.recordFault n w.cmd (fun _ _ => f)
          | .ok s3 => (s3.dirtyVia t w.cmd.tile (tier, (w.cmd.seg w.line).ia)).setMemRow t (physAddr tier stack off) w.row
      let mine := match (s2.bunit n).cmd with
        | some c => ws.any (fun w => c.same w.cmd)
        | none => true
      s.ifRoom w.cmd.part (if (s2.bunit n).ending ∧ mine = false then s2.commandEnd n else s2)

/-- The fault of a word whose OP is illegal (21 R402, reason 7): it comes after the writes due by the word's cycle, as any word does. -/
def State.badWord (s : State) (n : Nat) : State :=
  match (s.bunit n).cmd with
  | none => s
  | some c =>
    let x := s.bunit n
    if x.ending ∨ s.bcycle < x.cyc ∨ x.wr.any (fun w => decide (w.due ≤ x.cyc)) then s
    else
      let cx := (get 0 x.ucode (x.ctx c.ctx).upc.toNat : DWord).toNat / 2 ^ 42 % 4
      s.unitFault n (fun ea k => bkFlt ea k (if cx ≠ c.ctx then 4 else 7) (x.ctx c.ctx).upc.toNat)

/-- BKRUN_RECORD_START. -/
def execBkrunRecordStart (u b : Nat) (s : State) : Out := .next (s.recordStart u b)
/-- BANK_UNIT_COMMAND_START. -/
def execBankUnitCommandStart (k : Nat) (s : State) : Out := .next (s.commandStart k)
/-- BKLOAD_PERFORMED. -/
def execBkloadPerformed (u b : Nat) (s : State) : Out := .next (s.bkloadPerform u b)
/-- CONTEXT_SWITCH. -/
def execContextSwitch (k : Nat) (s : State) : Out := .next (s.contextSwitch k)
/-- BANK_UNIT_WRITE_PERFORMED. -/
def execBankUnitWritePerformed (k : Nat) (s : State) : Out := .next (s.writePerform k)

end Sys2Proof.Machine
end

