-- ==== Sys2Proof/Machine/Batcher.lean ====
section
/-!
DEFINITION. Translation misses and the fault range batcher: a job waits on a miss, records are batched, delivered to the host and answered (08 R202, R211; 12 R297 to R299).
-/

namespace Sys2Proof.Machine

/-- A die. -/
def State.die (s : State) (d : Nat) : Die := get {} s.dies d

/-- The state with a die changed. -/
def State.onDie (s : State) (d : Nat) (f : Die → Die) : State := { s with dies := set {} s.dies d (f (s.die d)) }

/-- The state with a partition changed. -/
def State.onPart (s : State) (p : Nat) (f : Part → Part) : State := { s with parts := set none s.parts p ((get none s.parts p).map f) }

/-- A partition. -/
def State.part (s : State) (p : Nat) : Option Part := get none s.parts p

/-- Host memory with bytes written at a host I/O virtual address (log entry 11). -/
def State.hostPut (s : State) (a : Nat) (bs : List Byte) : State := { s with mem := wrBytes s.mem (hostAddr a) bs }

/-- Bytes of host memory. -/
def State.hostGet (s : State) (a n : Nat) : List Byte := rdBytes s.mem (hostAddr a) n

/-- Whether a bank gives way to the other one of its unit: it holds no ready job, and one that waits on a miss has drained (01 R25, 08 R202, R211). -/
def State.yields (s : State) (u b : Nat) : Bool :=
  let k := s.bank u b
  match k.job with
  | none => true
  | some j => match j.status with
    | .ready => false
    | .stopped => true
    | .missing => (List.range 6).all (s.drained u b)

/-- A unit whose executing bank gives way begins to execute the other bank, if that holds a ready job (01 R25, 08 R202). -/
def State.settle (s : State) (u : Nat) : State :=
  let c := s.core u
  if s.yields u c.kbank = true ∧ (c.bank (1 - c.kbank)).ready = true then s.setCore u { c with kbank := 1 - c.kbank } else s

/-- The miss that an access meets: tensor, tile, stage, whether it writes, its own flat address. -/
def missOf' {α : Type} (x : Except Stop α) : Option (Nat × Nat × Nat × Bool × Nat) := match x with
  | .error (.miss t n st w va) => some (t, n, st, w, va)
  | _ => none

/-- The translation miss that row `r` of command `c` of engine `e` meets (12 R290): by a tile for which no request has departed, for one that has keeps its frame (R287). -/
def State.missOf (s : State) (u b e r : Nat) (c : Cmd) : Option (Nat × Nat × Nat × Bool × Nat) :=
  let tiles := (s.undeparted u b e c r).findSome? (fun p => match s.transAt u p.1 p.2.1 (s.bank u b).pasid p.2.2.2 p.2.2.1 with
    | .miss st => some (p.1.id, p.2.1, st, p.2.2.2, p.1.flat p.2.1 + p.2.2.1.headD 0)
    | _ => none)
  match c.op with
  | .copy x =>
    if x.kind = .scatb then (match x.chk with
      | some k => (s.tensor k.tid).bind (fun t => missOf' (s.scatRows u b c x t k.box ((s.bank u b).sq 4) 0 x.n))
      | none => none)
    else if x.kind = .reduce then (match s.redViews x with
      | some (ta, tb, ps) => if x.parts.any (fun p => decide (p.1 = r)) then none else missOf' (s.products u b e c.epoch ta tb (ta.redPoints r ps))
      | none => none)
    else if x.kind = .cpy ∨ x.kind = .gath then tiles else none
  | .hist m k _ => (s.tensor k.tid).bind (fun t => missOf' (s.histRead u b c.epoch t k.box 0 m))
  | .bkload sel ea => missOf' (s.readDwords u b c.epoch ea.toNat (sel.toNat / 2 ^ 19 % 512))
  | .bkrun ea _ k sent => if sent then none else missOf' (s.bkRead u b c ea k)
  | _ => tiles

/-- Whether an entry covers a page with a stage (12 R297). -/
def Miss.covers (m : Miss) (p tid va stage : Nat) : Bool :=
  decide (m.part = p) && decide (m.tid = tid) && decide (m.stage = stage)
  && decide (m.va ≤ va) && decide (va < m.va + m.pages * frameBytes m.fsz)

/-- An entry with one access more, and its waiter. -/
def Miss.join (m : Miss) (w : Bool) (j : Option Waiter) : Miss :=
  { m with jobs := m.jobs ++ j.toList, write := m.write || w }

/-- A list in which the first entry that covers the page has taken the access; none where no entry does. -/
def joinIn (p tid va stage : Nat) (w : Bool) (j : Option Waiter) : List Miss → Option (List Miss)
  | [] => none
  | m :: ms => if m.covers p tid va stage then some (m.join w j :: ms) else (joinIn p tid va stage w j ms).map (fun l => m :: l)

/-- A die that has received a miss at cycle `now` (12 R297): it joins an entry or an unanswered record, or enters the batch; `j` is its waiter, if a job waits. The caller flushes a batch that is full. -/
def Die.receive (d : Die) (now : Nat) (m : Miss) (j : Option Waiter) : Die :=
  let join := joinIn m.part m.tid m.va m.stage m.write j
  match join d.batch with
  | some l => { d with batch := l }
  | none => match join d.out with
    | some l => { d with out := l }
    | none => match join d.unans with
      | some l => { d with unans := l }
      | none => { d with batch := d.batch ++ [{ m with jobs := j.toList }], timer := if d.batch.isEmpty then now else d.timer }

/-- The number of a weight version of a partition in `State.versions`. -/
def verKey (p v : Nat) : Nat := p * 65536 + v

/-- The state with a weight version changed. -/
def State.onVersion (s : State) (p v : Nat) (f : Version → Version) : State :=
  { s with versions := set none s.versions (verKey p v) ((get none s.versions (verKey p v)).map f) }

/-- The entry of a miss on tile `n` (12 R297, R298). -/
def Tensor.missEntry (t : Tensor) (n stage : Nat) (w : Bool) : Miss :=
  { va := t.flat n, fsz := t.fsz, read := !w, write := w, host := decide (stage = 3), stage := min stage 2, tid := t.id, part := t.part, jobs := [] }

/-- A miss reported to the batcher of die `d`, or for a pending tile to its weight version (12 R297, 23 R449). A batch that has 64 entries takes no more before its flush. -/
def State.report (s : State) (d : Nat) (t : Tensor) (n stage : Nat) (w : Bool) (j : Option Waiter) : State :=
  if stage = 4 then s.onVersion t.part (t.version.getD 0) (fun v => { v with waits := v.waits ++ j.toList.map (fun x => (t.id, n, x)) })
  else s.onDie d (fun x => x.receive s.now (t.missEntry n stage w) j)

/-- Whether the batcher of a die has to flush before it takes another entry (12 R297). -/
def Die.full (d : Die) : Bool := decide (64 ≤ d.batch.length)

/-- The die whose batcher takes the misses of a unit. -/
def batcherOf (u : Nat) : Nat := dieOf u

/-- The move of FAULT_RANGE_MISS (08 R211, 12 R297): the access goes to the batcher, or waits for a pending tile without a record (23 R449); the job waits unless a fault has stopped it, and the command and every later one of its queue are held. -/
def State.rangeMiss (s : State) (u b e src r : Nat) : State :=
  let k := s.bank u b
  match k.cmd e src, k.job with
  | some c, some j =>
    if s.mayPerform u b e c = false ∨ (s.die (batcherOf u)).full = true then s
    else match s.missOf u b e r c with
      | none => s
      | some (tid, n, stage, w, va) => match s.tensor tid with
        | none => s
        | some t =>
          (s.report (batcherOf u) t n stage w (some { u := u, b := b, e := e, src := some src, own := va })).onBank u b (fun k =>
            (if j.status = .stopped then k else k.onJob (fun j => { j with status := .missing })).onCmd e src (fun c => { c with held := true }))
  | _, _ => s

/-- A job whose end or latch meets a miss of the device's own access, a write where `w` says so, waits on it as on one of its own (12 R290, R297, 13 R308, R311). -/
def State.ownMiss (s : State) (u b : Nat) (w : Bool) (x : Tensor × Nat × Nat × Nat) : State :=
  if (s.die (batcherOf u)).full then s
  else (s.report (batcherOf u) x.1 x.2.1 x.2.2.1 w (some { u := u, b := b, e := 0, src := none, own := x.2.2.2 })).onBank u b
    (fun k => k.onJob (fun j => { j with status := .missing }))

/-! ### Flush, delivery and reply -/

/-- Whether two records are of one kind: equal partition, frame size, access, tensor and stage. -/
def Miss.alike (a b : Miss) : Bool :=
  decide (a.part = b.part) && decide (a.fsz = b.fsz) && decide (a.tid = b.tid) && decide (a.stage = b.stage)
  && decide (a.read = b.read) && decide (a.write = b.write) && decide (a.host = b.host)

/-- Sorted entries merged into records (12 R297). -/
def mergeRuns : List Miss → List Miss
  | [] => []
  | m :: ms => match mergeRuns ms with
    | [] => [m]
    | r :: rs => if m.alike r ∧ r.va = m.va + m.pages * frameBytes m.fsz ∧ m.pages + r.pages ≤ 64
        then { m with pages := m.pages + r.pages, jobs := m.jobs ++ r.jobs } :: rs else m :: r :: rs

/-- Records numbered from `n` on, as records of batch `b`; bit 31 marks the last. -/
def number (n b : Word) : List Miss → List Miss
  | [] => []
  | m :: ms => { m with seq := n, batch := if ms.isEmpty then b ||| 0x80000000 else b } :: number (n + 1) b ms

/-- A die that has flushed its batch (12 R297). -/
def Die.flush (d : Die) : Die :=
  let rs := mergeRuns (sortBy (fun a b => decide (a.va ≤ b.va)) d.batch)
  { d with out := d.out ++ number d.seqNo (d.batchNo &&& 0x7FFFFFFF) rs, batch := [], timer := 0
           seqNo := d.seqNo + BitVec.ofNat 32 rs.length, batchNo := d.batchNo + 1 }

/-- The move of BATCH_FULL_FLUSH. -/
def State.flushFull (s : State) (d : Nat) : State := if 64 ≤ (s.die d).batch.length then s.onDie d Die.flush else s

/-- The move of BATCH_TIMER_FLUSH: 27,200 die cycles after the batch began. -/
def State.flushTimer (s : State) (d : Nat) : State :=
  if (s.die d).batch ≠ [] ∧ (s.die d).timer + 27200 ≤ s.now then s.onDie d Die.flush else s

/-- The function that a partition's records name: its first one, 0 for the physical one (12 R298; log entry 96). -/
def State.fnOf (s : State) (p : Nat) : Nat := match s.part p with
  | some x => x.cfg.fns.headD 0
  | none => 0

/-- The 32 bytes of a fault-range record (12 R298). -/
def State.missBytes (s : State) (d : Nat) (m : Miss) : List Byte :=
  let acc := (if m.read then 1 else 0) + (if m.write then 2 else 0) + (if m.stage = 2 then 4 else 0) + (if m.host then 8 else 0)
  leBytes 8 m.va ++ leBytes 4 m.pages ++ leBytes 1 m.fsz ++ leBytes 1 acc ++ leBytes 2 ((m.jobs.map (fun j => (j.u, j.b))).eraseDups).length ++ leBytes 3 m.tid ++ leBytes 1 0
    ++ leBytes 4 m.seq.toNat ++ leBytes 2 (s.fnOf m.part) ++ leBytes 1 d ++ leBytes 1 0 ++ leBytes 4 m.batch.toNat

/-- The partition whose fault queue takes a record: its own for stage 1, the physical function's for stage 2 (12 R297). -/
def Miss.queue (m : Miss) : Nat := if m.stage = 1 then m.part else 0

/-- Whether the fault queue of a record has space. -/
def State.recordFits (s : State) (m : Miss) : Bool := match s.part m.queue with
  | none => false
  | some p => decide (p.fqTail - p.fqHead < p.cfg.faultQSize)

/-- The move of FAULT_RECORD_DELIVER (12 R297): the oldest flushed record whose fault queue has space goes to it; records of one queue keep their order. -/
def State.recordDeliver (s : State) (d : Nat) : State :=
  match (s.die d).out.find? s.recordFits with
  | none => s
  | some m => match s.part m.queue with
    | none => s
    | some p =>
      let s1 := s.hostPut (p.cfg.faultQBase + 32 * (p.fqTail % p.cfg.faultQSize)) (s.missBytes d m)
      (s1.onPart m.queue (fun p => { p with fqTail := p.fqTail + 1 })).onDie d (fun x => { x with out := x.out.erase m, unans := x.unans ++ [m] })

/-- Whether a bank still waits on a miss of some die, or on a pending tile. -/
def State.stillWaits (s : State) (u b : Nat) : Bool :=
  (somes s.versions).any (fun v => v.2.waits.any (fun w => decide (w.2.2.u = u) && decide (w.2.2.b = b)))
  || s.dies.any (fun d => (d.2.batch ++ d.2.out ++ d.2.unans).any (fun m => m.jobs.any (fun j => decide (j.u = u) && decide (j.b = b))))

/-- A command from its start: none of its rows, items or partials counts as performed; a `BKRUN` stands at its record (08 R211, 21 R407; log entry 99). -/
def CmdOp.afresh : CmdOp → CmdOp
  | .copy c => .copy { c with done := [], parts := [] }
  | .xsend x n m l q r _ => .xsend x n m l q r []
  | o => o

/-- A bank in which the command of a waiter is performed from its start, with requests that depart anew (08 R211, 12 R299). -/
def Bank.again (k : Bank) (j : Waiter) : Bank := match j.src with
  | some n => { k.onCmd j.e n (fun c => { c with op := c.op.afresh, held := false }) with
      departed := k.departed.filter (fun d => decide (d.src ≠ n)), missed := k.missed.filter (fun m => decide (m.src ≠ n)) }
  | none => k

/-- A bank in which the command of a waiter can for good not be performed. -/
def Bank.hold (k : Bank) (j : Waiter) : Bank := match j.src with
  | some n => k.onCmd j.e n (fun c => { c with held := true, lost := true })
  | none => k

/-- A waiting job after RETRY: its access translates again (12 R299), and its engine performs the held commands from the start of the faulting one (08 R211; log entry 99). -/
def State.retryJob (s : State) (j : Waiter) : State :=
  let s1 := s.onBank j.u j.b (fun k => k.again j)
  if s1.stillWaits j.u j.b then s1
  else (s1.onBank j.u j.b (fun k => k.onJob (fun x => { x with status := if x.status = .missing then .ready else x.status }))).settle j.u

/-- The record at which a held `BKRUN` of a bank stands; 0 where none is held (21 R408). -/
def Bank.heldRecord (k : Bank) : Nat := ((k.queue 5).findSome? (fun c => match c.op with
  | .bkrun _ _ i _ => if c.held then some i else none
  | _ => none)).getD 0

/-- Whether what a waiter waits for still stands in its bank: its command, or the end or latch of a job that waits. -/
def Bank.awaits (k : Bank) (j : Waiter) : Bool := match j.src with
  | some n => (k.cmd j.e n).isSome
  | none => (match k.job with | some x => decide (x.status = .missing) | none => false)

/-- A waiting job after FAIL: the address fault with its own faulting address; the command cannot be performed (12 R299, 08 R210). -/
def State.failJob (s : State) (j : Waiter) : State :=
  let s1 := s.onBank j.u j.b (fun k => k.hold j)
  if (s.bank j.u j.b).awaits j = false then s
  else s1.stopJob j.u j.b { code := 0x0007, eng := j.e, precise := decide (j.e = 0), da := BitVec.ofNat 64 j.own
                            db := BitVec.ofNat 64 (if j.e = 5 then (s1.bank j.u j.b).heldRecord else 0) }

/-- The move of RANGE_REPLY (12 R299); it frees the record's entry of the fault queue (log entry 95). -/
def State.rangeReply (s : State) (d : Nat) (n : Word) (st : Byte) : State :=
  match (s.die d).unans.find? (fun m => m.seq = n) with
  | none => { s with errs := { s.errs with replies := s.errs.replies + 1 } }
  | some m =>
    let s1 := (s.onDie d (fun x => { x with unans := x.unans.filter (fun q => decide (q.seq ≠ n)) })).onPart m.queue
      (fun p => { p with fqHead := p.fqHead + 1 })
    m.jobs.foldl (fun s j => if st = 0 then s.retryJob j else s.failJob j) s1

/-- FAULT_RANGE_MISS. -/
def execFaultRangeMiss (u b e src row : Nat) (s : State) : Out := .next (s.rangeMiss u b e src row)
/-- BATCH_FULL_FLUSH. -/
def execBatchFullFlush (die : Nat) (s : State) : Out := .next (s.flushFull die)
/-- BATCH_TIMER_FLUSH. -/
def execBatchTimerFlush (die : Nat) (s : State) : Out := .next (s.flushTimer die)
/-- FAULT_RECORD_DELIVER. -/
def execFaultRecordDeliver (die : Nat) (s : State) : Out := .next (s.recordDeliver die)
/-- RANGE_REPLY. -/
def execRangeReply (die : Nat) (seq : Word) (status : Byte) (s : State) : Out := .next (s.rangeReply die seq status)

end Sys2Proof.Machine
end

