-- ==== Sys2Proof/Machine/Views.lean ====
section
/-!
DEFINITION. View moves, their answers, the Elision engine and the scrub (14 R321 to R346, 17 R369).
-/

namespace Sys2Proof.Machine

/-! ### Frames and pools (22 R430, 14 R339) -/

/-- Whether a frame of size code `c` at base `a` (units of 4 KiB) is free on a stack: aligned, inside the stack, apart from every frame in use (12 R286). -/
def State.frameFree (s : State) (tier stack c a : Nat) : Bool :=
  decide (a % 4 ^ c = 0) && decide ((a + 4 ^ c) * 4096 ≤ stackBytes tier)
  && (s.frames ++ s.scrubs.map (fun x => x.frame)).all (fun f => decide (f.tier ≠ tier) || decide (f.stack ≠ stack)
      || !overlap a (4 ^ c) f.base (4 ^ f.fsz))

/-- The lowest free base: 0 or behind some frame in use. -/
def State.lowFrame (s : State) (tier stack c : Nat) : Option Nat :=
  let ends := (s.frames ++ s.scrubs.map (fun x => x.frame)).map (fun f => (f.base + 4 ^ f.fsz + 4 ^ c - 1) / 4 ^ c * 4 ^ c)
  ((0 :: ends).filter (s.frameFree tier stack c)).foldl (fun m a => match m with
    | none => some a
    | some b => some (min a b)) none

/-- The frames of one size that a partition holds on a stack. -/
def State.framesHeld (s : State) (p tier stack c : Nat) : Nat :=
  ((s.frames ++ s.scrubs.map (fun x => x.frame)).filter (fun f => decide (f.part = p) && decide (f.tier = tier)
    && decide (f.stack = stack) && decide (f.fsz = c))).length

/-- The quota of a partition (22 R430). -/
def State.frameQuota (s : State) (p tier stack c : Nat) : Nat := match s.part p with
  | none => 0
  | some x => ((x.cfg.quotas.find? (fun q => decide (q.tier = tier) && decide (q.stack = stack) && decide (q.fsz = c))).map (fun q => q.frames)).getD 0

/-- A frame taken from a partition's quota: the pool's free choice where it names a free one, else the lowest (log entry 13); none where the quota or the pool is used up. -/
def State.takeFrame (s : State) (p tier stack c : Nat) : Option (Frame × State) :=
  if s.frameQuota p tier stack c ≤ s.framesHeld p tier stack c then none
  else
    let want := Config.freeFrame s.free * 4 ^ c
    match (if s.frameFree tier stack c want then some want else s.lowFrame tier stack c) with
    | none => none
    | some a =>
      let f : Frame := { tier := tier, stack := stack, fsz := c, base := a, part := p }
      some (f, { s with frames := s.frames ++ [f], free := s.free + 1 })

/-- Memory with `n` bytes from `a` on zero and clean (14 R339). -/
def State.zeroMem (s : State) (a n : Nat) : State :=
  { s with mem := s.mem.filter (fun c => !(decide (a ≤ c.1) && decide (c.1 < a + n)))
           poison := s.poison.filter (fun c => !(decide (a / 16 ≤ c.1) && decide (c.1 < (a + n) / 16))) }

/-- The machine byte offset of a partition's frame: through stage 2 where that is enabled; none where stage 2 misses, so that no machine frame lies under it (12 R288, 14 R339; log entry 98). -/
def State.machineBase (s : State) (f : Frame) : Option Nat :=
  if stage2On f.part = false ∨ f.tier = 3 then some (f.base * 4096)
  else
    let e := get {} s.stage2 (s2Key f.part f.fsz (f.base * 4096 / frameBytes f.fsz))
    if e.maps f.tier f.stack f.fsz then some (e.mbase.toNat * 4096) else none

/-- A frame scrubbed: the machine frame under it, if there is one (14 R339, 22 R436; log entry 98). -/
def State.scrubFrame (s : State) (f : Frame) : State := match s.machineBase f with
  | none => s
  | some a => (s.zeroMem (physAddr f.tier f.stack a) (frameBytes f.fsz)).dirtyFrame f.part f.fsz (f.base * 4096)

/-- Whether two frames are the same place. -/
def Frame.same (a b : Frame) : Bool := decide (a.tier = b.tier) && decide (a.stack = b.stack) && decide (a.fsz = b.fsz) && decide (a.base = b.base)

/-! ### The view table (14 R323, R330 to R332, R335) -/

/-- The number of handles that a partition has in use (14 R323). -/
def State.handles (s : State) (p : Nat) : Nat := (s.views.filter (fun v => v.2.used && decide (v.2.part = p))).length

/-- Whether a handle may be allocated. -/
def State.handleFree (s : State) (h : Nat) : Bool :=
  decide (1 ≤ h) && decide (h < 2 ^ 20) && !(get {} s.views h : View).used && !(get {} s.views h : View).retired

/-- The lowest free handle among 1 and the successors of handles in use. -/
def State.lowHandle (s : State) : Option Nat :=
  ((1 :: s.views.map (fun v => v.1 + 1)).filter s.handleFree).foldl (fun m a => match m with
    | none => some a
    | some b => some (min a b)) none

/-- The handle quota of a partition. -/
def State.handleQuota (s : State) (p : Nat) : Nat := match s.part p with
  | some x => x.cfg.handleQuota
  | none => 0

/-- A free handle within a partition's quota: the table's free choice where it names one, else the lowest (14 R323; log entry 13). -/
def State.takeHandle (s : State) (p : Nat) : Option Nat :=
  if s.handleQuota p ≤ s.handles p then none
  else if s.handleFree (Config.freeHandle s.free) then some (Config.freeHandle s.free)
  else s.lowHandle

/-- The form of a handle. -/
def State.formOf (s : State) (h : Nat) : Word := BitVec.ofNat 32 ((get {} s.views h : View).gen.toNat * 2 ^ 20 + h)

/-- The generation of a new view on a handle: the last one plus 1, and 1 after 4095, when the handle is allocated again under a new configuration (14 R323; log entry 81). -/
def nextGen (g : BitVec 12) : BitVec 12 := if g = 4095 then 1 else g + 1

/-- A new view on a handle, with the next generation (14 R323). -/
def State.makeView (s : State) (h : Nat) (v : View) : State :=
  { s with views := set {} s.views h { v with used := true, retired := false, gen := nextGen (get {} s.views h : View).gen }, free := s.free + 1 }

/-- A handle freed; at generation 4095 it retires (14 R323). -/
def State.freeView (s : State) (h : Nat) : State :=
  let v : View := get {} s.views h
  { s with views := set {} s.views h { gen := v.gen, retired := decide (v.gen = 4095), part := v.part } }

/-- The state after views of a slot tensor have changed: a held slot whose tile no view covers is releasing (17 R369). -/
def State.slotCheck (s : State) (tid : Nat) : State :=
  match s.tensor tid with
  | none => s
  | some t => { s with crossings := s.crossings.map (fun p => (p.1, p.2.map (fun c =>
      if c.tid ≠ tid then c
      else (List.range c.nslots).foldl (fun c n =>
        if (c.slot n).st = .held ∧ s.covCount t n = 0 then c.onSlot n (fun x => { x with st := .releasing }) else c) c))) }

/-- The views held by a job (14 R324). -/
def State.jobViews (s : State) (jid : Nat) : List Nat :=
  (s.views.filter (fun v => v.2.used && decide (v.2.holder = .job jid))).map Prod.fst

/-- Whether a tile waits to be elided: covered, not elided, its count zero. -/
def State.uncovered (s : State) (t : Tensor) (n : Nat) : Bool := t.covered && decide ((t.tile n).cov ≠ 2) && decide (s.covCount t n = 0)

/-- The record of a view move from `s` to `s1` on tensor `tid`: the tiles that it has uncovered (14 R338). -/
def State.noteUncov (s s1 : State) (tid : Nat) : State :=
  match s.tensor tid with
  | none => s1
  | some t =>
    let ns := (List.range t.tileCount).filter (fun n => !s.uncovered t n && s1.uncovered t n)
    if ns.length < 2 then s1 else { s1 with uncovs := s1.uncovs ++ [{ tid := tid, tiles := ns }] }

/-- Views dropped as one view move. -/
def State.dropViews (s : State) (hs : List Nat) : State :=
  let tids := (hs.map (fun h => (get {} s.views h : View).tid)).eraseDups
  tids.foldl (fun s1 tid => (s.noteUncov s1 tid).slotCheck tid) (hs.foldl State.freeView s)

/-- The lowest dimension in which box `a` breaks out of box `b`, and the bound that breaks it (14 R334). DESIGN CHOICE: where both LO and HI break out in it, LO is named (log entry 105). -/
def Box.breaks (a b : Box) : Option (Nat × Nat) :=
  if a.empty then none
  else (List.range 6).findSome? (fun d =>
    if dim a.lo d < dim b.lo d then some (d, dim a.lo d) else if dim b.hi d < dim a.hi d then some (d, dim a.hi d) else none)

/-- The tiles of a COVERED tensor whose count is not zero (14 R326, LIVE). -/
def State.liveTiles (s : State) (t : Tensor) : Nat :=
  if t.covered then ((List.range t.tileCount).filter (fun n => decide (s.covCount t n ≠ 0))).length else 0xFFFFFFFF

/-- The box record that `VQUERY` writes (14 R326). -/
def State.boxRecord (s : State) (v : View) (t : Tensor) : List Byte :=
  let e := v.box.empty
  let f := (if v.holder = .persistent then 1 else 0) + (if e then 2 else 0)
  (dims.flatMap (fun d => leBytes 4 (if e then 0 else dim v.box.lo d))) ++ (dims.flatMap (fun d => leBytes 4 (if e then 0 else dim v.box.hi d)))
    ++ leBytes 1 f ++ leBytes 1 (v.r.toNat + 2 * v.w.toNat) ++ leBytes 2 0 ++ leBytes 4 (s.liveTiles t) ++ leBytes 3 t.id ++ leBytes 5 0

/-- The answer to a view request: its code and what it delivers. -/
def ViewReq.answer (q : ViewReq) (r : Nat) (out : Word) (bs : List Byte := []) : ViewReq :=
  { q with moved := true, result := r, out := out, record := bs }

/-- VDERIVE's move (14 R330). -/
def State.derive (s : State) (q : ViewReq) (v : View) (j : Job) : State × ViewReq :=
  match s.takeHandle j.part with
  | none => (s, q.answer 1 0)
  | some h =>
    if q.pers = false ∧ 32 ≤ (s.jobViews j.jid).length then (s, q.answer 2 0)
    else
      let s1 := s.makeView h { part := v.part, tid := v.tid, box := q.box, r := q.rights.getLsbD 0, w := q.rights.getLsbD 1
                               holder := if q.pers then .persistent else .job j.jid }
      (s1, q.answer 0 (s1.formOf h))

/-- The move of a view instruction on a live view: order 5 of R329, then the effect. DESIGN CHOICE: a `VDERIVE` that breaks order 5 by its box and by its rights is reported as REASON 0, the box (log entry 105). -/
def State.viewEffect (s : State) (q : ViewReq) (v : View) (t : Tensor) (j : Job) : Except Flt (State × ViewReq) :=
  let wide := fun db => Except.error { code := 0x0008, da := zx q.form, db := db : Flt }
  match q.op with
  | 0 =>
    match q.box.breaks v.box with
    | some (d, x) => wide (wideDb 0 d x)
    | none =>
      if (q.rights.getLsbD 0 ∧ v.r = false) ∨ (q.rights.getLsbD 1 ∧ v.w = false) then wide (wideDb 1 0 q.rights.toNat)
      else .ok (s.derive q v j)
  | 1 =>
    match q.box.breaks v.box with
    | some (d, x) => wide (wideDb 0 d x)
    | none => .ok ((s.noteUncov { s with views := set {} s.views (formHandle q.form) { v with box := q.box } } t.id).slotCheck t.id, q.answer 0 q.form)
  | 2 => if v.holder = .system then .ok (s, q.answer 3 q.form) else .ok (s.dropViews [formHandle q.form], q.answer 0 q.form)
  | _ => .ok (s, q.answer 0 q.form (s.boxRecord v t))

/-- A bank whose view instruction is no longer waiting for an answer. -/
def Bank.viewOver (k : Bank) : Bank := { k with view := none }.onStream 0 (fun t => { t with phase := .running })

/-- The move of VIEW_MOVE (14 R327 to R333, R341); while the control stream has an unperformed access it waits, so that a frame that restarts there finds no move made (log entry 44). -/
def State.viewMove (s : State) (u b : Nat) : State :=
  let k := s.bank u b
  match k.view, k.job with
  | some q, some j =>
    if q.moved ∨ (k.queue 0).any (fun c => !c.isPush) then s
    else
      let stop := fun (f : Flt) => (s.onBank u b Bank.viewOver).stopJob u b { code := f.code, eng := 0, precise := true, da := f.da, db := f.db, dc := f.dc }
      match s.viewOf j.part q.form with
      | none => stop { code := 0x0009, da := zx q.form }
      | some v => match s.tensor v.tid with
        | none => stop { code := 0x0009, da := zx q.form }
        | some t => match s.viewEffect q v t j with
          | .error f => stop f
          | .ok (s1, q1) => s1.onBank u b (fun k =>
              let mine := decide (q.op = 0) && !q.pers && decide (q1.result = 0)
              { k.onJob (fun j => { j with held := if mine then j.held ++ [q1.out] else j.held }) with view := some q1 })
  | _, _ => s

/-- The move of VIEW_ANSWER (14 R327, R328): VIEWST, the register or the record are written, and the stream goes on. -/
def State.viewAnswer (s : State) (u b : Nat) : State :=
  let k := s.bank u b
  match k.view with
  | none => s
  | some q =>
    if q.moved = false ∨ (s.core u).freeze ≠ 0 then s
    else
      let form := if q.op = 0 then q.out else q.form
      s.onBank u b (fun k =>
        let k1 := { k.viewOver with csr := { k.csr with viewst := BitVec.ofNat 64 (q.result * 2 ^ 32 + form.toNat) } }
        let k2 := if q.op = 0 then k1.wrS (BitVec.ofNat 5 q.d) (zx q.out) else k1
        (if q.op = 3 then k2.sdmWrite q.ea.toNat q.record else k2).advance 0)

/-! ### The Elision engine (14 R338, R339, R344, R346) -/

/-- Whether a check still holds tile `n` of tensor `t`. -/
def Chk.holds (c : Chk) (t : Tensor) (n : Nat) : Bool := decide (c.tid = t.id) && t.tileIn n c.box

/-- Whether an unperformed command passed its check through a view over tile `n` (14 R342, R344). -/
def Cmd.checked (c : Cmd) (t : Tensor) (n : Nat) : Bool := match c.op with
  | .copy x => decide (x.kind ≠ .gath) && [x.chk, x.chkB].any (fun k => match k with | some y => y.holds t n | none => false)
  | .hist _ k _ => k.holds t n
  | .xsend _ _ _ _ k _ _ => k.holds t n
  | _ => false

/-- Whether any unit has such a command, or a bank unit runs a command on the tile. -/
def State.tileBusy (s : State) (t : Tensor) (n : Nat) : Bool :=
  s.units.any (fun p => [p.2.b0, p.2.b1].any (fun k => k.cmds.any (fun q => q.2.any (fun c => c.checked t n))))
  || s.bunits.any (fun p => (p.2.cmd.toList ++ p.2.queue ++ p.2.wr.map (fun w => w.cmd)).any (fun c => decide (c.tid = t.id) && decide (c.tile = n)))

/-- The tile translation buffers without a tile (12 R287). -/
def State.ttbDrop (s : State) (tid n : Nat) : State :=
  { s with units := s.units.map (fun p => (p.1, { p.2 with ttb := p.2.ttb.filter (fun x => !(decide (x.tid = tid) && decide (x.tile = n))) })) }

/-- The slot of a Crossing that a tile of a slot tensor is. -/
def State.slotOf (s : State) (tid n : Nat) : Option (Nat × Nat) :=
  ((somes s.crossings).find? (fun p => decide (p.2.tid = tid) && decide (n < p.2.nslots))).map (fun p => (p.1, n))

/-- A tile's frame passes to the scrub; one in host memory is forgotten (14 R339). -/
def State.toScrub (s : State) (t : Tensor) (e : Tile) (slot : Option (Nat × Nat)) : State :=
  if e.v = false ∨ e.tier = 3 then s
  else
    let f : Frame := { tier := e.tier.toNat, stack := e.stack.toNat, fsz := t.fsz, base := e.fbase.toNat, part := t.part }
    { s with frames := s.frames.filter (fun g => !g.same f), scrubs := s.scrubs ++ [{ frame := f, slot := slot }] }

/-- The state in which the copy phase of a move of a tile is abandoned: its target frame goes back (19 R381). -/
def State.dropMoves (s : State) (tid n : Nat) : State :=
  let mine := fun (m : PMove) => m.started && decide (m.tid = tid) && decide (m.tile = n)
  let fs := s.dies.flatMap (fun d => (d.2.moves.filter mine).filterMap (fun m => m.frame))
  { s with dies := s.dies.map (fun d => (d.1, { d.2 with moves := d.2.moves.filter (fun m => !mine m) }))
           frames := s.frames.filter (fun g => !fs.any (fun f => g.same f)) }

/-- A tile elided: its entry, the buffers, its frame; a move of it in its copy phase is abandoned (14 R338, 19 R381). -/
def State.elideTile (s0 : State) (t : Tensor) (n : Nat) : State :=
  let e := t.tile n
  let s1 := s0.dropMoves t.id n
  let s := { s1 with uncovs := (s1.uncovs.map (fun (x : Uncov) =>
    if x.tid = t.id then { x with tiles := x.tiles.filter (fun m => decide (m ≠ n)) } else x)).filter (fun x => decide (x.tiles ≠ [])) }
  ((s.onTensor t.id (fun t => { t with tiles := set {} t.tiles n { e with v := false, cov := 2, d := false, fbase := 0 } })).ttbDrop t.id n).toScrub
    t e (s.slotOf t.id n)

/-- Whether a lower tile that the same view move has uncovered is not elided yet (14 R338). -/
def State.elidesBefore (s : State) (tid n : Nat) : Bool :=
  s.uncovs.any (fun x => decide (x.tid = tid) && x.tiles.contains n && x.tiles.any (fun m => decide (m < n)))

/-- The move of ELIDE_MOVE (14 R338, R344): the tiles of one view move in ascending number. -/
def State.elideMove (s : State) (tid n : Nat) : State :=
  match s.tensor tid with
  | none => s
  | some t =>
    if t.tileCount ≤ n ∨ s.uncovered t n = false ∨ (t.tile n).mf ∨ s.tileBusy t n ∨ s.elidesBefore tid n then s
    else s.elideTile t n

/-- The move of FRAME_SCRUB_DONE (14 R339, 17 R369, 22 R436): frame `i` of those in the scrub is zero and clean, and goes back to its pool, or to its Crossing. -/
def State.scrubDone (s : State) (i : Nat) : State :=
  match s.scrubs[i]? with
  | none => s
  | some x =>
    let s1 := { s.scrubFrame x.frame with scrubs := s.scrubs.eraseIdx i }
    s.ifRoom x.frame.part <| match x.slot with
    | none => s1
    | some (c, n) => { (s1.onCrossing c (fun c => c.onSlot n (fun y => { y with frame := some x.frame }))) with frames := s1.frames ++ [x.frame] }

/-- Whether an unperformed command has passed its check through a view of tensor `tid`. -/
def Cmd.names (c : Cmd) (tid : Nat) : Bool := match c.op with
  | .copy x => decide (x.kind ≠ .gath) && [x.chk, x.chkB].any (fun k => match k with | some y => decide (y.tid = tid) | none => false)
  | .hist _ k _ => decide (k.tid = tid)
  | .xsend _ _ _ _ k _ _ => decide (k.tid = tid)
  | _ => false

/-- Whether any unit has such a command, or a bank unit runs a command on the tensor. -/
def State.tensorBusy (s : State) (tid : Nat) : Bool :=
  s.units.any (fun p => [p.2.b0, p.2.b1].any (fun k => k.cmds.any (fun q => q.2.any (fun c => c.names tid))))
  || s.bunits.any (fun p => (p.2.cmd.toList ++ p.2.queue ++ p.2.wr.map (fun w => w.cmd)).any (fun c => decide (c.tid = tid)))

/-- A tensor deleted at once: the frames that the device took for its tiles go to the scrub (12 R286, 14 R339). -/
def State.deleteTensor (s : State) (t : Tensor) : State :=
  let s1 := t.tiles.foldl (fun s (p : Nat × Tile) =>
    if s.frames.any (fun g => decide (g.tier = p.2.tier.toNat) && decide (g.stack = p.2.stack.toNat) && decide (g.fsz = t.fsz) && decide (g.base = p.2.fbase.toNat))
    then s.toScrub t p.2 none else s) s
  { s1 with tensors := set none s1.tensors t.id none
            units := s1.units.map (fun (p : Nat × Core) => (p.1, { p.2 with ttb := p.2.ttb.filter (fun x => decide (x.tid ≠ t.id)) })) }

/-- The move of DESCRIPTOR_DELETE (14 R346): a COVERED tensor without a view and with every tile elided, or a PLAIN one that has been freed; an access that has passed its check is performed first (14 R342). -/
def State.descriptorDelete (s : State) (tid : Nat) : State :=
  match s.tensor tid with
  | none => s
  | some t =>
    if s.tensorBusy tid then s
    else if t.covered ∧ s.views.all (fun v => !v.2.used || decide (v.2.tid ≠ tid)) ∧ (List.range t.tileCount).all (fun n => decide ((t.tile n).cov = 2))
        ∧ (s.slotOf tid 0).isNone then { s with tensors := set none s.tensors tid none }
    else if t.freed then s.deleteTensor t
    else s

/-- VIEW_MOVE. -/
def execViewMove (u b : Nat) (s : State) : Out := .next (s.viewMove u b)
/-- VIEW_ANSWER. -/
def execViewAnswer (u b : Nat) (s : State) : Out := .next (s.viewAnswer u b)
/-- ELIDE_MOVE. -/
def execElideMove (tid n : Nat) (s : State) : Out := .next (s.elideMove tid n)
/-- FRAME_SCRUB_DONE. -/
def execFrameScrubDone (i : Nat) (s : State) : Out := .next (s.scrubDone i)
/-- DESCRIPTOR_DELETE. -/
def execDescriptorDelete (tid : Nat) (s : State) : Out := .next (s.descriptorDelete tid)

end Sys2Proof.Machine
end

