-- ==== Sys2Proof/Machine/Frames.lean ====
section
/-!
DEFINITION. The records that the machine writes of a job and reads back: stream records, fault frames and climb frame images (08 R212, R213; 19 R390 to R392).
-/

namespace Sys2Proof.Machine

/-! ### Stream records (08 R213) -/

/-- A PC-queue entry in a record: [12:0] address, [15] nullify flag. -/
def QEnt.record (q : QEnt) : Nat := q.addr.toNat + (if q.null then 32768 else 0)

/-- The entry of engine `e` that a record holds: an address is as wide as the engine's (01 R18). -/
def QEnt.ofRecord (e v : Nat) : QEnt := { addr := wrapAddr e v, null := decide (32768 ≤ v) }

/-- The bytes of a loop level: START, END, I, C. -/
def Loop.record (p : Loop) : List Byte :=
  leBytes 2 p.start.toNat ++ leBytes 2 p.stop.toNat ++ leBytes 4 p.idx.toNat ++ leBytes 8 p.cnt.toNat

/-- The level of engine `e` that a record holds at byte `o`. -/
def Loop.ofRecord (e : Nat) (bs : List Byte) (o : Nat) (act : Bool) : Loop :=
  { start := wrapAddr e (leAt bs o 2), stop := wrapAddr e (leAt bs (o + 2) 2), idx := BitVec.ofNat 32 (leAt bs (o + 4) 4)
    cnt := BitVec.ofNat 33 (leAt bs (o + 8) 8), act := act }

/-- STATE of a stream. -/
def Stream.stateCode (t : Stream) : Nat := match t.phase with
  | .idle => 0
  | .running => if t.wait = .none then 1 else 2
  | .joined => 3
  | .clause _ => 4
  | .close => 2
  | .answer => 2

/-- WCLS and WOBJ of a stream. -/
def Stream.waitCode (t : Stream) : Nat × Nat := match t.phase with
  | .clause _ => (4, 0)
  | _ => match t.wait with
    | .none => (0, 0)
    | .token f => (1, f)
    | .fifo f => (2, f)
    | .arrival a _ => (3, (arrObj a).toNat)
    | .remote _ => (5, 0)
    | .permit _ => (5, 0)
    | .inner => (0, 0)

/-- The pending pushes of engine `e`, oldest first: FIFO, tokens, epoch. -/
def Bank.pushes (k : Bank) (e : Nat) : List (Nat × Nat × BitVec 13) := (k.queue e).filterMap (fun c => match c.op with
  | .push f n => some (f, n, c.epoch)
  | _ => none)

/-- The 64 bytes of the record of engine `e` (08 R213), with its stream as it is named to stand. -/
def Bank.streamRecord (k : Bank) (e : Nat) (t : Stream) : List Byte :=
  let ps := if e < 3 then (k.pushes e).take 4 else []
  if t.phase = .idle then List.replicate 64 0
  else
    leBytes 2 t.q0.record ++ leBytes 2 t.q1.record ++ leBytes 2 t.q2.record ++ leBytes 1 t.stateCode ++ leBytes 1 (if 0 < t.exits then 1 else 0)
      ++ t.lp0.record ++ t.lp1.record ++ leBytes 1 (t.lp0.act.toNat + 2 * t.lp1.act.toNat)
      ++ leBytes 1 t.waitCode.1 ++ leBytes 2 t.waitCode.2 ++ leBytes 2 t.epoch.toNat
      ++ (List.range 4).flatMap (fun i => match ps[i]? with | some p => leBytes 1 (16 * p.1 + p.2.1) | none => [0])
      ++ (List.range 4).flatMap (fun i => match ps[i]? with | some p => leBytes 2 p.2.2.toNat | none => [0, 0])
      ++ List.replicate 6 0

/-- The stream of engine `e` with the PC queue, loops and pending exit of a record; of several pending exits the device keeps the count (log entry 41). -/
def Stream.reload (e : Nat) (t : Stream) (bs : List Byte) : Stream :=
  let act := leAt bs 40 1
  let t1 := { t with q0 := QEnt.ofRecord e (leAt bs 0 2), q1 := QEnt.ofRecord e (leAt bs 2 2), q2 := QEnt.ofRecord e (leAt bs 4 2)
                     lp0 := Loop.ofRecord e bs 8 (decide (act % 2 = 1)), lp1 := Loop.ofRecord e bs 24 (decide (act / 2 % 2 = 1))
                     exits := if leAt bs 7 1 % 2 = 1 then max 1 t.exits else 0
                     epoch := BitVec.ofNat 13 (leAt bs 44 2), wait := .none, waited := 0 }
  t1.noLevel

/-! ### The fault frame (08 R210, R212, R213) -/

/-- A frame's entry: engine, kind, address, NEST, and the four operands. -/
def listEntry (e kind pc nest : Nat) (ops : List Nat) : List Byte :=
  leBytes 1 e ++ leBytes 1 kind ++ leBytes 2 pc ++ leBytes 4 nest ++ (List.range 4).flatMap (fun i => leBytes 4 (ops.getD i 0))

/-- KIND of a copy command that a frame lists. -/
def CopyKind.code : CopyKind → Option Nat
  | .cpy => some 0
  | .gath => some 1
  | .reduce => some 2
  | .pusha => some 3
  | .pushb => some 4
  | .scatb => none
  | .bincfg => none

/-- The captured operands of a copy command in the order of OPS. -/
def CopyCmd.opsOf (c : CopyCmd) : List Nat :=
  if c.kind = .reduce then [c.form.toNat, c.pad.toNat, c.formB.toNat, 0]
  else [c.form.toNat, c.pad.toNat, if c.indexed then c.idx.toNat else 0, c.n]

/-- The operands of a nest's template in the order of OPS: of a `REDUCE` too, whose form of B the nest keeps (KIND 6). -/
def CopyCmd.nestOps (c : CopyCmd) : List Nat := [c.form.toNat, c.pad.toNat, if c.indexed then c.idx.toNat else 0, c.n]

/-- The entry of command `c` of engine `e`, if the frame lists it (08 R213). -/
def Bank.listed (k : Bank) (e : Nat) (c : Cmd) : Option (List Byte) := match c.op with
  | .copy x => x.kind.code.map (fun n => listEntry e n c.pc.toNat x.nestK x.opsOf)
  | .push f n => some (listEntry e 5 c.pc.toNat 0 [f, n, c.epoch.toNat, 0])
  | .nest => match k.nest e with
    | some n => if n.seq = c.seq ∧ n.k < n.total then some (listEntry e 6 n.pc.toNat n.k n.tmpl.nestOps) else none
    | none => none
  | .bkrun ea n i _ => some (listEntry e 7 c.pc.toNat 0 [ea.toNat % 2 ^ 32, ea.toNat / 2 ^ 32, n, i])
  | _ => none

/-- The in-flight list, engine by engine in issue order. -/
def Bank.flightList (k : Bank) : List (List Byte) := ([3, 4, 5].flatMap (fun e => (k.queue e).filterMap (k.listed e))).take 24

/-! ### The state put back to the oldest incomplete instructions (08 R210) -/

/-- The command to which a frame puts the stream of engine `e` back, with its record: the oldest of the control or matrix stream that is not performed; the accumulator-busy trap leaves the matrix stream at its own instruction (log entry 71). -/
def Bank.undone (k : Bank) (code e : Nat) : Option (Cmd × Back) :=
  if e = 2 ∧ code = 0x000C then none
  else ((k.queue e).find? (fun c => !c.isPush)).bind (fun c => (get none k.backs c.seq).map (fun x => (c, x)))

/-- A bank whose stream of engine `e` stands where command `c` issued: the queue and loops, the epoch, the tokens popped since, the generations waited on since; the later pending pushes are not made. What a running stream waits for stays for its record. -/
def Bank.backStream (k : Bank) (e : Nat) (c : Cmd) (x : Back) : Bank :=
  let k1 := x.pops.reverse.foldl (fun (k : Bank) p => k.setTok p.1 { k.tokF p.1 with toks := p.2 ++ (k.tokF p.1).toks }) k
  let k2 := x.gens.foldl (fun (k : Bank) g => k.setArrVec g.1 { k.arrVec g.1 with gens := set (BitVec.allOnes 32) (k.arrVec g.1).gens g.2.1 g.2.2 }) k1
  (k2.setQueue e ((k.queue e).filter (fun d => !(decide (c.seq < d.seq) && d.isPush)))).setStream e
    { x.t with epoch := c.epoch, phase := .running, waited := 0, kept := 0
               wait := if (k.stream e).phase = .running then (k.stream e).wait else .none }

/-- A bank with the registers, CSRs, data memory and format table that the control stream had as its command issued, and no view move waiting. -/
def Bank.backRegs (k : Bank) (x : Back) : Bank :=
  { k with
    s := x.s, p := x.p, sdm := x.sdm, fmt := x.fmt, csr := { x.csr with frz := k.csr.frz }, view := none
    job := k.job.map (fun j => { j with request := x.request }) }

/-- The state put back to the oldest incomplete instruction of the control stream of a bank: with the registers, TICK and the arrival words as they stood. -/
def State.backControl (s : State) (u b : Nat) (c : Cmd) (x : Back) : State :=
  let s1 := s.onBank u b (fun k => (k.backStream 0 c x).backRegs x)
  let s2 := s1.setCore u { s1.core u with tick := (s1.core u).tick - x.tickBy }
  x.arws.foldl (fun (s : State) y =>
    let r := initArr (s.row u b (y.1 / 32)) (y.1 % 32) y.2.1
    (s.setRow u b (y.1 / 32) { r with poison := ofGran (fun g => r.poison.getLsbD g || (decide (g = y.1 % 32) && y.2.2.1)) }).onBank u b
      (fun k => k.setArrVec y.1 y.2.2.2)) s2

/-- A bank with the rows that a started array operation has popped on their FIFOs again. -/
def Bank.backRun (k : Bank) : Bank := match k.run with
  | none => k
  | some r =>
    let put := fun (k : Bank) (f pos : Nat) (rows : List FRow) (read : Bool) =>
      if read then k.setFifo f { k.dfifo f with rows := rows ++ (k.dfifo f).rows, pos := pos } else k
    { put (put k 1 r.posB r.popB (!r.b.isEmpty)) 0 r.posA r.popA (!r.a.isEmpty) with run := none }

/-- A cluster whose requester `r` has the lease of a record again; where another has been granted the array meanwhile, it waits (log entry 44). -/
def Cluster.backLease (x : Cluster) (r : Nat) (l : Lease) : Cluster :=
  if l ≠ .held ∨ x.leaseOf r = .held then x.setLease r (if x.leaseOf r = .held ∧ l = .waiting then .held else l)
  else x.setLease r (if x.last = r ∧ !(List.range 8).any (fun i => decide (x.leaseOf i = .held)) then .held else .waiting)

/-- The FIFO on which command `c` of the matrix engine waits for rows, where it is the oldest array operation (11 R271). -/
def State.starvedAt (s : State) (u b : Nat) (c : Cmd) : Option Nat :=
  if s.starvedCmd u b = some c.seq then s.arrStarved u b else none

/-- The state put back to the oldest incomplete instruction of the matrix stream of a bank: with the FIFO rows, the lease and the core windows. An array operation that no row reaches is one that waits on its FIFO, also behind a `JOIN` or `CLAUSE` of its stream. -/
def State.backMatrix (s : State) (u b : Nat) (c : Cmd) (x : Back) : State :=
  let back := fun (k : Bank) => (k.backRun).backStream 2 c x
  (s.onBank u b (fun k => match s.starvedAt u b c with
    | some f => (back k).onStream 2 (fun t => { t with wait := .fifo f })
    | none => back k)).onCluster (clusterOf u b) (fun y =>
    { y.backLease (requester u b) x.lease with from_ := x.from_, win := x.wins.foldl (fun m w => set none m w.1 w.2) y.win })

/-- The state with the streams of a stopped job at their oldest incomplete instructions (08 R210). -/
def State.unwind (s : State) (u b code : Nat) : State :=
  let s1 := match (s.bank u b).undone code 2 with
    | some (c, x) => s.backMatrix u b c x
    | none => s
  match (s1.bank u b).undone code 0 with
  | some (c, x) => s1.backControl u b c x
  | none => s1

/-- The 1024 bytes of a frame of bank `b`'s job, whose streams have been put back (08 R212, R213). -/
def Bank.faultFrame (k : Bank) (b : Nat) (f : FaultInfo) (j : Job) : List Byte :=
  let list := k.flightList
  leBytes 4 0x46524D46 ++ leBytes 2 f.code ++ leBytes 1 f.eng ++ leBytes 1 (f.precise.toNat + 2 * b)
    ++ leBytes 8 f.da.toNat ++ leBytes 8 f.db.toNat ++ leBytes 4 f.dc.toNat ++ leBytes 4 list.length
    ++ leBytes 8 j.ord.toNat ++ leBytes 8 j.code ++ leBytes 8 f.cyc.toNat ++ leBytes 8 0
    ++ (List.range 6).flatMap (fun e => k.streamRecord e (k.stream e))
    ++ list.flatten ++ List.replicate (24 * (24 - list.length)) 0

/-! ### The climb frame image (19 R390 to R392) -/

/-- The bytes of an image. -/
def imageBytes : Nat := 70656

/-- The byte of a token FIFO's binding (02 R35). -/
def TokFifo.binding (t : TokFifo) : Nat := if t.bound then 128 + 8 * t.prod + t.cons else 0

/-- The FIFO that a binding byte makes. -/
def TokFifo.ofBinding (v : Nat) : TokFifo :=
  if 128 ≤ v then { bound := true, prod := v / 8 % 8, cons := v % 8 } else {}

/-- Whether the image carries scalar-class register `r` of engine `e` (01 R28). -/
def carried (e r : Nat) : Bool := match e with
  | 0 => decide (1 ≤ r ∧ r ≤ 29)
  | 1 => decide (r ≤ 5)
  | 2 => false
  | 5 => decide (r ≤ 7)
  | _ => decide (1 ≤ r ∧ r ≤ 13)

/-- The 512 bytes of the image's record of engine `e` (19 R392). -/
def Bank.imageStream (k : Bank) (e : Nat) : List Byte :=
  let t := k.stream e
  if t.phase = .idle then List.replicate 512 0
  else
    k.streamRecord e { t with epoch := 0 }
      ++ (List.range 8).flatMap (fun i => leBytes 2 (get 0 t.b i : BitVec 13).toNat)
      ++ (List.range 32).flatMap (fun r => if carried e r then leBytes 8 (k.scal e (BitVec.ofNat 5 r)).toNat else List.replicate 8 0)
      ++ leBytes 1 (if e = 0 then gatherN 1 (fun i => (k.rdP (BitVec.ofNat 3 i)).toNat) 0 8 else 0)
      ++ List.replicate 175 0

/-- The live arrival words of a bank, ascending. -/
def Bank.liveWords (k : Bank) : List (Nat × ArrVec) := k.arr.filter (fun p => p.2.live)

/-- The 48 bytes of the record of a live arrival word (19 R392). -/
def State.arrRecord (s : State) (u b : Nat) (p : Nat × ArrVec) : List Byte :=
  let r := s.row u b (p.1 / 32)
  leBytes 4 (16 * p.1) ++ (List.range 4).flatMap (fun i => leBytes 4 (arrField r (p.1 % 32) i).toNat)
    ++ (List.range 6).flatMap (fun e => leBytes 4 (get (BitVec.allOnes 32) p.2.gens e : Word).toNat) ++ leBytes 4 1

/-- The views that a job still holds, in order of derivation (19 R390). -/
def State.heldForms (s : State) (j : Job) : List Word :=
  (j.held.filter (fun f => match s.viewOf j.part f with
    | some v => decide (v.holder = .job j.jid)
    | none => false)).take 32

/-- The tier of a unit: 0 store, 1 far, 2 near (19 R372). -/
def tierOf (u : Nat) : Nat := if u < 448 then 2 else if u < 496 then 1 else 0

/-- A unit's number within its tier (19 R372). -/
def numberIn (u : Nat) : Nat := if u < 448 then u else if u < 496 then u - 448 else u - 496

/-- Four bytes of a list replaced. -/
def setBytes (bs : List Byte) (at_ : Nat) (v : List Byte) : List Byte := bs.take at_ ++ v ++ bs.drop (at_ + v.length)

/-- The climb frame image of the job of a bank (19 R390 to R392); `n` is the clause of the boundary, `saved` marks one that a pre-emption writes. -/
def State.climbImage (s : State) (u b : Nat) (j : Job) (n : Nat) (saved : Bool) : List Byte :=
  let k := s.bank u b
  let live := k.liveWords
  let forms := s.heldForms j
  let c := k.csr
  let body :=
    leBytes 4 0x434C4D46 ++ leBytes 2 1 ++ leBytes 1 (tierOf u) ++ leBytes 1 (b + 2 * saved.toNat)
      ++ leBytes 2 (numberIn u) ++ leBytes 2 j.die ++ leBytes 4 n ++ leBytes 8 j.code ++ leBytes 8 j.ord.toNat ++ leBytes 8 j.task.toNat
      ++ leBytes 1 j.mask.toNat ++ leBytes 2 (j.writer + 1024 * j.wbank) ++ leBytes 1 0 ++ leBytes 4 j.foot
      ++ leBytes 4 live.length ++ leBytes 4 forms.length ++ leBytes 4 0 ++ leBytes 4 j.ppn.toNat
      ++ leBytes 8 c.tvec.toNat ++ leBytes 8 (c.dmrLevel.toNat * 2 ^ 16 + c.dmrId.toNat) ++ leBytes 8 c.ftbase.toNat ++ leBytes 8 c.fctl.toNat
      ++ leBytes 8 c.clst ++ leBytes 8 c.waitlim.toNat ++ leBytes 8 k.leaveFlag.toNat ++ List.replicate 72 0
      ++ (List.range 16).flatMap (fun i => leBytes 4 (get 0 k.fmt i : Word).toNat)
      ++ (List.range 16).flatMap (fun i => leBytes 1 (k.tokF i).binding) ++ List.replicate 16 0
      ++ (List.range 32).flatMap (fun i => leBytes 4 (forms.getD i 0).toNat) ++ List.replicate 96 0
      ++ (List.range 6).flatMap k.imageStream
      ++ live.flatMap (s.arrRecord u b) ++ List.replicate (48 * (32 - live.length)) 0
      ++ k.sdmBytes 0 65536
  setBytes body 56 (leBytes 4 (crc32 (body.take 56 ++ body.drop 60)).toNat)

/-- Whether a unit runs an image: MAGIC, VERSION and CRC (19 R392), and a die and a writer that the package holds (00 R1; log entry 63). -/
def imageOk (bs : List Byte) : Bool :=
  decide (bs.length = imageBytes) && decide (leAt bs 0 4 = 0x434C4D46) && decide (leAt bs 4 2 = 1)
  && decide (leAt bs 56 4 = (crc32 (bs.take 56 ++ bs.drop 60)).toNat)
  && decide (leAt bs 10 2 < 16) && decide (leAt bs 41 2 % 1024 < 528)

/-- A bank with the record of engine `e` of an image loaded; the device keeps the counts of pending exits with the job. -/
def Bank.loadStream (k : Bank) (e : Nat) (bs : List Byte) (n : BitVec 16) : Bank :=
  let phase : Phase := match leAt bs 6 1 with
    | 0 => .idle
    | 3 => .joined
    | 4 => .clause n
    | _ => .running
  let bregs := (List.range 8).foldl (fun m i => set 0 m i (wrapAddr e (leAt bs (64 + 2 * i) 2))) ([] : Map (BitVec 13))
  let exits := (match k.job with | some j => j.exits | none => []).getD e 0
  let k1 := k.setStream e { Stream.reload e { ({} : Stream) with exits := exits } bs with b := bregs, phase := phase, epoch := 0 }
  let k2 := (List.range 32).foldl (fun k r =>
    if carried e r then k.wrScal e r (BitVec.ofNat 64 (leAt bs (80 + 8 * r) 8)) else k) k1
  if e = 0 then (List.range 8).foldl (fun k i => k.wrP (BitVec.ofNat 3 i) (decide (leAt bs 336 1 / 2 ^ i % 2 = 1))) k2 else k2

/-- The job that an image names, with what the device keeps of it. -/
def Job.ofImage (j : Job) (bs : List Byte) : Job :=
  { j with die := leAt bs 10 2, code := leAt bs 16 8, ord := BitVec.ofNat 64 (leAt bs 24 8), task := BitVec.ofNat 64 (leAt bs 32 8)
           mask := BitVec.ofNat 6 (leAt bs 40 1), writer := leAt bs 41 2 % 1024, wbank := leAt bs 41 2 / 1024 % 2
           foot := leAt bs 44 4, ppn := BitVec.ofNat 32 (leAt bs 60 4)
           held := (List.range (min 32 (leAt bs 52 4))).map (fun i => BitVec.ofNat 32 (leAt bs (0x120 + 4 * i) 4)) }

/-- The control CSRs of an image, on a unit of tier `tier` (01 R21, R27; 19 R385, R390). -/
def csrOfImage (bs : List Byte) (tier : Nat) : Csr :=
  let clst := leAt bs 0x60 8
  { tvec := BitVec.ofNat 13 (leAt bs 0x40 8), dmrLevel := BitVec.ofNat 3 (leAt bs 0x48 8 / 2 ^ 16), dmrId := BitVec.ofNat 16 (leAt bs 0x48 8)
    ftbase := BitVec.ofNat 4 (leAt bs 0x50 8), fctl := BitVec.ofNat 4 (leAt bs 0x58 8), waitlim := BitVec.ofNat 64 (leAt bs 0x68 8)
    aborts := BitVec.ofNat 16 (clst / 2 ^ 32), climbs := BitVec.ofNat 16 (clst / 2 ^ 16), last := BitVec.ofNat 8 clst, tier := BitVec.ofNat 2 tier }

/-- The bank that an image makes for job `j` with the instruction memories of image `im`, before the streams leave their `CLAUSE`. -/
def bankOfImage (bs : List Byte) (j : Job) (im : Option Image) (tier : Nat) : Bank :=
  let n := BitVec.ofNat 16 (leAt bs 12 4)
  let k : Bank := {
    job := some j, imem := (match im with | some i => i.imem | none => []), csr := csrOfImage bs tier
    fmt := (List.range 16).foldl (fun m i => set 0 m i (BitVec.ofNat 32 (leAt bs (0xC0 + 4 * i) 4))) []
    tok := (List.range 16).foldl (fun m i => set {} m i (TokFifo.ofBinding (leAt bs (0x100 + i) 1))) []
    sdm := wrBytes [] 0 (bs.drop 0x1400)
    arr := (List.range (min 32 (leAt bs 48 4))).foldl (fun m i =>
      let o := 0xE00 + 48 * i
      set {} m (leAt bs o 4 / 16) { live := true, gens := (List.range 6).foldl (fun g e =>
        set (BitVec.allOnes 32) g e (BitVec.ofNat 32 (leAt bs (o + 20 + 4 * e) 4))) [] }) [] }
  (List.range 6).foldl (fun k e => k.loadStream e ((bs.drop (0x200 + 512 * e)).take 512) n) k

/-- The live arrival words of an image written into a bank's new window, in their rows as the device has kept them beside the image (01 R27, R29; log entry 32). -/
def State.loadArr (s0 : State) (u b : Nat) (rows : Map Row) (bs : List Byte) : State :=
  let s := rows.foldl (fun s p => s.setRow u b p.1 p.2) s0
  (List.range (min 32 (leAt bs 48 4))).foldl (fun s i =>
    let o := 0xE00 + 48 * i
    let a := leAt bs o 4
    let fields : List Word := (List.range 4).map (fun f => BitVec.ofNat 32 (leAt bs (o + 4 + 4 * f) 4))
    s.setRow u b (a / 512) (setArr (s.row u b (a / 512)) (a / 16 % 32) fields)) s

/-- The streams of a bank leave their `CLAUSE` (08 R206). -/
def Bank.leaveClause (k : Bank) : Bank :=
  (List.range 6).foldl (fun k e => match (k.stream e).phase with
    | .clause _ => (k.advance e).onStream e (fun t => { t with phase := .running })
    | _ => k) k

end Sys2Proof.Machine
end

