-- ==== Sys2Proof/Machine/Place.lean ====
section
/-!
DEFINITION. Task records, input sets, the search for a bank, and the placement of jobs by the walkers (13 R301 to R307; 19 R377, R378, R382, R389, R395; 01 R24; 23 R444).
-/

namespace Sys2Proof.Machine

/-! ### Task records (13 R301, R303, R304) -/

/-- The fields of a task record; the levels are numbered from 0. -/
structure TaskRec where
  code    : Nat
  bound   : List Nat
  base    : List Nat
  order   : List Nat
  tile    : List Nat
  hb      : Nat
  dies    : Nat
  cls     : Nat
  preds   : List (Nat × Nat)
  preload : List Nat
  domid   : Nat
  domlvl  : Nat
  quota   : Nat
  deriving DecidableEq, Repr

/-- A record from its 128 bytes (13 R301). -/
def taskRec (bs : List Byte) : TaskRec :=
  { code := leAt bs 0 8, bound := (List.range 6).map (fun l => leAt bs (8 + 4 * l) 4), base := (List.range 6).map (fun l => leAt bs (32 + 4 * l) 4)
    order := (List.range 6).map (fun k => leAt bs 56 4 / 8 ^ k % 8), tile := (List.range 6).map (fun l => leAt bs (60 + l) 1)
    hb := leAt bs 66 2 % 4096, dies := leAt bs 68 2, cls := leAt bs 70 1
    preds := [(leAt bs 72 8, leAt bs 80 4), (leAt bs 84 8, leAt bs 92 4)]
    preload := (List.range 8).map (fun i => leAt bs (104 + 2 * i) 2)
    domid := leAt bs 120 2, domlvl := leAt bs 122 1, quota := leAt bs 124 4 }

/-- The iterations of a task (13 R303). -/
def TaskRec.total (r : TaskRec) : Nat := r.bound.foldl (· * ·) 1

/-- The tile factor of a level. -/
def TaskRec.factor (r : TaskRec) (l : Nat) : Nat := max 1 (dim r.tile l)

/-- The tile of iteration `n` at each level, slowest level first, with the size of that tile, and the iteration's number inside it (13 R303): `zp` iterations of the slower levels' tiles stand beside each. -/
def TaskRec.tiles (r : TaskRec) (n zp : Nat) : List Nat → List (Nat × Nat × Nat) × Nat
  | [] => ([], n)
  | l :: ls =>
    let t := n / (r.factor l * zp * (ls.map (dim r.bound)).foldl (· * ·) 1)
    let z := min (r.factor l) (dim r.bound l - t * r.factor l)
    let (m, rest) := r.tiles (n - t * (r.factor l * zp * (ls.map (dim r.bound)).foldl (· * ·) 1)) (zp * z) ls
    ((l, t, z) :: m, rest)

/-- The position inside each tile, fastest level first, with the index of the level (13 R303). -/
def TaskRec.within (r : TaskRec) (n : Nat) : List (Nat × Nat × Nat) → List (Nat × Word)
  | [] => []
  | (l, t, z) :: ls => (l, BitVec.ofNat 32 (dim r.base l + t * r.factor l + n % z)) :: r.within (n / z) ls

/-- The indices of iteration `n`, level 1 first (13 R303). -/
def TaskRec.indices (r : TaskRec) (n : Nat) : List Word :=
  let (ts, m) := r.tiles n 1 r.order.reverse
  let xs := r.within m ts.reverse
  (List.range 6).map (fun l => ((xs.find? (fun x => x.1 = l)).map Prod.snd).getD 0)

/-- The dies of a set, ascending. -/
def diesOf (d : BitVec 16) : List Nat := (List.range 16).filter (fun i => d.getLsbD i)

/-- The members of a partition's fabric domain and its own number: one package with number 0 where it has none (23 R443). -/
def State.members (s : State) (p : Nat) : Nat × Nat := match s.part p with
  | some x => (match x.cfg.fabric with
    | some (_, n, r) => (n, r)
    | none => (1, 0))
  | none => (1, 0)

/-- The ordinals of a die: the first, and the distance to the next (13 R304, 23 R444). -/
def Task.stride (t : Task) (m : Nat × Nat) (die : Nat) : Nat × Nat :=
  let ds := diesOf t.dies
  (m.2 * ds.length + (ds.filter (fun d => decide (d < die))).length, m.1 * ds.length)

/-- How many of `n` iterations belong to a die. -/
def Task.share (t : Task) (m : Nat × Nat) (die n : Nat) : Nat :=
  let (f, d) := t.stride m die
  if n ≤ f then 0 else (n - f + d - 1) / d

/-- The iterations of a die that have been placed. -/
def Task.on (t : Task) (die : Nat) : Nat := get 0 t.nextN die

/-- The record of a task of partition `p` as memory holds it now; `a` is the tag of its packet's accesses (12 R289). -/
def State.recOf (s : State) (p : Nat) (a : Pasid) (t : Task) : Option TaskRec := (s.devRead p t.addr.toNat 128 a).map taskRec

/-- Whether every iteration of a task has been placed, or dropped; while a bound is still latched its number is not known (log entry 33). -/
def State.allPlaced (s : State) (p : Nat) (a : Pasid) (t : Task) : Bool := t.dropped || match s.recOf p a t with
  | some r => decide (r.hb &&& 0x555 = 0) && (diesOf t.dies).all (fun d => decide (t.share (s.members p) d r.total ≤ t.on d))
  | none => false

/-- Whether a predecessor counter has reached its threshold (13 R307); one whose tensor has been freed since acceptance never does (log entry 33). -/
def State.predMet (s : State) (p : Nat) (a : Pasid) (x : Nat × Nat) : Bool :=
  decide (x.1 = 0) || (match s.devRead p x.1 4 a with
    | some bs => decide (x.2 ≤ leNat bs)
    | none => false)

/-- Whether a task's latches and predecessors let it run (13 R307). -/
def State.taskOpen (s : State) (p : Nat) (a : Pasid) (t : Task) : Bool := match s.recOf p a t with
  | some r => decide (r.hb = 0) && r.preds.all (s.predMet p a)
  | none => false

/-! ### Packets and eligibility (13 R307, 22 R418, R419) -/

/-- The accepted packets of a queue, in ring order. -/
def State.packetsOf (s : State) (q : Nat) : List (Nat × Packet) := (somes s.packets).filter (fun p => decide (p.2.queue = q))

/-- The queue that a function's local number names (22 R414). -/
def State.globalQ (s : State) (f l : Nat) : Option Nat := get none (get {} s.funcs f : Func).qmap l

/-- A queue. -/
def State.queue (s : State) (q : Nat) : Queue := get {} s.queues q

/-- Whether the queue that a packet waits for has reached its threshold (22 R419). -/
def State.wqMet (s : State) (p : Packet) : Bool :=
  decide (p.wq = 0xFFFFFFFF) || (match s.globalQ p.fn p.wq with
    | some q => decide (((s.queue q).done - p.wth).toNat < 2 ^ 31)
    | none => false)

/-- The packets of a list whose tasks may be placed: the first, and each that follows one whose tasks are all placed; one with FENCE only as the first, one with WQ only once that queue has got there (13 R307, 22 R418, R419). -/
def State.openPackets (s : State) (first : Bool) : List (Nat × Packet) → List (Nat × Packet)
  | [] => []
  | (i, p) :: ps =>
    let rest := if p.tasks.all (s.allPlaced p.part p.asid) then s.openPackets false ps else []
    if (p.fence ∧ first = false) ∨ s.wqMet p = false then rest else (i, p) :: rest

/-- Whether the tasks of an accepted packet may be placed. -/
def State.packetOpen (s : State) (pid : Nat) (p : Packet) : Bool :=
  (s.openPackets true (s.packetsOf p.queue)).any (fun x => decide (x.1 = pid))

/-- Whether a partition's jobs may be placed. -/
def State.partRuns (s : State) (p : Nat) : Bool := match s.part p with
  | some x => decide (x.state = .running)
  | none => false

/-- A task that may be served: packet, its number, the task's place in it. -/
structure Choice where
  pid : Nat
  pkt : Packet
  i   : Nat
  tsk : Task

/-- The eligible tasks of a queue. -/
def State.eligible (s : State) (q : Nat) : List Choice :=
  (s.openPackets true (s.packetsOf q)).flatMap (fun p =>
    if s.partRuns p.2.part then
      (p.2.tasks.zipIdx.filter (fun t => s.taskOpen p.2.part p.2.asid t.1)).map (fun t => { pid := p.1, pkt := p.2, i := t.2, tsk := t.1 })
    else [])

/-! ### Banks and windows (01 R24, 08 R186, 19 R382) -/

/-- The scratchpad rows of a unit (08 R186). -/
def unitRows (u : Nat) : Nat := if u < 192 then 8192 else if u < 448 then 12288 else if u < 496 then 4096 else 2048

/-- The placed jobs: unit, bank, job. -/
def State.placedJobs (s : State) : List (Nat × Nat × Job) :=
  s.units.flatMap (fun p => (p.2.b0.job.toList.map (fun j => (p.1, 0, j))) ++ (p.2.b1.job.toList.map (fun j => (p.1, 1, j))))

/-- The job whose climb request reserves a bank, with the request. -/
def State.reserver (s : State) (u b : Nat) : Option (Nat × Nat × Job × Climb) :=
  s.placedJobs.findSome? (fun x => match x.2.2.request with
    | some r => if r.unit = some (u, b) ∧ r.taken = false then some (x.1, x.2.1, x.2.2, r) else none
    | none => none)

/-- The window of a bank: its job's, or that of a reservation. -/
def State.windowOf (s : State) (u b : Nat) : Option (Nat × Nat) := match (s.bank u b).job with
  | some j => some (j.base, j.size)
  | none => (s.reserver u b).map (fun x => (x.2.2.2.base, x.2.2.1.foot))

/-- The first row of a window of `n` rows that may be assigned to a bank (01 R24): apart from the other bank's window. -/
def State.windowFor (s : State) (u b n : Nat) : Option Nat := match s.windowOf u (1 - b) with
  | none => if n ≤ unitRows u then some 0 else none
  | some (x, m) => if n ≤ x then some 0 else if x + m + n ≤ unitRows u then some (x + m) else none

/-- The first bank in a search that is free and unreserved and whose window can be assigned (13 R305): unit, bank, first row. -/
def State.firstFree (s : State) (us : List Nat) (n : Nat) : Option (Nat × Nat × Nat) :=
  us.findSome? (fun u => [0, 1].findSome? (fun b =>
    if (s.bank u b).job = none ∧ s.reserver u b = none then (s.windowFor u b n).map (fun x => (u, b, x)) else none))

/-- The first reserved bank that an iteration of a strictly higher priority may take (13 R305, 19 R389). -/
def State.firstReserved (s : State) (us : List Nat) (n prio : Nat) : Option (Nat × Nat × Nat) :=
  us.findSome? (fun u => [0, 1].findSome? (fun b =>
    if (s.bank u b).job ≠ none then none
    else match s.reserver u b with
      | some x => if prio < x.2.2.1.prio ∧ x.2.2.2.image = none then (s.windowFor u b n).map (fun y => (u, b, y)) else none
      | none => none))

/-- The main cores of a die (12 R286). -/
def dieCores (d : Nat) : List Nat :=
  if d < 8 then (List.range 24).map (fun i => 24 * d + i) else (List.range 32).map (fun i => 192 + 32 * (d - 8) + i)

/-- Whether a partition holds a unit. -/
def State.holds (s : State) (p u : Nat) : Bool := match s.part p with
  | some x => x.cfg.units.contains u
  | none => false

/-- The cores that a die's walker searches, in order (13 R305). -/
def State.coreSearch (s : State) (p d : Nat) : List Nat :=
  let cs := (dieCores d).filter (s.holds p)
  let n := (s.die d).lastCore
  cs.filter (fun u => decide (n ≤ u)) ++ cs.filter (fun u => decide (u < n))

/-! ### Input sets and tiers (19 R377, R378) -/

/-- A tile of an input set. -/
structure InTile where
  tid   : Nat
  n     : Nat
  tier  : Nat
  stack : Nat
  fsz   : Nat
  flat  : Nat
  deriving DecidableEq, Repr

/-- The tiles of a view's box as an input set counts them (19 R377, 23 R449). -/
def State.viewTiles (s : State) (v : View) : List InTile := match s.tensor v.tid with
  | none => []
  | some t =>
    if t.tiled = false then []
    else ((List.range t.tileCount).filter (fun n => t.tileIn n v.box)).filterMap (fun n =>
      let e := t.tile n
      if e.pend then some { tid := t.id, n := n, tier := 0, stack := 0, fsz := t.fsz, flat := t.flat n }
      else if e.v = false ∨ e.tier = 3 then none
      else some { tid := t.id, n := n, tier := e.tier.toNat, stack := e.stack.toNat, fsz := t.fsz, flat := t.flat n })

/-- The input set of a climbable job of a task (19 R377), in ascending flat address. -/
def State.inputSet (s : State) (p : Nat) (a : Pasid) (r : TaskRec) (args : Nat) : List InTile :=
  let forms := (r.preload.filter (fun x => decide (32768 ≤ x) && (decide (x / 4096 % 8 = 3) || decide (x / 4096 % 8 = 4)))).filterMap
    (fun x => (s.devRead p (args + 8 * (x % 128)) 8 a).map (fun bs => (BitVec.ofNat 32 (leNat bs) : Word)))
  let tiles := forms.flatMap (fun f => match s.viewOf p f with
    | some v => s.viewTiles v
    | none => [])
  sortBy (fun a b => decide (a.flat ≤ b.flat)) tiles.eraseDups

/-- The starting tier of an input set (19 R378). -/
def startTier (ins : List InTile) : Nat := ins.foldl (fun m x => min m x.tier) 2

/-- The stack that a lane or store core stands on (19 R372). -/
def stackOfUnit (u : Nat) : Nat := if u < 496 then (u - 448) / 2 else (u - 496) / 4

/-- The units of a tier in the order in which a climbable job's walker searches them (19 R378). -/
def State.tierSearch (s : State) (p d tier : Nat) (ins : List InTile) : List Nat :=
  if tier = 2 then s.coreSearch p d
  else
    let all := ((List.range 80).map (fun i => 448 + i)).filter (fun u => s.holds p u && decide (tierOf u = tier))
    let near := match ins.find? (fun x => decide (x.tier = tier)) with
      | some x => all.filter (fun u => decide (stackOfUnit u = x.stack))
      | none => []
    let own := if tier = 1 then all.filter (fun u => decide (stackOfUnit u = d)) else []
    (near ++ own ++ all).eraseDups

/-! ### Placement (13 R306, 01 R14 to R24) -/

/-- A doubleword of an argument block for a preload entry (13 R306): its value, or its flat address where it lies in no window; none while its read misses. -/
def State.argWord (s : State) (p : Nat) (q : Pasid) (args x : Nat) : Option (Except Nat DWord) :=
  let a := args + 8 * (x % 128)
  if s.inWindow p a 8 then (s.devRead p a 8 q).map (fun bs => .ok (BitVec.ofNat 64 (leNat bs))) else some (.error a)

/-- A bank with used preload entries applied in order, and the flat address of the first that lies in no window; none while one misses. -/
def State.preloads (s : State) (p : Nat) (q : Pasid) (args : Nat) (k : Bank) : List Nat → Option (Bank × Option (Nat × Nat))
  | [] => some (k, none)
  | x :: xs =>
    if x < 32768 then s.preloads p q args k xs
    else match s.argWord p q args x with
      | none => none
      | some (.error a) => some (k, some (x / 4096 % 8, a))
      | some (.ok v) => s.preloads p q args (k.wrScal (x / 4096 % 8) (x / 128 % 32) v) xs

/-- A bank whose used streams stand at their entries (01 R14 to R22). -/
def Bank.startStreams (k : Bank) (im : Image) : Bank :=
  (List.range 6).foldl (fun k e =>
    if im.mask.getLsbD e then k.setStream e { k.refill e {} (im.entry.getD e 0) with phase := .running } else k) k

/-- A bank with a new job of an image (01 R14 to R21). -/
def freshBank (im : Image) (j : Job) (tier : Nat) (idx : List Word) (args : DWord) : Bank :=
  let k0 : Bank := { job := some { j with paused := j.static }, imem := im.imem, tok := im.toks
                     csr := { tvec := im.trap, tier := BitVec.ofNat 2 tier } }
  let k1 := k0.startStreams im
  let k2 := (List.range 6).foldl (fun k l =>
    let v := idx.getD l 0
    ((k.wrS (BitVec.ofNat 5 (l + 1)) (zx v)).wrC 3 (BitVec.ofNat 4 (l + 1)) v).wrC 4 (BitVec.ofNat 4 (l + 1)) v) k1
  (k2.wrS 7 j.ord).wrS 8 args

/-- Clears the rows of a newly assigned window with their race tags (01 R24). -/
def Core.clearRows (c : Core) (base n : Nat) : Core :=
  { c with pad := c.pad.filter (fun p => !(decide (base ≤ p.1) && decide (p.1 < base + n)))
           tags := c.tags.filter (fun p => !(decide (base ≤ p.1) && decide (p.1 < base + n))) }

/-- The accumulator rows of a window cleared (01 R27). -/
def Cluster.clearRows (x : Cluster) (first n : Nat) : Cluster :=
  { x with acc := x.acc.filter (fun p => !(decide (first ≤ p.1) && decide (p.1 < first + n))) }

/-- A bank of a unit takes job `k`; its window is clear, and the unit executes it if the other bank holds no ready job (01 R24, 08 R202). -/
def State.install (s : State) (u b base n : Nat) (k : Bank) : State :=
  ((s.setCore u ((s.core u).clearRows base n)).setBank u b k).settle u

/-- A request whose reserved bank has been taken (19 R389). -/
def State.takeReserved (s : State) (u b : Nat) : State := match s.reserver u b with
  | none => s
  | some x => s.onBank x.1 x.2.1 (fun k => k.onJob (fun j => { j with request := some { x.2.2.2 with taken := true } }))

/-- A bank for a job of partition `p` that die `d` owns: climbable jobs at the tier of their input set, others on the die's cores (13 R305, 19 R378, R389). -/
def State.findBank (s : State) (p : Nat) (a : Pasid) (d foot prio : Nat) (climb : Bool) (r : TaskRec) (args : Nat) : Option (Nat × Nat × Nat) :=
  let ins := if climb then s.inputSet p a r args else []
  let us := if climb then s.tierSearch p d (startTier ins) ins else s.coreSearch p d
  match s.firstFree us foot with
  | some x => some x
  | none => s.firstReserved us foot prio

/-- The state with a task of a packet changed. -/
def State.onTask (s : State) (pid i : Nat) (f : Task → Task) : State :=
  { s with packets := set none s.packets pid ((get none s.packets pid).map (fun p =>
      { p with tasks := p.tasks.zipIdx.map (fun t => if t.2 = i then f t.1 else t.1) })) }

/-- A bank found, as the state with its reservation taken and the die's search moved on. DESIGN CHOICE: a placement on a lane or store core leaves the start of the die's next core search as it is (log entry 106). -/
def State.takeBank (s : State) (d u b : Nat) : State :=
  (s.takeReserved u b).onDie d (fun x => { x with lastCore := if u < 448 then u + 1 else x.lastCore })

/-- The next unplaced iteration of a task on a die is placed; none where it cannot be (13 R305, R306, R318). -/
def State.placeNew (s : State) (d : Nat) (c : Choice) : Option State :=
  let m := s.members c.pkt.part
  let (f, st) := c.tsk.stride m d
  match s.recOf c.pkt.part c.pkt.asid c.tsk, get none s.images c.tsk.code with
  | some r, some im =>
    let climb := decide (c.tsk.cls = 2) && im.climb
    if c.tsk.share m d r.total ≤ c.tsk.on d then none
    else match s.findBank c.pkt.part c.pkt.asid d im.foot c.pkt.prio climb r c.pkt.args.toNat with
      | none => none
      | some (u, b, base) =>
        let n := f + st * c.tsk.on d
        let w := s.accWindow u b climb
        let j : Job := {
          jid := s.jids + 1, part := c.pkt.part, fn := c.pkt.fn, queue := c.pkt.queue, packet := c.pid, task := c.tsk.addr
          ord := BitVec.ofNat 64 n, code := c.tsk.code, mask := im.mask, climb := climb, static := im.static, bucket := im.bucket
          foot := im.foot, prio := c.pkt.prio, pasid := c.pkt.pasid, cls := c.tsk.cls, die := d, writer := u, wbank := b
          ppn := (s.core u).placed, base := base, size := im.foot, accRow := w.1, accN := w.2, win := s.coreWindow u }
        match s.preloads c.pkt.part c.pkt.asid c.pkt.args.toNat (freshBank im j (tierOf u) (r.indices n) c.pkt.args) r.preload with
        | none => none
        | some (k, bad) =>
          let s1 := { (s.takeBank d u b).install u b base im.foot k with jids := s.jids + 1 }
          let s2 := (s1.setCore u { s1.core u with placed := (s1.core u).placed + 1 }).onTask c.pid c.i
            (fun t => { t with nextN := set 0 t.nextN d (t.on d + 1) })
          some (match bad with
            | none => s2
            | some (e, a) => s2.stopJob u b { code := 0x0007, eng := e, precise := true, da := BitVec.ofNat 64 a })
  | _, _ => none

/-- The bytes of a slot of a partition's save area (19 R394; log entry 25). -/
def State.saveSlot (s : State) (p n : Nat) : Nat := match s.part p with
  | some x => x.cfg.saveBase + imageBytes * n
  | none => 0

/-- A requester whose job held or awaited the lease awaits it on its new unit (01 R27, 11 R264); the private one of a lane or store core is granted at once (19 R373). -/
def State.leaseAgain (s : State) (u b : Nat) (leased : Bool) : State :=
  if leased then
    let s1 := s.onCluster (clusterOf u b) (fun x => x.setLease (requester u b) .waiting)
    if 448 ≤ u then s1.onCluster (clusterOf u b) (fun x => x.grant s.now) else s1
  else s

/-- A job loaded from an image into a bank: its window clear but for its live arrival words, its accumulator window clear; it awaits the lease if it did; the streams leave their `CLAUSE` (01 R24, R27; 19 R385, R395). -/
def State.loadJob (s : State) (u b base : Nat) (j : Job) (bs : List Byte) : State :=
  let j1 := j.ofImage bs
  let w := s.accWindow u b j1.climb
  let j2 := { j1 with base := base, size := j1.foot, accRow := w.1, accN := w.2, win := s.coreWindow u, request := none, eval := false, preempt := none, preCyc := 0
                      status := .ready, paused := j1.static, pauseBy := none, passed := none, arrived := false }
  let k := bankOfImage bs j2 (get none s.images j1.code) (tierOf u)
  let s1 := ((s.install u b base j2.size k).loadArr u b j.rows bs).onCluster (clusterOf u b) (fun x => x.clearRows w.1 w.2)
  (s1.onBank u b (fun k => k.leaveClause.onJob (fun j => { j with leased := false, exits := [], rows := [] }))).leaseAgain u b j.leased

/-- The image of a saved job. -/
def State.savedImage (s : State) (p : Nat) (v : Saved) : List Byte := s.hostGet (s.saveSlot p v.slot) imageBytes

/-- The saved jobs of a task on a die, in ascending ordinal; one whose image a unit does not run is not among them (19 R392, R395; log entry 63). -/
def State.savedOf (s : State) (d : Nat) (c : Choice) : List Saved := match s.part c.pkt.part with
  | none => []
  | some x => sortBy (fun a b => decide (a.job.ord.toNat ≤ b.job.ord.toNat))
      (x.saved.filter (fun v => decide (v.job.packet = c.pid) && decide (v.job.task = c.tsk.addr) && decide (v.job.die = d)
        && imageOk (s.savedImage c.pkt.part v)))

/-- A saved job of a task on a die is placed (19 R395); none where it cannot be. -/
def State.placeSaved (s : State) (d : Nat) (c : Choice) (v : Saved) : Option State :=
  (s.recOf c.pkt.part c.pkt.asid c.tsk).bind (fun r =>
    let bs := s.savedImage c.pkt.part v
    (s.findBank c.pkt.part c.pkt.asid d (v.job.ofImage bs).foot c.pkt.prio v.job.climb r c.pkt.args.toNat).map (fun x =>
      ((s.takeBank d x.1 x.2.1).onPart c.pkt.part (fun p => { p with saved := p.saved.filter (fun y => decide (y.job.jid ≠ v.job.jid)) })).loadJob
        x.1 x.2.1 x.2.2 v.job bs))

/-- Whether a task has something to place on a die. -/
def State.unplaced (s : State) (d : Nat) (c : Choice) : Bool :=
  c.tsk.dies.getLsbD d && !c.tsk.dropped
  && (!(s.savedOf d c).isEmpty || (match s.recOf c.pkt.part c.pkt.asid c.tsk with
    | some r => decide (c.tsk.on d < c.tsk.share (s.members c.pkt.part) d r.total)
    | none => false))

/-- A choice placed: saved jobs ahead of unplaced iterations (19 R395). -/
def State.place (s : State) (d : Nat) (c : Choice) : Option State := match s.savedOf d c with
  | v :: _ => s.placeSaved d c v
  | [] => s.placeNew d c

/-- The name of a choice that a walker passes over. -/
def Choice.passed (c : Choice) : Passed := { queue := c.pkt.queue, pid := c.pid, task := c.i }

/-- The queues in the order of their turns at a priority, from the one after the last served (13 R307). -/
def State.turns (s : State) (d prio : Nat) : List Nat :=
  let qs := s.queues.map Prod.fst
  let n := get 0 (s.die d).lastQ prio
  qs.filter (fun q => decide (n ≤ q)) ++ qs.filter (fun q => decide (q < n))

/-- The choices of a die at a priority in the order in which its walker serves them: the iterations passed over, which keep their turns, then queue by queue; after one passed over the same queue's next task comes before the next queue (13 R307; log entry 33). -/
def State.choicesAt (s : State) (d prio : Nat) : List Choice :=
  let cs := (s.turns d prio).flatMap (fun q => (s.eligible q).filter (fun c => decide (c.pkt.prio = prio) && s.unplaced d c))
  let ps : List Passed := get [] (s.die d).passed prio
  ps.filterMap (fun p => cs.find? (fun c => decide (c.passed = p))) ++ cs.filter (fun c => !ps.contains c.passed)

/-- The choices of a die, the highest priority first. -/
def State.choices (s : State) (d : Nat) : List Choice := (List.range 8).flatMap (s.choicesAt d)

/-- A die whose walker has passed over choices, the earliest first (13 R307). -/
def Die.passOver (x : Die) (cs : List Choice) : Die :=
  { x with passed := cs.foldl (fun m c => set [] m c.pkt.prio ((get [] m c.pkt.prio ++ [c.passed]).eraseDups)) x.passed }

/-- A die whose walker has served a choice: its queue has had its turn (13 R307). -/
def Die.served (x : Die) (c : Choice) : Die :=
  { x with lastQ := set 0 x.lastQ c.pkt.prio (c.pkt.queue + 1)
           passed := set [] x.passed c.pkt.prio ((get [] x.passed c.pkt.prio).filter (fun p => decide (p ≠ c.passed))) }

/-- Whether a bank of a die's cores, or of a lane or store core, is free. -/
def State.bankFree (s : State) (d : Nat) : Bool :=
  (dieCores d ++ (List.range 80).map (fun i => 448 + i)).any (fun u => [0, 1].any (fun b => decide ((s.bank u b).job = none)))

/-- The first choice that can be placed, with those passed over before it; with no bank free none is passed over. -/
def State.serve (s : State) (d : Nat) (over_ : List Choice) : List Choice → State
  | [] => if s.bankFree d then s.onDie d (fun x => x.passOver over_) else s
  | c :: cs => match s.place d c with
    | some s1 => { s1.onDie d (fun x => (x.passOver over_).served c) with power := 0 }
    | none => s.serve d (over_ ++ [c]) cs

/-- What the walkers read for a task, as flat addresses and bytes: the record, its predecessor counters, the doublewords of its preloads (13 R301, R306, R307). -/
def State.walkReads (s : State) (p : Nat) (a : Pasid) (args : Nat) (t : Task) : List (Nat × Nat) :=
  (t.addr.toNat, 128) :: (match s.recOf p a t with
    | some r => (r.preds.filter (fun x => decide (x.1 ≠ 0))).map (fun x => (x.1, 4))
        ++ (r.preload.filter (fun x => decide (32768 ≤ x))).map (fun x => (args + 8 * (x % 128), 8))
    | none => [])

/-- A die whose walker has reported the misses of its reads to the batcher (12 R290; log entry 58). -/
def State.walkReport (s : State) (d : Nat) : State :=
  (somes s.packets).foldl (fun s x =>
    if s.packetOpen x.1 x.2 = false then s
    else (x.2.tasks.filter (fun t => t.dies.getLsbD d)).foldl (fun s t =>
      (s.walkReads x.2.part x.2.asid x.2.args.toNat t).foldl (fun s r => match s.devMiss x.2.part r.1 r.2 x.2.asid with
        | some (t, n, st, _) => if (s.die d).full then s else s.report d t n st false none
        | none => s) s) s) s

/-- The move of ITERATION_PLACE: a die's walker places one iteration. -/
def State.iterationPlace (s : State) (d : Nat) : State :=
  if s.lenfy.boot = .running then
    let s1 := s.walkReport d
    s1.serve d [] (s1.choices d)
  else s

/-- ITERATION_PLACE. -/
def execIterationPlace (die : Nat) (s : State) : Out := .next (s.iterationPlace die)

end Sys2Proof.Machine
end

