-- ==== Sys2Proof/Machine/Climb.lean ====
section
/-!
DEFINITION. Tiers: the promotion engine, climb requests, the clause boundary with its pre-emption and hand-over, and the permit return of a Crossing (01 R25 to R29; 08 R206; 17 R369; 19 R379 to R396).
-/

namespace Sys2Proof.Machine

/-! ### Moves of the promotion engine (19 R379 to R381, R396) -/

/-- The moves queued or in progress at any die. -/
def State.moves_ (s : State) : List PMove := s.dies.flatMap (fun d => d.2.moves)

/-- Whether two moves are of one tile. -/
def PMove.sameTile (a b : PMove) : Bool := decide (a.tid = b.tid) && decide (a.tile = b.tile)

/-- Whether two moves are of one tile to one stack. -/
def PMove.sameMove (a b : PMove) : Bool := a.sameTile b && decide (a.tier = b.tier) && decide (a.stack = b.stack)

/-- The die at which a tensor is homed, whose engine moves its tiles (19 R379). -/
def State.homeOf (s : State) (tid : Nat) : Nat := match s.tensor tid with
  | some t => t.home
  | none => 0

/-- The engine of the tensor's home die is asked for a move; a second one to the same stack is not added, and one to another stack is queued behind the first (19 R379, R396). -/
def State.askMove (s : State) (m : PMove) : State :=
  if s.moves_.any (fun x => x.sameMove m) then s else s.onDie (s.homeOf m.tid) (fun x => { x with moves := x.moves ++ [m] })

/-- The queued moves that are `m` with another target frame. -/
def State.reframe (s : State) (m : PMove) (f : Option Frame) : State :=
  { s with dies := s.dies.map (fun (d : Nat × Die) => (d.1, { d.2 with moves := d.2.moves.map (fun y =>
      if y.sameMove m ∧ y.started = false then { y with frame := f } else y) })) }

/-- A frame that was taken and not used goes back to its quota. -/
def State.giveBack (s : State) (f : Frame) : State := { s with frames := s.frames.filter (fun g => !g.same f) }

/-- A die without the move at the head of its list. -/
def Die.dropMove (x : Die) : Die := { x with moves := x.moves.tail }

/-- Whether a tile may be moved now: valid, in device memory, covered by a view where its tensor is COVERED (19 R381). -/
def State.mayMove (s : State) (t : Tensor) (n : Nat) : Bool :=
  t.tiled && (t.tile n).v && decide ((t.tile n).tier ≠ 3) && (!t.covered || decide (s.covCount t n ≠ 0))

/-- The move of PROMOTION_START (19 R379, R381, R383, R396): the head of the die's list starts with its frame; it is dropped where the tile may not be moved, lies at the target tier or above, or gets no frame. -/
def State.promotionStart (s : State) (d : Nat) : State :=
  match (s.die d).moves with
  | [] => s
  | m :: _ =>
    if m.started ∨ s.moves_.any (fun x => x.started && x.sameTile m) then s
    else
      let drop := (match m.frame with | some f => s.giveBack f | none => s).onDie d Die.dropMove
      match s.tensor m.tid with
      | none => drop
      | some t =>
        if s.mayMove t m.tile = false ∨ m.tier ≤ (t.tile m.tile).tier.toNat then drop
        else
          let go := fun (s : State) (f : Frame) => s.onDie d (fun x => { x with moves := { m with started := true, frame := some f } :: x.moves.tail })
          match m.frame with
          | some f => go s f
          | none => match s.takeFrame t.part m.tier m.stack t.fsz with
            | some (f, s1) => go s1 f
            | none => s.onDie d Die.dropMove

/-- The move of MOVE_FENCE (19 R379, R381): the copy phase ends, or the move is abandoned because no view covers the tile any more. -/
def State.moveFence (s : State) (d : Nat) : State :=
  match (s.die d).moves with
  | [] => s
  | m :: _ =>
    if m.started = false ∨ m.fenced then s
    else match s.tensor m.tid with
      | none => (match m.frame with | some f => s.giveBack f | none => s).onDie d Die.dropMove
      | some t =>
        if s.mayMove t m.tile = false then (match m.frame with | some f => s.giveBack f | none => s).onDie d Die.dropMove
        else (s.onTensor t.id (fun t => { t with tiles := set {} t.tiles m.tile { t.tile m.tile with mf := true } })).onDie d
          (fun x => { x with moves := { m with fenced := true } :: x.moves.tail })

/-- Whether an access to a tile that passed translation is not performed (19 R379). -/
def State.inFlight (s : State) (t : Tensor) (n : Nat) : Bool :=
  s.units.any (fun p => [p.2.b0, p.2.b1].any (fun k => k.departed.any (fun x => decide (x.x.tid = t.id) && decide (x.x.tile = n))))
  || s.bunits.any (fun p => (p.2.cmd.toList ++ p.2.queue ++ p.2.wr.map (fun w => w.cmd)).any (fun c => decide (c.tid = t.id) && decide (c.tile = n)))

/-- `n` bytes with their poison bits copied from address `a` to address `c` (19 R379). -/
def State.copyMem (s : State) (a c n : Nat) : State :=
  let bs := s.mem.filter (fun x => decide (a ≤ x.1) && decide (x.1 < a + n))
  let ps := s.poison.filter (fun x => decide (a / 16 ≤ x.1) && decide (x.1 < (a + n) / 16))
  let s1 := s.zeroMem c n
  { s1 with mem := bs.foldl (fun m x => wrByte m (c + (x.1 - a)) x.2) s1.mem
            poison := ps.foldl (fun m x => set false m (c / 16 + (x.1 - a / 16)) x.2) s1.poison }

/-- The record and argument block of a job's task. -/
def State.jobRec (s : State) (j : Job) : Option (TaskRec × Nat) :=
  match s.devRead j.part j.task.toNat 128 j.asid, get none s.packets j.packet with
  | some bs, some p => some (taskRec bs, p.args.toNat)
  | _, _ => none

/-- The input set of a job now. -/
def State.jobInputs (s : State) (j : Job) : List InTile := match s.jobRec j with
  | some (r, a) => s.inputSet j.part j.asid r a
  | none => []

/-- The state in which the climb monitors are to evaluate every climbable job that satisfies `f` (19 R382). -/
def State.evalJobs (s : State) (f : Job → Bool) : State :=
  (s.placedJobs.filter (fun x => x.2.2.climb && f x.2.2)).foldl (fun s x =>
    s.onBank x.1 x.2.1 (fun k => k.onJob (fun j => { j with eval := true }))) s

/-- The move of TILE_SWITCH (19 R379, R380, R382; 12 R287; 22 R436): the tile's rows stand in the new frame, the entry and the buffers name it, the fence is lifted, the old frame goes to the scrub, and the climb monitors are to evaluate the jobs whose input set holds the tile. It waits while no machine frame lies under the new one (log entry 98). -/
def State.tileSwitch (s : State) (d : Nat) : State :=
  match (s.die d).moves with
  | [] => s
  | m :: _ => match m.frame, s.tensor m.tid with
    | some f, some t =>
      if m.fenced = false ∨ s.inFlight t m.tile then s
      else match s.translate t m.tile Pasid.none false, s.machineBase f with
        | .frame tier stack base, some nb =>
          let s1 := (s.copyMem (physAddr tier stack base) (physAddr f.tier f.stack nb) (frameBytes t.fsz)).dirtyFrame t.part t.fsz (f.base * 4096)
          let s2 := s1.toScrub t (t.tile m.tile) none
          let s3 := s2.onTensor t.id (fun t => { t with tiles := set {} t.tiles m.tile { t.tile m.tile with
            tier := BitVec.ofNat 2 f.tier, stack := BitVec.ofNat 5 f.stack, fbase := BitVec.ofNat 41 f.base, mf := false } })
          let w := match s3.stage2Of t f.tier f.stack (f.base * 4096) true with
            | .frame _ _ _ => true
            | _ => false
          let s4 := { s3 with units := s3.units.map (fun (p : Nat × Core) => (p.1, { p.2 with ttb := p.2.ttb.map (fun (x : Ttb) =>
            if x.tid = t.id ∧ x.tile = m.tile then { x with tier := f.tier, stack := f.stack, base := nb, w := w, ia := f.base * 4096 } else x) })) }
          let s5 := s4.evalJobs (fun j => decide (j.part = t.part) && (s4.jobInputs j).any (fun x => decide (x.tid = t.id) && decide (x.n = m.tile)))
          s.ifRoom t.part (s5.onDie d Die.dropMove)
        | _, _ => s
    | _, _ => s

/-! ### Climb requests (19 R382, R383, R388) -/

/-- A bank of a unit of a tier that a job can reserve: unit, bank, first row (19 R382). -/
def State.reservable (s : State) (j : Job) (target : Nat) : Option (Nat × Nat × Nat) :=
  s.firstFree (s.tierSearch j.part j.die target (s.jobInputs j)) j.foot

/-- A request to a tier with what can be reserved for it. -/
def State.newClimb (s : State) (j : Job) (target : Nat) : Climb := match s.reservable j target with
  | some (u, b, x) => { target := target, unit := some (u, b), base := x, ever := true }
  | none => { target := target }

/-- CLST with the outcome of a request (19 R388). -/
def Csr.lastIs (c : Csr) (code : Nat) : Csr := { c with last := BitVec.ofNat 8 code }

/-- CLST after an abort: ABORTS counts, saturating (19 R385). -/
def Csr.abort (c : Csr) (code : Nat) : Csr := { c.lastIs code with aborts := if c.aborts = BitVec.allOnes 16 then c.aborts else c.aborts + 1 }

/-- The stack to which a climb asks tiles to move (19 R383, R385): the owning die's near stack; the reserved unit's far stack, or the one chained behind the die's near stack. -/
def Climb.stack (r : Climb) (d : Nat) : Nat :=
  if r.target = 2 then d else match r.unit with
    | some (u, _) => stackOfUnit u
    | none => d

/-- The engines are asked to move the input tiles below a request's target (19 R383). -/
def State.askTiles (s : State) (j : Job) (r : Climb) : State :=
  ((s.jobInputs j).filter (fun x => decide (x.tier < r.target))).foldl (fun s x =>
    s.askMove { tid := x.tid, tile := x.n, tier := r.target, stack := r.stack j.die, part := j.part }) s

/-- The effect of `CLIMB` to a tier (19 R383). -/
def State.climbTo (s : State) (target : Nat) : Out :=
  match s.me.job with
  | none => s.eff 0 id
  | some j =>
    let cur := s.me.csr.tier.toNat
    if j.static then s.illegal 0
    else if j.climb = false then s.eff 0 (fun k => { k with csr := k.csr.lastIs 0x08 })
    else if target ≤ cur then s.eff 0 (fun k => { k with csr := k.csr.lastIs 0x07 })
    else if (match j.request with | some r => decide (target ≤ r.target) | none => false) then s.eff 0 id
    else
      let j1 := { j with request := none }
      let r := (s.onMe (fun k => { k with job := some j1 })).newClimb j1 target
      ((s.onMe (fun k => { k with job := some { j with request := some r } })).askTiles j r).eff 0 id

/-- CLIMB (19 R383): the tier above; at the near tier there is none. -/
def execClimb (s : State) : Out := s.climbTo (min 2 (s.me.csr.tier.toNat + 1))

/-- CLIMB.FAR (19 R383). -/
def execClimbFar (s : State) : Out := s.climbTo 1

/-- CLIMB.NEAR (19 R383). -/
def execClimbNear (s : State) : Out := s.climbTo 2

/-- The tiers above a job's to which the monitor may post, highest first (19 R382). -/
def State.climbTarget (s : State) (j : Job) (cur : Nat) : Option Nat :=
  let ins := s.jobInputs j
  [2, 1].find? (fun t => decide (cur < t) && (match j.request with | some r => decide (r.target < t) | none => true)
    && !ins.isEmpty && ins.all (fun x => decide (t ≤ x.tier)) && (s.reservable j t).isSome)

/-- The monitor's evaluation of a job (19 R382): it posts a request with a reservation, in place of a lower one. -/
def State.evaluate (s : State) (u b : Nat) : State :=
  match (s.bank u b).job with
  | none => s
  | some j =>
    if j.climb = false ∨ (s.bank u b).inTransit then s
    else s.onBank u b (fun k => k.onJob (fun j => { j with
      eval := false
      request := match s.climbTarget j k.csr.tier.toNat with
        | none => j.request
        | some t => some (s.newClimb j t) }))

/-- The move of CLIMB_MONITOR_EVAL (19 R382): the evaluation of a job for a tile of its input set that has been switched, or a bank of its partition that has become free; without either the monitor does nothing. -/
def State.monitor (s : State) (u b : Nat) : State :=
  match (s.bank u b).job with
  | none => s
  | some j => if j.eval then s.evaluate u b else s

/-! ### The end of a job's stay in a bank (01 R13, 08 R201, 14 R345, 22 R434) -/

/-- The requester of a bank's job leaves its lease (11 R264). -/
def State.dropLease (s : State) (u b : Nat) : State :=
  s.onCluster (clusterOf u b) (fun x => x.setLease (requester u b) .none)

/-- The entries of the batchers and of pending tiles without the waiters of a bank whose job is gone. -/
def State.dropWaits (s : State) (u b : Nat) : State :=
  let keep := fun (j : Waiter) => !(decide (j.u = u) && decide (j.b = b))
  let cut := fun (m : Miss) => { m with jobs := m.jobs.filter keep }
  { s with dies := s.dies.map (fun (d : Nat × Die) => (d.1, { d.2 with
             batch := d.2.batch.map cut, out := d.2.out.map cut, unans := d.2.unans.map cut }))
           versions := s.versions.map (fun (v : Nat × Option Version) => (v.1, v.2.map (fun x =>
             { x with waits := x.waits.filter (fun w => keep w.2.2) }))) }

/-- The Crossings without the `XSEND`s of a bank whose job is gone: those that stood there could not be performed (17 R366). -/
def State.dropFlight (s : State) (u b : Nat) : State :=
  { s with crossings := s.crossings.map (fun (x : Nat × Option Crossing) => (x.1, x.2.map (fun c =>
      if c.scoreU = u then { c with flight := c.flight.filter (fun p => decide (p.1 ≠ b)) } else c))) }

/-- A bank and its window become free; the unit executes the other bank if that is ready (08 R201, R202), and the climb monitors are to evaluate the jobs of the partitions that hold the unit (19 R382). -/
def State.freeBank (s : State) (u b : Nat) : State :=
  (((((s.dropLease u b).dropWaits u b).dropFlight u b).setBank u b {}).settle u).evalJobs (fun j => s.holds j.part u)

/-- The task of a job: its place in the packet. -/
def State.taskOf (s : State) (j : Job) : Option Nat := match get none s.packets j.packet with
  | some p => p.tasks.findIdx? (fun t => decide (t.addr = j.task))
  | none => none

/-- Whether a task has no iteration and is not eligible (13 R303, R307). -/
def State.emptyWaits (s : State) (pid : Nat) (p : Packet) (t : Task) : Bool :=
  decide ((vals t.nextN).sum = 0) && !t.dropped && !(s.packetOpen pid p && s.taskOpen p.part p.asid t)

/-- A task has completed: no iteration of it is unplaced or running; one without iterations as soon as it is eligible (13 R303, 22 R421). -/
def State.taskDone (s : State) (pid : Nat) (p : Packet) (t : Task) : Bool :=
  !s.emptyWaits pid p t && s.allPlaced p.part p.asid t && decide (t.ended + t.disc = ((vals t.nextN).sum))

/-- Whether every task of this package that names a domain has completed. -/
def State.tasksOver (s : State) (x : Domain) : Bool :=
  x.tasks.all (fun q => match get none s.packets q.1 with
    | some p => (match p.tasks[q.2]? with
      | some t => s.taskDone q.1 p t
      | none => true)
    | none => true)

/-- The member count P and the own number of a fabric domain; one package, number 0, where none is configured (23 R443). -/
def State.fabricOf (s : State) (f : Nat) : Nat × Nat :=
  ((somes s.parts).findSome? (fun p => match p.2.cfg.fabric with
    | some (g, n, r) => if g = f then some (n, r) else none
    | none => none)).getD (1, 0)

/-- The scope instance in the number of a domain. -/
def scopeOfKey (key : Nat) : Nat := key / 2 ^ 16 % 2 ^ 20

/-- A level-4 domain whose own tasks have completed: the other members are told, once for the tasks that name it by now (23 R446). -/
def State.tellDone (s : State) (d : Nat × Domain) : State :=
  let r := (s.fabricOf (scopeOfKey d.1)).2
  let n := d.2.tasks.length
  if d.1 / 2 ^ 36 = 4 ∧ s.tasksOver d.2 = true ∧ get 0 d.2.doneBy r < n then
    (s.onDomain d.1 (fun x => { x with doneBy := set 0 x.doneBy r n })).tell d.1 (.tasksDone n)
  else s

/-- Every domain whose tasks have all completed is freed, at level 4 as many of every member, whose packets name it alike (13 R314, 23 R445, R446). -/
def State.sweepDomains (s0 : State) : State :=
  let s := (somes s0.domains).foldl State.tellDone s0
  { s with domains := s.domains.filter (fun d => match d.2 with
      | none => false
      | some x => !(s.tasksOver x && (decide (d.1 / 2 ^ 36 ≠ 4) || (List.range (s.fabricOf (scopeOfKey d.1)).1).all (fun m => decide (x.tasks.length ≤ get 0 x.doneBy m))))) }

/-- A job is discarded without saving (22 R426, R434; 14 R345): its views are dropped, it leaves its domain, its iteration counts as discarded, its bank is free. -/
def State.discardJob (s : State) (u b : Nat) : State :=
  match (s.bank u b).job with
  | none => s
  | some j =>
    let s1 := (s.leaveDomain u b).dropViews (s.jobViews j.jid)
    let s2 := match s.taskOf j with
      | some i => s1.onTask j.packet i (fun t => { t with disc := t.disc + 1 })
      | none => s1
    (s2.freeBank u b).sweepDomains

/-- The lowest free slot of a partition's save area. -/
def State.freeSave (s : State) (p : Nat) : Option Nat := match s.part p with
  | none => none
  | some x => (List.range x.cfg.saveSlots).find? (fun i => x.saved.all (fun v => decide (v.slot ≠ i)))

/-- The rows of a bank's window that hold live arrival words, which a boundary leaves as they are (01 R27). -/
def State.liveRows (s : State) (u b : Nat) : Map Row :=
  ((s.bank u b).liveWords.map (fun p => p.1 / 32)).foldl (fun m r => set {} m r (s.row u b r)) []

/-- A job with what the device keeps of it through a move: its views, whether it awaits the lease, the pending exits of its streams, the rows of its live arrival words (01 R27, R29, 04 R106; log entries 32, 41). -/
def State.carried (s : State) (u b : Nat) (j : Job) : Job :=
  { j with held := s.heldForms j, leased := decide (s.leaseOf u b ≠ .none), exits := (List.range 6).map (fun e => ((s.bank u b).stream e).exits), rows := s.liveRows u b }

/-- A job is saved to a slot of its partition's save area, and its bank is free (19 R394). -/
def State.saveJob (s : State) (u b n slot : Nat) : State :=
  match (s.bank u b).job with
  | none => s
  | some j =>
    let s1 := s.hostPut (s.saveSlot j.part slot) (s.climbImage u b j n true)
    let j1 := { s.carried u b j with request := none }
    (s1.onPart j.part (fun p => { p with saved := p.saved ++ [{ slot := slot, job := j1 }] })).freeBank u b

/-! ### The clause boundary (01 R25 to R27; 08 R206; 19 R382, R384 to R389) -/

/-- The clause at which every stream of a job waits. -/
def Bank.allAt (k : Bank) : Option (BitVec 16) := match k.job with
  | none => none
  | some j => match j.engines.map (fun e => (k.stream e).phase) with
    | .clause n :: ps => if ps.all (fun p => decide (p = .clause n)) then some n else none
    | _ => none

/-- Whether the boundary of a bank's job forms (01 R26): every stream at one clause, no unperformed command, no nest, every token FIFO empty, no handler; what has been performed has landed (08 R194; log entry 16). -/
def State.boundaryForms (s : State) (u b : Nat) : Bool :=
  let k := s.bank u b
  k.ready && decide ((s.core u).kbank = b) && decide ((s.core u).freeze = 0) && k.allAt.isSome && !k.inTransit
  && k.cmds.all (fun p => p.2.isEmpty) && k.landings.isEmpty && (somes k.nests).isEmpty && k.tok.all (fun p => p.2.toks.isEmpty) && !k.csr.th
  && (match k.job with | some j => !j.paused | none => false)

/-- A bank after the clears of R27 and 19 R387: vectors, masks, constants, FIFOs, epochs, knowledge, tile tags, arrival vectors, and the CSRs that the frame does not carry; with them the sequencer registers, the tags and the bin state of the copy engines (09 R217). -/
def Bank.clearDead (k : Bank) : Bank :=
  { k with
    v := [], m := [], k := [], fifo := [], ttags := [], seqr := []
    streams := k.streams.map (fun p => (p.1, { p.2 with epoch := 0, know := [] }))
    arr := k.arr.map (fun p => (p.1, { p.2 with a := [], s := [] }))
    csr := { k.csr with tie := false, causeCode := 0, causeKind := 0, epcqA := {}, epcqB := {}, epcqC := {}, viewst := 0
                        tickcmp := BitVec.allOnes 64 } }

/-- The state as a boundary of a bank's job forms (01 R27): a row that holds a live arrival word stays as it is, its other bytes and its poison with it (log entry 32); the rows of the window that hold none, every race tag of it and the accumulator window are clear, and a lease is awaited anew. -/
def State.formBoundary (s : State) (u b : Nat) : State :=
  let k := s.bank u b
  let live := k.liveWords.map (fun p => k.base + p.1 / 32)
  let c := s.core u
  let inside := fun (r : Nat) => decide (k.base ≤ r) && decide (r < k.base + k.rows)
  let s1 := s.setCore u { c with pad := c.pad.filter (fun p => !inside p.1 || live.contains p.1)
                                 tags := c.tags.filter (fun p => !inside p.1) }
  let w : Nat × Nat := match k.job with
    | some j => (j.accRow, j.accN)
    | none => (0, 0)
  let s2 := s1.onCluster (clusterOf u b) (fun x => (x.clearRows w.1 w.2).setLease (requester u b)
    (if x.leaseOf (requester u b) = .none then .none else .waiting))
  (s2.onBank u b Bank.clearDead).onBank u b (fun k => k.onJob (fun j => { j with paused := j.static, pauseBy := none, passed := none }))

/-- Banks switch at a boundary if the other one holds a ready job (01 R25). -/
def State.clauseSwitch (s : State) (u b : Nat) : State :=
  if (s.core u).kbank = b ∧ (s.bank u (1 - b)).ready = true then s.setCore u { s.core u with kbank := 1 - b } else s

/-- A secured frame goes back to its quota: a queued move that has it keeps none and stays queued; one that has started keeps it (19 R385, R396). -/
def State.release (s : State) (x : Secured) : State :=
  if x.joined = false then s.giveBack x.frame
  else match s.moves_.find? (fun m => !m.started && decide (m.frame = some x.frame)) with
    | some m => (s.reframe m none).giveBack x.frame
    | none => s

/-- A request ends with an abort: its reservation and the frames reserved for it are released (19 R385), and the monitor may evaluate the job once more (19 R382, R389; log entry 107). -/
def State.abortClimb (s : State) (u b code : Nat) : State :=
  let sec : List Secured := match (s.bank u b).job with
    | some j => (match j.request with | some r => r.sec | none => [])
    | none => []
  (sec.foldl State.release s).onBank u b (fun k =>
    { k.onJob (fun j => { j with request := none, eval := j.climb }) with csr := k.csr.abort code })

/-- The move that a hand-over asks for an input tile. -/
def Climb.moveOf (r : Climb) (j : Job) (tid n : Nat) : PMove :=
  { tid := tid, tile := n, tier := r.target, stack := r.stack j.die, part := j.part }

/-- The secure step (19 R385, R396): a frame for each input tile below the target, which becomes that of a move queued to the same stack; none is reserved where such a move has one already. False if a frame is lacking; what has been secured before it. -/
def State.secure (s : State) (j : Job) (r : Climb) : List InTile → List Secured → Bool × State × List Secured
  | [], acc => (true, s, acc)
  | x :: xs, acc =>
    let m := r.moveOf j x.tid x.n
    let old := s.moves_.find? (fun y => y.sameMove m)
    if (match old with | some y => y.frame.isSome | none => false) then s.secure j r xs acc
    else match s.takeFrame j.part r.target m.stack x.fsz with
      | none => (false, s, acc)
      | some (f, s1) => (if old.isSome then s1.reframe m (some f) else s1).secure j r xs
          (acc ++ [{ tid := x.tid, tile := x.n, frame := f, joined := old.isSome }])

/-- A climb request acted on at a boundary, up to the writing of the climb frame (19 R385): the frame is in transit, or the request has been aborted and the streams leave their `CLAUSE`. -/
def State.actClimb (s : State) (u b n : Nat) (j : Job) (r0 : Climb) : State :=
  let leave := fun (s : State) => s.onBank u b Bank.leaveClause
  let r := if r0.ever then r0 else { s.newClimb { j with request := none } r0.target with taken := r0.taken }
  if r.ever = false then leave (s.abortClimb u b 0x05)
  else
    let below := (s.jobInputs j).filter (fun x => decide (x.tier < r.target))
    let (ok, s1, sec) := s.secure j r below []
    let s2 := s1.onBank u b (fun k => k.onJob (fun j => { j with request := some { r with sec := sec } }))
    if ok = false then leave (s2.abortClimb u b 0x02)
    else if r.taken then leave (s2.abortClimb u b 0x03)
    else
      let bs := s2.climbImage u b j n false
      s2.onBank u b (fun k => k.onJob (fun j => { j with request := some { r with sec := sec, image := some bs } }))

/-- A pre-emption served at a boundary or before the job's start (19 R384, R394; 22 R426): a request is dropped, and the job is saved, or discarded; none where the save area has no free slot. -/
def State.servePreempt (s : State) (u b n : Nat) (j : Job) (discard : Bool) : Option State :=
  let s1 := if j.request.isSome then s.abortClimb u b 0x06 else s
  if discard then some (s1.discardJob u b)
  else (s.freeSave j.part).map (fun i => s1.saveJob u b n i)

/-- The move of CLAUSE_BOUNDARY (08 R206; 19 R382, R384): the boundary forms, the monitor evaluates the job, and a pre-emption, a climb request and the bank switch follow in this order. -/
def State.clauseBoundary (s : State) (u b : Nat) : State :=
  if s.boundaryForms u b = false then s
  else
    let n := ((s.bank u b).allAt.getD 0).toNat
    let s1 := (s.formBoundary u b).evaluate u b
    match (s1.bank u b).job with
    | none => s
    | some j => match j.preempt with
      | some discard => (s1.servePreempt u b n j discard).getD s
      | none =>
        let s2 := match j.request with
          | some r => s1.actClimb u b n j r
          | none => s1.onBank u b Bank.leaveClause
        s2.clauseSwitch u b

/-- The engines take up the tiles that a hand-over has secured (19 R385, R396); a move that another request has queued meanwhile takes the frame if it has none. -/
def State.askSecured (s : State) (j : Job) (r : Climb) : State :=
  (r.sec.filter (fun x => !x.joined)).foldl (fun s x =>
    let m := r.moveOf j x.tid x.tile
    match s.moves_.find? (fun y => y.sameMove m) with
    | none => s.askMove { m with frame := some x.frame }
    | some y => if y.frame = none then s.reframe m (some x.frame) else s.giveBack x.frame) s

/-- The move of CLIMB_FRAME_LOAD (19 R385, R386): the target verifies the frame and the job goes on there, with its landings; or the request ends with VERIFY and the job goes on in place. -/
def State.frameLoad (s : State) (u b : Nat) : State :=
  let k := s.bank u b
  match k.job with
  | none => s
  | some j => match j.request with
    | none => s
    | some r => match r.image, r.unit with
      | some bs, some (tu, tb) =>
        if imageOk bs = false then (s.abortClimb u b 0x04).onBank u b Bank.leaveClause
        else
          let s1 := (s.freeBank u b).loadJob tu tb r.base (s.carried u b j) bs
          let s2 := s1.onBank tu tb (fun x => {
            x.onJob (fun y => { y with preempt := j.preempt, preCyc := j.preCyc, eval := y.climb && s.holds y.part u }) with
            landings := k.landings
            csr := { x.csr with climbs := if x.csr.climbs = BitVec.allOnes 16 then x.csr.climbs else x.csr.climbs + 1, last := 1 } })
          s2.askSecured j r
      | _, _ => s

/-! ### The permit return of a Crossing (17 R369) -/

/-- The view of slot `n` re-created: on its handle with generation + 1, or on a new handle where it stands at generation 4095; none while the quota has no free handle (17 R369, 14 R323). -/
def State.slotView (s : State) (x : Nat) (c : Crossing) (n : Nat) : Option State :=
  let h := formHandle (c.slot n).form
  let e := match s.tensor c.tid with
    | some t => dim t.ext 0
    | none => 0
  let v : View := { part := c.part, tid := c.tid, box := { lo := [0, n * c.rows, 0, 0, 0, 0], hi := [e, (n + 1) * c.rows, 1, 1, 1, 1] }, holder := .system }
  let last := decide ((get {} s.views h : View).gen = 4095)
  (if last then s.takeHandle c.part else some h).map (fun g =>
    let s1 := (if last then s.freeView h else s).makeView g v
    s1.onCrossing x (fun c => c.onSlot n (fun y => { y with form := s1.formOf g })))

/-- The move of PERMIT_RETURN (17 R369): the slot's tile is valid again with its scrubbed frame, its view is made anew without rights, and a permit is free. -/
def State.permitReturn (s : State) (x n : Nat) : State :=
  match get none s.crossings x with
  | none => s
  | some c =>
    if (c.slot n).st ≠ .releasing then s
    else match (c.slot n).frame, s.slotView x c n with
      | some f, some s1 =>
        (s1.onTensor c.tid (fun t => { t with tiles := set {} t.tiles n { t.tile n with
          v := true, cov := 1, tier := BitVec.ofNat 2 f.tier, stack := BitVec.ofNat 5 f.stack, fbase := BitVec.ofNat 41 f.base } })).onCrossing x
          (fun c => { c.onSlot n (fun y => { y with st := .free, frame := none }) with cnt := c.cnt + 1 })
      | _, _ => s

/-- CLAUSE_BOUNDARY. -/
def execClauseBoundary (u b : Nat) (s : State) : Out := .next (s.clauseBoundary u b)
/-- CLIMB_FRAME_LOAD. -/
def execClimbFrameLoad (u b : Nat) (s : State) : Out := .next (s.frameLoad u b)
/-- CLIMB_MONITOR_EVAL. -/
def execClimbMonitorEval (u b : Nat) (s : State) : Out := .next (s.monitor u b)
/-- PROMOTION_START. -/
def execPromotionStart (die : Nat) (s : State) : Out := .next (s.promotionStart die)
/-- MOVE_FENCE. -/
def execMoveFence (die : Nat) (s : State) : Out := .next (s.moveFence die)
/-- TILE_SWITCH. -/
def execTileSwitch (die : Nat) (s : State) : Out := .next (s.tileSwitch die)
/-- PERMIT_RETURN. -/
def execPermitReturn (x slot : Nat) (s : State) : Out := .next (s.permitReturn x slot)

end Sys2Proof.Machine
end

