-- ==== Sys2Proof/Machine/Issue.lean ====
section
/-!
DEFINITION. What stands at the issue point of a stream: the fetched instruction, the registers that it waits for, and whether it waits on an object (02 R37, R38; 03 R64; 08 R208, R209; 09 R236).
-/

namespace Sys2Proof.Machine

/-- The instruction word at an address, as a number. -/
def Bank.wordAt (k : Bank) (e : Nat) (a : BitVec 13) : Nat := (k.word e a).toNat % 2 ^ 32

/-- The instruction at an address of engine `e`, with the literal that may stand behind it (02 R37, R38). -/
def Bank.fetchAt (k : Bank) (e : Nat) (a : BitVec 13) : Except DecodeError Instr :=
  decode (k.wordAt e a) (BitVec.ofNat 32 (k.wordAt e (wrapAddr e (a.toNat + 1))))

/-- The instruction at Q0 of engine `e`, if the entry is one that would issue as an instruction of that engine. -/
def Bank.atQ0 (k : Bank) (e : Nat) : Option Instr :=
  let q := (k.stream e).q0
  if q.null ∨ k.tagged e q.addr then none
  else match k.fetchAt e q.addr with
    | .ok i => if i.engine = some e then some i else none
    | .error _ => none

/-- The s registers that an instruction of the control engine reads or writes. -/
def Instr.sRegs : Instr → List (BitVec 5)
  | .waitaw e x y => if e = 0 then [x, y] else []
  | .loopr e _ x _ => if e = 0 then [x] else []
  | .pbrr e _ x => if e = 0 then [x] else []
  | .add d a b _ => [d, a, b]
  | .sub d a b _ => [d, a, b]
  | .mul d a b _ => [d, a, b]
  | .mulh d a b _ => [d, a, b]
  | .mulhu d a b _ => [d, a, b]
  | .div d a b _ => [d, a, b]
  | .divu d a b _ => [d, a, b]
  | .rem d a b _ => [d, a, b]
  | .remu d a b _ => [d, a, b]
  | .and d a b _ => [d, a, b]
  | .or d a b _ => [d, a, b]
  | .xor d a b _ => [d, a, b]
  | .andn d a b _ => [d, a, b]
  | .shl d a b _ => [d, a, b]
  | .shr d a b _ => [d, a, b]
  | .sra d a b _ => [d, a, b]
  | .min d a b _ => [d, a, b]
  | .max d a b _ => [d, a, b]
  | .minu d a b _ => [d, a, b]
  | .maxu d a b _ => [d, a, b]
  | .cmp _ a b _ _ => [a, b]
  | .sel d a b _ => [d, a, b]
  | .clz d a _ => [d, a]
  | .popc d a _ => [d, a]
  | .bfx d a b _ => [d, a, b]
  | .bfi d a b _ => [d, a, b]
  | .movp _ a _ => [a]
  | .addi d a _ => [d, a]
  | .andi d a _ => [d, a]
  | .ori d a _ => [d, a]
  | .xori d a _ => [d, a]
  | .shli d a _ => [d, a]
  | .shri d a _ => [d, a]
  | .srai d a _ => [d, a]
  | .muli d a _ => [d, a]
  | .cmpeqi _ a _ => [a]
  | .cmplti _ a _ => [a]
  | .cmpltui _ a _ => [a]
  | .mini d a _ => [d, a]
  | .maxi d a _ => [d, a]
  | .movi d _ => [d]
  | .movl d _ => [d]
  | .movlh d _ => [d]
  | .ldb d a _ => [d, a]
  | .ldbu d a _ => [d, a]
  | .ldh d a _ => [d, a]
  | .ldhu d a _ => [d, a]
  | .ldw d a _ => [d, a]
  | .ldwu d a _ => [d, a]
  | .ldd d a _ => [d, a]
  | .stb s a _ => [s, a]
  | .sth s a _ => [s, a]
  | .stw s a _ => [s, a]
  | .std s a _ => [s, a]
  | .ldg d a _ => [d, a]
  | .stg s a _ => [s, a]
  | .csrr d _ => [d]
  | .csrw a _ => [a]
  | .vderive d a b _ _ => [d, a, b]
  | .vnarrow a b => [a, b]
  | .vdrop a => [a]
  | .vquery a b => [a, b]
  | .fmtset _ a => [a]
  | .hist a b => [a, b]
  | .hlatch a => [a]
  | .arwinit a b => [a, b]
  | _ => []

/-- The e registers that an instruction of the exchange engine reads or writes. -/
def Instr.eRegs : Instr → List (BitVec 3)
  | .waitaw e x y => if e = 5 then [x.setWidth 3, y.setWidth 3] else []
  | .loopr e _ x _ => if e = 5 then [x.setWidth 3] else []
  | .pbrr e _ x => if e = 5 then [x.setWidth 3] else []
  | .xsend x v l _ => [x, v, l]
  | .xrecv d x => [d, x]
  | .xperm d x => [d, x]
  | .atom d a b _ _ => [d, a, b]
  | .aaddnr a b _ => [a, b]
  | .bkload a b => [a, b]
  | .bkrun a b => [a, b]
  | .bkctx b _ => [b]
  | .bkwait b => [b]
  | _ => []

/-- The destinations of the loads that have not returned. -/
def Bank.loading (k : Bank) : List Nat := (k.queue 0).filterMap (fun c => match c.op with
  | .ldg d _ => some d
  | _ => none)

/-- The destinations of the unperformed `ATOM`s. -/
def Bank.atoming (k : Bank) : List Nat := (k.queue 5).filterMap (fun c => match c.op with
  | .atom _ _ d _ _ _ => some d
  | _ => none)

/-- Whether an instruction of the control engine waits for a load (03 R64; log entry 27). -/
def Bank.awaitsLoad (k : Bank) (i : Instr) : Bool := (Instr.sRegs i).any (fun r => k.loading.contains r.toNat)

/-- Whether an instruction of the exchange engine waits for an `ATOM` (09 R236; log entry 27). -/
def Bank.awaitsAtom (k : Bank) (i : Instr) : Bool := (Instr.eRegs i).any (fun r => k.atoming.contains r.toNat)

/-- Whether an arrival word still lies behind the generation that a `WAITAW` names (08 R195). -/
def State.awBehind (s : State) (u b e : Nat) (x y : BitVec 5) : Bool :=
  let k := s.bank u b
  let a : Word := (k.scal e x).setWidth 32
  let g : Word := (k.scal e y).setWidth 32
  decide (2 ^ 31 ≤ (arrField (s.row u b (rowOf a)) (arrOf a % 32) 2 - g).toNat)

/-- Whether a `WAITAW` names a word with REMOTE = 1. -/
def State.awRemote (s : State) (u b e : Nat) (x : BitVec 5) : Bool :=
  let a : Word := ((s.bank u b).scal e x).setWidth 32
  (arrField (s.row u b (rowOf a)) (arrOf a % 32) 3).getLsbD 18

/-- Whether an instruction enters the queue of a copy or exchange engine as a command or a nest (09 R216). -/
def Instr.queued : Instr → Bool
  | .cpy _ _ _ _ => true
  | .gath _ _ _ _ _ => true
  | .scatb _ _ _ _ => true
  | .bincfg _ _ => true
  | .reduce _ _ _ => true
  | .pusha _ _ => true
  | .pushb _ _ => true
  | .seqgo _ _ => true
  | .xsend _ _ _ _ => true
  | .atom _ _ _ _ _ => true
  | .aaddnr _ _ _ => true
  | .bkload _ _ => true
  | .bkrun _ _ => true
  | .bkctx _ _ => true
  | _ => false

/-- Whether an instruction is a `SIGK`. -/
def Instr.isSigk : Instr → Bool
  | .sigk _ _ _ => true
  | _ => false

/-- Whether an instruction of engine `e` finds no place in its queue (08 R204, 09 R216). -/
def Bank.lacksRoom (k : Bank) (e : Nat) (i : Instr) : Bool :=
  (Instr.queued i && decide (8 ≤ k.places e)) || (Instr.isSigk i && !k.pushRoom e)

/-- The remote wait in which the instruction at Q0 of engine `e` stands (08 R208, R209): WOBJ where it has one; none where it need not wait. -/
def State.remoteWait (s : State) (u b e : Nat) : Option Nat :=
  let k := s.bank u b
  match (k.stream e).phase with
  | .close => some 0
  | .running => match k.atQ0 e with
    | none => none
    | some i =>
      if (e = 0 ∧ k.awaitsLoad i = true) ∨ (e = 5 ∧ k.awaitsAtom i = true) ∨ (3 ≤ e ∧ k.lacksRoom e i = true ∧ k.memoryFull e = true) then some 0
      else match i with
        | .waitaw _ x y => if s.awRemote u b e x ∧ s.awBehind u b e x y = true then some (arrObj ((k.scal e x).setWidth 32)).toNat else none
        | .xsend x _ _ _ => (match s.sendEntry u ((k.rdE x).toNat % 8) with
          | some (_, c) => if c.cnt = 0 then some ((k.rdE x).toNat % 8) else none
          | none => none)
        | .xrecv _ x => (match s.recvEntry u ((k.rdE x).toNat % 8) with
          | some (_, c) => if c.arr.isEmpty then some 0 else none
          | none => none)
        | .dsync => if (s.dmrKey u b).isSome = true ∧ s.undone u b = true then some 0 else none
        | .hlatch _ => if k.csr.dmrLevel = 3 ∧ k.csr.dmrId ≠ 0 ∧ s.undone u b = true then some 0 else none
        | .setleave => if k.accesses then some 0 else none
        | .afence => if (k.queue 5).any Cmd.isAaddnr then some 0 else none
        | .bkwait x => if (k.queue 5).any (fun c => c.holdsWait (selUnit (k.rdE x))) then some 0 else none
        | .mma _ _ => if s.leaseOf u b = .waiting then some 0 else none
        | .mmat _ _ => if s.leaseOf u b = .waiting then some 0 else none
        | .mzero _ _ => if s.leaseOf u b = .waiting then some 0 else none
        | .mscale _ _ => if s.leaseOf u b = .waiting then some 0 else none
        | _ => none
  | _ => none

/-- The core-local wait of a stream (08 R208): class and object as the frame names them. -/
def State.localWait (s : State) (u b e : Nat) : Option (Nat × Nat) :=
  let k := s.bank u b
  match (if e = 2 then s.arrStarved u b else none) with
  | some f => some (2, f)
  | none => match (k.stream e).phase with
    | .clause _ => some (4, 0)
    | .joined => (k.pushHeld e).map (fun f => (1, f))
    | .running => if (k.stream e).wait = .none then none else match k.atQ0 e with
      | some (.arwinit x _) => if k.tagBusy (arrOf ((k.rdS x).setWidth 32)) then some (3, (arrObj ((k.rdS x).setWidth 32)).toNat) else none
      | some (.waitk _ f n) => if (k.tokF f.toNat).toks.length < count n then some (1, f.toNat) else none
      | some (.vpop _) => if (k.dfifo 2).rows.isEmpty then some (2, 2) else none
      | some (.vpush _) => if 16 ≤ (k.dfifo 3).rows.length then some (2, 3) else none
      | some (.waitaw _ x y) =>
        if s.awRemote u b e x = false ∧ s.awBehind u b e x y = true then some (3, (arrObj ((k.scal e x).setWidth 32)).toNat) else none
      | some i => if k.lacksRoom e i = true ∧ ¬ (3 ≤ e ∧ k.memoryFull e = true) then (k.pushHeld e).map (fun f => (1, f)) else none
      | none => none
    | _ => none

end Sys2Proof.Machine
end

