-- ==== Sys2Proof/Machine/Jobs.lean ====
section
/-!
DEFINITION. The life of a placed job: its end, waits that nothing releases, timeouts, fault frames and restarts, freezes, the static pause, the tick interrupt, and the close of a domain phase (04 R107; 08 R197 to R214; 13 R308 to R317; 16 R353; 23 R446).
-/

namespace Sys2Proof.Machine

/-! ### Completion records (22 R422 to R424) -/

/-- The 32 bytes of a completion record (22 R422): stamp, status, queue, function, tag, CYCLE of die 0, detail, iterations. -/
def State.complBytes (s : State) (stamp status q f : Nat) (tag : DWord) (detail iters : Nat) : List Byte :=
  leBytes 2 stamp ++ leBytes 2 status ++ leBytes 2 q ++ leBytes 2 f ++ leBytes 8 tag.toNat ++ leBytes 8 (s.cycleOf 0).toNat
    ++ leBytes 4 detail ++ leBytes 4 iters

/-- A function. -/
def State.func (s : State) (f : Nat) : Func := get {} s.funcs f

/-- The state with a function changed. -/
def State.onFunc (s : State) (f : Nat) (g : Func → Func) : State := { s with funcs := set {} s.funcs f (g (s.func f)) }

/-- A record waits to be appended to a completion queue of a function, with its vector (22 R424); a queue that was not created takes none. -/
def State.cqPost (s : State) (f c vec : Nat) (r : List Byte) : State :=
  s.onFunc f (fun x => match get {} x.cqs c with
    | (y : Cq) => if y.live then { x with cqs := set {} x.cqs c { y with pend := y.pend ++ [(r, vec)] } } else x)

/-- The iterations of a packet that have ended. -/
def Packet.iters (p : Packet) : Nat := ((p.tasks.map (fun t => t.ended)).sum) % 2 ^ 32

/-! ### The end of a job (08 R201, 13 R308) -/

/-- The atomic add of 1 to a task's DONE (13 R308, 09 R236), stamped as the job's. -/
def State.countDone (s : State) (u b : Nat) (j : Job) : State :=
  let va : DWord := j.task + 96
  let plain := s.devWrite j.part va.toNat j.asid (leBytes 4 ((match s.devRead j.part va.toNat 4 j.asid with | some bs => leNat bs | none => 0) + 1))
  match s.window j.part va.toNat with
  | none => s
  | some t => match s.atomFlat u b 5 0 t va 4 (fun v => (v + 1) % 2 ^ 32) with
    | .ok (_, s1) => s1
    | .error _ => plain

/-- The translation miss that the end of a job meets at its task's DONE (12 R290, 13 R308). -/
def State.doneMiss (s : State) (j : Job) : Option (Tensor × Nat × Nat × Nat) := s.devMiss j.part (j.task.toNat + 96) 4 j.asid

/-- The fault of a job whose add to DONE stage 2 forbids (12 R288; log entry 97). -/
def Job.doneFault (j : Job) : FaultInfo := { code := 0x0007, eng := 0, precise := true, da := j.task + 96 }

/-- The move of JOB_END (08 R201; 13 R308, R316; 14 R345); while its add to DONE misses the job waits on the range, and one that stage 2 forbids stops it. -/
def State.jobEnd (s : State) (u b : Nat) : State :=
  let k := s.bank u b
  match k.job with
  | none => s
  | some j =>
    if j.status ≠ .ready ∨ (s.core u).freeze ≠ 0 ∨ !j.engines.all (fun e => decide ((k.stream e).phase = .joined)) ∨ !k.cmds.all (fun p => p.2.isEmpty)
        ∨ !(somes k.nests).isEmpty then s
    else match s.doneMiss j with
    | some x => s.ownMiss u b true x
    | none =>
      if s.devBars j.part (j.task.toNat + 96) 4 j.asid then s.stopJob u b j.doneFault
      else
      let s1 := ((s.countDone u b j).leaveDomain u b).dropViews (s.jobViews j.jid)
      let s2 := match s1.taskOf j with
        | some i => s1.onTask j.packet i (fun t => { t with ended := t.ended + 1 })
        | none => s1
      s.ifRoom j.part (s2.freeBank u b).sweepDomains

/-! ### Waits (08 R208, R209) -/

/-- Whether what engine `e` has not performed is held only by full token FIFOs, beside the array operation that no row reaches, which does not count; a push behind that operation counts against it (08 R208, 11 R271). -/
def State.onlyHeld (s : State) (u b e : Nat) : Bool :=
  let k := s.bank u b
  let n := if e = 2 then s.starvedCmd u b else none
  let rest := (k.queue e).filter (fun c => decide (n ≠ some c.seq))
  rest.all (fun c => c.isPush && (match n with
    | some m => decide (c.seq < m)
    | none => true)) && (rest.isEmpty || (k.pushHeld e).isSome)

/-- The move of WAIT_FOREVER (08 R208): the waiting stream of the lowest engine number faults. -/
def State.waitForever (s : State) (u b : Nat) : State :=
  let k := s.bank u b
  match k.job with
  | none => s
  | some j =>
    let waits := j.engines.filterMap (fun e => (s.localWait u b e).map (fun w => (e, w)))
    if j.status ≠ .ready ∨ !j.engines.all (fun e => decide ((k.stream e).phase = .joined) || (s.localWait u b e).isSome)
        ∨ !(List.range 6).all (s.onlyHeld u b) ∨ !(somes k.nests).isEmpty ∨ !k.landings.isEmpty
        ∨ k.allAt.isSome ∧ k.tok.all (fun p => p.2.toks.isEmpty) = true ∧ k.cmds.all (fun p => p.2.isEmpty) = true then s
    else match waits with
      | [] => s
      | (e, c, o) :: _ => s.stopJob u b { code := 0x000D, eng := e, precise := true, da := BitVec.ofNat 64 o, db := BitVec.ofNat 64 c }

/-- Whether the wait of a stream has lasted for WAITLIM cycles (08 R209). -/
def Bank.expired (k : Bank) (e : Nat) : Bool :=
  decide (k.csr.waitlim ≠ 0) && decide (k.csr.waitlim.toNat ≤ (k.stream e).waited)

/-- Whether the exchange stream stands at a permit wait: not one that waits for a register of an `ATOM`, or for a place of its queue (17 R366). -/
def Bank.permitWait (k : Bank) : Bool := match k.atQ0 5 with
  | some (.xsend x v l c) => decide ((k.stream 5).phase = .running) && !k.awaitsAtom (.xsend x v l c) && decide (k.places 5 < 8)
  | _ => false

/-- The move of WAIT_TIMEOUT (08 R209). -/
def State.waitTimeout (s : State) (u b e : Nat) : State :=
  let k := s.bank u b
  match s.remoteWait u b e with
  | none => s
  | some o =>
    if k.ready = false ∨ k.expired e = false ∨ (e = 5 ∧ k.permitWait = true) then s
    else s.stopJob u b { code := 0x000E, eng := e, precise := true, da := BitVec.ofNat 64 o, db := k.csr.waitlim }

/-- The move of PERMIT_TIMEOUT (08 R209, 17 R366). -/
def State.permitTimeout (s : State) (u b : Nat) : State :=
  let k := s.bank u b
  match s.remoteWait u b 5 with
  | none => s
  | some x =>
    if k.ready = false ∨ k.expired 5 = false ∨ k.permitWait = false then s
    else s.stopJob u b { code := 0x0015, eng := 5, precise := true, da := BitVec.ofNat 64 x }

/-! ### Fault frames (08 R210, R212; 22 R423, R434) -/

/-- Whether a stopped job does not await a command: one that is lost, or a load that waits on a translation miss, of which R210 asks nothing (08 R210). -/
def Cmd.forsaken (c : Cmd) : Bool := c.lost || (c.isLdg && c.held)

/-- Whether every command that a stopped job still performs has been performed, or cannot be (08 R210): a lost one, a control access behind a lost one to the same 8 bytes, a matrix operation that waits for rows, or one behind such or a lost one. One that waits on a translation miss is awaited until its range is answered, but for a load (08 R211). A view instruction whose move waits behind an access that is not awaited is no longer awaited itself. -/
def State.settled (s : State) (u b : Nat) : Bool :=
  let k := s.bank u b
  (match k.view with
    | none => true
    | some q => !q.moved && (k.queue 0).any Cmd.forsaken)
  && k.cmds.all (fun p => p.2.all (fun c => !c.survives || c.forsaken || k.shadowed p.1 c
      || (decide (p.1 = 2) && (s.stuck u b 2 c || (k.before 2 c.seq).any (fun d => d.lost)))))

/-- The lowest free slot of a partition's fault-frame buffer. -/
def State.freeSlot (s : State) (p : Nat) : Option Nat := match s.part p with
  | some x => (List.range x.cfg.frameSlots).find? (fun i => !get false x.slots i)
  | none => none

/-- The host address of a slot of the fault-frame buffer (08 R212). -/
def Part.slotAddr (x : Part) (i : Nat) : Nat := x.cfg.frameBase + 1024 * i

/-- The notice of a frame goes to its packet's completion queue, or to queue 0 (22 R423). -/
def State.notice (s : State) (j : Job) (slot : Nat) : State := match get none s.packets j.packet with
  | none => s
  | some p => s.cqPost p.fn (if p.cq = 0xFFFF then 0 else p.cq) p.vec
      (s.complBytes (p.idx % 65536) 0x0503 p.queue p.fn p.tag slot p.iters)

/-- Whether a partition is being reset. -/
def State.resets (s : State) (p : Nat) : Bool := match s.part p with
  | some x => (match x.state with
    | .resetting _ => true
    | _ => false)
  | none => false

/-- The frame of a stopped job written to slot `i`, with its notice (08 R210 to R213, 22 R423). -/
def State.putFrame (s : State) (u b i : Nat) (x : Part) (f : FaultInfo) (j : Job) : State :=
  let s0 := s.unwind u b f.code
  let s1 := (s0.hostPut (x.slotAddr i) ((s0.bank u b).faultFrame b f j)).onPart j.part (fun p => { p with slots := set false p.slots i true })
  (s1.notice j i).onBank u b (fun k => { k with fault := some { f with slot := some i } })

/-- The move of FAULT_FRAME_WRITE (08 R212, 22 R423, R426, R432, R434): the frame of a stopped job goes to the lowest free slot, with its notice. A job stopped by the pre-emption limit is then discarded; so is one of a queue that is being destroyed in DISCARD mode, where another fault stopped it with or without a slot. While its partition is being reset nothing is written. -/
def State.frameWrite (s : State) (u b : Nat) : State :=
  let k := s.bank u b
  match k.fault, k.job with
  | some f, some j =>
    if f.code = 0x0017 ∨ f.slot.isSome ∨ s.settled u b = false ∨ s.resets j.part = true then s
    else match s.freeSlot j.part, s.part j.part with
      | some i, some x =>
        let s1 := s.putFrame u b i x f j
        if f.code = 0x0018 ∨ j.preempt = some true then s1.discardJob u b else s1
      | _, _ => if j.preempt = some true ∧ f.code ≠ 0x0018 then s.discardJob u b else s
  | _, _ => s

/-- The listed commands of a bank in list order, with their engines. -/
def Bank.flight (k : Bank) : List (Nat × Cmd) :=
  ([3, 4, 5].flatMap (fun e => ((k.queue e).filter (fun c => (k.listed e c).isSome)).map (fun c => (e, c)))).take 24

/-- The copy command that a list entry reissues: the operands of OPS over those that the abandoned command had captured (08 R213). -/
def Bank.reissueCopy (k : Bank) (e kind nest : Nat) (ops : List Word) (old : Option Cmd) : Option CopyCmd :=
  match ([CopyKind.cpy, .gath, .reduce, .pusha, .pushb][kind]?) with
  | none => none
  | some ck =>
    let c0 : CopyCmd := match old with
      | some { op := .copy c, .. } => if c.kind = ck then c else { kind := ck, coord := (k.sq e).coords, tag := (k.sq e).tag }
      | _ => { kind := ck, coord := (k.sq e).coords, tag := (k.sq e).tag }
    some { c0 with form := ops.getD 0 0, pad := ops.getD 1 0, formB := if ck = .reduce then ops.getD 2 0 else 0
                   idx := if ck = .reduce then 0 else ops.getD 2 0, n := (ops.getD 3 0).toNat, nestK := nest
                   chk := none, chkB := none, done := [], parts := [] }

/-- One list entry reissued in a bank of a restarted job (08 R213). A copy command that its checks refuse stops the job again and stands in its queue as the faulting one, so that the next frame lists it. -/
def State.reissue (s : State) (u b : Nat) (bs : List Byte) (old : Option Cmd) : State :=
  let e := leAt bs 0 1
  let kind := leAt bs 1 1
  let pc : BitVec 13 := BitVec.ofNat 13 (leAt bs 2 2)
  let nest := leAt bs 4 4
  let ops : List Word := (List.range 4).map (fun i => BitVec.ofNat 32 (leAt bs (8 + 4 * i) 4))
  let k := s.bank u b
  let ep := match old with
    | some c => c.epoch
    | none => (k.stream e).epoch
  let put := fun (s : State) (op : CmdOp) (ep : BitVec 13) (no : Bool) => s.onBank u b (fun k =>
    { k.setQueue e (k.queue e ++ [{ seq := k.seq, pc := pc, epoch := ep, op := op, held := no, lost := no }]) with seq := k.seq + 1 })
  let add := fun (s : State) (op : CmdOp) (ep : BitVec 13) => put s op ep false
  if e < 3 ∨ 5 < e then s
  else match kind with
    | 5 => add s (.push ((ops.getD 0 0).toNat % 16) (ops.getD 1 0).toNat) (BitVec.ofNat 13 (ops.getD 2 0).toNat)
    | 6 => match k.nest e with
      | some n =>
        let t := { n.tmpl with form := ops.getD 0 0, pad := ops.getD 1 0, n := (ops.getD 3 0).toNat
                               idx := if n.tmpl.indexed then ops.getD 2 0 else n.tmpl.idx }
        add (s.onBank u b (fun k => k.setNest e (some { n with seq := k.seq, tmpl := t, k := nest, gen := k.ready }))) .nest n.epoch
      | none => s
    | 7 => add s (.bkrun (BitVec.ofNat 64 ((ops.getD 0 0).toNat + 2 ^ 32 * (ops.getD 1 0).toNat)) (ops.getD 2 0).toNat (ops.getD 3 0).toNat false) ep
    | _ => match k.reissueCopy e kind nest ops old with
      | none => s
      | some c => match s.copyCheck u b e (k.iword e pc) c with
        | .error f => (put s (.copy c) ep true).stopJob u b { code := f.code, eng := e, precise := false, da := f.da, db := f.db, dc := f.dc }
        | .ok c1 => add s (.copy c1) ep

/-- A queue in which the pending pushes are those of `ps`, each in the place of one that it held before, the rest behind. -/
def repush : List Cmd → List Cmd → List Cmd
  | [], ps => ps
  | c :: cs, ps => if c.isPush then (match ps with
      | [] => repush cs []
      | p :: qs => p :: repush cs qs) else c :: repush cs ps

/-- The commands of engine `e` that stay in its queue through a restart: of the matrix engine those before an accumulator-busy trap, which the frame has not put back (08 R210; log entry 71), and the places of the pending pushes. -/
def Bank.stays (k : Bank) (code e : Nat) : List Cmd :=
  if e = 2 ∧ code = 0x000C then (k.queue 2).map (fun c => { c with held := false, lost := false }) else (k.queue e).filter Cmd.isPush

/-- A bank whose streams stand as a frame's records say, with the pushes of PPUSH pending again (08 R212, R213). A `DSYNC` or `HLATCH` whose arrival was counted goes on waiting, or is over if its phase has closed meanwhile. -/
def Bank.reloadStreams (k : Bank) (code : Nat) (bs : List Byte) : Bank :=
  (List.range 6).foldl (fun k e =>
    let r := (bs.drop (64 + 64 * e)).take 64
    let t := k.stream e
    if t.phase = .idle then k
    else
      let past := decide (t.phase = .close) && !(match k.job with | some j => j.arrived | none => false)
      let phase : Phase := if t.phase = .close then (if past then .running else .close) else if leAt r 6 1 = 3 then .joined else .running
      let k1 := k.setStream e { Stream.reload e t r with phase := phase }
      let ps := (List.range 4).filterMap (fun i => let v := leAt r (46 + i) 1
        if v = 0 then none else some (v / 16, v % 16, (BitVec.ofNat 13 (leAt r (50 + 2 * i) 2) : BitVec 13)))
      let k2 := if past then k1.advance e else k1
      if e < 3 then
        let qs := (ps.zipIdx).map (fun p => ({ seq := k2.seq + p.2, pc := (k2.stream e).q0.addr, epoch := p.1.2.2, op := .push p.1.1 p.1.2.1 } : Cmd))
        { k2.setQueue e (repush (k2.stays code e) qs) with seq := k2.seq + ps.length }
      else k2) k

/-- A stopped job restarted from the frame in its slot (08 R212, R213): FFRAME names the slot, which is free again. -/
def State.restartJob (s : State) (u b : Nat) : State :=
  let k := s.bank u b
  match k.fault, k.job with
  | some f, some j => match f.slot, s.part j.part with
    | some i, some x =>
      let bs := s.hostGet (x.slotAddr i) 1024
      let old := k.flight
      let s1 := s.onBank u b (fun k =>
        { ((k.onJob (fun j => { j with status := .ready })).reloadStreams f.code bs) with
          fault := none, view := none, departed := [], missed := [], run := if f.code = 0x000C then k.run else none
          backs := if f.code = 0x000C then k.backs.filter (fun p => (k.queue 2).any (fun c => decide (c.seq = p.1))) else []
          csr := { k.csr with fframe := BitVec.ofNat 64 (x.slotAddr i / 8 * 8) } })
      let s2 := (s1.dropWaits u b).onBank u b (fun k => ((k.setQueue 3 []).setQueue 4 []).setQueue 5 [])
      let s3 := (List.range (min 24 (leAt bs 28 4))).foldl (fun s i =>
        let r := (bs.drop (448 + 24 * i)).take 24
        s.reissue u b r ((old[i]?).bind (fun o => if o.1 = leAt r 0 1 then some o.2 else none))) s2
      ((s3.onPart j.part (fun p => { p with slots := set false p.slots i false })).settle u)
    | _, _ => s
  | _, _ => s

/-! ### Freezes (08 R197 to R200) -/

/-- The move of CORRECTABLE_ERROR_FREEZE (08 R197, R198): the unit is frozen for 64 of its cycles, and the slotted returns of what it has requested come 64 cycles later; an error during a freeze is absorbed. -/
def State.freezeUnit (s : State) (u : Nat) : State :=
  let s0 := { s with errs := { s.errs with corrected := s.errs.corrected + 1 } }
  let c := s.core u
  if 528 ≤ u then s
  else if c.freeze ≠ 0 then s0
  else
    let late := fun (k : Bank) => { k with departed := k.departed.map (fun d => if d.due.isSome then { d with late := d.late + 64 } else d) }
    let c1 := { c with freeze := 65, b0 := late c.b0, b1 := late c.b1 }
    let k := c1.bank c.kbank
    let frz := if k.csr.frz = BitVec.allOnes 16 then k.csr.frz else k.csr.frz + 1
    s0.setCore u (c1.setBank c.kbank { k with csr := { k.csr with frz := frz } })

/-- The move of FREEZE_END: the 64 cycles have passed. -/
def State.freezeEnd (s : State) (u : Nat) : State := if (s.core u).freeze = 1 then s.setCore u { s.core u with freeze := 0 } else s

/-! ### The static pause and the tick interrupt (16 R353, 04 R107) -/

/-- Whether the wait that caused a static pause is over (16 R353). -/
def State.pauseOver (s : State) (u b : Nat) (j : Job) : Bool :=
  let k := s.bank u b
  decide ((k.stream 0).phase ≠ .close) && decide ((k.stream 0).phase ≠ .answer)
  && (match j.pauseBy with
    | some e => (s.remoteWait u b e).isNone
    | none => true)

/-- The move of STATIC_PAUSE_END (16 R353): every command performed but the array operation that waits for rows, which is none (11 R271), the wait over, roundabout position 0; the instruction that caused the pause takes its effect next. -/
def State.pauseEnd (s : State) (u b : Nat) : State :=
  let k := s.bank u b
  match k.job with
  | none => s
  | some j =>
    if j.static = false ∨ j.paused = false ∨ k.ready = false ∨ (s.core u).kbank ≠ b ∨ (s.core u).freeze ≠ 0 ∨ s.now % 64 ≠ 0
        ∨ !k.cmds.all (fun p => p.2.all (fun c => decide (p.1 = 2) && decide (s.starvedCmd u b = some c.seq))) ∨ s.pauseOver u b j = false then s
    else
      let s1 := s.onBank u b (fun k => k.onJob (fun j => { j with paused := false, pauseBy := none, passed := j.pauseBy }))
      match j.pauseBy with
      | some e => { s1 with agenda := .issue u e :: s1.agenda }
      | none => s1

/-- Whether the control stream of a unit takes the tick interrupt before the entry at Q0 issues (04 R107). -/
def State.tickDue (s : State) (u : Nat) : Bool :=
  let k := s.bank u (s.core u).kbank
  k.ready && !k.isStatic && decide ((s.core u).freeze = 0) && s.tp u k && k.csr.tie && !k.csr.th && decide ((k.stream 0).phase = .running)

/-- The move of TICK_INTERRUPT (04 R107, R108): the handler is entered with kind 1 and code 0; the queue does not advance, and the count of a wait is kept. -/
def State.tick (s : State) (u : Nat) : State :=
  let b := (s.core u).kbank
  if s.tickDue u = false then s
  else s.onBank u b (fun k =>
    (k.enterTrap 0 1).onStream 0 (fun t => { t with kept := t.waited, wait := .none, waited := 0 }))

/-! ### The close of a phase (13 R311, R312, R317; 23 R446) -/

/-- A sum that saturates at 32 bits. -/
def satAdd (a b : Word) : Word := if 2 ^ 32 ≤ a.toNat + b.toNat then 0xFFFFFFFF else a + b

/-- A saturating sum of words. -/
def satSum (l : List Word) : Word := l.foldl satAdd 0

/-- A bin, or OUT as number 256, over every die's bank of a partition (13 R311). -/
def State.histSum (s : State) (p i : Nat) : Word := satSum (s.dies.map (fun d => get 0 (get [] d.2.hist p) i))

/-- Whether a latch entry is faulty (13 R312). -/
def latchBad (bs : List Byte) : Bool :=
  decide (leAt bs 0 8 % 128 ≠ 0) || decide (leAt bs 8 1 = 0) || decide (6 < leAt bs 8 1) || decide (1 < leAt bs 9 1) || decide (2 < leAt bs 10 1)

/-- The flat addresses that a latch entry writes: the field and the HB of its record (13 R301, R311). -/
def latchAt (bs : List Byte) : Nat × Nat :=
  (leAt bs 0 8 + (if leAt bs 9 1 = 0 then 8 else 32) + 4 * (leAt bs 8 1 - 1), leAt bs 0 8 + 66)

/-- One latch entry performed (13 R311); `x` is the tag of the member's accesses (12 R289). DESIGN CHOICE: its reads and writes make no race check and leave the phase stamp of the record's tile as it is (log entry 108). -/
def State.latchEntry (s : State) (p : Nat) (x : Pasid) (bs : List Byte) : State :=
  let l := leAt bs 8 1 - 1
  let field := leAt bs 9 1
  let bin := leAt bs 11 1
  let v : Word := (match leAt bs 10 1 with
    | 0 => s.histSum p bin
    | 1 => satSum ((List.range bin).map (s.histSum p))
    | _ => s.histSum p 256) + BitVec.ofNat 32 (leAt bs 12 4)
  let s1 := s.devWrite p (latchAt bs).1 x (leBytes 4 v.toNat)
  match s1.devRead p (latchAt bs).2 2 x with
  | some h => s1.devWrite p (latchAt bs).2 x (leBytes 2 ((leNat h) &&& (65535 - 2 ^ (2 * l + field))))
  | none => s1

/-- The entries of a latch list from number `i` on (13 R311, R312): the state, and the flat address of the first that fails; one whose writes stage 2 forbids fails too (12 R288). DESIGN CHOICE: an entry that lies in no window fails at its own address, and one whose REC lies in no window writes nothing there and does not fail (log entry 108). -/
def State.latchList (s : State) (p : Nat) (x : Pasid) (a i : Nat) : Nat → State × Option Nat
  | 0 => (s, none)
  | n + 1 =>
    let at_ := a + 8 + 16 * i
    match s.devRead p at_ 16 x with
    | none => (s, some at_)
    | some bs =>
      if latchBad bs || s.devBars p (latchAt bs).1 4 x || s.devBars p (latchAt bs).2 2 x then (s, some at_)
      else (s.latchEntry p x bs).latchList p x a (i + 1) n

/-- The first miss that the device meets in entries of a latch list from number `i` on, at the entry, which it reads, its target field or its HB, which it writes: whether it writes, and the miss (12 R290, R297, 13 R311). -/
def State.listMiss (s : State) (p : Nat) (q : Pasid) (a i : Nat) : Nat → Option (Bool × (Tensor × Nat × Nat × Nat))
  | 0 => none
  | n + 1 =>
    let at_ := a + 8 + 16 * i
    match s.devMiss p at_ 16 q, s.devRead p at_ 16 q with
    | some x, _ => some (false, x)
    | none, none => none
    | none, some bs =>
      if latchBad bs then none
      else
        match s.devMiss p (latchAt bs).1 4 q, s.devMiss p (latchAt bs).2 2 q with
        | some x, _ => some (true, x)
        | none, some x => some (true, x)
        | none, none => s.listMiss p q a (i + 1) n

/-- The bank of a member that has attached a latch list and is not stopped, with the miss that its list meets and whether the access writes (12 R290, R297, 13 R311). -/
def State.latchMiss (s : State) (p : Nat) (l : Nat × Nat × Nat × DWord) : Option (Nat × Nat × Job × Bool × (Tensor × Nat × Nat × Nat)) :=
  match s.placedJobs.find? (fun x => decide (x.2.2.jid = l.2.2.1) && decide (x.2.2.status ≠ .stopped)) with
  | none => none
  | some (u, b, j) =>
    let a := l.2.2.2.toNat
    (match (if a % 8 = 0 then s.devMiss p a 8 j.asid else none) with
      | some x => some (false, x)
      | none => match (if a % 8 = 0 then s.devRead p a 8 j.asid else none) with
        | none => none
        | some h => if 256 < leAt h 0 4 then none else s.listMiss p j.asid a 0 (leAt h 0 4)).map (fun x => (u, b, j, x))

/-- A member's latch list performed; a fault stops the job (13 R312). DESIGN CHOICE: a header that lies in no window fails at sa (log entry 108). -/
def State.latch (s : State) (p jid : Nat) (a : DWord) : State :=
  let of_ := s.placedJobs.find? (fun x => decide (x.2.2.jid = jid))
  let q : Pasid := match of_ with
    | some (_, _, j) => j.asid
    | none => .none
  let stop := fun (s : State) (da : Nat) => match of_ with
    | some (u, b, _) => s.stopJob u b { code := 0x0007, eng := 0, precise := true, da := BitVec.ofNat 64 da }
    | none => s
  match (if a.toNat % 8 = 0 then s.devRead p a.toNat 8 q else none) with
  | none => stop s a.toNat
  | some h =>
    if 256 < leAt h 0 4 then stop s a.toNat
    else match s.latchList p q a.toNat 0 (leAt h 0 4) with
      | (s1, some x) => stop s1 x
      | (s1, none) => s1

/-- The latches of a phase, in ascending writer core, then bank; then every bin of the partition is cleared (13 R311). -/
def State.latches (s : State) (p : Nat) (ls : List (Nat × Nat × Nat × DWord)) : State :=
  if ls.isEmpty then s
  else
    let order := sortBy (fun a b => decide (2 * a.1 + a.2.1 ≤ 2 * b.1 + b.2.1)) ls
    -- the sums are those before any latch, which no latch changes
    let s1 := order.foldl (fun s l => s.latch p l.2.2.1 l.2.2.2) s
    { s1 with dies := s1.dies.map (fun d => (d.1, { d.2 with hist := set [] d.2.hist p [] })) }

/-- A member's bank as its phase closes (13 R317): its tile tags are dropped; a waiting `DSYNC` or `HLATCH` merges the epochs held at its issue and completes. In a stopped job it completes at the restart. -/
def Bank.phaseClosed (k : Bank) : Bank :=
  let k1 := { k with ttags := [] }
  match k.job with
  | none => k1
  | some j =>
    if j.arrived = false then k1
    else
      let k2 := k1.onJob (fun j => { j with arrived := false, snap := [] })
      let k3 := k2.onStream 0 (fun t => { t with know := mergeAll t.know j.snap })
      if j.status = .stopped then k3 else (k3.onStream 0 (fun t => { t with phase := .running })).advance 0

/-- The close move of a domain (13 R317): latches, tile tags, PN, the merges. -/
def State.closePhase (s : State) (key : Nat) : State := match s.domain key with
  | none => s
  | some d =>
    let s1 := s.latches (scopeOfKey key) d.latches
    let s2 := s1.onDomain key (fun d => { d with pn := d.pn + 1, arrivals := 0, latches := [] })
    s2.placedJobs.foldl (fun s x => if s2.dmrKey x.1 x.2.1 = some key then s.onBank x.1 x.2.1 Bank.phaseClosed else s) s2

/-- The number of a domain. -/
def keyOf (d : DomKey) : Nat := domKey d.level d.scope d.id

/-- The close of a domain's phase as one move: a member whose latch list misses waits on the range first; package 0 of level 4 multicasts the close (23 R446). -/
def State.closeMove (s : State) (d : DomKey) (x : Domain) : State :=
  match x.latches.findSome? (s.latchMiss d.scope) with
  | some (u, b, j, w, y) => if j.status = .missing then s else s.ownMiss u b w y
  | none =>
    let s1 := s.closePhase (keyOf d)
    s.ifRoom d.scope (if d.level = 4 ∧ (s.fabricOf d.scope).2 = 0 then { s1 with sent := s1.sent ++ [.close (keyOf d)] } else s1)

/-- The move of DOMAIN_CLOSE (13 R317): arrivals and departed members equal QUOTA. At level 4 package 0 closes (23 R446). -/
def State.domainClose (s : State) (d : DomKey) : State := match s.domain (keyOf d) with
  | none => s
  | some x =>
    if x.arrivals + x.departed ≠ x.quota ∨ (d.level = 4 ∧ (s.fabricOf d.scope).2 ≠ 0) then s
    else s.closeMove d x

/-- The move of FABRIC_CLOSE_MULTICAST (23 R446): the close reaches a member other than package 0. -/
def State.fabricClose (s : State) (d : DomKey) : State := match s.domain (keyOf d) with
  | none => s
  | some x => if d.level = 4 ∧ (s.fabricOf d.scope).2 ≠ 0 then s.closeMove d x else s

/-- A domain that has heard of another member (23 R446): an arrival counts in its own phase alone, and one whose phase has closed meanwhile is not taken off at a departure. DESIGN CHOICE: news names its phase (log entry 103). -/
def Domain.hear (x : Domain) (member : Nat) : FabricNews → Domain
  | .join => { x with joined := x.joined + 1 }
  | .arrive pn => if pn = x.pn.toNat then { x with arrivals := x.arrivals + 1 } else x
  | .depart arrived pn => x.depart (arrived && decide (pn = x.pn.toNat))
  | .tasksDone n => { x with doneBy := set 0 x.doneBy member (max n (get 0 x.doneBy member)) }

/-- The move of FABRIC_DOMAIN_ARRIVAL (23 R446): package 0, or the mirror of its table on another member, takes up what a member has done; what is told of a domain that no packet accepted here names yet waits for its entry. -/
def State.fabricArrival (s : State) (d : DomKey) (member : Nat) (news : FabricNews) : State :=
  let m := s.fabricOf d.scope
  if d.level ≠ 4 ∨ member = m.2 ∨ m.1 ≤ member then s
  else if (s.domain (keyOf d)).isNone then { s with early := s.early ++ [(keyOf d, member, news)] }
  else
    let s1 := s.onDomain (keyOf d) (fun x => x.hear member news)
    match news with
      | .tasksDone _ => s1.sweepDomains
      | _ => s1

/-- JOB_END. -/
def execJobEnd (u b : Nat) (s : State) : Out := .next (s.jobEnd u b)
/-- WAIT_FOREVER. -/
def execWaitForever (u b : Nat) (s : State) : Out := .next (s.waitForever u b)
/-- WAIT_TIMEOUT. -/
def execWaitTimeout (u b e : Nat) (s : State) : Out := .next (s.waitTimeout u b e)
/-- PERMIT_TIMEOUT. -/
def execPermitTimeout (u b : Nat) (s : State) : Out := .next (s.permitTimeout u b)
/-- FAULT_FRAME_WRITE. -/
def execFaultFrameWrite (u b : Nat) (s : State) : Out := .next (s.frameWrite u b)
/-- CORRECTABLE_ERROR_FREEZE. -/
def execCorrectableErrorFreeze (u : Nat) (s : State) : Out := .next (s.freezeUnit u)
/-- FREEZE_END. -/
def execFreezeEnd (u : Nat) (s : State) : Out := .next (s.freezeEnd u)
/-- STATIC_PAUSE_END. -/
def execStaticPauseEnd (u b : Nat) (s : State) : Out := .next (s.pauseEnd u b)
/-- TICK_INTERRUPT. -/
def execTickInterrupt (u : Nat) (s : State) : Out := .next (s.tick u)
/-- DOMAIN_CLOSE. -/
def execDomainClose (d : DomKey) (s : State) : Out := .next (s.domainClose d)
/-- FABRIC_CLOSE_MULTICAST. -/
def execFabricCloseMulticast (d : DomKey) (s : State) : Out := .next (s.fabricClose d)
/-- FABRIC_DOMAIN_ARRIVAL. -/
def execFabricDomainArrival (d : DomKey) (member : Nat) (news : FabricNews) (s : State) : Out := .next (s.fabricArrival d member news)

end Sys2Proof.Machine
end

