-- ==== Sys2Proof/Machine/Host.lean ====
section
/-!
DEFINITION. The package edge: registers, work queues, launch packets, completion and BAR accesses, with the fabric exchange of packets (22 R414 to R429; 13 R302, R306, R314; 14 R340; 23 R445, R452).
-/

namespace Sys2Proof.Machine

/-! ### Interrupts (22 R424) -/

/-- An interrupt of vector `v` of function `f` is sent through the remapping table: dropped and counted through an invalid entry, held through a masked one. -/
def State.irq (s : State) (f v : Nat) : State :=
  let x : Remap := get {} s.remap (2048 * f + v)
  if x.v = false then { s with errs := { s.errs with irqs := s.errs.irqs + 1 } }
  else if x.m then { s with remap := set {} s.remap (2048 * f + v) { x with held := true } }
  else { s with sent := s.sent ++ [Sent.irq x.addr x.data] }

/-! ### The management ring (22 R417, R429) -/

/-- A management command (22 R429). -/
structure MCmd where
  stamp  : Nat
  op     : Nat
  target : Nat
  arg    : Nat
  res    : Nat
  deriving DecidableEq, Repr

/-- The packets of a management ring: below 6, K means 64 (22 R417). -/
def Func.ringK (x : Func) : Nat := max 6 (x.base.toNat % 16)

/-- The host address of the slot that a management ring reads next. -/
def Func.ringAt (x : Func) : Nat := x.base.toNat / 4096 * 4096 + 64 * (x.head.toNat % 2 ^ x.ringK)

/-- Whether a ring's memory answers (22 R427). -/
def State.ringOk (s : State) (a : Nat) : Bool := s.hostOk Pasid.none.id (a / 4096)

/-- A command from its 64 bytes. -/
def mcmd (bs : List Byte) : MCmd :=
  { stamp := leAt bs 0 2, op := leAt bs 2 2, target := leAt bs 4 4, arg := leAt bs 8 8, res := leAt bs 16 8 }

/-- The command codes (22 R429). -/
def commandCodes : List Nat :=
  [0x01, 0x02, 0x03, 0x04, 0x05, 0x10, 0x11, 0x12, 0x13, 0x14, 0x15, 0x16, 0x17, 0x18, 0x19, 0x1A,
   0x20, 0x21, 0x22, 0x23, 0x24, 0x25, 0x26, 0x27, 0x28, 0x29, 0x30, 0x31]

/-- The result of the command at the head of a function's ring is written, the ring moves on, and vector 0 signals (22 R429). `vals` are bytes 4 to 31. -/
def State.finish (s : State) (f status : Nat) (vals : List Byte := []) : State :=
  let x := s.func f
  let m := mcmd (s.hostGet x.ringAt 64)
  let bs := (leBytes 2 m.stamp ++ leBytes 2 status ++ vals ++ List.replicate 28 0).take 32
  ((s.hostPut m.res bs).onFunc f (fun x => { x with head := x.head + 1, stale := none })).irq f 0

/-- A management ring goes to ERROR (22 R416, R417). -/
def State.ringError (s : State) (f code : Nat) : State :=
  s.onFunc f (fun x => { x with state := .error, err := BitVec.ofNat 16 code, stale := none })

/-- The main-core cycles of 1 µs (00 R1, 22 R419). -/
def microsecond : Nat := 1700

/-- A management ring whose stamp is stale (22 R419, R429): the slot is read again 1 µs later, and the ring goes to ERROR where the stamp is stale then. -/
def State.ringStale (s : State) (f : Nat) : State := match (s.func f).stale with
  | none => s.onFunc f (fun x => { x with stale := some s.now })
  | some t => if s.now < t + microsecond then s else s.ringError f 0x0505

/-- The partition of a function. -/
def State.fnPart (s : State) (f : Nat) : Nat := ((s.func f).part).getD 0

/-- The function whose configuration maps a work queue (22 R414, R430). -/
def State.queueFn (s : State) (q : Nat) : Option Nat := (s.funcs.find? (fun f => f.2.qmap.any (fun x => decide (x.2 = some q)))).map Prod.fst

/-- The partition of a work queue: that of the function to which it is mapped, also while the queue does not exist (22 R430). -/
def State.queuePart (s : State) (q : Nat) : Nat := match s.queueFn q with
  | some f => s.fnPart f
  | none => 0

/-- The command at the head of a function's ring with code `op` is carried out by `run` (22 R417, R429, R437): a ring whose memory does not answer, or whose stamp is stale at the second read, goes to ERROR; a bad packet and a command that is not permitted are answered so; one of a partition that is being reset waits. -/
def State.command (s : State) (f op : Nat) (run : MCmd → State → State) : Out :=
  let x := s.func f
  let bs := s.hostGet x.ringAt 64
  let m := mcmd bs
  .next (
    if s.lenfy.boot ≠ .running ∨ x.state ≠ .running ∨ x.tail = x.head then s
    else if s.ringOk x.ringAt = false then s.ringError f 0x0506
    else if m.stamp ≠ x.head.toNat % 65536 then s.ringStale f
    else if !zeroBytes bs 24 64 ∨ !commandCodes.contains m.op then s.finish f 0x0502
    else if m.op ≠ op then s
    else if 0x20 ≤ op ∧ op < 0x30 ∧ f ≠ 0 then s.finish f 0x0508
    else if s.resets (s.fnPart f) then s
    else run m { s with power := 0 })

/-! ### Registers (22 R414, R416, R417, R424) -/

/-- The first digest of a member among those received. -/
def Queue.digestOf (x : Queue) (m : Nat) : Option Digest := (x.digests.find? (fun d => decide (d.1 = m))).map Prod.snd

/-- A queue without the first digest of each member. -/
def Queue.useDigests (x : Queue) (n : Nat) : Queue :=
  { x with digests := (List.range n).foldl (fun l m => l.eraseP (fun d => decide (d.1 = m))) x.digests }

/-- A queue that has left a packet of a fabric of `n` members, of which it is number `own`: the digests for it are used up, those still to come are owed (23 R445). -/
def Queue.spend (x : Queue) (n own : Nat) : Queue :=
  { x.useDigests n with owed := x.owed ++ (List.range n).filter (fun i => decide (i ≠ own) && (x.digestOf i).isNone) }

/-- The state with a queue changed. -/
def State.onQueue (s : State) (q : Nat) (f : Queue → Queue) : State := { s with queues := set {} s.queues q (f (s.queue q)) }

/-- Whether the module presents a function: the physical one and 96 virtual ones, in BOOTFAIL the physical one alone (22 R414, 23 R454). -/
def State.exposed (s : State) (f : Nat) : Bool := decide (f = 0) || (decide (f ≤ 96) && decide (s.lenfy.boot ≠ .fail))

/-- Queue `q` is to be in ERROR or gone: the packet at its head leaves the fabric exchange (23 R445; log entry 68). It takes back a digest that it has sent; where it has sent nothing and `tell` gives a refusal, that is sent. Digests of a packet that it has answered are used up, or dropped when they come. -/
def State.quitFabric (s : State) (q : Nat) (tell : Option Digest) : State :=
  let x := s.queue q
  let m := s.members (s.queuePart q)
  let spent := s.onQueue q (fun x => { x.spend m.1 m.2 with gaveUp := false })
  if m.1 = 1 then s
  else match x.reading, tell with
    | some (.fabric (.value _) _ _ _ _), _ => { spent with sent := s.sent ++ [Sent.digest q .withdraw] }
    | some (.fabric _ _ _ _ _), _ => spent
    | _, some d => if x.gaveUp then spent else { spent with sent := s.sent ++ [Sent.digest q d] }
    | _, none => if x.gaveUp then spent else s

/-- The move of TAIL (22 R416): taken in RUNNING or PAUSED; it wakes the module in any state (22 R440). -/
def State.tailWrite (s : State) (f l : Nat) (v : Word) : State :=
  match (if s.exposed f then s.globalQ f l else none) with
  | none => s
  | some g =>
    let q := s.queue g
    if q.state ≠ .running ∧ q.state ≠ .paused then { s with errs := { s.errs with tails := s.errs.tails + 1 }, power := 0 }
    else if 2 ^ q.k < (v - q.head).toNat then
      { (s.quitFabric g none).onQueue g (fun q => { q with tail := v, state := .error, err := 0x0507, reading := none }) with power := 0 }
    else { s.onQueue g (fun q => { q with tail := v }) with power := 0 }

/-- The move of ADMIN_TAIL (22 R417): it enables a ring that is not in ERROR; in ERROR it is ignored and counted, as TAIL is. -/
def State.adminTail (s : State) (f : Nat) (v : Word) : State :=
  let x := s.func f
  if s.exposed f = false then s
  else if x.state = .error then { s with errs := { s.errs with tails := s.errs.tails + 1 }, power := 0 }
  else if 2 ^ x.ringK < (v - x.head).toNat then
    { s.onFunc f (fun x => { x with tail := v, state := .error, err := 0x0507 }) with power := 0 }
  else { s.onFunc f (fun x => { x with tail := v, state := .running }) with power := 0 }

/-- The move of ADMIN_BASE (22 R417). -/
def State.adminBase (s : State) (f : Nat) (v : DWord) : State :=
  if s.exposed f = false ∨ (s.func f).tail ≠ (s.func f).head then s
  else s.onFunc f (fun x => { x with base := v &&& 0xFFFFFFFFFFFFF00F })

/-- The move of CQH (22 R424). -/
def State.cqHead (s : State) (f c : Nat) (v : Word) : State :=
  if s.exposed f = false ∨ 64 ≤ c then s else s.onFunc f (fun x => { x with cqh := set 0 x.cqh c v })

/-- The effect of a host write at an offset of BAR0 (22 R414, R416, R417): the control page at 0, and the notify page of local queue j at 0x1000 × (j + 1); a write anywhere else is ignored. -/
def State.registerWrite (s : State) (f off : Nat) (v : DWord) : State :=
  let page := off / 4096
  let o := off % 4096
  if page = 0 then
    if o = 0 then s.adminTail f (v.setWidth 32)
    else if o = 0x010 then s.adminBase f v
    else if 0x800 ≤ o ∧ o < 0xA00 ∧ o % 8 = 0 then s.cqHead f ((o - 0x800) / 8) (v.setWidth 32)
    else s
  else if page ≤ 256 ∧ o = 0 then s.tailWrite f (page - 1) (v.setWidth 32)
  else s

/-- The code of a STATE (22 R416). -/
def QState.code : QState → Nat
  | .disabled => 0 | .running => 1 | .draining => 2 | .error => 3 | .paused => 4

/-- STATUS with its fields (22 R416). -/
def statusBits (head : Word) (err : BitVec 16) (st : QState) : DWord := BitVec.ofNat 64 (head.toNat * 2 ^ 32 + err.toNat * 2 ^ 16 + st.code)

/-- STATUS of a queue (22 R416). -/
def Queue.status (x : Queue) : DWord := statusBits x.head x.err x.state

/-- ADMIN_STATUS of a function (22 R417). -/
def Func.status (x : Func) : DWord := statusBits x.head x.err x.state

/-- The fused security version counter of an H-die, of 64 steps (23 R454). -/
def fusedStep (h : Nat) : Nat := Config.fusedSvn h % 65

/-- BOOTST (23 R454); SVN holds the fused value until firmware runs. -/
def State.bootst (s : State) : DWord :=
  let st := match s.lenfy.boot with
    | .booting => 0
    | .running => 1
    | .fail => 2
  let svn := if s.lenfy.booted.contains 0 then s.lenfy.svn.toNat else fusedStep 0
  BitVec.ofNat 64 (svn * 2 ^ 32 + s.lenfy.step % 16 * 16 + st)

/-- What a host read of 8 bytes at an offset of BAR0 returns (22 R416, R417; 23 R454): any other offset reads zero. -/
def State.register (s : State) (f off : Nat) : DWord :=
  let page := off / 4096
  let o := off % 4096
  let x := s.func f
  if page = 0 then
    if o = 0 then zx x.tail
    else if o = 0x008 then x.status
    else if o = 0x010 then x.base
    else if o = 0x100 ∧ f = 0 then s.bootst
    else if 0x800 ≤ o ∧ o < 0xA00 ∧ o % 8 = 0 then zx (get 0 x.cqh ((o - 0x800) / 8) : Word)
    else 0
  else match (if page ≤ 256 then s.globalQ f (page - 1) else none) with
    | none => 0
    | some q =>
      let y := s.queue q
      if o = 0 then zx y.tail else if o = 0x008 then y.status else if o = 0x018 then zx y.done else 0

/-- The move of a host read of a BAR0 register; a function that is not exposed does not answer. -/
def State.registerRead (s : State) (f off : Nat) : State :=
  if s.exposed f then { s with sent := s.sent ++ [Sent.answer (leBytes 8 (s.register f off).toNat)] } else s

/-! ### The checks of a launch packet (22 R418, R419) -/

/-- The byte offset of the first bad field of a packet (22 R418, R419; 12 R285). -/
def State.badField (s : State) (f : Nat) (bs : List Byte) : Option Nat :=
  let p := s.fnPart f
  let launch := decide (leAt bs 2 1 = 0)
  let tasks := leAt bs 8 8
  let n := leAt bs 16 2
  let count := if 1 ≤ n ∧ n ≤ 4096 then n else 1
  if 1 < leAt bs 2 1 then some 2
  else if 16 ≤ leAt bs 3 1 then some 3
  else if 2 ^ 20 ≤ leAt bs 4 4 then some 4
  else if launch ∧ (tasks % 128 ≠ 0 ∨ s.inWindow p tasks (128 * count) = false) then some 8
  else if (launch ∧ (n = 0 ∨ 4096 < n)) ∨ (launch = false ∧ n ≠ 0) then some 16
  else if 64 ≤ leAt bs 20 2 ∧ leAt bs 20 2 ≠ 0xFFFF then some 20
  else if 2048 ≤ leAt bs 22 2 ∧ leAt bs 22 2 ≠ 0xFFFF then some 22
  else if leAt bs 24 8 % 32 ≠ 0 then some 24
  else if leAt bs 48 4 ≠ 0xFFFFFFFF ∧ (256 ≤ leAt bs 48 4 ∨ s.globalQ f (leAt bs 48 4) = none) then some 48
  else none

/-- Whether a function's table holds a PASID (22 R420). -/
def Func.hasPasid (x : Func) (v : Nat) : Bool := x.pasid.any (fun p => decide (p.2.toNat = 2 ^ 20 + v))

/-- The number of registers of an engine's scalar-class space (01 R19). -/
def scalCount : Nat → Nat
  | 0 => 32 | 1 => 8 | 3 => 16 | 4 => 16 | 5 => 8 | _ => 0

/-- Whether a preload entry keeps R306 (13 R306). -/
def preloadOk (mask : BitVec 6) (x : Nat) : Bool :=
  let e := x / 4096 % 8
  let r := x / 128 % 32
  decide (x < 32768) || (decide (e ≠ 2) && decide (e < 6) && mask.getLsbD e && decide (r < scalCount e)
    && !(decide (e = 0) && [0, 30, 31].contains r) && !(decide (e = 1) && [6, 7].contains r)
    && !((decide (e = 3) || decide (e = 4)) && [0, 14, 15].contains r))

/-- The limit of QUOTA at a level for a class; none exists for a reserved level (13 R314, 23 R446). -/
def quotaLimit (level cls members : Nat) : Nat := match level with
  | 0 => 2
  | 1 => 8
  | 2 => if cls = 1 then 64 else 48
  | 3 => 896
  | 4 => 896 * members
  | _ => 0

/-- The scope instances of a level that a set of dies contains (13 R313, R314, 23 R446). -/
def State.scopesOf (s : State) (level p : Nat) (dies : List Nat) : List Nat := match level with
  | 0 => dies.flatMap dieCores
  | 1 => (dies.flatMap dieCores).map (fun u => u / 4) |>.eraseDups
  | 2 => dies
  | 4 => [s.fabricScope p]
  | _ => [p]

/-- The domains that a record names, by their numbers (13 R314). DESIGN CHOICE: a valid DOMLVL with DOMID 0 names none and is accepted, and a DOMID above 32,767 at level 0 names one (log entry 57). -/
def State.domainsOf (s : State) (p : Nat) (r : TaskRec) : List Nat :=
  if r.domlvl < 128 ∨ r.domid = 0 then [] else
  (s.scopesOf (r.domlvl % 8) p (diesOf (BitVec.ofNat 16 r.dies))).map (fun x => domKey (r.domlvl % 8) x r.domid)

/-- The code handle of a record (22 R418). -/
def TaskRec.handle (r : TaskRec) (code : Nat) : Nat := if r.code = 0 then code else r.code

/-- Whether a task record passes the checks of R302 (13 R301, R302, R306; 12 R285; 19 R375). DESIGN CHOICE: a PRED address that is not aligned to 4 fails them (log entry 57). -/
def State.taskOk (s : State) (p args code : Nat) (bs : List Byte) : Bool :=
  let r := taskRec bs
  let dies := diesOf (BitVec.ofNat 16 r.dies)
  decide (leAt bs 56 4 < 2 ^ 18) && decide (leAt bs 66 2 < 4096) && zeroBytes bs 71 72 && zeroBytes bs 100 104
  && decide (r.domlvl / 8 % 16 = 0) && zeroBytes bs 123 124
  && (List.range 6).all (fun d => r.order.contains d) && decide (r.cls < 3) && !dies.isEmpty
  && dies.all (fun d => (dieCores d).any (s.holds p))
  && dies.all (fun d => decide (8 ≤ d) == decide (r.cls = 1)) && decide (r.total ≤ 2 ^ 32)
  && (match get none s.images (r.handle code) with
    | some im => decide (im.part = p) && (decide (r.cls ≠ 2) || im.climb) && r.preload.all (preloadOk im.mask)
    | none => false)
  && r.preload.all (fun x => decide (x < 32768) || s.inWindow p (args + 8 * (x % 128)) 8)
  && r.preds.all (fun x => decide (x.1 = 0) || (decide (x.1 % 4 = 0) && s.inWindow p x.1 4))
  && (decide (r.domlvl < 128) || (decide (r.quota ≠ 0) && decide (r.quota ≤ quotaLimit (r.domlvl % 8) r.cls (s.members p).1)
    && (s.domainsOf p r).all (fun key => match s.domain key with
      | some d => decide (d.quota = r.quota)
      | none => true)))

/-- The version that holds a partition's current flag (23 R450). -/
def State.currentVer (s : State) (p : Nat) : Option Nat :=
  ((somes s.versions).find? (fun x => decide (x.1 / 65536 = p) && x.2.cur)).map (fun x => x.1 % 65536)

/-- The binding of WVER (23 R452): a version or none, or the status of the refusal. -/
def State.bind (s : State) (p w : Nat) : Except Nat (Option Nat) :=
  if w = 0 then .ok none
  else if w = 0xFFFE then .error 0x0502
  else
    let v := if w = 0xFFFF then (s.currentVer p).getD 0 else w
    match get none s.versions (verKey p v) with
    | some x => if w = 0xFFFF ∨ x.state = .loading ∨ x.state = .ready then .ok (some v) else .error 0x0702
    | none => .error 0x0702

/-- The task records of a packet, read under its tag; none while a read misses. -/
def State.records (s : State) (p : Nat) (a : Pasid) (bs : List Byte) : Option (List (List Byte)) :=
  (List.range (leAt bs 16 2)).mapM (fun i => s.devRead p (leAt bs 8 8 + 128 * i) 128 a)

/-- The local checks of a packet of function `f` in the order of R419: none while a record's read misses; a status with its DETAIL where they refuse, else the task records and the version that WVER names. -/
def State.packetCheck (s : State) (f : Nat) (bs : List Byte) : Option (Except (Nat × Nat) (List (List Byte) × Option Nat)) :=
  let p := s.fnPart f
  match s.badField f bs with
  | some o => some (.error (0x0502, o))
  | none =>
    if (s.func f).hasPasid (leAt bs 4 4) = false then some (.error (0x0501, leAt bs 4 4))
    else match s.records p { fn := f, id := leAt bs 4 4 } bs with
      | none => none
      | some rs => match rs.findIdx? (fun r => !s.taskOk p (leAt bs 32 8) (leAt bs 40 8) r) with
        | some i => some (.error (0x0301, i))
        | none => match s.bind p (leAt bs 18 2) with
          | .error st => some (.error (st, if st = 0x0502 then 18 else leAt bs 18 2))
          | .ok w => some (.ok (rs, w))

/-! ### Acceptance and refusal (22 R419, R422; 13 R314) -/

/-- A completion record goes to REC and to the completion queue, each if named (22 R422). -/
def State.complete (s : State) (f recAt cq vec : Nat) (r : List Byte) : State :=
  let s1 := if recAt = 0 then s else s.hostPut recAt r
  if cq = 0xFFFF then s1 else s1.cqPost f cq vec r

/-- A queue goes to ERROR (22 R419, R427); a member of a fabric tells the others (23 R445). -/
def State.queueError (s : State) (q code : Nat) : State :=
  (s.quitFabric q (some (.refusal code))).onQueue q (fun x => { x with state := .error, err := BitVec.ofNat 16 code, reading := none })

/-- A packet refused (22 R419): a record with the status, and HEAD moves on. -/
def State.refuse (s : State) (q : Nat) (bs : List Byte) (st detail : Nat) : State :=
  let x := s.queue q
  let r := s.complBytes (x.head.toNat % 65536) st q x.fn (BitVec.ofNat 64 (leAt bs 56 8)) (detail % 2 ^ 32) 0
  let s1 := s.onQueue q (fun x => { x with head := x.head + 1, reading := none })
  s1.complete x.fn (if leAt bs 24 8 % 32 = 0 then leAt bs 24 8 else 0) (if leAt bs 20 2 < 64 then leAt bs 20 2 else 0xFFFF) (leAt bs 22 2) r

/-- The entry of a domain, made where it is missing: what other members have told of it by now is taken up (13 R314, 23 R446). -/
def State.entryOf (s : State) (key quota : Nat) : Domain × State := match s.domain key with
  | some d => (d, s)
  | none =>
    ((s.early.filter (fun n => decide (n.1 = key))).foldl (fun (d : Domain) n => d.hear n.2.1 n.2.2) { quota := quota },
     { s with early := s.early.filter (fun n => decide (n.1 ≠ key)) })

/-- The entries of the domain tables that a task names (13 R314). -/
def State.addDomains (s : State) (pid i : Nat) (r : TaskRec) (p : Nat) : State :=
  (s.domainsOf p r).foldl (fun s key =>
    let (d, s1) := s.entryOf key r.quota
    { s1 with domains := set none s1.domains key (some { d with tasks := d.tasks ++ [(pid, i)] }) }) s

/-- A packet accepted (22 R418, R419; 13 R314; 23 R452). -/
def State.accept (s : State) (q : Nat) (bs : List Byte) (rs : List (List Byte)) (w : Option Nat) : State :=
  let x := s.queue q
  let p := s.fnPart x.fn
  let pid := s.pids + 1
  let task := fun (i : Nat) (r : List Byte) =>
    let t := taskRec r
    ({ addr := BitVec.ofNat 64 (leAt bs 8 8 + 128 * i), code := t.handle (leAt bs 40 8), cls := t.cls, dies := BitVec.ofNat 16 t.dies } : Task)
  let pkt : Packet := {
    queue := q, idx := x.head.toNat, fn := x.fn, part := p, marker := decide (leAt bs 2 1 = 1)
    prio := leAt bs 3 1 % 8, fence := decide (leAt bs 3 1 / 8 % 2 = 1) && decide (leAt bs 2 1 = 0), pasid := leAt bs 4 4
    tasks := rs.zipIdx.map (fun r => task r.2 r.1), wver := w, cq := leAt bs 20 2, vec := leAt bs 22 2, recAt := BitVec.ofNat 64 (leAt bs 24 8)
    args := BitVec.ofNat 64 (leAt bs 32 8), wq := leAt bs 48 4, wth := BitVec.ofNat 32 (leAt bs 52 4), tag := BitVec.ofNat 64 (leAt bs 56 8) }
  let s1 := { (s.onQueue q (fun x => { x with head := x.head + 1, reading := none })) with
    pids := pid, packets := set none s.packets pid (some pkt) }
  let s2 := rs.zipIdx.foldl (fun s r => s.addDomains pid r.2 (taskRec r.1) p) s1
  match w with
  | none => s2
  | some v => s2.onVersion p v (fun x => { x with bound := x.bound + 1 })

/-- A packet that has passed every check is accepted, with the binding that its WVER has at acceptance (23 R452); `w` is the one that its checks found. -/
def State.acceptNow (s : State) (q : Nat) (bs : List Byte) (rs : List (List Byte)) (w : Option Nat) : State :=
  s.accept q bs rs (match s.bind (s.fnPart (s.queue q).fn) (leAt bs 18 2) with
    | .ok v => v
    | .error _ => w)

/-! ### The fabric exchange (23 R445) -/

/-- The decision of the exchange once a digest or refusal of every member is in (23 R445): a status of its own local checks, FABRIC_MISMATCH with the lowest member that refuses or differs, or acceptance. -/
def State.decideFabric (s : State) (q : Nat) : State :=
  let x := s.queue q
  let m := s.members (s.queuePart q)
  match x.reading with
  | some (.fabric own detail bs rs w) =>
    let all := (List.range m.1).map (fun i => if i = m.2 then some own else x.digestOf i)
    if all.contains none then s
    else
      let s1 := s.onQueue q (fun x => x.useDigests m.1)
      let bad := (List.range m.1).find? (fun i => match all.getD i none with
        | some (.value d) => decide (all.getD 0 none ≠ some (Digest.value d))
        | _ => true)
      match own, bad with
      | .refusal st, some i => s1.refuse q bs st (if st = 0x0701 then i else detail)
      | .refusal st, none => s1.refuse q bs st detail
      | _, some i => s1.refuse q bs 0x0701 i
      | _, none => s1.acceptNow q bs rs w
  | _ => s

/-- The digest of a packet: SHAKE256 over bytes 2 to 19 and 32 to 63 with every task record (23 R445). -/
def packetDigest (bs : List Byte) (rs : List (List Byte)) : Nat :=
  Config.shake256 ((bs.drop 2).take 18 ++ bs.drop 32 ++ rs.flatten)

/-- The end of a packet's local checks: acceptance or refusal, or the exchange of a fabric partition (22 R419, 23 R445). -/
def State.packetChecked (s : State) (q : Nat) (bs : List Byte) (r : Except (Nat × Nat) (List (List Byte) × Option Nat)) : State :=
  let x := s.queue q
  let m := s.members (s.queuePart q)
  if m.1 = 1 then (match r with
    | .error (st, d) => s.refuse q bs st d
    | .ok (rs, w) => s.acceptNow q bs rs w)
  else
    let own : Digest × Nat := match r with
      | .error (st, d) => (.refusal st, d)
      | .ok (rs, _) => if x.gaveUp then (.refusal 0x0701, m.2) else (.value (packetDigest bs rs), 0)
    let kept := match r with
      | .ok y => y
      | .error _ => ([], none)
    let s1 := if x.gaveUp then s else { s with sent := s.sent ++ [Sent.digest q own.1] }
    (s1.onQueue q (fun x => { x with reading := some (.fabric own.1 own.2 bs kept.1 kept.2), gaveUp := false })).decideFabric q

/-! ### Reading packets (22 R419, R427, R428) -/

/-- The host address of the slot of a queue's next packet (22 R415). -/
def Queue.slotAt (x : Queue) : Nat := x.base + 64 * (x.head.toNat % 2 ^ x.k)

/-- Whether a queue reads its next packet. -/
def State.queueReads (s : State) (q : Nat) : Bool :=
  let x := s.queue q
  decide (s.lenfy.boot = .running) && decide (x.tail ≠ x.head) && !s.resets (s.fnPart x.fn)

/-- The first miss that the device meets in the task records of a packet (12 R290). -/
def State.recordsMiss (s : State) (f : Nat) (bs : List Byte) : Option (Tensor × Nat × Nat × Nat) :=
  (List.range (leAt bs 16 2)).findSome? (fun i => s.devMiss (s.fnPart f) (leAt bs 8 8 + 128 * i) 128 { fn := f, id := leAt bs 4 4 })

/-- A slot that has been read with its expected stamp is checked; a record that misses is reported to the batcher of die 0, and the read, which is in progress, goes on once it translates (log entry 58). -/
def State.readSlot (s0 : State) (q : Nat) (bs : List Byte) : State :=
  let s := s0.onQueue q (fun x => { x with reading := some (.records bs) })
  match s.packetCheck (s.queue q).fn bs with
  | none => match s.recordsMiss (s.queue q).fn bs with
    | some (t, n, st, _) => if (s.die 0).full then s else s.report 0 t n st false none
    | none => s
  | some r => s.packetChecked q bs r

/-- The move of PACKET_READ (22 R419): the slot is read, or a read that waits for its task records goes on, in a queue paused meanwhile too (R428). -/
def State.packetRead (s : State) (q : Nat) : State :=
  let x := s.queue q
  let going := match x.reading with
    | some (.records bs) => some bs
    | _ => none
  if s.queueReads q = true ∧ going.isSome ∧ (x.state = .running ∨ x.state = .paused) then s.readSlot q (going.getD [])
  else if s.queueReads q = false ∨ x.state ≠ .running ∨ x.reading.isSome then s
  else if s.ringOk x.slotAt = false then s.queueError q 0x0506
  else
    let bs := s.hostGet x.slotAt 64
    if leAt bs 0 2 ≠ x.head.toNat % 65536 then s.onQueue q (fun x => { x with reading := some (.stamp s.now) })
    else s.readSlot q bs

/-- The move of STAMP_RECHECK (22 R419): the second read, 1 µs after the first; it completes in a queue paused meanwhile (R428). -/
def State.stampRecheck (s : State) (q : Nat) : State :=
  let x := s.queue q
  let due := match x.reading with
    | some (.stamp t) => decide (t + microsecond ≤ s.now)
    | _ => false
  if s.queueReads q = false ∨ (x.state ≠ .running ∧ x.state ≠ .paused) ∨ due = false then s
  else if s.ringOk x.slotAt = false then s.queueError q 0x0506
  else
    let bs := s.hostGet x.slotAt 64
    if leAt bs 0 2 ≠ x.head.toNat % 65536 then s.queueError q 0x0505 else s.readSlot q bs

/-- A list of digests, the newest first, in which the newest one of member `m`, which takes it back, is a refusal (23 R445). -/
def withdrawn (m : Nat) : List (Nat × Digest) → List (Nat × Digest)
  | [] => []
  | d :: ds => if d.1 = m then (m, .refusal 0x0701) :: ds else d :: withdrawn m ds

/-- The move of FABRIC_DIGEST (23 R445): another member's digest or refusal arrives, in whatever state the queue is, or it takes back the digest that it has sent. One that was owed is dropped. -/
def State.fabricDigest (s : State) (q member : Nat) (d : Digest) : State :=
  let x := s.queue q
  let m := s.members (s.queuePart q)
  if m.1 ≤ member ∨ member = m.2 then s
  else if d ≠ .withdraw ∧ x.owed.contains member then { s.onQueue q (fun x => { x with owed := x.owed.erase member }) with power := 0 }
  else { (s.onQueue q (fun x => { x with
    digests := if d = .withdraw then (withdrawn member x.digests.reverse).reverse else x.digests ++ [(member, d)] })).decideFabric q with power := 0 }

/-! ### Completion (22 R421 to R424, R426) -/

/-- Every phase stamp that the jobs of packet `pid` wrote is closed (22 R421). -/
def State.shutStamps (s : State) (pid : Nat) : State :=
  let shut := fun (x : Stamp) => if x.pkt = pid then { x with shut := true } else x
  { s with tensors := s.tensors.map (fun p => (p.1, p.2.map (fun t =>
      { t with tiles := t.tiles.map (fun q => (q.1, { q.2 with stamp := shut q.2.stamp }))
               stamps := t.stamps.map (fun q => (q.1, shut q.2)) }))) }

/-- The move of PACKET_COMPLETE (22 R421): packet `i` of a queue; none completes while its partition is being reset (22 R432). -/
def State.packetComplete (s : State) (q i : Nat) : State :=
  match (s.packetsOf q).find? (fun p => decide (p.2.idx = i)) with
  | none => s
  | some (pid, p) =>
    if s.resets p.part ∨ p.tasks.all (s.taskDone pid p) = false ∨ (p.marker ∧ (s.packetsOf q).head?.map Prod.fst ≠ some pid) then s
    else
      let disc := (p.tasks.map (fun t => t.disc)).sum
      let st := if disc ≠ 0 ∨ (s.queue q).discard then 0x0504 else 0
      let s1 := s.shutStamps pid
      let s2 := s1.onQueue q (fun x => { x with done := x.done + 1 })
      let s3 := match p.wver with
        | none => s2
        | some v => s2.onVersion p.part v (fun x => { x with bound := x.bound - 1 })
      let s4 := s3.complete p.fn p.recAt.toNat p.cq p.vec (s3.complBytes (p.idx % 65536) st q p.fn p.tag disc p.iters)
      ({ s4 with packets := set none s4.packets pid none }).sweepDomains

/-- The move of CQ_APPEND (22 R424): the oldest waiting record is appended if the ring has room; none is written while the function's partition is being reset (22 R432). -/
def State.cqAppend (s : State) (f c : Nat) : State :=
  let x := s.func f
  let y : Cq := get {} x.cqs c
  match y.pend with
  | [] => s
  | (r, vec) :: rest =>
    if 2 ^ y.k ≤ (y.tail - get 0 x.cqh c).toNat ∨ s.resets (s.fnPart f) then s
    else
      let s1 := (s.hostPut (y.base + 32 * (y.tail.toNat % 2 ^ y.k)) r).onFunc f (fun x =>
        { x with cqs := set {} x.cqs c { y with tail := y.tail + 1, pend := rest } })
      if vec = 0xFFFF then s1 else s1.irq f vec

/-- The move of QUEUE_DRAINED (22 R426): no accepted packet remains; the DESTROY_QUEUE at the head of the function's ring completes. -/
def State.queueDrained (s : State) (q : Nat) : State :=
  let x := s.queue q
  if x.state ≠ .draining ∨ !(s.packetsOf q).isEmpty then s
  else
    let s1 := s.onQueue q (fun x => { x with state := .disabled, discard := false })
    let m := mcmd (s.hostGet (s.func x.fn).ringAt 64)
    if (s.func x.fn).tail ≠ (s.func x.fn).head ∧ m.op = 0x02 ∧ s.globalQ x.fn m.target = some q then s1.finish x.fn 0 else s1

/-! ### BAR windows and host writes (22 R425, 14 R340) -/

/-- The tensor and tile of a flat address whose tile has been elided. -/
def State.elided (s : State) (p va : Nat) : Bool := match s.window p va with
  | some t => t.covered && decide ((t.tile (t.ofFlat va).1).cov = 2)
  | none => false

/-- The memory address of a flat address, as a BAR window reaches it, which names no packet (log entry 11); a write that stage 2 forbids reaches none (12 R288; log entry 97). -/
def State.barAddr (s : State) (p va : Nat) (write : Bool) : Option Nat := match s.window p va with
  | some t => if s.elided p va then none else s.devAddr t va .none write
  | none => none

/-- Whether a flat address is a pad byte of an MXINT6 row, which reads zero and takes no write (12 R283). -/
def State.barPad (s : State) (p va : Nat) : Bool := match s.window p va with
  | some t => t.pad (t.ofFlat va).2
  | none => false

/-- The move of HOST_BAR_READ (22 R425, 14 R340): one aligned unit of 64 bytes; an elided tile reads zero, and a byte that no window translates is a free value. -/
def State.barRead (s : State) (p va : Nat) : State :=
  let a := va / 64 * 64
  let bs : List Byte := (List.range 64).map (fun i => match s.barAddr p (a + i) false with
    | some x => if s.barPad p (a + i) then 0 else rdByte s.mem x
    | none => if s.elided p (a + i) then 0 else (Config.freeWord (s.free + i)).setWidth 8)
  { s with sent := s.sent ++ [Sent.answer bs], free := s.free + 64 }

/-- One byte written through a BAR window; its tile's stamp is closed with PCORE 0x3FF (22 R425). -/
def State.barByte (s : State) (p va : Nat) (v : Byte) : State := match s.window p va, s.barAddr p va true with
  | some t, some a =>
    let n := (t.ofFlat va).1
    let s1 := (s.dirty t n).onTensor t.id (fun t => t.setStamp n {})
    if s.barPad p va then s1 else { s1 with mem := wrByte s1.mem a v }
  | _, _ => s

/-- Bytes written through a BAR window. -/
def State.barBytes (s : State) (p va : Nat) : List Byte → State
  | [] => s
  | v :: vs => (s.barByte p va v).barBytes p (va + 1) vs

/-- The move of HOST_BAR_WRITE (22 R425, R436; 14 R340): bytes to an elided tile are discarded and the write counted; a granule written whole is clean. -/
def State.barWrite (s : State) (p va : Nat) (data : List Byte) : State :=
  let n := data.length
  let s1 := s.barBytes p va data
  let s2 := (List.range n).foldl (fun s i =>
    if (va + i) % 16 = 0 ∧ i + 16 ≤ n then (match s.barAddr p (va + i) true with
      | some a => { s with poison := set false s.poison (a / 16) false }
      | none => s) else s) s1
  s.ifRoom p (if anyBelow n (fun i => s.elided p (va + i)) then { s2 with errs := { s2.errs with bar := s2.errs.bar + 1 } } else s2)

/-- TAIL. -/
def execTail (f q : Nat) (v : Word) (s : State) : Out := .next (s.tailWrite f q v)
/-- ADMIN_TAIL. -/
def execAdminTail (f : Nat) (v : Word) (s : State) : Out := .next (s.adminTail f v)
/-- ADMIN_BASE. -/
def execAdminBase (f : Nat) (v : DWord) (s : State) : Out := .next (s.adminBase f v)
/-- CQH. -/
def execCqh (f c : Nat) (v : Word) (s : State) : Out := .next (s.cqHead f c v)
/-- REGISTER_WRITE (22 R414, R416, R417): a host write at an offset of BAR0. -/
def execRegisterWrite (f off : Nat) (v : DWord) (s : State) : Out := .next (s.registerWrite f off v)
/-- PACKET_READ. -/
def execPacketRead (q : Nat) (s : State) : Out := .next (s.packetRead q)
/-- STAMP_RECHECK. -/
def execStampRecheck (q : Nat) (s : State) : Out := .next (s.stampRecheck q)
/-- FABRIC_DIGEST. -/
def execFabricDigest (q member : Nat) (d : Digest) (s : State) : Out := .next (s.fabricDigest q member d)
/-- PACKET_COMPLETE. -/
def execPacketComplete (q i : Nat) (s : State) : Out := .next (s.packetComplete q i)
/-- CQ_APPEND. -/
def execCqAppend (f c : Nat) (s : State) : Out := .next (s.cqAppend f c)
/-- QUEUE_DRAINED. -/
def execQueueDrained (q : Nat) (s : State) : Out := .next (s.queueDrained q)
/-- HOST_BAR_READ. -/
def execHostBarRead (p va : Nat) (s : State) : Out := .next (s.barRead p va)
/-- HOST_BAR_WRITE. -/
def execHostBarWrite (p va : Nat) (data : List Byte) (s : State) : Out := .next (s.barWrite p va data)

end Sys2Proof.Machine
end

