-- ==== Sys2Proof/Machine/Loader.lean ====
section
/-!
DEFINITION. The image loader: the header, the splitter, the loader's checks, the creation of descriptors, and LOAD_IMAGE (02 R35 to R40; 12 R280, R281; 14 R325, R337; 16 R349; 19 R375; 24 R462).
-/

namespace Sys2Proof.Machine

/-- A word of the stream as the splitter places it (02 R36, R37): its stream index, engine, address, value and literal tag. -/
structure Placed where
  idx    : Nat
  eng    : Nat
  addr   : Nat
  word   : Nat
  tagged : Bool
  deriving DecidableEq, Repr

/-- The words of a stream split by engine (02 R36, R37): the next address of each engine, and the engine of a literal that comes next. -/
def split : Map Nat → Option Nat → Nat → List Nat → List Placed
  | _, _, _, [] => []
  | m, lit, i, w :: ws =>
    let e := lit.getD (fld w 29 3)
    let a := get 0 m e
    { idx := i, eng := e, addr := a, word := w, tagged := lit.isSome } ::
      split (set 0 m e (a + 1)) (if lit.isNone ∧ takesLiteral w then some e else none) (i + 1) ws

/-- Whether the loader takes a word for a loop (02 R40). -/
def Placed.isLoop (x : Placed) : Bool :=
  !x.tagged && decide (x.eng < 6) && decide (fld x.word 26 3 = 7) && (decide (fld x.word 21 5 = 6) || decide (fld x.word 21 5 = 7))

/-- Whether the loader takes a word for a branch (02 R40). -/
def Placed.isBranch (x : Placed) : Bool :=
  !x.tagged && decide (x.eng < 6) && decide (fld x.word 26 3 = 7) && (decide (fld x.word 21 5 = 10) || decide (fld x.word 21 5 = 11))

/-- The offset field of a loop word. -/
def Placed.offset (x : Placed) : Nat := fld x.word 0 10

/-- The end address of a loop. -/
def Placed.last (x : Placed) : Nat := x.addr + x.offset

/-- Whether the word at an address of an engine carries the literal tag. -/
def taggedAt (ws : List Placed) (e a : Nat) : Bool := ws.any (fun x => decide (x.eng = e) && decide (x.addr = a) && x.tagged)

/-- The successor of an address (02 R38). -/
def succAt (ws : List Placed) (e a : Nat) : Nat :=
  let a1 := (a + 1) % 2 ^ addrWidth e
  if taggedAt ws e a1 then (a + 2) % 2 ^ addrWidth e else a1

/-- The delay slots of a branch (02 R40). -/
def Placed.slots (ws : List Placed) (x : Placed) : List Nat :=
  let a := succAt ws x.eng x.addr
  [a, succAt ws x.eng a]

/-- Whether an address lies in the body of a loop. -/
def Placed.inBody (l : Placed) (a : Nat) : Bool := decide (l.addr < a) && decide (a ≤ l.last)

/-- The stream index of the first word that a test refuses. -/
def firstBad (ws : List Placed) (f : Placed → Bool) : Option Nat := (ws.find? f).map (fun x => x.idx)

/-- Whether a loop is bad (02 R40, 0x0105). -/
def badLoop (ws : List Placed) (x : Placed) : Bool :=
  x.isLoop && (decide (x.offset = 0) || decide (2 ^ addrWidth x.eng ≤ x.last) || taggedAt ws x.eng x.last)

/-- Whether the end of a loop stands in a delay slot of a branch (02 R40, 0x0106). -/
def endInSlot (ws : List Placed) (x : Placed) : Bool :=
  x.isBranch && ws.any (fun l => l.isLoop && decide (l.eng = x.eng) && (x.slots ws).contains l.last)

/-- Whether a branch in a loop body has a delay slot outside it (02 R40, 0x0107). -/
def straddles (ws : List Placed) (x : Placed) : Bool :=
  x.isBranch && ws.any (fun l => l.isLoop && decide (l.eng = x.eng) && l.inBody x.addr && !(x.slots ws).all l.inBody)

/-- Whether the header's own bytes are bad (02 R35, R40; 16 R349). -/
def badHeader (bs : List Byte) : Bool :=
  let mask := leAt bs 6 1
  let flags := leAt bs 7 1
  let bucket := leAt bs 8 2
  decide (leAt bs 0 4 ≠ 0x475A4B49) || decide (leAt bs 4 2 ≠ 1) || decide (64 ≤ mask) || decide (4 ≤ flags)
  || (decide (flags / 2 = 0) && decide (bucket ≠ 0)) || (decide (flags / 2 = 1) && (decide (bucket = 0) || decide (7 < bucket)))
  || decide (flags = 3)
  || (List.range 6).any (fun e => decide (2 ^ addrWidth e ≤ leAt bs (10 + 2 * e) 2)) || decide (2 ^ 13 ≤ leAt bs 22 2)
  || (List.range 16).any (fun i =>
      let v := leAt bs (32 + i) 1
      decide (v / 64 % 2 = 1) || (decide (128 ≤ v) && [v / 8 % 8, v % 8].any (fun e => decide (5 < e) || decide (mask / 2 ^ e % 2 = 0))))
  || !zeroBytes bs 48 64

/-- The first check of R40 that an image fails: its status and location. -/
def imageFault (bs : List Byte) (ws : List Placed) : Option (Nat × Nat) :=
  let lit := fun (f : Placed → Bool) => firstBad ws (fun x => !x.tagged && f x)
  let none_ := 0xFFFFFFFF
  if badHeader bs then some (0x0101, none_)
  else match lit (fun x => decide (x.eng < 6) && decide (leAt bs 6 1 / 2 ^ x.eng % 2 = 0)) with
    | some i => some (0x0101, i)
    | none => match lit (fun x => decide (6 ≤ x.eng)) with
      | some i => some (0x0102, i)
      | none => match ws.getLast? with
        | some ⟨i, _, _, w, false⟩ => if takesLiteral w then some (0x0103, i) else rest
        | _ => rest
where
  rest : Option (Nat × Nat) :=
    match firstBad ws (fun x => decide (2 ^ addrWidth x.eng ≤ x.addr)) with
    | some i => some (0x0104, i)
    | none => match firstBad ws (badLoop ws) with
      | some i => some (0x0105, i)
      | none => match firstBad ws (endInSlot ws) with
        | some i => some (0x0106, i)
        | none => match firstBad ws (straddles ws) with
          | some i => some (0x0107, i)
          | none => if leAt bs 7 1 % 2 = 1 ∧ 2048 < leAt bs 24 4 then some (0x0108, 0xFFFFFFFF) else none

/-- The image of a header and its split words (02 R35, R36). -/
def imageOf (p : Nat) (bs : List Byte) (ws : List Placed) : Image :=
  { part := p, mask := BitVec.ofNat 6 (leAt bs 6 1), climb := decide (leAt bs 7 1 % 2 = 1), static := decide (leAt bs 7 1 / 2 = 1)
    bucket := leAt bs 8 2, entry := (List.range 6).map (fun e => BitVec.ofNat 13 (leAt bs (10 + 2 * e) 2)), trap := BitVec.ofNat 13 (leAt bs 22 2)
    foot := leAt bs 24 4, toks := (List.range 16).foldl (fun m i => set {} m i (TokFifo.ofBinding (leAt bs (32 + i) 1))) []
    imem := ws.foldl (fun m x => set 0 m (8192 * x.eng + x.addr) (BitVec.ofNat 33 (x.word + (if x.tagged then 2 ^ 32 else 0)))) [] }

/-- The code handle of a new image: the loader's free choice where it names an unused one, else the lowest unused one (log entry 13). -/
def State.newCode (s : State) : Nat :=
  let ok := fun (h : Nat) => decide (1 ≤ h) && decide (h < 2 ^ 64) && decide (get none s.images h = none)
  if ok (Config.freeCode s.free) then Config.freeCode s.free
  else ((1 :: s.images.map (fun x => x.1 + 1)).filter ok).foldl (fun m h => if m = 0 then h else min m h) 0

/-! ### Descriptors (12 R280, R281; 14 R325, R337; 16 R352) -/

/-- The descriptor of a record (12 R280). -/
def tensorOf (p : Nat) (bs : List Byte) : Tensor :=
  let tiled := decide (leAt bs 3 1 % 2 = 1)
  let tbase := leAt bs 56 8
  { id := leAt bs 0 3, part := p, home := stackDie (tbase / 2 ^ 36 % 32), tiled := tiled, covered := decide (leAt bs 3 1 / 2 % 2 = 1)
    ro := decide (leAt bs 3 1 / 4 % 2 = 1), scale := decide (leAt bs 3 1 / 8 % 2 = 1), fmt := leAt bs 4 1, ndim := leAt bs 5 1, fsz := leAt bs 6 1
    order := (List.range 6).map (fun i => leAt bs 8 4 / 8 ^ i % 8), ext := (List.range 6).map (fun i => leAt bs (12 + 4 * i) 4)
    tsh := (List.range 6).map (fun i => if leAt bs (36 + 2 * i) 2 = 0 then 65536 else leAt bs (36 + 2 * i) 2)
    wbase := leAt bs 48 8, tbase := tbase, stride := (List.range 5).map (fun i => leAt bs (64 + 8 * i) 8), scid := leAt bs 104 3 }

/-- Order 1 of R281: the record itself, an unused extent that is not 1 and a SCID that is not MX's among it (12 R280; log entry 94). -/
def badRecord (bs : List Byte) (t : Tensor) : Bool :=
  decide (t.id = 0) || decide (16 ≤ leAt bs 3 1) || !zeroBytes bs 7 8 || decide (2 ^ 18 ≤ leAt bs 8 4) || !zeroBytes bs 107 128
  || decide (7 < t.fmt) || decide (t.ndim = 0) || decide (6 < t.ndim) || decide (9 < t.fsz) || t.ext.any (fun e => decide (e = 0))
  || (t.ext.drop t.ndim).any (fun e => decide (e ≠ 1))
  || !(List.range t.ndim).all (fun d => (t.order.take t.ndim).contains d) || (t.order.drop t.ndim).any (fun d => decide (d ≠ 0))
  || (t.tiled && !zeroBytes bs 64 104) || (!t.tiled && (!zeroBytes bs 36 48 || decide (2 ^ 41 ≤ t.tbase) || t.covered))
  || (!isMx t.fmt && decide (t.scid ≠ 0))

/-- The bytes of a tile (12 R281). -/
def Tensor.tileBytes (t : Tensor) : Nat :=
  let n := ((List.range t.ndim).map (dim t.tsh)).foldl (· * ·) 1
  if isMx t.fmt then n / 32 * blockBytes t.fmt + (if t.fmt = 6 then n / 32 / 21 * 8 else 0) else n * elemBits t.fmt / 8

/-- Order 2 of R281. -/
def badTiles (t : Tensor) : Bool :=
  t.tiled && ((List.range 6).any (fun d => decide (dim t.ext d % dim t.tsh d ≠ 0)) || decide (t.tileBytes ≠ frameBytes t.fsz)
    || decide (dim t.tsh 0 % rowElems t.fmt ≠ 0))

/-- Order 3 of R281. -/
def badDirect (t : Tensor) : Bool :=
  !t.tiled && (t.stride.any (fun x => decide (x % 512 ≠ 0)) || decide (dim t.ext 0 % rowElems t.fmt ≠ 0) || decide (t.tbase % 2 ^ 36 % 4096 ≠ 0))

/-- Whether a record names memory that the package does not hold: a DIRECT tensor that does not lie in a near stack, a tile table on no near stack (00 R1, R3; log entry 78). -/
def badPlace (t : Tensor) : Bool :=
  let stack := t.tbase / 2 ^ 36 % 32
  if t.tiled then decide (stacksOf 2 ≤ stack) else !stackHolds 2 stack (t.tbase % 2 ^ 36) t.windowBytes

/-- Order 4 of R281: the scale companion (05 R123). -/
def State.badScale (s : State) (t : Tensor) : Bool :=
  isMx t.fmt && (decide (dim t.ext 0 % 32 ≠ 0) || match s.tensor t.scid with
    | some c => decide (c.part ≠ t.part) || decide (c.fmt ≠ 4) || decide (c.ext ≠ (dim t.ext 0 / 32) :: t.ext.tail)
    | none => true)

/-- Whether a window overlaps one of its partition (12 R281). -/
def State.windowTaken (s : State) (t : Tensor) : Bool :=
  (somes s.tensors).any (fun x => decide (x.2.part = t.part) && overlap t.wbase t.windowBytes x.2.wbase x.2.windowBytes)

/-- The free coverage trees of a die: it has 4,096 (14 R336). -/
def State.noTree (s : State) (die : Nat) : Bool :=
  decide (4096 ≤ ((somes s.tensors).filter (fun x => x.2.covered && decide (x.2.home = die))).length)

/-- The status of the first check of R281 and R337 that a tensor fails from order 5 on. -/
def State.placeFault (s : State) (t : Tensor) : Option Nat :=
  if t.wbase % frameBytes t.fsz ≠ 0 then some 0x0201
  else if s.windowTaken t then some 0x0202
  else if (s.tensor t.id).isSome then some 0x0203
  else if t.covered ∧ s.noTree t.home then some 0x0204
  else none

/-- The status of the first check of R281 and R337 that a record fails. -/
def State.tensorFault (s : State) (bs : List Byte) (t : Tensor) : Option Nat :=
  if badRecord bs t ∨ badTiles t ∨ badDirect t ∨ badPlace t ∨ s.badScale t then some 0x0201 else s.placeFault t

/-- The box of a whole tensor (14 R325). -/
def Tensor.whole (t : Tensor) : Box := { lo := [0, 0, 0, 0, 0, 0], hi := t.ext }

/-- A DIRECT tensor with the stage-2 entries of its frames, as the buffers of its partition hold them locked from its creation (16 R352). -/
def State.lock (s : State) (t : Tensor) : Tensor :=
  if t.tiled ∨ stage2On t.part = false then t
  else
    let first := t.tbase % 2 ^ 36 / frameBytes t.fsz
    let last := (t.tbase % 2 ^ 36 + t.windowBytes - 1) / frameBytes t.fsz
    { t with locked := (List.range (last - first + 1)).foldl (fun m i =>
        let key := s2Key t.part t.fsz (first + i)
        set {} m key (get {} s.stage2 key)) [] }

/-- The state with a descriptor created, and a root view on handle `h` (14 R325, 16 R352). -/
def State.addTensor (s : State) (t : Tensor) (h : Nat) (holder : Holder) : State :=
  ({ s with tensors := set none s.tensors t.id (some (s.lock t)) }).makeView h
    { part := t.part, tid := t.id, box := t.whole, r := true, w := !t.ro, holder := holder }

/-- A tensor as it is made: each tile of a COVERED one is covered (12 R286). -/
def Tensor.fresh (t : Tensor) : Tensor :=
  if t.covered then { t with tiles := (List.range t.tileCount).map (fun n => (n, ({ cov := 1 } : Tile))) } else t

/-- A descriptor created with its root view (12 R281; 14 R325, R337): the state with the form of the view, or the failing status. -/
def State.createTensor (s : State) (p : Nat) (bs : List Byte) : Except Nat (State × Tensor × Word) :=
  let t := tensorOf p bs
  match s.tensorFault bs t with
  | some st => .error st
  | none => match s.takeHandle p with
    | none => .error 0x0205
    | some h =>
      let s1 := s.addTensor t.fresh h .persistent
      .ok (s1, t, s1.formOf h)

/-- The `n` descriptor records of an argument record at host address `a`, created in order; each root view form is written into bytes 124 to 127 of its record (24 R462): the state, and the status of the first failure, which ends it. -/
def State.loadTensors (s : State) (p a : Nat) : Nat → State × Option Nat
  | 0 => (s, none)
  | n + 1 => match s.createTensor p (s.hostGet a 128) with
    | .error st => (s, some st)
    | .ok (s1, _, form) => (s1.hostPut (a + 124) (leBytes 4 form.toNat)).loadTensors p (a + 128) n

/-- The effect of LOAD_IMAGE (02 R36 to R40, 16 R349, 22 R429, 24 R462): the checks of the image first, then the descriptors behind it. -/
def State.loadImage (s : State) (f : Nat) (m : MCmd) : State :=
  let bs := s.hostGet m.arg 64
  let n := leAt bs 28 4
  let body := s.hostGet (m.arg + 64) (4 * n)
  let behind := m.arg + 64 + 4 * n
  let ws := split [] none 0 ((List.range n).map (fun i => leAt body (4 * i) 4))
  match imageFault bs ws with
  | some (st, loc) => s.finish f st (leBytes 4 loc)
  | none => match s.loadTensors (s.fnPart f) (behind + 4) (leNat (s.hostGet behind 4)) with
    | (s1, some st) => s1.finish f st
    | (s1, none) =>
      let im := imageOf (s1.fnPart f) bs ws
      let h := s1.newCode
      { s1 with images := set none s1.images h (some im), free := s1.free + 1 }.finish f 0 (leBytes 8 h ++ leBytes 2 im.bucket)

/-- LOAD_IMAGE. -/
def execLoadImage (f : Nat) (s : State) : Out := s.command f 0x10 (fun m s => s.loadImage f m)

end Sys2Proof.Machine
end

