-- ==== Sys2Proof/Machine/Admin.lean ====
section
/-!
DEFINITION. The management commands of queues, tensors, Crossings, jobs and tables (22 R420, R424, R426, R427, R429, R436, R439, R440; 12 R280, R281, R287; 14 R325, R337, R346; 17 R362 to R364, R371; 19 R379; 08 R212; 21 R405).
-/

namespace Sys2Proof.Machine

/-! ### Queues (22 R415, R424, R426, R427) -/

/-- The state of a queue that is enabled: RUNNING, or PAUSED while its partition is pre-empted (22 R433). -/
def State.enabledAs (s : State) (f : Nat) : QState := match s.part (s.fnPart f) with
  | some x => if x.state = .running ∨ x.state = .waiting then .running else .paused
  | none => .running

/-- CREATE_QUEUE (22 R415): target: the local queue number. What other members have sent for the queue's next packet stays (23 R445). -/
def execCreateQueue (f base k : Nat) (s : State) : Out := s.command f 0x01 (fun m s =>
  match s.globalQ f m.target with
  | none => s.finish f 0x0502
  | some g =>
    if k < 6 ∨ 15 < k ∨ base % 4096 ≠ 0 ∨ (s.queue g).state ≠ .disabled then s.finish f 0x0502
    else (s.onQueue g (fun x => { fn := f, base := base, k := k, state := s.enabledAs f, digests := x.digests, owed := x.owed })).finish f 0)

/-- A stopped job discarded: its frame slot is free (08 R212). -/
def State.discardStopped (s : State) (u b : Nat) : State :=
  let k := s.bank u b
  let s1 := match k.job, k.fault.bind (fun f => f.slot) with
    | some j, some i => s.onPart j.part (fun p => { p with slots := set false p.slots i false })
    | _, _ => s
  s1.discardJob u b

/-- The domain that a saved job has joined: the DMR of its image names its level and id. -/
def State.savedDomain (s : State) (p : Nat) (v : Saved) : Option Nat :=
  let c := csrOfImage (s.hostGet (s.saveSlot p v.slot) imageBytes) 0
  if c.dmrId = 0 then none else some (domKey c.dmrLevel.toNat (v.job.dscope) c.dmrId.toNat)

/-- A saved job discarded: its views are dropped, it leaves its domain, its iteration counts as discarded (22 R426). -/
def State.discardSaved (s : State) (p : Nat) (v : Saved) : State :=
  let s1 := match s.savedDomain p v with
    | none => s
    | some key => (s.onDomain key (fun d => d.depart v.job.arrived)).tell key (.depart v.job.arrived (s.phaseOf key))
  let s2 := s1.dropViews (s.jobViews v.job.jid)
  let s3 := match s.taskOf v.job with
    | some i => s2.onTask v.job.packet i (fun t => { t with disc := t.disc + 1 })
    | none => s2
  (s3.onPart p (fun x => { x with saved := x.saved.filter (fun y => decide (y.job.jid ≠ v.job.jid)) })).sweepDomains

/-- Whether a bank's job has been stopped by the pre-emption limit and its frame, which goes before its discard, is not written (22 R434). -/
def Bank.limitFrame (k : Bank) : Bool := match k.fault with
  | some f => decide (f.code = 0x0018) && f.slot.isNone
  | none => false

/-- Every job of the packets of a queue is to be discarded (22 R426): one that has not started, or is stopped with every command that it still performs performed, at once; another stopped one when its frame is due, which `preempt` says (17 R366, 22 R434), and another at its next clause boundary. -/
def State.discardJobs (s : State) (q : Nat) : State :=
  let pids := (s.packetsOf q).map Prod.fst
  let s1 := s.placedJobs.foldl (fun s x =>
    if pids.contains x.2.2.packet = false then s
    else if (x.2.2.status = .stopped ∧ s.settled x.1 x.2.1 = true ∧ (s.bank x.1 x.2.1).limitFrame = false) ∨ x.2.2.started = false then s.discardStopped x.1 x.2.1
    else s.onBank x.1 x.2.1 (fun k => k.onJob (fun j => { j with preempt := some true, preCyc := if j.preempt.isNone then 0 else j.preCyc }))) s
  (somes s1.parts).foldl (fun s p => (p.2.saved.filter (fun v => pids.contains v.job.packet)).foldl (fun s v => s.discardSaved p.1 v) s) s1

/-- Every unplaced iteration of the packets of a queue is dropped (22 R426). -/
def State.dropTasks (s : State) (q : Nat) : State :=
  { s with packets := s.packets.map (fun p => (p.1, p.2.map (fun (x : Packet) =>
      if x.queue = q then { x with tasks := x.tasks.map (fun t => { t with dropped := true }) } else x))) }

/-- DESTROY_QUEUE (22 R426): the command completes when the queue has drained. -/
def execDestroyQueue (f : Nat) (discard : Bool) (s : State) : Out := s.command f 0x02 (fun m s =>
  match s.globalQ f m.target with
  | none => s.finish f 0x0502
  | some g =>
    if (s.queue g).state = .draining then s
    else if (s.queue g).state = .disabled then s.finish f 0x0502
    else
      let s1 := (s.quitFabric g none).onQueue g (fun x => { x with state := .draining, reading := none, discard := discard })
      if discard then (s1.dropTasks g).discardJobs g else s1)

/-- RESTART_QUEUE (22 R427). -/
def execRestartQueue (f : Nat) (s : State) : Out := s.command f 0x03 (fun m s =>
  match s.globalQ f m.target with
  | none => s.finish f 0x0502
  | some g =>
    if (s.queue g).state ≠ .error then s.finish f 0x0502
    else (s.onQueue g (fun x => { x with state := s.enabledAs f, reading := none })).finish f 0)

/-- CREATE_CQ (22 R424): target: the completion queue. -/
def execCreateCq (f base k : Nat) (s : State) : Out := s.command f 0x04 (fun m s =>
  if 64 ≤ m.target ∨ k < 4 ∨ 16 < k ∨ (get {} (s.func f).cqs m.target : Cq).live then s.finish f 0x0502
  else (s.onFunc f (fun x => { x with cqs := set {} x.cqs m.target { live := true, base := base, k := k }, cqh := set 0 x.cqh m.target 0 })).finish f 0)

/-- DESTROY_CQ (22 R424): the appends that wait are dropped with it. -/
def execDestroyCq (f : Nat) (s : State) : Out := s.command f 0x05 (fun m s =>
  if (get {} (s.func f).cqs m.target : Cq).live = false then s.finish f 0x0502
  else (s.onFunc f (fun x => { x with cqs := set {} x.cqs m.target {} })).finish f 0)

/-! ### Tensors (12 R280, R281; 14 R325, R337, R346) -/

/-- ALLOC_TENSOR (22 R429; 12 R280, R281; 14 R325, R337). -/
def execAllocTensor (f : Nat) (s : State) : Out := s.command f 0x11 (fun m s =>
  match s.createTensor (s.fnPart f) (s.hostGet m.arg 128) with
  | .error st => s.finish f st
  | .ok (s1, t, form) => s1.finish f 0 (leBytes 4 t.id ++ leBytes 4 form.toNat))

/-- The handles of a tensor's views. -/
def State.viewsOn (s : State) (tid : Nat) : List Nat := (s.views.filter (fun v => v.2.used && decide (v.2.tid = tid))).map Prod.fst

/-- A tensor freed (14 R346): its views are dropped as one move; a COVERED one is deleted once its tiles are elided, another at once, or with the last unperformed command that names it (log entry 69). -/
def State.freeTensor (s : State) (t : Tensor) : State :=
  let s1 := s.dropViews (s.viewsOn t.id)
  if t.covered then s1
  else if s.tensorBusy t.id then s1.onTensor t.id (fun t => { t with freed := true })
  else s1.deleteTensor t

/-- The effect of a command on a tensor of the function's partition: another partition's is not permitted, and none with that id is a bad packet. -/
def State.withTensor (s : State) (f tid : Nat) (act : Tensor → State) : State := match s.tensor tid with
  | none => s.finish f 0x0502
  | some t => if t.part ≠ s.fnPart f then s.finish f 0x0508 else act t

/-- FREE_TENSOR (14 R346; 23 R450): one of a weight version or of a Crossing is not permitted. -/
def execFreeTensor (f : Nat) (s : State) : Out := s.command f 0x12 (fun m s => s.withTensor f m.target (fun t =>
  if t.version.isSome ∨ (s.slotOf t.id 0).isSome then s.finish f 0x0508 else (s.freeTensor t).finish f 0))

/-- INVALIDATE (12 R287): tiles `lo` to `lo + n - 1` of a tensor. -/
def execInvalidate (f lo n : Nat) (s : State) : Out := s.command f 0x13 (fun m s => s.withTensor f m.target (fun t =>
  ({ s with units := s.units.map (fun (p : Nat × Core) => (p.1, { p.2 with ttb := p.2.ttb.filter (fun x =>
      !(decide (x.tid = t.id) && decide (lo ≤ x.tile) && decide (x.tile < lo + n))) })) }).finish f 0))

/-- MOVE_TILE (19 R379): the home die's engine is asked for the move. -/
def execMoveTile (f n tier stack : Nat) (s : State) : Out := s.command f 0x14 (fun m s => s.withTensor f m.target (fun t =>
  if 3 ≤ tier ∨ stacksOf tier ≤ stack ∨ t.tiled = false ∨ t.tileCount ≤ n then s.finish f 0x0502
  else (s.askMove { tid := t.id, tile := n, tier := tier, stack := stack, part := t.part }).finish f 0))

/-! ### Crossings (17 R361 to R364, R371) -/

/-- Whether two dies are the ends of one link (17 R361). -/
def linked (a b : Nat) : Bool :=
  let ends := fun (m c : Nat) => decide (8 ≤ m) && decide (m < 16) && (decide (c = m - 8) || decide (c = (m - 8 + 1) % 8))
  ends a b || ends b a

/-- A main core by its die and number in it. -/
def coreIn (die n : Nat) : Option Nat := if die < 16 then (dieCores die)[n]? else none

/-- The frame size code of a slot of `rows` rows (17 R362); none for another count. -/
def slotSize : Nat → Option Nat
  | 8 => some 0 | 32 => some 1 | 128 => some 2 | 512 => some 3 | 2048 => some 4 | 8192 => some 5 | _ => none

/-- The near stack on which a die's slot tensors lie (12 R291, 17 R363). -/
def nearStack (die : Nat) : Nat := if die < 8 then die else 8 + 2 * (die - 8)

/-- The Crossing of a record, with its slot tensor (17 R362, R363); none where the first check fails. -/
def State.crossingOf (s : State) (p : Nat) (bs : List Byte) : Option (Crossing × Tensor) :=
  let rows := leAt bs 12 4
  let n := if leAt bs 7 1 = 0 then 2 else leAt bs 7 1
  let fmt := leAt bs 8 1
  match coreIn (leAt bs 0 1) (leAt bs 1 1), coreIn (leAt bs 3 1) (leAt bs 4 1), slotSize rows with
  | some a, some c, some z =>
    if !zeroBytes bs 9 12 ∨ !zeroBytes bs 20 24 ∨ 2 ≤ leAt bs 6 1 ∨ 7 < fmt ∨ 4 < n ∨ 8 ≤ leAt bs 2 1 ∨ 8 ≤ leAt bs 5 1
        ∨ linked (leAt bs 0 1) (leAt bs 3 1) = false ∨ s.holds p a = false ∨ s.holds p c = false then none
    else
      let free := Config.freeTensor s.free % 2 ^ 24
      let tid := if free ≠ 0 ∧ s.tensor free = none then free
        else ((1 :: s.tensors.map (fun x => x.1 + 1)).filter (fun x => decide (s.tensor x = none))).foldl (fun m x => if m = 0 then x else min m x) 0
      let e := rowElems fmt
      some ({ part := p, scoreU := a, sid := leAt bs 2 1, rcoreU := c, rid := leAt bs 5 1, rbank := leAt bs 6 1, nslots := n, fmt := fmt
              rows := rows, aw := BitVec.ofNat 32 (leAt bs 16 4), tid := tid, cnt := n },
            { id := tid, part := p, home := leAt bs 3 1, tiled := true, covered := true, ro := false, scale := false, fmt := fmt, ndim := 2
              fsz := z, order := [0, 1, 0, 0, 0, 0], ext := [e, rows * n, 1, 1, 1, 1], tsh := [e, rows, 1, 1, 1, 1], wbase := leAt bs 24 8
              tbase := nearStack (leAt bs 3 1) * 2 ^ 36, stride := [0, 0, 0, 0, 0], scid := 0 })
  | _, _, _ => none

/-- The handles of the first `n` slot views, from slot `i` on: the state with the views, and the handles; none where the quota or the package has none left. -/
def State.slotViews (s : State) (p tid e rows i : Nat) : Nat → Option (State × List Nat)
  | 0 => some (s, [])
  | n + 1 => match s.takeHandle p with
    | none => none
    | some h =>
      let s1 := s.makeView h { part := p, tid := tid, box := { lo := [0, i * rows, 0, 0, 0, 0], hi := [e, (i + 1) * rows, 1, 1, 1, 1] }, holder := .system }
      (s1.slotViews p tid e rows (i + 1) n).map (fun x => (x.1, h :: x.2))

/-- The frames of `n` slots, scrubbed; none where the quota has none left. -/
def State.slotFrames (s : State) (p stack c : Nat) : Nat → Option (State × List Frame)
  | 0 => some (s, [])
  | n + 1 => match s.takeFrame p 2 stack c with
    | none => none
    | some (x, s1) => ((s1.scrubFrame x).slotFrames p stack c n).map (fun y => (y.1, x :: y.2))

/-- The effect of CREATE_CROSSING (17 R363, R371). -/
def State.createCrossing (s : State) (f : Nat) (m : MCmd) : State :=
  let p := s.fnPart f
  match s.crossingOf p (s.hostGet m.arg 32) with
  | none => s.finish f 0x0401
  | some (c, t) =>
    if (get none (s.core c.scoreU).sends c.sid).isSome ∨ (get none (s.core c.rcoreU).recvs c.rid).isSome then s.finish f 0x0402
    else match s.placeFault t with
      | some st => s.finish f st
      | none => match s.slotViews p t.id (rowElems t.fmt) c.rows 0 c.nslots with
        | none => s.finish f 0x0205
        | some (s1, hs) => match s1.slotFrames p (nearStack t.home) t.fsz c.nslots with
          | none => s.finish f 0x0206
          | some (s2, fs) =>
            let x := (s.crossings.map Prod.fst).foldl max 0 + 1
            let tiles : Map Tile := fs.zipIdx.map (fun y => (y.2, {
              v := true, tier := 2, stack := BitVec.ofNat 5 y.1.stack, cov := 1, fbase := BitVec.ofNat 41 y.1.base }))
            let slots : Map Slot := hs.zipIdx.map (fun y => (y.2, { form := s2.formOf y.1 }))
            let s3 := { s2 with tensors := set none s2.tensors t.id (some { t with tiles := tiles })
                                crossings := set none s2.crossings x (some { c with slots := slots }), free := s2.free + 1 }
            let s4 := s3.setCore c.scoreU { s3.core c.scoreU with sends := set none (s3.core c.scoreU).sends c.sid (some x) }
            let s5 := s4.setCore c.rcoreU { s4.core c.rcoreU with recvs := set none (s4.core c.rcoreU).recvs c.rid (some x) }
            s.ifRoom p <| s5.finish f 0 (((hs.map (fun h => leBytes 4 (s2.formOf h).toNat)).flatten ++ List.replicate 16 0).take 16 ++ leBytes 4 t.id)

/-- CREATE_CROSSING. -/
def execCreateCrossing (f : Nat) (s : State) : Out := s.command f 0x15 (fun m s => s.createCrossing f m)

/-- Whether an `XSEND` that names a Crossing is unperformed (17 R364). -/
def State.sending (s : State) (x : Nat) : Bool :=
  s.units.any (fun p => [p.2.b0, p.2.b1].any (fun k => (k.queue 5).any (fun c => match c.op with
    | .xsend y _ _ _ _ _ _ => decide (y = x)
    | _ => false)))

/-- A Crossing destroyed (17 R364, 14 R345): its slot views are freed, its frames scrubbed, its tensor and table entries cleared. -/
def State.dropCrossing (s : State) (x : Nat) (c : Crossing) : State :=
  let away := c.slots.filterMap (fun y => y.2.frame)
  let s1 := (s.viewsOn c.tid).foldl (fun s h => s.freeView h) { s with crossings := set none s.crossings x none }
  let s2 := { s1 with frames := s1.frames.filter (fun g => !away.any (fun f => g.same f))
                      scrubs := s1.scrubs.map (fun (y : Scrub) => match y.slot with
                        | some z => if z.1 = x then { y with slot := none } else y
                        | none => y) }
  let s3 : State := match s2.tensor c.tid with
    | some t => (t.tiles.foldl (fun (s : State) (q : Nat × Tile) => if q.2.v then s.toScrub t q.2 none else s) s2)
    | none => s2
  let s4 := { s3 with tensors := set none s3.tensors c.tid none
                      units := s3.units.map (fun (q : Nat × Core) => (q.1, { q.2 with ttb := q.2.ttb.filter (fun y => decide (y.tid ≠ c.tid)) })) }
  let s5 := s4.setCore c.scoreU { s4.core c.scoreU with sends := set none (s4.core c.scoreU).sends c.sid none }
  s5.setCore c.rcoreU { s5.core c.rcoreU with recvs := set none (s5.core c.rcoreU).recvs c.rid none }

/-- DESTROY_CROSSING (17 R364): target: the slot tensor's id. -/
def execDestroyCrossing (f : Nat) (s : State) : Out := s.command f 0x16 (fun m s => s.withTensor f m.target (fun t =>
  match s.slotOf t.id 0 with
  | none => s.finish f 0x0502
  | some (x, _) => match get none s.crossings x with
    | none => s.finish f 0x0502
    | some c => if s.sending x then s.onCrossing x (fun c => { c with dying := true }) else (s.dropCrossing x c).finish f 0))

/-! ### Jobs and contexts (08 R212, 21 R405) -/

/-- The bank of the stopped job whose frame lies in a slot of a partition's buffer. -/
def State.frameJob (s : State) (p i : Nat) : Option (Nat × Nat) :=
  (s.placedJobs.find? (fun x => decide (x.2.2.part = p) && decide ((s.bank x.1 x.2.1).fault.bind (fun f => f.slot) = some i))).map (fun x => (x.1, x.2.1))

/-- JOB_RESTART (08 R212): target: the frame slot; it waits while the partition is pre-empted (22 R437). -/
def execJobRestart (f : Nat) (s : State) : Out := s.command f 0x17 (fun m s =>
  match s.frameJob (s.fnPart f) m.target with
  | none => s.finish f 0x0502
  | some (u, b) => if s.partRuns (s.fnPart f) then (s.restartJob u b).finish f 0 else s)

/-- JOB_DISCARD (08 R212): target: the frame slot; the frame of a job that is already discarded only frees its slot (22 R434). -/
def execJobDiscard (f : Nat) (s : State) : Out := s.command f 0x18 (fun m s =>
  let p := s.fnPart f
  match s.frameJob p m.target, s.part p with
  | some (u, b), _ => (s.discardStopped u b).finish f 0
  | none, some x => if get false x.slots m.target then (s.onPart p (fun x => { x with slots := set false x.slots m.target false })).finish f 0 else s.finish f 0x0502
  | none, none => s.finish f 0x0502)

/-- Whether a context of a bank unit runs, holds or suspends a command. -/
def BUnit.usesCtx (x : BUnit) (c : Nat) : Bool :=
  (x.cmd.toList ++ x.queue.filter (fun d => d.susp.isSome) ++ x.wr.map (fun w => w.cmd)).any (fun d => decide (d.ctx = c))

/-- RELEASE_CONTEXT (21 R405): context `c` of bank unit `k`; it waits while a command of that context is in progress. -/
def execReleaseContext (f k c : Nat) (s : State) : Out := s.command f 0x19 (fun _ s =>
  match ((s.bunit k).ctx c).owner with
  | none => s.finish f 0x0502
  | some p =>
    if p ≠ s.fnPart f then s.finish f 0x0508
    else if (s.bunit k).usesCtx c then s
    else (s.onBunit k (fun x => x.onCtx c (fun y => { y with owner := none }))).finish f 0)

/-! ### RESYNC (22 R439, 21 R413) -/

/-- The global queues of a partition, ascending (22 R414). -/
def State.partQueues (s : State) (p : Nat) : List Nat :=
  sortBy (fun a b => decide (a ≤ b)) ((s.funcs.filter (fun x => decide (x.2.part = some p))).flatMap (fun x => (somes x.2.qmap).map Prod.snd))

/-- The summary record (22 R439). -/
def State.summary (s : State) (p : Nat) : List Byte :=
  leBytes 4 0x5253594E ++ leBytes 4 (somes s.parts).length ++ leBytes 8 s.errs.corrected.toNat
    ++ leBytes 2 s.errs.replies.toNat ++ leBytes 2 s.errs.bar.toNat ++ leBytes 2 s.errs.tails.toNat ++ leBytes 2 s.errs.irqs.toNat
    ++ leBytes 8 ((s.dies.map (fun d => d.2.out.length + d.2.unans.length)).sum) ++ List.replicate 32 0
    ++ (s.partQueues p).flatMap (fun q => let x := s.queue q
        leBytes 4 q ++ leBytes 2 x.state.code ++ leBytes 2 x.err.toNat ++ leBytes 4 x.head.toNat ++ leBytes 4 x.done.toNat)
    ++ (s.placedJobs.filter (fun x => decide (x.2.2.part = p))).flatMap (fun x =>
        leBytes 4 x.2.2.ord.toNat ++ leBytes 4 x.1 ++ leBytes 8 (s.bank x.1 x.2.1).csr.clst)

/-- Every record of a stack's alert ring has been read: the alert is cleared (21 R413). -/
def Stack.readAll (x : Stack) : Stack := { x with ring := x.ring.map (fun a => { a with seen := true }), alert := false }

/-- RESYNC (22 R439): the summary record stands at the result address in place of a result. -/
def execResync (f : Nat) (s : State) : Out := s.command f 0x1A (fun m s =>
  let s1 := s.hostPut m.res (s.summary (s.fnPart f))
  ({ s1.onFunc f (fun x => { x with head := x.head + 1, stale := none }) with stackSt := s1.stackSt.map (fun (x : Nat × Stack) => (x.1, x.2.readAll)) }).irq f 0)

/-! ### Tables (22 R420, R424, R436, R440) -/

/-- SET_TOLERANCE (22 R440): target: the function. -/
def execSetTolerance (f us : Nat) (s : State) : Out := s.command f 0x27 (fun m s =>
  if 96 < m.target then s.finish f 0x0502 else (s.onFunc m.target (fun x => { x with tol := some us })).finish f 0)

/-- An entry of a function's PASID table written (22 R420): the state and the status. In CONFIG_LOCKED and RUN only the device security manager may, `dsm` (22 R431). -/
def State.putPasid (s : State) (dsm : Bool) (f i : Nat) (pasid : BitVec 20) (v : Bool) : State × Nat :=
  if 96 < f ∨ 1024 ≤ i then (s, 0x0502)
  else if dsm = false ∧ (s.func f).tdisp ≠ .unlocked then (s, 0x0508)
  else (s.onFunc f (fun x => { x with pasid := set 0 x.pasid i (BitVec.ofNat 21 (pasid.toNat + if v then 2 ^ 20 else 0)) }), 0)

/-- The result of a command whose effect answers a state and a status. -/
def State.finishAs (f : Nat) (r : State × Nat) : State := r.1.finish f r.2

/-- WRITE_PASID (22 R420, R431): target: the function. -/
def execWritePasid (f i : Nat) (pasid : BitVec 20) (v : Bool) (s : State) : Out :=
  s.command f 0x28 (fun m s => State.finishAs f (s.putPasid false m.target i pasid v))

/-- The state with a remapping entry written: an interrupt held while masked is sent when M is cleared (22 R424). -/
def State.writeRemap (s : State) (i : Nat) (x : Remap) : State :=
  let old : Remap := get {} s.remap i
  let s1 := { s with remap := set {} s.remap i { x with held := old.held && x.m } }
  if old.held ∧ x.m = false then
    (if x.v then { s1 with sent := s1.sent ++ [Sent.irq x.addr x.data] } else { s1 with errs := { s1.errs with irqs := s1.errs.irqs + 1 } })
  else s1

/-- Entry (f, v) of the remapping table written: the state and the status; `dsm` as in `State.putPasid` (22 R424, R431). -/
def State.putRemap (s : State) (dsm : Bool) (f v : Nat) (x : Remap) : State × Nat :=
  if 96 < f ∨ 2048 ≤ v then (s, 0x0502)
  else if dsm = false ∧ (s.func f).tdisp ≠ .unlocked then (s, 0x0508)
  else (s.writeRemap (2048 * f + v) x, 0)

/-- WRITE_REMAP (22 R424, R431): entry (target function, `v`). -/
def execWriteRemap (f v : Nat) (addr : DWord) (data : Word) (valid masked : Bool) (s : State) : Out :=
  s.command f 0x29 (fun m s => State.finishAs f (s.putRemap false m.target v { addr := addr, data := data, v := valid, m := masked }))

/-- DIRTY_LOG (22 R436): target: a partition with stage 2; a ring of `2^k` entries at `base`. -/
def execDirtyLog (f : Nat) (on : Bool) (base k : Nat) (s : State) : Out := s.command f 0x26 (fun m s =>
  if s.resets m.target then s
  else if (s.part m.target).isNone ∨ stage2On m.target = false then s.finish f 0x0502
  else (s.onPart m.target (fun x => { x with dirty := if on then some (base, k) else none, dlTail := 0, dlHead := 0, dlPend := [] })).finish f 0)

/-- The host has consumed the entries of a partition's dirty log before number `n` (22 R436; log entry 67). -/
def State.dirtyHead (s : State) (p n : Nat) : State :=
  s.onPart p (fun x => if x.dlHead ≤ n ∧ n ≤ x.dlTail then { x with dlHead := n } else x)

/-- DIRTY_LOG_APPEND (22 R436): the oldest waiting entry is appended if the ring has room. -/
def execDirtyLogAppend (p : Nat) (s : State) : Out := .next (match s.part p with
  | none => s
  | some x => match x.dirty, x.dlPend with
    | some (base, k), v :: rest =>
      if 2 ^ k ≤ x.dlTail - x.dlHead then s
      else (s.hostPut (base + 8 * (x.dlTail % 2 ^ k)) (leBytes 8 v.toNat)).onPart p (fun x => { x with dlTail := x.dlTail + 1, dlPend := rest })
    | _, _ => s)

end Sys2Proof.Machine
end

