-- ==== Sys2Proof/Machine/Parts.lean ====
section
/-!
DEFINITION. Partitions: configuration, reset, pre-emption and slices, migration, TDISP (22 R430 to R435, R437, R438; 14 R345; 19 R394).
-/

/-- The state images that other modules have written (22 R435, R438; log entry 7): a counter. -/
opaque Sys2Proof.Config.foreignMig : Nat → Sys2Proof.Machine.Mig

namespace Sys2Proof.Machine

/-! ### Configuration (22 R430) -/

/-- The partitions other than `p`. -/
def State.others (s : State) (p : Nat) : List (Nat × Part) := (somes s.parts).filter (fun x => decide (x.1 ≠ p))

/-- Whether a partition shares its cores with a record: both name one slice group; group 0 is none (22 R433). -/
def Part.shares (x : Part) (r : PartRecord) : Bool := decide (r.sliceGroup ≠ 0) && decide (x.cfg.sliceGroup = r.sliceGroup)

/-- The die of a stack of a tier, as its calendar counts it (12 R291, R293). -/
def calCore (e : CalEntry) : Nat := if e.core < 192 then e.core % 24 else (e.core - 192) % 32

/-- The unit that owns slot `n` of a calendar. -/
def State.slotOwner (s : State) (T i n : Nat) : Option Nat :=
  let v := (get 0 (s.calOf T i) n).toNat
  if v < 2 ^ 15 then none else (dieCores (stackDie i))[v % 32]?

/-- The bytes of the frame quotas of a record on a stack. -/
def quotaBytes (r : PartRecord) (tier stack : Nat) : Nat :=
  ((r.quotas.filter (fun q => decide (q.tier = tier) && decide (q.stack = stack))).map (fun q => q.frames * frameBytes q.fsz)).sum

/-- Whether a record names something that the package does not have (00 R1, R3; 22 R414; log entry 30): functions, units, bank units, stacks, slots, windows or contexts beyond their counts, or a slot or window of a core that it does not hold. -/
def beyondPackage (r : PartRecord) : Bool :=
  decide (2 ^ 19 ≤ r.pid) || r.fns.any (fun f => decide (96 < f)) || r.units.any (fun u => decide (528 ≤ u)) || r.bankUnits.any (fun k => decide (1536 ≤ k))
  || r.quotas.any (fun q => decide (3 ≤ q.tier) || decide (stacksOf q.tier ≤ q.stack) || decide (9 < q.fsz))
  || r.calendar.any (fun e => decide (e.tier ≠ 1 ∧ e.tier ≠ 2) || decide (24 ≤ e.stack) || decide ((if e.tier = 2 then 256 else 16) ≤ e.slot)
      || !r.units.contains e.core || decide (448 ≤ e.core) || decide (dieOf e.core ≠ stackDie e.stack))
  || r.accWins.any (fun w => !r.units.contains w.unit || decide (448 ≤ w.unit) || decide (storeRows w.unit < w.first + w.rows))
  || r.contexts.any (fun c => !r.bankUnits.contains c.1 || decide (4 ≤ c.2))

/-- Whether a record names a fabric domain otherwise than the domain's map does (23 R443; log entry 30). -/
def State.badFabric (s : State) (r : PartRecord) : Bool := match r.fabric with
  | none => false
  | some (d, n, m) => match get none s.lenfy.fabric d with
    | some x => decide (x.size ≠ n) || decide (x.own ≠ m)
    | none => true

/-- The record is refused with BAD_PARTITION (22 R430). -/
def State.badPartition (s : State) (r : PartRecord) : Bool :=
  let os := s.others r.pid
  beyondPackage r || s.badFabric r ||
  os.any (fun x => !x.2.shares r && r.units.any (fun u => x.2.cfg.units.contains u))
  || os.any (fun x => r.bankUnits.any (fun k => x.2.cfg.bankUnits.contains k))
  || os.any (fun x => r.queues.any (fun q => x.2.cfg.queues.any (fun y => decide (y.glob = q.glob))))
  || os.any (fun x => r.fns.any (fun f => x.2.cfg.fns.contains f)) || (decide (r.pid ≠ 0) && r.fns.contains 0)
  || r.calendar.any (fun e => match s.slotOwner e.tier e.stack e.slot with
      | some u => os.any (fun x => !x.2.shares r && x.2.cfg.units.contains u)
      | none => false)
  || r.quotas.any (fun q => decide (stackBytes q.tier < quotaBytes r q.tier q.stack + ((os.map (fun x => quotaBytes x.2.cfg q.tier q.stack)).sum)))
  || r.queues.any (fun q => decide (256 ≤ q.loc) || decide (2048 ≤ q.glob) || !r.fns.contains q.fn)
  || decide (r.handleQuota = 0) || decide (2 ^ 20 ≤ r.handleQuota) || decide (16 < r.nvme.length)
  || decide (r.preLimit < 17000) || decide (170000000 < r.preLimit)
  || (decide (r.sliceGroup ≠ 0) && (decide (r.sliceLen < 170000) || decide (170000000 < r.sliceLen)))

/-- Whether a partition has a placed job or an accepted packet. -/
def State.partBusy (s : State) (p : Nat) : Bool :=
  s.placedJobs.any (fun x => decide (x.2.2.part = p)) || (somes s.packets).any (fun x => decide (x.2.part = p))

/-- The state with a calendar slot written (12 R293). -/
def State.setSlot (s : State) (e : CalEntry) (v : BitVec 16) : State :=
  let x : Stack := get {} s.stackSt (32 * e.tier + e.stack)
  { s with stackSt := set {} s.stackSt (32 * e.tier + e.stack) { x with cal := set 0 x.cal e.slot v } }

/-- The state in which the window of every main core of a record is the one that it receives with its partition: core c rows c × R/4 to c × R/4 + R/4 − 1 (11 R260). -/
def State.plainWindows (s : State) (r : PartRecord) : State :=
  (r.units.filter (fun u => decide (u < 448))).foldl (fun s u => s.onCluster (u / 4) (fun c => { c with win := set none c.win (u % 4) none })) s

/-- The state without what the last configuration of a partition wrote into calendars, clusters and functions. -/
def State.unconfigure (s : State) (p : Nat) : State := match s.part p with
  | none => s
  | some x =>
    let s1 := x.cfg.calendar.foldl (fun s e => s.setSlot e 0) s
    let s2 := s1.plainWindows x.cfg
    x.cfg.fns.foldl (fun s f => s.onFunc f (fun y => { y with part := if f = 0 then some 0 else none, qmap := [] })) s2

/-- The pre-emption limit after reset, 1 ms (22 R434). -/
def microLimit : Nat := 1000 * microsecond

/-- A configuration record applied (22 R430, R434): calendars, accumulator windows, functions with their queues, the pre-emption limit; the partition's histogram banks are clear (13 R309), and its retired handles may be allocated again (14 R323). -/
def State.configure (s : State) (r : PartRecord) : State :=
  let s0 := s.unconfigure r.pid
  let s1 := r.calendar.foldl (fun s e => s.setSlot e (BitVec.ofNat 16 (2 ^ 15 + calCore e))) s0
  let s2 := r.accWins.foldl (fun s w => s.onCluster (w.unit / 4) (fun c => { c with win := set none c.win (w.unit % 4) (some (w.first, w.rows)) })) (s1.plainWindows r)
  let s3 := r.fns.foldl (fun s f => s.onFunc f (fun y => { y with
    part := some r.pid
    qmap := (r.queues.filter (fun q => decide (q.fn = f))).foldl (fun m q => set none m q.loc (some q.glob)) [] })) s2
  let shared := (s.others r.pid).any (fun x => x.2.shares r && decide (x.2.state ≠ .waiting))
  { s3 with parts := set none s3.parts r.pid (some { cfg := r, state := if shared then .waiting else .running, slice := s.now })
            limits := set microLimit s3.limits r.pid r.preLimit
            dies := s3.dies.map (fun (d : Nat × Die) => (d.1, { d.2 with hist := set [] d.2.hist r.pid [] }))
            views := s3.views.map (fun (v : Nat × View) => if v.2.part = r.pid then (v.1, { v.2 with retired := false }) else v) }

/-- The functions that a record configures: those that it names and those that the partition has (22 R431). -/
def State.touches (s : State) (r : PartRecord) : List Nat := r.fns ++ (match s.part r.pid with
  | some x => x.cfg.fns
  | none => [])

/-- A record applied, with the status; for a function in CONFIG_LOCKED or RUN only the device security manager may, `dsm` (22 R430, R431). -/
def State.putRecord (s : State) (dsm : Bool) (r : PartRecord) : State × Nat :=
  if dsm = false ∧ (s.touches r).any (fun x => decide ((s.func x).tdisp ≠ .unlocked)) then (s, 0x0508)
  else if s.badPartition r ∨ s.partBusy r.pid then (s, 0x0602)
  else (s.configure r, 0)

/-- CONFIGURE_PARTITION (22 R430, R431): target: the partition. -/
def execConfigurePartition (f : Nat) (r : PartRecord) (s : State) : Out := s.command f 0x20 (fun m s =>
  if r.pid ≠ m.target then s.finish f 0x0502
  else if s.resets r.pid then s
  else State.finishAs f (s.putRecord false r))

/-- A command of the device security manager over the TDISP channel (22 R431): its status is answered there; one that names an object being reset waits (22 R437). -/
def State.tdispChannel (s : State) (c : TdispCommand) : State :=
  let answer := fun (r : State × Nat) => { r.1 with sent := r.1.sent ++ [Sent.answer (leBytes 2 r.2)] }
  if s.lenfy.boot ≠ .running then s
  else match c with
    | .configure r => if s.resets r.pid then s else answer (s.putRecord true r)
    | .pasid f i pasid v => answer (s.putPasid true f i pasid v)
    | .remap f v addr data valid masked => answer (s.putRemap true f v { addr := addr, data := data, v := valid, m := masked })

/-! ### Reset (22 R432, R437; 14 R345) -/

/-- A member of a fabric that is pre-empted or reset while others wait for it refuses the packet; one that is reset takes back a digest that it has sent, and leaves the packet. One that is pre-empted ends the read (22 R428, 23 R445). -/
def State.giveUp (s : State) (p : Nat) (reset : Bool) : State :=
  (s.partQueues p).foldl (fun s q =>
    let x := s.queue q
    if reset then s.quitFabric q (if x.digests.isEmpty then none else some (.refusal 0x0701))
    else match x.reading with
    | some (.fabric _ _ _ _ _) => s
    | _ => if x.digests.isEmpty ∨ x.gaveUp then s
      else { s.onQueue q (fun x => { x with gaveUp := true }) with sent := s.sent ++ [Sent.digest q (.refusal 0x0701)] }) s

/-- The freeze of a reset (22 R432): every stream stops, no queue is read. -/
def State.resetStart (s : State) (p : Nat) (tdisp : Bool) : State :=
  let s1 := (s.giveUp p true).onPart p (fun x => { x with state := .resetting tdisp })
  let s2 := (s.partQueues p).foldl (fun s q => s.onQueue q (fun x => { x with reading := none })) s1
  s2.placedJobs.foldl (fun s x => if x.2.2.part = p then s.stopJob x.1 x.2.1 { code := 0x0017, eng := 0, precise := false } else s) s2

/-- Whether every command in flight of a frozen partition has been performed or abandoned. -/
def State.frozen (s : State) (p : Nat) : Bool := s.placedJobs.all (fun x => decide (x.2.2.part ≠ p) || s.settled x.1 x.2.1)

/-- What the capture writes to the dump buffer (22 R432): the header, and unless only that is asked for STATUS and DONE of each queue and a frame of each job. -/
def State.dump (s : State) (p : Nat) (headerOnly : Bool) : List Byte :=
  let js := s.placedJobs.filter (fun x => decide (x.2.2.part = p))
  let qs := s.partQueues p
  leBytes 4 0x44554D50 ++ leBytes 4 js.length ++ leBytes 4 qs.length ++ List.replicate 52 0
  ++ (if headerOnly then [] else
    qs.flatMap (fun q => let x := s.queue q
      leBytes 4 (x.err.toNat * 65536 + x.state.code) ++ leBytes 4 x.head.toNat ++ leBytes 4 x.done.toNat ++ leBytes 4 0)
    ++ js.flatMap (fun x => (s.bank x.1 x.2.1).faultFrame x.2.1
        { code := 0x0017, eng := 0, precise := false, cyc := match (s.bank x.1 x.2.1).fault with | some f => f.cyc | none => 0 } x.2.2))

/-- Every view of a partition freed without elide moves (14 R345); a retired handle may be allocated again (14 R323). -/
def State.freeViews (s : State) (p : Nat) : State :=
  { s with views := s.views.filterMap (fun (v : Nat × View) =>
      if v.2.part = p then (if v.2.gen = 0 then none else some (v.1, ({ gen := v.2.gen } : View))) else some v) }

/-- The tensors of a partition after a reset: a COVERED one is deleted; a tile in a frame that the device took is no longer valid. -/
def State.resetTensors (s : State) (p : Nat) : State :=
  let s1 := (somes s.tensors).foldl (fun s x =>
    if x.2.part ≠ p ∨ x.2.covered = false then s
    else
      let s1 := x.2.tiles.foldl (fun (s : State) (q : Nat × Tile) => if q.2.v then s.toScrub x.2 q.2 none else s) s
      { s1 with tensors := set none s1.tensors x.1 none }) s
  let mine := s1.frames.filter (fun g => decide (g.part = p))
  let lost := fun (t : Tensor) (e : Tile) => mine.any (fun g => decide (g.tier = e.tier.toNat) && decide (g.stack = e.stack.toNat)
    && decide (g.fsz = t.fsz) && decide (g.base = e.fbase.toNat))
  { s1 with
    tensors := s1.tensors.map (fun (x : Nat × Option Tensor) => (x.1, x.2.map (fun t =>
      if t.part = p then { t with tiles := t.tiles.map (fun (q : Nat × Tile) => (q.1, if lost t q.2 then { q.2 with v := false } else q.2)) } else t)))
    frames := s1.frames.filter (fun g => decide (g.part ≠ p))
    scrubs := s1.scrubs ++ mine.map (fun g => ({ frame := g } : Scrub)) }

/-- The partitions of a slice group, ascending. -/
def State.groupOf (s : State) (g : Nat) : List (Nat × Part) := if g = 0 then [] else (somes s.parts).filter (fun x => decide (x.2.cfg.sliceGroup = g))

/-- Whether the pre-emption of a partition is complete: every job of it that is still placed is stopped (19 R394). -/
def State.preDone (s : State) (p : Nat) : Bool := s.placedJobs.all (fun x => decide (x.2.2.part ≠ p) || decide (x.2.2.status = .stopped))

/-- Whether another partition of the slice group of `p` runs, or is not off its cores yet (22 R433). -/
def State.sharedOut (s : State) (p : Nat) : Bool := match s.part p with
  | some x => (s.groupOf x.cfg.sliceGroup).any (fun y => decide (y.1 ≠ p) && (decide (y.2.state = .running) || !s.preDone y.1))
  | none => false

/-- The clear of a reset (22 R432): no record that waits is written; in a slice group the partition runs again in its turn (22 R433). -/
def State.resetClear (s : State) (p : Nat) : State :=
  let s1 := s.placedJobs.foldl (fun s x => if x.2.2.part = p then s.freeBank x.1 x.2.1 else s) s
  let s2 := (somes s1.crossings).foldl (fun s x => if x.2.part = p then s.dropCrossing x.1 x.2 else s) s1
  let s3 := (s2.freeViews p).resetTensors p
  let gone := fun (m : Miss) => decide (m.part ≠ p)
  let s4 := { s3 with
    packets := s3.packets.filter (fun (x : Nat × Option Packet) => match x.2 with | some y => decide (y.part ≠ p) | none => false)
    versions := s3.versions.filter (fun (x : Nat × Option Version) => decide (x.1 / 65536 ≠ p))
    bunits := s3.bunits.map (fun (x : Nat × BUnit) => (x.1, { x.2 with ctxs := x.2.ctxs.filter (fun (c : Nat × Ctx) => decide (c.2.owner ≠ some p)) }))
    dies := s3.dies.map (fun (d : Nat × Die) => (d.1, { d.2 with
      hist := set [] d.2.hist p [], batch := d.2.batch.filter gone, out := d.2.out.filter gone, unans := d.2.unans.filter gone
      moves := d.2.moves.filter (fun m => decide (m.part ≠ p)) }))
    uncovs := s3.uncovs.filter (fun x => (s3.tensor x.tid).isSome)
    early := s3.early.filter (fun n => decide (scopeOfKey n.1 ≠ s.fabricScope p))
    funcs := s3.funcs.map (fun (x : Nat × Func) => (x.1, if x.2.part = some p then { x.2 with cqs := x.2.cqs.map (fun (c : Nat × Cq) => (c.1, { c.2 with pend := [] })) } else x.2))
    units := s3.units.map (fun (u : Nat × Core) => (u.1, { u.2 with ttb := u.2.ttb.filter (fun x => (s3.tensor x.tid).isSome) })) }
  let s5 := (s.partQueues p).foldl (fun s q => s.onQueue q (fun x => { digests := x.digests, owed := x.owed })) s4
  let s6 := (s5.onPart p (fun x => { x with
    state := if s.sharedOut p then .waiting else .running, saved := [], slots := [], wanted := none, loads := [], peers := [] })).sweepDomains
  { s6 with domains := s6.domains.filter (fun (d : Nat × Option Domain) => match d.2 with
      | some x => x.tasks.any (fun t => (get none s6.packets t.1).isSome)
      | none => false) }

/-- The capture and clear of a frozen partition (22 R431, R432). -/
def State.resetEnd (s : State) (p : Nat) (headerOnly : Bool) : State := match s.part p with
  | none => s
  | some x => (s.hostPut x.cfg.dumpBase (s.dump p headerOnly)).resetClear p

/-- RESET_PARTITION (22 R432): target: the partition. The first step freezes it; the reset ends once every command in flight is performed or abandoned. -/
def execResetPartition (f : Nat) (s : State) : Out :=
  let x := s.func f
  let m := mcmd (s.hostGet x.ringAt 64)
  if s.lenfy.boot = .running ∧ x.state = .running ∧ x.tail ≠ x.head ∧ f = 0 ∧ m.op = 0x21 ∧ (s.part m.target).map (fun p => p.state) = some (.resetting false) then
    .next (if s.frozen m.target then (s.resetEnd m.target false).finish f 0 else s)
  else s.command f 0x21 (fun m s =>
    if (s.part m.target).isNone then s.finish f 0x0502
    else if s.resets m.target then s
    else s.resetStart m.target false)

/-! ### Pre-emption and slices (22 R433, R434; 19 R394) -/

/-- A partition pre-empted (22 R433, 19 R394): its queues are PAUSED; a job that has not started is saved at once, another one at its next clause boundary. -/
def State.preemptPart (s : State) (p : Nat) (st : PState) : State :=
  let s1 := (s.giveUp p false).onPart p (fun x => { x with state := st })
  let s2 := (s1.partQueues p).foldl (fun s q => s.onQueue q (fun x => { x with state := if x.state = .running then .paused else x.state })) s1
  s2.placedJobs.foldl (fun s x =>
    let (u, b, j) := x
    let pend := s.onBank u b (fun k => k.onJob (fun j => { j with
      preempt := if j.preempt = some true then some true else some false, preCyc := if j.preempt.isNone then 0 else j.preCyc }))
    if j.part ≠ p ∨ j.status = .stopped then s
    else if j.started then pend
    else (s.servePreempt u b 0 j false).getD pend) s2

/-- PREEMPT (22 R433): target: the partition; the pre-emption begins at once and the command completes. -/
def execPreempt (f : Nat) (s : State) : Out := s.command f 0x22 (fun m s =>
  if s.resets m.target then s
  else match s.part m.target with
    | none => s.finish f 0x0502
    | some x => if x.state = .running ∨ x.state = .waiting ∨ x.state = .sliced then (s.preemptPart m.target .preempting).finish f 0 else s.finish f 0x0502)

/-- A partition runs again (22 R433). -/
def State.resumePart (s : State) (p : Nat) : State :=
  let s1 := s.onPart p (fun x => { x with state := .running, slice := s.now, wanted := x.wanted.map (fun _ => true) })
  let s2 := (s1.partQueues p).foldl (fun s q => s.onQueue q (fun x => { x with state := if x.state = .paused then .running else x.state })) s1
  s2.placedJobs.foldl (fun s x => if x.2.2.part ≠ p then s
    else s.onBank x.1 x.2.1 (fun k => k.onJob (fun j => { j with preempt := if j.preempt = some false then none else j.preempt }))) s2

/-- RESUME (22 R433): target: the partition; it waits until the pre-emption is complete, and where other partitions of its slice group run, until its turn has come. A saved image that fails R392 is reported, and its job is not run. -/
def execResume (f : Nat) (s : State) : Out := s.command f 0x23 (fun m s =>
  match s.part m.target with
  | none => s.finish f 0x0502
  | some x =>
    let bad := x.saved.any (fun v => !imageOk (s.hostGet (s.saveSlot m.target v.slot) imageBytes))
    let done := fun (s : State) => (s.onPart m.target (fun x => { x with wanted := none })).finish f (if bad then 0x0601 else 0)
    if x.wanted = some true then done s
    else if x.state ≠ .preempting ∧ x.state ≠ .sliced then (if s.resets m.target then s else s.finish f 0x0502)
    else if s.preDone m.target = false then s
    else if s.sharedOut m.target then s.onPart m.target (fun x => { x with wanted := some false })
    else done (s.resumePart m.target))

/-- Whether a partition has an accepted packet. -/
def State.hasPacket (s : State) (p : Nat) : Bool := (somes s.packets).any (fun x => decide (x.2.part = p))

/-- The next partition of a group in turn after `p` that waits for its slice: one with an accepted packet, or one for which a RESUME waits. -/
def State.nextTurn (s : State) (g p : Nat) : Option Nat :=
  let xs := (s.groupOf g).filter (fun x => decide (x.1 ≠ p)
    && (decide (x.2.wanted = some false) || ((decide (x.2.state = .waiting) || decide (x.2.state = .sliced)) && s.hasPacket x.1)))
  match xs.find? (fun x => decide (p < x.1)) with
  | some x => some x.1
  | none => xs.head?.map Prod.fst

/-- The move of SLICE_EXPIRY (22 R433): the running partition of a group whose slice is over is pre-empted if another one has an accepted packet; where none runs and the pre-emption is complete, the next in turn after the one whose slice was the last runs. -/
def State.sliceExpiry (s : State) (g : Nat) : State :=
  let xs := s.groupOf g
  match xs.find? (fun x => decide (x.2.state = .running)) with
  | some (p, x) => if x.slice + x.cfg.sliceLen ≤ s.now ∧ (s.nextTurn g p).isSome then s.preemptPart p .sliced else s
  | none =>
    if xs.all (fun x => decide (x.2.state = .waiting) || s.preDone x.1) then
      (match xs.foldl (fun (m : Option (Nat × Nat)) x => match m with
          | some y => if y.2 < x.2.slice then some (x.1, x.2.slice) else m
          | none => some (x.1, x.2.slice)) none with
        | some (p, _) => (match s.nextTurn g p with
          | some q => s.resumePart q
          | none => if (s.part p).any (fun x => decide (x.state ≠ .preempting)) then s.resumePart p else s)
        | none => s)
    else s

/-- The pre-emption limit of a partition in cycles (22 R434). -/
def State.limit (s : State) (p : Nat) : Nat := get microLimit s.limits p

/-- The move of PREEMPTION_LIMIT_EXPIRY (22 R434): the job is stopped; its frame and its discard follow with FAULT_FRAME_WRITE. -/
def State.limitExpiry (s : State) (u b : Nat) : State := match (s.bank u b).job with
  | none => s
  | some j =>
      let n := s.limit j.part
      if j.preempt.isNone ∨ j.status = .stopped ∨ j.preCyc < n then s
      else s.stopJob u b { code := 0x0018, eng := 0, precise := false, da := BitVec.ofNat 64 n, db := j.ord }

/-! ### Migration (22 R435, R437, R438) -/

/-- The objects of a pre-empted partition (22 R435); a context has the results that were still to become usable. -/
def State.migOf (s : State) (p : Nat) (x : Part) : Mig :=
  let tids := ((somes s.tensors).filter (fun t => decide (t.2.part = p)))
  { cfg := x.cfg
    queues := (s.partQueues p).map (fun q => (q, s.queue q))
    packets := (somes s.packets).filter (fun y => decide (y.2.part = p))
    domains := (somes s.domains).filter (fun d => d.2.tasks.any (fun t => match get none s.packets t.1 with | some y => decide (y.part = p) | none => false))
    views := s.views.filter (fun v => v.2.used && decide (v.2.part = p))
    tensors := tids
    images := (somes s.images).filter (fun y => decide (y.2.part = p))
    versions := (somes s.versions).filter (fun y => decide (y.1 / 65536 = p)) |>.map (fun y => (y.1 % 65536, y.2))
    crossings := (somes s.crossings).filter (fun y => decide (y.2.part = p))
    hist := s.dies.map (fun d => (d.1, get [] d.2.hist p))
    ctxs := s.bunits.flatMap (fun k => (k.2.ctxs.filter (fun c => decide (c.2.owner = some p))).map (fun c => (k.1, c.1, c.2.retire ((c.2.pend.map (fun p => p.due)).foldl max 0))))
    runs := s.bunits.filterMap (fun k => if (k.2.ctx k.2.run).owner = some p then some (k.1, k.2.run) else none)
    frames := s.frames.filter (fun g => decide (g.part = p))
    saved := x.saved.map (fun v => (v, s.hostGet (s.saveSlot p v.slot) imageBytes)) }

/-- MIGRATE_SAVE (22 R435): target: a pre-empted partition. -/
def execMigrateSave (f : Nat) (s : State) : Out := s.command f 0x24 (fun m s =>
  if s.resets m.target then s
  else match s.part m.target with
  | none => s.finish f 0x0502
  | some x =>
    if (x.state ≠ .preempting ∧ x.state ≠ .sliced) ∨ s.preDone m.target = false then s.finish f 0x0502
    else ({ s with migs := s.migs ++ [s.migOf m.target x] }).finish f 0)

/-- The function of a target record that stands for function `f` of an image: the one at its place among the functions of its record (22 R435; log entry 109). -/
def Mig.fnOn (g : Mig) (c : PartRecord) (f : Nat) : Option Nat := ((g.cfg.fns.zip c.fns).find? (fun x => decide (x.1 = f))).map Prod.snd

/-- The work queue of a target record that stands for queue `q` of an image: the one that the function's counterpart maps under its local number (22 R414, R435; log entry 109). -/
def Mig.queueOn (g : Mig) (c : PartRecord) (q : Nat) : Option Nat :=
  (g.cfg.queues.find? (fun m => decide (m.glob = q))).bind (fun m => (g.fnOn c m.fn).bind (fun f =>
    (c.queues.find? (fun n => decide (n.fn = f) && decide (n.loc = m.loc))).map (fun n => n.glob)))

/-- Whether a target record lacks a counterpart of a queue that exists, of a packet's, or of a saved job's. -/
def Mig.lacksQueue (g : Mig) (c : PartRecord) : Bool :=
  (g.queues.filter (fun q => decide (q.2.state ≠ .disabled))).any (fun q => (g.queueOn c q.1).isNone || (g.fnOn c q.2.fn).isNone)
  || g.packets.any (fun p => (g.queueOn c p.2.queue).isNone || (g.fnOn c p.2.fn).isNone)
  || g.saved.any (fun v => (g.queueOn c v.1.job.queue).isNone || (g.fnOn c v.1.job.fn).isNone)

/-- An image whose queues and functions are those of a target record. -/
def Mig.placed (g : Mig) (c : PartRecord) : Mig :=
  let fn := fun (f : Nat) => (g.fnOn c f).getD f
  let qu := fun (q : Nat) => (g.queueOn c q).getD q
  { g with
    queues := g.queues.filterMap (fun (q : Nat × Queue) => (g.queueOn c q.1).map (fun n => (n, { q.2 with fn := fn q.2.fn })))
    packets := g.packets.map (fun (p : Nat × Packet) => (p.1, { p.2 with fn := fn p.2.fn, queue := qu p.2.queue }))
    versions := g.versions.map (fun (v : Nat × Version) => (v.1, { v.2 with fn := fn v.2.fn }))
    saved := g.saved.map (fun (v : Saved × List Byte) => ({ v.1 with job := { v.1.job with fn := fn v.1.job.fn, queue := qu v.1.job.queue } }, v.2)) }

/-- A stamp of an image with the model's numbers of packets and jobs moved up. -/
def Stamp.renumbered (x : Stamp) (dp dj : Nat) : Stamp :=
  { x with pkt := if x.pkt = 0 then 0 else dp + x.pkt, scope := if x.isPrivate then dj + x.scope else x.scope }

/-- A tensor with its stamps changed. -/
def Tensor.onStamps (t : Tensor) (f : Stamp → Stamp) : Tensor :=
  { t with tiles := t.tiles.map (fun (x : Nat × Tile) => (x.1, { x.2 with stamp := f x.2.stamp }))
           stamps := t.stamps.map (fun (x : Nat × Stamp) => (x.1, f x.2)) }

/-- The stamps of a tensor. -/
def Tensor.allStamps (t : Tensor) : List Stamp := t.tiles.map (fun x => x.2.stamp) ++ t.stamps.map Prod.snd

/-- A job of an image with its numbers moved up. -/
def Job.renumbered (j : Job) (dp dj : Nat) : Job := { j with jid := dj + j.jid, packet := dp + j.packet }

/-- An image whose packets and jobs have numbers above `dp` and `dj`: they are the model's own and no handles of R435 (log entry 28). -/
def Mig.renumbered (g : Mig) (dp dj : Nat) : Mig :=
  { g with
    packets := g.packets.map (fun (x : Nat × Packet) => (dp + x.1, x.2))
    domains := g.domains.map (fun (d : Nat × Domain) => (d.1, { d.2 with
      tasks := d.2.tasks.map (fun (t : Nat × Nat) => (dp + t.1, t.2))
      latches := d.2.latches.map (fun l => (l.1, l.2.1, dj + l.2.2.1, l.2.2.2)) }))
    views := g.views.map (fun (v : Nat × View) => (v.1, { v.2 with holder := match v.2.holder with
      | .job i => .job (dj + i)
      | h => h }))
    tensors := g.tensors.map (fun (t : Nat × Tensor) => (t.1, t.2.onStamps (fun x => x.renumbered dp dj)))
    saved := g.saved.map (fun (v : Saved × List Byte) => ({ v.1 with job := v.1.job.renumbered dp dj }, v.2)) }

/-- The stamps of an image's tensors: they name packets and jobs that may have ended (13 R318). -/
def Mig.stamps (g : Mig) : List Stamp := g.tensors.flatMap (fun t => t.2.allStamps)

/-- The highest number of a packet, and of a job, in an image. -/
def Mig.lastPacket (g : Mig) : Nat :=
  (g.packets.map Prod.fst ++ g.saved.map (fun (v : Saved × List Byte) => v.1.job.packet) ++ g.stamps.map (fun (x : Stamp) => x.pkt)).foldl max 0
def Mig.lastJob (g : Mig) : Nat :=
  (g.saved.map (fun (v : Saved × List Byte) => v.1.job.jid) ++ g.views.map (fun (v : Nat × View) => match v.2.holder with | .job i => i | _ => 0)
    ++ (g.stamps.filter Stamp.isPrivate).map (fun (x : Stamp) => x.scope)).foldl max 0

/-- Whether an image names something that the package does not have (00 R1, R3; log entry 30): units, bank units, contexts, stacks or dies beyond their counts. -/
def Mig.beyond (g : Mig) : Bool :=
  g.tensors.any (fun t => badPlace t.2 || decide (16 ≤ t.2.home))
  || g.frames.any (fun x => !stackHolds x.tier x.stack (4096 * x.base) (frameBytes x.fsz) || decide (3 ≤ x.tier))
  || g.ctxs.any (fun c => decide (1536 ≤ c.1) || decide (4 ≤ c.2.1)) || g.runs.any (fun k => decide (1536 ≤ k.1) || decide (4 ≤ k.2))
  || g.crossings.any (fun x => decide (528 ≤ x.2.scoreU) || decide (528 ≤ x.2.rcoreU)) || g.hist.any (fun h => decide (16 ≤ h.1))
  || g.queues.any (fun q => decide (2048 ≤ q.1)) || g.saved.any (fun v => decide (16 ≤ v.1.job.die) || decide (528 ≤ v.1.job.writer))

/-- Whether a handle, tensor id, code handle, version, Crossing id or bank-unit context of an image is in use here (22 R435). -/
def State.conflict (s : State) (p : Nat) (g : Mig) : Bool :=
  g.views.any (fun v => (get {} s.views v.1 : View).used) || g.tensors.any (fun t => (s.tensor t.1).isSome)
  || g.images.any (fun i => (get none s.images i.1).isSome) || g.ctxs.any (fun c => ((s.bunit c.1).ctx c.2.1).owner.isSome) || g.versions.any (fun v => (get none s.versions (verKey p v.1)).isSome)
  || g.crossings.any (fun x => (get none s.crossings x.1).isSome
      || (get none (s.core x.2.scoreU).sends x.2.sid).isSome || (get none (s.core x.2.rcoreU).recvs x.2.rid).isSome)

/-- The scope instance of a domain of level `l` in partition `p` of a restored image; below level 3 it is `x` as before (13 R313). -/
def State.newScope (s : State) (p l x : Nat) : Nat := if l = 3 then p else if l = 4 then s.fabricScope p else x

/-- A domain's number with the partition of a restored image in its scope (13 R313). -/
def State.rescope (s : State) (p key : Nat) : Nat := domKey (key / 2 ^ 36) (s.newScope p (key / 2 ^ 36) (scopeOfKey key)) (key % 2 ^ 16)

/-- A phase stamp with the partition of a restored image in its scope (13 R318). -/
def State.rescopeStamp (s : State) (p : Nat) (x : Stamp) : Stamp := if x.isPrivate then x else { x with scope := s.newScope p x.plvl.toNat x.scope }

/-- A saved job of an image as a job of partition `p`: the domain that its DMR names is the one of that partition. -/
def State.restoredJob (s : State) (p : Nat) (v : Saved × List Byte) : Saved :=
  let l := (csrOfImage v.2 0).dmrLevel.toNat
  { v.1 with job := { v.1.job with part := p, dscope := s.newScope p l v.1.job.dscope } }

/-- The objects of an image recreated in partition `p`, which record `c` configures (22 R435). -/
def State.restoreMig (s : State) (p : Nat) (c : PartRecord) (old : Mig) : State :=
  let g := (old.placed c).renumbered s.pids s.jids
  let s1 := { s with
    pids := s.pids + old.lastPacket
    jids := s.jids + old.lastJob
    queues := g.queues.foldl (fun (m : Map Queue) (q : Nat × Queue) => set {} m q.1 q.2) s.queues
    packets := g.packets.foldl (fun (m : Map (Option Packet)) (x : Nat × Packet) => set none m x.1 (some { x.2 with part := p })) s.packets
    domains := g.domains.foldl (fun (m : Map (Option Domain)) (d : Nat × Domain) => set none m (s.rescope p d.1) (some d.2)) s.domains
    views := g.views.foldl (fun (m : Map (View)) (v : Nat × View) => set {} m v.1 { v.2 with part := p }) s.views
    tensors := g.tensors.foldl (fun (m : Map (Option Tensor)) (t : Nat × Tensor) => set none m t.1 (some (s.lock { t.2.onStamps (s.rescopeStamp p) with part := p }))) s.tensors
    images := g.images.foldl (fun (m : Map (Option Image)) (i : Nat × Image) => set none m i.1 (some { i.2 with part := p })) s.images
    versions := g.versions.foldl (fun (m : Map (Option Version)) (v : Nat × Version) => set none m (verKey p v.1) (some v.2)) s.versions
    frames := s.frames ++ g.frames.map (fun (f : Frame) => { f with part := p })
    crossings := g.crossings.foldl (fun (m : Map (Option Crossing)) (x : Nat × Crossing) => set none m x.1 (some { x.2 with part := p })) s.crossings }
  let s2 := g.hist.foldl (fun s h => s.onDie h.1 (fun d => { d with hist := set [] d.hist p h.2 })) s1
  let s3 := g.ctxs.foldl (fun s c => s.onBunit c.1 (fun k => k.onCtx c.2.1 (fun _ => { c.2.2 with owner := some p }))) s2
  let s4 := g.crossings.foldl (fun s x =>
    let a := s.setCore x.2.scoreU { s.core x.2.scoreU with sends := set none (s.core x.2.scoreU).sends x.2.sid (some x.1) }
    a.setCore x.2.rcoreU { a.core x.2.rcoreU with recvs := set none (a.core x.2.rcoreU).recvs x.2.rid (some x.1) }) s3
  let s5 := g.runs.foldl (fun s k => s.onBunit k.1 (fun x => if x.cmd.isSome then x else { x with run := k.2 })) s4
  let s6 := g.saved.foldl (fun s v => s.hostPut (s.saveSlot p v.1.slot) v.2) s5
  s6.onPart p (fun x => { x with state := .preempting, saved := g.saved.map (s.restoredJob p) })

/-- The host hands over a state image that another module has written (22 R435, R438). -/
def State.migImport (s : State) (i : Nat) : State := { s with migs := s.migs ++ [Config.foreignMig i] }

/-- MIGRATE_RESTORE (22 R435): target: a partition configured with equal quotas and without objects of its own; `img` is the number of the image, in the order of the saves and imports. The partition is pre-empted until RESUME. -/
def execMigrateRestore (f img : Nat) (s : State) : Out := s.command f 0x25 (fun m s =>
  if s.resets m.target then s
  else match s.part m.target, s.migs[img]? with
    | some x, some g =>
      if x.cfg.quotas ≠ g.cfg.quotas ∨ x.cfg.handleQuota ≠ g.cfg.handleQuota ∨ s.partBusy m.target ∨ g.beyond ∨ g.lacksQueue x.cfg then s.finish f 0x0602
      else if s.conflict m.target g then s.finish f 0x0603
      else (s.restoreMig m.target x.cfg g).finish f 0
    | _, _ => s.finish f 0x0502)

/-! ### TDISP (22 R431) -/

/-- The move of TDISP_CONFIG_LOCKED. -/
def State.tdispLock (s : State) (f : Nat) : State :=
  if f = 0 ∨ 96 < f ∨ (s.func f).tdisp ≠ .unlocked then s else s.onFunc f (fun x => { x with tdisp := .locked })

/-- The stacks on which a partition holds quota. -/
def State.quotaStacks (s : State) (p : Nat) : List Nat := match s.part p with
  | some x => ((x.cfg.quotas.filter (fun q => decide (q.frames ≠ 0))).map (fun q => 32 * q.tier + q.stack)).eraseDups
  | none => []

/-- The move of TDISP_ENTER_RUN: a key is drawn for each stack on which the partition holds quota. -/
def State.tdispRun (s : State) (f : Nat) : State :=
  if (s.func f).tdisp ≠ .locked then s
  else
    let ss := s.quotaStacks (s.fnPart f)
    { s.onFunc f (fun x => { x with tdisp := .run, keys := ss.zipIdx.map (fun y => (y.1, Config.xtsKey (s.free + y.2))) }) with free := s.free + ss.length }

/-- The move of TDISP_EXIT_RUN: every key is destroyed at once, then the partition is reset, and the dump buffer receives the header alone; the reset ends as that of RESET_PARTITION does. -/
def State.tdispExit (s : State) (f : Nat) : State :=
  let p := s.fnPart f
  if (s.func f).tdisp = .run then (s.onFunc f (fun x => { x with tdisp := .unlocked, keys := [] })).resetStart p true
  else if (s.part p).map (fun x => x.state) = some (.resetting true) ∧ s.frozen p then s.resetEnd p true
  else s

/-- SLICE_EXPIRY. -/
def execSliceExpiry (g : Nat) (s : State) : Out := .next (s.sliceExpiry g)
/-- PREEMPTION_LIMIT_EXPIRY. -/
def execPreemptionLimitExpiry (u b : Nat) (s : State) : Out := .next (s.limitExpiry u b)
/-- TDISP_CONFIG_LOCKED. -/
def execTdispConfigLocked (f : Nat) (s : State) : Out := .next (s.tdispLock f)
/-- TDISP_ENTER_RUN. -/
def execTdispEnterRun (f : Nat) (s : State) : Out := .next (s.tdispRun f)
/-- TDISP_EXIT_RUN. -/
def execTdispExitRun (f : Nat) (s : State) : Out := .next (s.tdispExit f)

end Sys2Proof.Machine
end

