-- ==== Sys2Proof/Machine/Fabric.lean ====
section
/-!
DEFINITION. Weight images and versions, the governor, alerts, power levels, boot and attestation (21 R412, R413; 22 R440; 23 R447 to R455).
-/

namespace Sys2Proof.Machine

/-! ### The end of a load (23 R448 to R451) -/

/-- A weight version. -/
def State.version (s : State) (p v : Nat) : Option Version := get none s.versions (verKey p v)

/-- The result of LOAD_WEIGHTS at the head of its function's ring (23 R451): version id in bytes 4 and 5, tensor count in bytes 8 to 11, DETAIL in bytes 12 to 15. -/
def State.loadResult (s : State) (v : Nat) (x : Version) (status detail : Nat) : State :=
  s.finish x.fn status (leBytes 2 v ++ leBytes 2 0 ++ leBytes 4 x.roots.length ++ leBytes 4 detail)

/-- A load ends with an error (23 R448, R449): the entry is FAILED, the image's tensors are freed as R346 gives, and what waits on a pending tile takes the address fault. -/
def State.failLoad (s : State) (p v status detail : Nat) : State := match s.version p v with
  | none => s
  | some x =>
    let s1 := s.onVersion p v (fun y => { y with state := .failed, waits := [], hashes := [] })
    let s2 := x.tids.foldl (fun s tid => match s.tensor tid with
      | none => s
      | some t => (s.onTensor tid (fun t => { t with tiles := t.tiles.map (fun (q : Nat × Tile) => (q.1, { q.2 with pend := false })) })).freeTensor t) s1
    let s3 := x.waits.foldl (fun s w => s.failJob w.2.2) s2
    s3.loadResult v { x with roots := [] } status detail

/-- A load has brought every tile (23 R450, R451): the entry is READY, and the root view forms stand in the array VIEWS. -/
def State.readyLoad (s : State) (p v : Nat) : State := match s.version p v with
  | none => s
  | some x => ((s.onVersion p v (fun y => { y with state := .ready })).hostPut x.views.toNat (x.roots.flatMap (fun f => leBytes 4 f.toNat))).loadResult v x 0 0

/-! ### LOAD_WEIGHTS and SET_CURRENT (23 R450, R451) -/

/-- Whether an argument record of LOAD_WEIGHTS is bad (23 R451); the VID is tested apart. -/
def State.badLoad (s : State) (p : Nat) (bs : List Byte) : Bool :=
  decide (leAt bs 0 2 = 0) || decide (0xFFFE ≤ leAt bs 0 2) || decide (2 ≤ leAt bs 2 1) || !zeroBytes bs 3 4 || !zeroBytes bs 32 64
  || decide (leAt bs 8 8 % 4096 ≠ 0) || (match s.part p with
    | some x => decide (x.cfg.nvme.length ≤ leAt bs 4 4)
    | none => true)

/-- Whether the records of all members of a fabric are the same but for the reader flag, which exactly one sets (23 R451). -/
def recordsAgree (rs : List (List Byte)) : Bool :=
  let plain := fun (bs : List Byte) => setBytes bs 2 [0]
  rs.all (fun r => decide (plain r = plain (rs.headD []))) && decide ((rs.filter (fun r => decide (leAt r 2 1 % 2 = 1))).length = 1)

/-- A load whose records agree goes on: the reader reads the image from its target (23 R451). -/
def State.loadAgreed (s : State) (p v : Nat) : State := match s.version p v with
  | none => s
  | some x =>
    let s1 := s.onVersion p v (fun y => { y with agreed := true })
    if x.reader then { s1 with sent := s1.sent ++ [Sent.nvme p v x.tgt x.offset x.len] } else s1

/-- The oldest load of this member that is not compared yet, once a record of every other member is there: it goes on, or ends with FABRIC_MISMATCH (23 R451). -/
def State.compareLoad (s : State) (p : Nat) : State := match s.part p with
  | none => s
  | some x => match x.loads with
    | [] => s
    | (v, own) :: rest =>
      let others := (List.range (s.members p).1).filter (fun i => decide (i ≠ (s.members p).2))
      let got := others.map (fun i => (x.peers.find? (fun y => decide (y.1 = i))).map Prod.snd)
      if got.contains none then s
      else
        let s1 := s.onPart p (fun x => { x with
          loads := rest, peers := others.foldl (fun l i => l.eraseP (fun y => decide (y.1 = i))) x.peers })
        if v = 0 then s1
        else if recordsAgree (own :: got.filterMap id) then s1.loadAgreed p v
        else s1.failLoad p v 0x0701 0

/-- A member has issued a LOAD_WEIGHTS: its record goes to the others, and is compared with theirs in the order of the commands (23 R451); `v` is 0 where this member has refused it. -/
def State.offerLoad (s : State) (p v : Nat) (record : List Byte) : State :=
  let s1 := if (s.members p).1 = 1 then s else { s with sent := s.sent ++ [Sent.load p record] }
  (s1.onPart p (fun x => { x with loads := x.loads ++ [(v, record)] })).compareLoad p

/-- The record of a LOAD_WEIGHTS of another member arrives (23 R451). -/
def State.loadRecord (s : State) (p member : Nat) (record : List Byte) : State :=
  let m := s.members p
  if m.1 ≤ member ∨ member = m.2 then s
  else (s.onPart p (fun x => { x with peers := x.peers ++ [(member, record)] })).compareLoad p

/-- LOAD_WEIGHTS (23 R450, R451): an entry LOADING is created; the command ends with the load. -/
def execLoadWeights (f : Nat) (s : State) : Out := s.command f 0x30 (fun m s =>
  let p := s.fnPart f
  let bs := s.hostGet m.arg 64
  let v := leAt bs 0 2
  let refuse := (s.offerLoad p 0 bs).finish f 0x0502
  if s.badLoad p bs then refuse
  else
    let go : State := ({ s with versions := set none s.versions (verKey p v) (some {
      fn := f, views := BitVec.ofNat 64 (leAt bs 24 8), result := BitVec.ofNat 64 m.res, stamp := BitVec.ofNat 32 m.stamp
      reader := decide (leAt bs 2 1 = 1), tgt := leAt bs 4 4, offset := leAt bs 8 8, len := leAt bs 16 8 }) }).offerLoad p v bs
    match s.version p v with
    | some x =>
      if x.state = .loading ∧ x.fn = f ∧ x.stamp = BitVec.ofNat 32 m.stamp then s
      else if x.state = .retired then go else refuse
    | none => go)

/-- SET_CURRENT (23 R450): target: the version id. -/
def execSetCurrent (f : Nat) (s : State) : Out := s.command f 0x31 (fun m s =>
  let p := s.fnPart f
  match (if m.target < 65536 then s.version p m.target else none) with
  | some x =>
    if x.state ≠ .ready then s.finish f 0x0705
    else ({ s with versions := s.versions.map (fun (y : Nat × Option Version) =>
        if y.1 / 65536 = p then (y.1, y.2.map (fun (z : Version) => { z with cur := decide (y.1 = verKey p m.target) })) else y) }).finish f 0
  | none => s.finish f 0x0705)

/-! ### Manifests (23 R447, R448) -/

/-- The SIG field of a manifest: its last 1,280 bytes. -/
def sigBytes : Nat := 1280

/-- The fixed fields and the length of a manifest (23 R447); the tile data stand behind it. -/
def manifestOk (m : List Byte) : Bool :=
  decide (leAt m 0 4 = 0x574D4E46) && decide (leAt m 4 2 = 1) && decide (leAt m 6 1 < 8) && zeroBytes m 7 8 && zeroBytes m 24 64
  && decide (1 ≤ leAt m 8 4) && decide (leAt m 8 4 ≤ 4096) && decide (m.length ≤ leAt m 16 8) && decide (m.length = 64 + 128 * leAt m 8 4 + 32 * leAt m 12 4 + sigBytes)

/-- Whether the signature of a manifest verifies under the publisher key of its slot; an empty slot verifies nothing (23 R448). -/
def State.manifestSigned (s : State) (m : List Byte) : Bool :=
  let key := get [] s.lenfy.keys (leAt m 6 1)
  manifestOk m && !key.isEmpty && Config.falconVerify key (m.drop (m.length - sigBytes)) (m.take (m.length - sigBytes))

/-- A tensor of a weight image: every tile pending (23 R448). -/
def pendingTensor (v : Nat) (t : Tensor) : Tensor :=
  { t with version := some v, tiles := (List.range t.tileCount).map (fun n => (n, ({ pend := true, cov := 1 } : Tile))) }

/-- The descriptors of a manifest created in order: the state with the forms of their root views, or the status of the first failure (23 R448). -/
def State.imageTensors (s : State) (p v : Nat) : List (List Byte) → Except Nat (State × List (Tensor × Word))
  | [] => .ok (s, [])
  | bs :: rest =>
    let t := tensorOf p bs
    if t.tiled = false ∨ t.covered = false ∨ t.ro = false then .error 0x0201
    else match s.tensorFault bs t with
      | some st => .error st
      | none => match s.takeHandle p with
        | none => .error 0x0205
        | some h =>
          let s1 := s.addTensor (pendingTensor v t) h .system
          match s1.imageTensors p v rest with
          | .error st => .error st
          | .ok (s2, l) => .ok (s2, (t, s1.formOf h) :: l)

/-- The hash list of a manifest from entry `i` on: the tiles, whose frame images follow one another in the tile data from `off` on (23 R447). -/
def hashFrom (m : List Byte) : Nat → Nat → List (Tensor × Nat) → List HashEnt
  | _, _, [] => []
  | i, off, (t, n) :: rest =>
    { idx := i, tid := t.id, tile := n, hash := leAt m (64 + 128 * leAt m 8 4 + 32 * i) 32, off := off } :: hashFrom m (i + 1) (off + frameBytes t.fsz) rest

/-- The hash list of an image: tensor by tensor, tile by tile (23 R447). -/
def hashList (m : List Byte) (ts : List Tensor) : List HashEnt :=
  hashFrom m 0 0 (ts.flatMap (fun t => (List.range t.tileCount).map (fun n => (t, n))))

/-- The reader of an image sends what it has read over the tree, whatever has become of its own load (23 R448, R451). -/
def State.multicast (s : State) (p v : Nat) (x : Version) (data : List Byte) : State :=
  if x.reader ∧ x.agreed ∧ (s.members p).1 ≠ 1 then { s with sent := s.sent ++ [Sent.weights p v data] } else s

/-- The move of WEIGHT_MANIFEST_ARRIVAL (23 R448). -/
def State.manifestArrival (s0 : State) (p v : Nat) (m : List Byte) : State := match s0.version p v with
  | none => s0
  | some x =>
    let s := s0.multicast p v x m
    if x.state ≠ .loading ∨ x.verified ∨ x.agreed = false then s
    else if s.manifestSigned m = false then s.failLoad p v 0x0703 0
    else match s.imageTensors p v ((List.range (leAt m 8 4)).map (fun i => (m.drop (64 + 128 * i)).take 128)) with
      | .error st => s.failLoad p v st 0
      | .ok (s1, l) =>
        let hs := hashList m (l.map Prod.fst)
        if hs.length ≠ leAt m 12 4 then s.failLoad p v 0x0201 0
        else s1.onVersion p v (fun y => { y with verified := true, data := leAt m 16 8, roots := l.map Prod.snd, tids := l.map (fun z => z.1.id), hashes := hs })

/-! ### Tiles (23 R448, R449) -/

/-- A store-tier frame of a partition's quota: on the first store stack that supplies one. -/
def State.storeFrame (s : State) (p fsz : Nat) : Option (Frame × State) := (List.range 8).findSome? (fun i => s.takeFrame p 0 i fsz)

/-- A tile of a weight image that has been hashed right: its entry is valid in one step, its bytes stand in frame `f` at machine offset `a`, and what waits for it goes on (23 R448, R449). -/
def State.tileLands (s : State) (p v : Nat) (t : Tensor) (n : Nat) (f : Frame) (a : Nat) (data : List Byte) : State :=
  let s1 := s.scrubFrame f
  let s2 := { s1 with mem := wrBytes s1.mem (physAddr f.tier f.stack a) data }
  let s3 := s2.onTensor t.id (fun t => { t with tiles := set {} t.tiles n { t.tile n with
    v := true, tier := 0, stack := BitVec.ofNat 5 f.stack, fbase := BitVec.ofNat 41 f.base, pend := false } })
  let mine := fun (w : Nat × Nat × Waiter) => decide (w.1 = t.id) && decide (w.2.1 = n)
  match s3.version p v with
  | none => s3
  | some x => (x.waits.filter mine).foldl (fun s w => s.retryJob w.2.2)
      (s3.onVersion p v (fun y => { y with hashes := y.hashes.filter (fun h => !(decide (h.tid = t.id) && decide (h.tile = n)))
                                           waits := y.waits.filter (fun w => !mine w) }))

/-- The move of WEIGHT_TILE_ARRIVAL (23 R448): tile `i` of the hash list. One that arrives before the manifest is discarded; one for which no store-tier frame is free, or one without a machine frame under it (log entry 98), waits; one that lies beyond the bytes that are read does not arrive (23 R447, R451). -/
def State.tileArrival (s0 : State) (p v i : Nat) (data : List Byte) : State := match s0.version p v with
  | none => s0
  | some x =>
    let s := s0.multicast p v x data
    match x.hashes.find? (fun h => decide (h.idx = i)) with
    | none => s
    | some h => match s.tensor h.tid with
      | none => s
      | some t =>
        if x.state ≠ .loading ∨ data.length ≠ frameBytes t.fsz ∨ x.len < x.data + h.off + frameBytes t.fsz then s
        else match s.storeFrame p t.fsz with
          | none => s
          | some (f, s1) => match s1.machineBase f with
          | none => s
          | some a =>
            s.ifRoom p <| if Config.shake256 data = h.hash then
              let s2 := s1.tileLands p v t h.tile f a data
              if (s2.version p v).any (fun y => y.hashes.isEmpty) then s2.readyLoad p v else s2
            else
              let s2 := (s1.scrubFrame f).giveBack f
              if x.resent.contains i then s2.failLoad p v 0x0704 i
              else { s2.onVersion p v (fun y => { y with resent := y.resent ++ [i] }) with sent := s2.sent ++ [Sent.resend p v i] }

/-- The move of TILE_RESEND_REQUEST (23 R448): the reader sends tile `i` again to a member. -/
def State.resendRequest (s : State) (p v i member : Nat) : State := match s.version p v with
  | some x => if x.reader ∧ member < (s.members p).1 then { s with sent := s.sent ++ [Sent.tile p v i member] } else s
  | none => s

/-- The move of VERSION_RETIRE (23 R453): those of its root views that are not dropped yet are dropped in one view move. -/
def State.versionRetire (s : State) (p v : Nat) : State := match s.version p v with
  | none => s
  | some x =>
    if x.cur ∨ x.bound ≠ 0 ∨ (x.state ≠ .ready ∧ x.state ≠ .failed) then s
    else (s.onVersion p v (fun y => { y with state := .retired })).dropViews ((x.roots.filter (fun f => (s.viewOf p f).isSome)).map formHandle)

/-- The move of PUBLISHER_KEY_PROVISION (23 R448). -/
def State.keyProvision (s : State) (slot : Nat) (key : List Byte) : State :=
  if 8 ≤ slot ∨ s.lenfy.boot ≠ .running then s else { s with lenfy := { s.lenfy with keys := set [] s.lenfy.keys slot key } }

/-! ### The governor (21 R412) -/

/-- The clock that the governor aims at, in units of 100 MHz. -/
def clockFor (n : Nat) : Nat :=
  if n ≤ 192 then 17 else if n ≤ 384 then 16 else if n ≤ 576 then 15 else if n ≤ 768 then 14 else if n ≤ 1152 then 13 else 12

/-- The move of GOVERNOR_TICK: 4,096 cycles after the last one. -/
def State.governorTick (s : State) : State :=
  if s.now < s.governed + 4096 then s
  else
    let want := clockFor (s.bunits.filter (fun x => x.2.busy)).length
    { s with governed := s.governed + 4096, clock := if s.clock < want then s.clock + 1 else if want < s.clock then s.clock - 1 else s.clock }

/-! ### Alerts (21 R413, 05 R126) -/

/-- The KIND byte of an alert record; an error on a core's die has none. -/
def alertCode : AlertKind → Nat
  | .dramUncorrectable => 1 | .microcodeParity => 2 | .bankMachineCheck => 3 | .thermal => 4
  | .onChip _ _ _ => 0

/-- A stack that has logged an event: the ring keeps the last 32 records, and COUNT counts the events at one place, saturating. -/
def Stack.log (x : Stack) (kind : Nat) (unit : Byte) (bank : BitVec 16) (row : Word) : Stack :=
  let same := x.ring.filter (fun a => decide (a.kind = kind) && decide (a.unit = unit) && decide (a.bank = bank) && decide (a.row = row))
  let n : Word := match same.getLast? with
    | some a => if a.cnt = BitVec.allOnes 32 then a.cnt else a.cnt + 1
    | none => 1
  let r := x.ring ++ [{ kind := kind, unit := unit, bank := bank, row := row, cnt := n, seq := x.aseq }]
  { x with ring := r.drop (r.length - 32), aseq := x.aseq + 1, alert := true }

/-- Whether no base die has this number: near and far stacks have one (00 R1, 21 R397). -/
def noBaseDie (tier stack : Nat) : Bool := decide (tier ≠ 1 ∧ tier ≠ 2) || decide (stacksOf tier ≤ stack)

/-- A row with the named granules poisoned. -/
def Row.hit (r : Row) (gs : List Nat) : Row := { r with poison := r.poison ||| ofGran (fun g => gs.contains g) }

/-- A read of a place on a core's die has found an uncorrectable error: the granules of its codeword are poisoned, with the bytes as they stand (05 R124, R126; log entry 66). -/
def State.chipError (s : State) (u b : Nat) (place : OnChip) (gs : List Nat) : State :=
  if 528 ≤ u ∨ 2 ≤ b then s
  else match place with
    | .pad r => if r < (s.bank u b).rows then s.setRow u b r ((s.row u b r).hit gs) else s
    | .vector r => if r < 32 then s.onBank u b (fun k => { k with v := set {} k.v r (Row.hit (get {} k.v r) gs) }) else s
    | .fifo f i => if f < 4 then s.onBank u b (fun k => k.setFifo f { k.dfifo f with
        rows := (k.dfifo f).rows.modify i (fun x => { x with row := x.row.hit gs }) }) else s
    | .acc r => if r < 2048 then s.onCluster (clusterOf u b) (fun x => x.onRows r 1 (fun _ a => { a with
        poison := a.poison ||| BitVec.ofNat 64 (gatherN 1 (fun g => (gs.contains g).toNat) 0 64) })) else s

/-- Granules of a stack poisoned, with the bytes as they stand. -/
def State.hitStack (s : State) (tier stack : Nat) (gs : List Nat) : State :=
  { s with poison := (gs.filter (fun g => decide (16 * g < stackBytes tier))).foldl (fun m g => set false m (physAddr tier stack 0 / 16 + g) true) s.poison }

/-- The move of STACK_ALERT_EVENT: the event is logged. The granules that an uncorrectable error or a bank-unit machine check has hit are poisoned, with the bytes as they stand, so that an access to them is reported to its job as poison or as the machine-check fault (05 R126, R128; log entry 66); a parity error marks microcode words (21 R402). Only a near or far stack of the package has a base die that raises it (00 R1); an uncorrectable error of a store stack, or on a core's die, poisons what it has hit and is not logged (05 R126). -/
def State.stackAlert (s : State) (tier stack : Nat) (kind : AlertKind) (unit : Byte) (bank : BitVec 16) (row : Word) (hit : List Nat) : State :=
  let k := 32 * tier + stack
  match kind with
  | .onChip u b place => s.chipError u b place hit
  | _ =>
  if tier = 0 ∧ stack < stacksOf 0 ∧ kind = .dramUncorrectable then s.hitStack tier stack hit
  else if noBaseDie tier stack ∨ 32 ≤ unit.toNat then s else
  let s1 := { s with stackSt := set {} s.stackSt k ((get {} s.stackSt k : Stack).log (alertCode kind) unit bank row) }
  match kind with
  | .dramUncorrectable | .bankMachineCheck => s1.hitStack tier stack hit
  | .microcodeParity => s1.onBunit ((if tier = 2 then 0 else 768) + 32 * stack + unit.toNat) (fun x => { x with parity := x.parity ++ hit })
  | _ => s1

/-- The 16 bytes of an alert record. -/
def Alert.bytes (a : Alert) : List Byte :=
  leBytes 1 a.kind ++ [a.unit] ++ leBytes 2 a.bank.toNat ++ leBytes 4 a.row.toNat ++ leBytes 4 a.cnt.toNat ++ leBytes 4 a.seq.toNat

/-- The move of ALERT_LOG_READ: record `n` of the ring of a near or far stack is read; the alert is cleared once every record has been. -/
def State.alertRead (s : State) (tier stack n : Nat) : State :=
  let k := 32 * tier + stack
  let x : Stack := get {} s.stackSt k
  if noBaseDie tier stack then s else
  match x.ring[n]? with
  | none => s
  | some a =>
    let r := x.ring.set n { a with seen := true }
    { s with stackSt := set {} s.stackSt k { x with ring := r, alert := x.alert && !r.all (fun b => b.seen) }, sent := s.sent ++ [Sent.answer a.bytes] }

/-! ### Power (22 R440) -/

/-- The wake latency of a level in microseconds. -/
def wakeLatency : Nat → Nat
  | 0 => 0 | 1 => 2 | 2 => 20 | 3 => 200 | 4 => 2000 | _ => 20000

/-- The smallest tolerance set for a function that has a queue not DISABLED; 0 where none is set. -/
def State.tolerance (s : State) : Nat :=
  match (s.funcs.filter (fun f => (somes f.2.qmap).any (fun q => decide ((s.queue q.2).state ≠ .disabled)))).filterMap (fun f => f.2.tol) with
  | [] => 0
  | t :: ts => ts.foldl min t

/-- The level that the tolerances allow: the one of the longest wake latency. -/
def levelFor (tol : Nat) : Nat := ((List.range 6).filter (fun l => decide (wakeLatency l ≤ tol))).foldl max 0

/-- A unit whose banks and scratchpad have not been retained: they are as after reset. -/
def Core.powerOff (c : Core) : Core := { c with b0 := {}, b1 := {}, kbank := 0, pad := [], tags := [] }

/-- The move of POWER_LEVEL_ENTER: with no job placed and no unread packet. -/
def State.powerEnter (s : State) : State :=
  if s.lenfy.boot ≠ .running ∨ !s.placedJobs.isEmpty ∨ s.queues.any (fun q => decide (q.2.tail ≠ q.2.head)) then s
  else
    let l := levelFor s.tolerance
    let s1 := { s with power := l }
    if l < 4 then s1 else { s1 with units := s1.units.map (fun (p : Nat × Core) => (p.1, p.2.powerOff)) }

/-! ### Boot and attestation (23 R454, R455) -/

/-- The bytes that a firmware signature covers (log entry 8). -/
def Firmware.message (fw : Firmware) : List Byte := leBytes 4 fw.svn ++ fw.images.flatten

/-- The first step at which the boot ROM of H-die `h` fails (23 R454); 0 for none. -/
def bootStep (h : Nat) (fw : Firmware) : Nat :=
  if Config.shake256 fw.pubKey ≠ Config.fusedKeyHash h then 1
  else if Config.falconVerify fw.pubKey fw.sig (Firmware.message fw) = false then 2
  else if fw.svn < fusedStep h then 3
  else 0

/-- The move of POWER_ON_BOOT: the boot ROM of an H-die checks, measures into its log and starts its firmware, or the module is left in BOOTFAIL; it runs once both H-dies have started theirs. -/
def State.boot (s : State) (h : Nat) (fw : Firmware) : State :=
  let l := s.lenfy
  if 2 ≤ h ∨ l.boot ≠ .booting ∨ l.booted.contains h then s
  else match bootStep h fw with
    | 0 =>
      let all := l.booted ++ [h]
      { s with lenfy := { l with
          boot := if all.contains 0 ∧ all.contains 1 then .running else .booting
          svn := if h = 0 then BitVec.ofNat 32 fw.svn else l.svn
          logs := set [] l.logs h (fw.images.map Config.shake256)
          booted := all } }
    | n => { s with lenfy := { l with boot := .fail, step := n } }

/-- The bytes of a fabric map as a measurement gives them: domain, size, own number, tree (23 R443, R455; log entry 8). -/
def FabricMap.bytes (d : Nat) (x : FabricMap) : List Byte :=
  leBytes 4 d ++ leBytes 1 x.size ++ leBytes 1 x.own ++ x.tree.flatMap (fun e => leBytes 1 e.1 ++ leBytes 1 e.2)

/-- The measurement blocks (23 R455): the firmware measurements of H-die 0, then 1, as 1 to 8, the publisher key slots as 9, the fabric map as 10. -/
def Lenfy.measurements (l : Lenfy) : List Byte :=
  let log := get [] l.logs 0 ++ get [] l.logs 1
  (List.range 8).flatMap (fun i => leBytes 32 (log.getD i 0)) ++ (List.range 8).flatMap (fun i => get [] l.keys i)
    ++ (somes l.fabric).flatMap (fun x => FabricMap.bytes x.1 x.2)

/-- The move of GET_MEASUREMENTS: the blocks, signed with the module's identity key over the requester's nonce and them. -/
def State.attest (s : State) (nonce : Nat) : State :=
  if s.lenfy.boot = .fail ∨ s.lenfy.booted.contains 0 = false then s
  else
    let b := s.lenfy.measurements
    { s with sent := s.sent ++ [Sent.answer (b ++ Config.ecdsaSign (leBytes 32 nonce ++ b))] }

/-- The certificate of the identity key, which chains to the Garerzia root, in answer to an SPDM request (23 R455). -/
def State.certificate (s : State) : State :=
  if s.lenfy.boot = .fail ∨ s.lenfy.booted.contains 0 = false then s else { s with sent := s.sent ++ [Sent.answer Config.identityCert] }

/-- The owner writes the map of a fabric domain (23 R443): 2 to 64 packages, numbered below that. -/
def State.fabricMap (s : State) (d : Nat) (m : FabricMap) : State :=
  if s.lenfy.boot ≠ .running ∨ 2 ^ 19 ≤ d ∨ m.size < 2 ∨ 64 < m.size ∨ m.size ≤ m.own ∨ m.tree.any (fun e => decide (m.size ≤ e.1) || decide (m.size ≤ e.2)) then s
  else { s with lenfy := { s.lenfy with fabric := set none s.lenfy.fabric d (some m) } }

/-- WEIGHT_MANIFEST_ARRIVAL. -/
def execWeightManifestArrival (p vid : Nat) (m : List Byte) (s : State) : Out := .next (s.manifestArrival p vid m)
/-- WEIGHT_TILE_ARRIVAL. -/
def execWeightTileArrival (p vid i : Nat) (data : List Byte) (s : State) : Out := .next (s.tileArrival p vid i data)
/-- TILE_RESEND_REQUEST. -/
def execTileResendRequest (p vid i member : Nat) (s : State) : Out := .next (s.resendRequest p vid i member)
/-- VERSION_RETIRE. -/
def execVersionRetire (p vid : Nat) (s : State) : Out := .next (s.versionRetire p vid)
/-- PUBLISHER_KEY_PROVISION. -/
def execPublisherKeyProvision (slot : Nat) (key : List Byte) (s : State) : Out := .next (s.keyProvision slot key)
/-- GOVERNOR_TICK. -/
def execGovernorTick (s : State) : Out := .next s.governorTick
/-- STACK_ALERT_EVENT. -/
def execStackAlertEvent (tier stack : Nat) (kind : AlertKind) (unit : Byte) (bank : BitVec 16) (row : Word) (hit : List Nat) (s : State) : Out :=
  .next (s.stackAlert tier stack kind unit bank row hit)
/-- ALERT_LOG_READ. -/
def execAlertLogRead (tier stack n : Nat) (s : State) : Out := .next (s.alertRead tier stack n)
/-- POWER_LEVEL_ENTER. -/
def execPowerLevelEnter (s : State) : Out := .next s.powerEnter
/-- WAKE (22 R440): network traffic; a TAIL write and a management command wake the module by themselves. -/
def execWake (s : State) : Out := .next { s with power := 0 }
/-- POWER_ON_BOOT. -/
def execPowerOnBoot (h : Nat) (fw : Firmware) (s : State) : Out := .next (s.boot h fw)
/-- GET_MEASUREMENTS. -/
def execGetMeasurements (nonce : Nat) (s : State) : Out := .next (s.attest nonce)

end Sys2Proof.Machine
end

