-- ==== Sys2Proof/Machine/Fetch.lean ====
section
/-!
DEFINITION. What comes before the meaning of an instruction: the issue point of a stream, the next microcode word, the passing of time, and the writes of software (01 R22; 02 R32 to R39; 03 R64, R84; 04 R107; 08 R197, R202, R209; 12 R286, R288; 22 R434).
-/

namespace Sys2Proof.Machine

/-! ### The issue point -/

/-- Whether the stream of engine `e` of the executing bank of a unit may issue: a ready job that is not paused, no freeze, the stream running (08 R197, R202; 16 R353). -/
def State.canIssue (s : State) (u e : Nat) : Bool :=
  let k := s.bank u (s.core u).kbank
  decide (u < 528) && decide (e < 6) && k.ready && decide ((s.core u).freeze = 0) && decide ((k.stream e).phase = .running)
  && (match k.job with | some j => !j.paused && j.mask.getLsbD e | none => false)

/-- The state in which a stream of unit `u` comes to issue: the unit is the one whose instruction is executed, and its job has started. -/
def State.atIssue (s : State) (u : Nat) : State :=
  ({ s with cur := u }).onBank u (s.core u).kbank (fun k => k.onJob (fun j => { j with started := true }))

/-- An instruction that waits for an earlier command's register: a load of the control engine, an `ATOM` of the exchange engine, which ends a segment of a static job (03 R64; 09 R236; 16 R353; log entry 27). -/
def State.awaits (s : State) (e : Nat) : Out :=
  (if e = 5 then s.pauseOn else s).waits e (.remote 0)

/-- A tagged word stands at Q0 and would issue: the literal-target fault, with EPCQ.a the tagged address (02 R39). -/
def State.tagged (s : State) (e : Nat) (q : QEnt) : Out :=
  (s.onMe (fun k => { k with csr := { k.csr with epcqA := q } })).fault e 0x0002 (zx q.addr) 0

/-- The issue of the entry at Q0 of engine `e` of unit `u`, up to the instruction's own meaning: either the outcome, where the stream does not issue an instruction, or the state and the instruction that is executed in it (01 R22, R25; 02 R32 to R34, R39; 04 R107). -/
def State.fetch (s0 : State) (u e : Nat) : Except Out (State × Instr) :=
  let s := s0.settle u
  if s.canIssue u e = false then .error (.next s)
  else if e = 0 ∧ s.tickDue u = true then .error (.next (s.tick u))
  else
    let s1 := s.atIssue u
    let k := s1.me
    let q := (k.stream e).q0
    if q.null then .error (.next (s1.onMe (fun k => k.advance e)))
    else if k.tagged e q.addr then .error (s1.tagged e q)
    else match k.fetchAt e q.addr with
      | .error _ => .error (s1.illegal e)
      | .ok i =>
        if i.engine ≠ some e then .error (s1.illegal e)
        else if (e = 0 ∧ k.awaitsLoad i = true) ∨ (e = 5 ∧ k.awaitsAtom i = true) then .error (s1.awaits e)
        else .ok (s1, i)

/-- Whether an instruction is a move that stands for itself: neither an instruction word nor a microcode word. -/
def Instr.isEvent (i : Instr) : Bool := decide (i.engine = none) && (encodeMicro i).isNone

/-- The microcode word at UPC of the command that bank unit `k` runs (21 R399, R400); none where it runs none or the OP is illegal. -/
def State.microAt (s : State) (k : Nat) : Option Instr :=
  let x := s.bunit k
  match x.cmd with
  | none => none
  | some c => decodeMicro k (get 0 x.ucode (x.ctx c.ctx).upc.toNat : DWord).toNat

/-! ### Time -/

/-- A bank as `d` cycles of its unit pass in which the unit is not frozen: the waits of the executing bank on remote objects are counted (08 R209), and so are the cycles toward the pre-emption limit, `n` of the main cores (22 R434). -/
def State.passBank (s : State) (u b d n : Nat) (k : Bank) : Bank :=
  let on := decide ((s.core u).kbank = b) && k.ready
  let k1 := if on then (List.range 6).foldl (fun k e =>
      if (s.remoteWait u b e).isSome then k.onStream e (fun t => { t with waited := t.waited + d }) else k) k else k
  k1.onJob (fun j => if j.preempt.isSome ∧ (on ∨ j.status = .missing) then { j with preCyc := j.preCyc + n } else j)

/-- A unit as `d` of its cycles pass: a frozen one counts its freeze down, and its CYCLE and TICK stand still (08 R197, 03 R84). -/
def State.passUnit (s : State) (u d n : Nat) (c : Core) : Core :=
  if c.freeze ≠ 0 then { c with freeze := c.freeze - d, cycle := c.cycle - BitVec.ofNat 64 d, tick := c.tick - BitVec.ofNat 64 d }
  else { c with b0 := s.passBank u 0 d n c.b0, b1 := s.passBank u 1 d n c.b1 }

/-- The cycles of a unit in the next `n` main-core cycles. -/
def State.span (s : State) (u n : Nat) : Nat := unitClock u (s.now + n) - unitClock u s.now

/-- A bank whose commands have been issued in an earlier cycle (12 R294). -/
def Bank.aged (k : Bank) : Bank := { k with cmds := k.cmds.map (fun p => (p.1, p.2.map (fun c => { c with fresh := false }))) }

/-- Whether the next `n` main-core cycles may pass at a unit: not past the end of a freeze, which is a move of its own, nor past the slot in which a request of it has to leave (08 R197, 12 R294, R295). -/
def State.mayPass (s : State) (n : Nat) (p : Nat × Core) : Bool :=
  (decide (p.2.freeze = 0) || decide (s.span p.1 n < p.2.freeze)) && !s.mustLeave p.1 n

/-- `n` main-core cycles pass. -/
def State.elapse (s0 : State) (n : Nat) : State :=
  let s := s0.units.foldl (fun s p => s.settle p.1) s0
  if n = 0 ∨ s.units.all (s.mayPass n) = false then s
  else { s with
    now := s.now + n
    units := s.units.map (fun p =>
      let c := s.passUnit p.1 (s.span p.1 n) n p.2
      (p.1, { c with b0 := c.b0.aged, b1 := c.b1.aged })) }

/-! ### Writes of software -/

/-- The host writes its memory; a granule written whole is clean (05 R127). -/
def State.hostWrite (s : State) (a : Nat) (data : List Byte) : State :=
  let s1 := s.hostPut a data
  (List.range data.length).foldl (fun s i =>
    if (a + i) % 16 = 0 ∧ i + 16 ≤ data.length then { s with poison := set false s.poison ((hostAddr a + i) / 16) false } else s) s1

/-- Software writes the RW fields of a tile-table entry; D is cleared by writing 1 (12 R286). -/
def State.tileWrite (s : State) (tid n : Nat) (v : Bool) (tier : BitVec 2) (stack : BitVec 5) (clearD : Bool) (fbase : BitVec 41) : State :=
  match s.tensor tid with
  | none => s
  | some t =>
    if t.tiled = false ∨ t.tileCount ≤ n then s
    else s.onTensor tid (fun t =>
      let e := t.tile n
      { t with tiles := set {} t.tiles n { e with v := v, tier := tier, stack := stack, d := e.d && !clearD, fbase := fbase } })

/-- The host driver writes an entry of a partition frame table; D is cleared by writing 1 (12 R288). -/
def State.s2Write (s : State) (part fsz n : Nat) (v : Bool) (tier : BitVec 2) (stack : BitVec 5) (clearD w : Bool) (mbase : BitVec 41) : State :=
  let key := s2Key part fsz n
  let e : S2 := get {} s.stage2 key
  { s with stage2 := set {} s.stage2 key { e with v := v, tier := tier, stack := stack, d := e.d && !clearD, w := w, mbase := mbase } }

/-- The host changes whether a page of its memory translates under a PASID (12 R289, 22 R427). -/
def State.hostMap (s : State) (pasid page : Nat) (ok : Bool) : State := { s with ats := set false s.ats (pasid * 2 ^ 52 + page) (!ok) }

/-! ### A word placed for the host's question -/

/-- The job of `placeWord`: one that uses all six engines. -/
def probeJob : Job :=
  { jid := 0, part := 0, fn := 0, queue := 0, packet := 0, task := 0, ord := 0, code := 0, mask := 63, climb := false, static := false
    foot := 16, prio := 0, cls := 0, die := 0, writer := 0, wbank := 0, ppn := 0, base := 0, size := 16, accRow := 0, accN := 64 }

/-- The instruction whose bits are `w` stands at Q0 of its engine in bank 0 of unit 0, in a job that has just been placed there, its literal word behind it; the next move issues it (log entry 9). -/
def State.placeWord (s : State) (w : Nat) : State :=
  let e := fld w 29 3
  let im : Map (BitVec 33) := set 0 [] (8192 * e) (BitVec.ofNat 33 (w % 2 ^ 32))
  let im1 : Map (BitVec 33) := if takesLiteral (w % 2 ^ 32) then set 0 im (8192 * e + 1) (BitVec.ofNat 33 (2 ^ 32 + w / 2 ^ 32 % 2 ^ 32)) else im
  let k : Bank := { job := some probeJob, imem := im1, csr := { tier := 2 } }
  let k1 := (List.range 6).foldl (fun k e => k.setStream e { k.refill e {} 0 with phase := .running }) k
  let c := s.core 0
  { s.setCore 0 { c with b0 := k1, kbank := 0, freeze := 0 } with agenda := [.issue 0 e] }

end Sys2Proof.Machine
end

