-- ==== Sys2Proof/Machine/Dispatch.lean ====
section
/-!
DEFINITION. The dispatch: one arm for each instruction and move, each one call of its meaning.
-/

namespace Sys2Proof.Machine

/-- The meaning of an instruction or move (02 R41 to R60; 95_what_each_step_holds.md). -/
def exec (i : Instr) (s : State) : Host.Outcome State Fault Refusal :=
  match i with
  | .nop e => Sys2Proof.Machine.execNop e s
  | .join e => Sys2Proof.Machine.execJoin e s
  | .clause e n => Sys2Proof.Machine.execClause e n s
  | .waitk e f n => Sys2Proof.Machine.execWaitk e f n s
  | .sigk e f n => Sys2Proof.Machine.execSigk e f n s
  | .waitaw e x y => Sys2Proof.Machine.execWaitaw e x y s
  | .loop e l n o => Sys2Proof.Machine.execLoop e l n o s
  | .loopr e l x o => Sys2Proof.Machine.execLoopr e l x o s
  | .pbr e n o => Sys2Proof.Machine.execPbr e n o s
  | .pbrr e n x => Sys2Proof.Machine.execPbrr e n x s
  | .br e n k p u l => Sys2Proof.Machine.execBr e n k p u l s
  | .brq e n q c u => Sys2Proof.Machine.execBrq e n q c u s
  | .trap e c => Sys2Proof.Machine.execTrap e c s
  | .tret => Sys2Proof.Machine.execTret s
  | .add d a b g => Sys2Proof.Machine.execAdd d a b g s
  | .sub d a b g => Sys2Proof.Machine.execSub d a b g s
  | .mul d a b g => Sys2Proof.Machine.execMul d a b g s
  | .mulh d a b g => Sys2Proof.Machine.execMulh d a b g s
  | .mulhu d a b g => Sys2Proof.Machine.execMulhu d a b g s
  | .div d a b g => Sys2Proof.Machine.execDiv d a b g s
  | .divu d a b g => Sys2Proof.Machine.execDivu d a b g s
  | .rem d a b g => Sys2Proof.Machine.execRem d a b g s
  | .remu d a b g => Sys2Proof.Machine.execRemu d a b g s
  | .and d a b g => Sys2Proof.Machine.execAnd d a b g s
  | .or d a b g => Sys2Proof.Machine.execOr d a b g s
  | .xor d a b g => Sys2Proof.Machine.execXor d a b g s
  | .andn d a b g => Sys2Proof.Machine.execAndn d a b g s
  | .shl d a b g => Sys2Proof.Machine.execShl d a b g s
  | .shr d a b g => Sys2Proof.Machine.execShr d a b g s
  | .sra d a b g => Sys2Proof.Machine.execSra d a b g s
  | .min d a b g => Sys2Proof.Machine.execMin d a b g s
  | .max d a b g => Sys2Proof.Machine.execMax d a b g s
  | .minu d a b g => Sys2Proof.Machine.execMinu d a b g s
  | .maxu d a b g => Sys2Proof.Machine.execMaxu d a b g s
  | .cmp p a b g x => Sys2Proof.Machine.execCmp p a b g x s
  | .sel d a b p => Sys2Proof.Machine.execSel d a b p s
  | .clz d a g => Sys2Proof.Machine.execClz d a g s
  | .popc d a g => Sys2Proof.Machine.execPopc d a g s
  | .bfx d a b g => Sys2Proof.Machine.execBfx d a b g s
  | .bfi d a b g => Sys2Proof.Machine.execBfi d a b g s
  | .pand d a b g => Sys2Proof.Machine.execPand d a b g s
  | .por d a b g => Sys2Proof.Machine.execPor d a b g s
  | .pxor d a b g => Sys2Proof.Machine.execPxor d a b g s
  | .movp d a g => Sys2Proof.Machine.execMovp d a g s
  | .addi d a i0 => Sys2Proof.Machine.execAddi d a i0 s
  | .andi d a i0 => Sys2Proof.Machine.execAndi d a i0 s
  | .ori d a i0 => Sys2Proof.Machine.execOri d a i0 s
  | .xori d a i0 => Sys2Proof.Machine.execXori d a i0 s
  | .shli d a i0 => Sys2Proof.Machine.execShli d a i0 s
  | .shri d a i0 => Sys2Proof.Machine.execShri d a i0 s
  | .srai d a i0 => Sys2Proof.Machine.execSrai d a i0 s
  | .muli d a i0 => Sys2Proof.Machine.execMuli d a i0 s
  | .cmpeqi p a i0 => Sys2Proof.Machine.execCmpeqi p a i0 s
  | .cmplti p a i0 => Sys2Proof.Machine.execCmplti p a i0 s
  | .cmpltui p a i0 => Sys2Proof.Machine.execCmpltui p a i0 s
  | .mini d a i0 => Sys2Proof.Machine.execMini d a i0 s
  | .maxi d a i0 => Sys2Proof.Machine.execMaxi d a i0 s
  | .movi d i0 => Sys2Proof.Machine.execMovi d i0 s
  | .movl d lit => Sys2Proof.Machine.execMovl d lit s
  | .movlh d lit => Sys2Proof.Machine.execMovlh d lit s
  | .ldb d a o => Sys2Proof.Machine.execLdb d a o s
  | .ldbu d a o => Sys2Proof.Machine.execLdbu d a o s
  | .ldh d a o => Sys2Proof.Machine.execLdh d a o s
  | .ldhu d a o => Sys2Proof.Machine.execLdhu d a o s
  | .ldw d a o => Sys2Proof.Machine.execLdw d a o s
  | .ldwu d a o => Sys2Proof.Machine.execLdwu d a o s
  | .ldd d a o => Sys2Proof.Machine.execLdd d a o s
  | .stb s0 a o => Sys2Proof.Machine.execStb s0 a o s
  | .sth s0 a o => Sys2Proof.Machine.execSth s0 a o s
  | .stw s0 a o => Sys2Proof.Machine.execStw s0 a o s
  | .std s0 a o => Sys2Proof.Machine.execStd s0 a o s
  | .ldg d a o => Sys2Proof.Machine.execLdg d a o s
  | .stg s0 a o => Sys2Proof.Machine.execStg s0 a o s
  | .csrr d n => Sys2Proof.Machine.execCsrr d n s
  | .csrw a n => Sys2Proof.Machine.execCsrw a n s
  | .dsync => Sys2Proof.Machine.execDsync s
  | .dmrset l i0 => Sys2Proof.Machine.execDmrset l i0 s
  | .vderive d a b w r => Sys2Proof.Machine.execVderive d a b w r s
  | .vnarrow a b => Sys2Proof.Machine.execVnarrow a b s
  | .vdrop a => Sys2Proof.Machine.execVdrop a s
  | .vquery a b => Sys2Proof.Machine.execVquery a b s
  | .fmtset q a => Sys2Proof.Machine.execFmtset q a s
  | .hist a b => Sys2Proof.Machine.execHist a b s
  | .hlatch a => Sys2Proof.Machine.execHlatch a s
  | .climb => Sys2Proof.Machine.execClimb s
  | .climbFar => Sys2Proof.Machine.execClimbFar s
  | .climbNear => Sys2Proof.Machine.execClimbNear s
  | .setleave => Sys2Proof.Machine.execSetleave s
  | .arwinit a b => Sys2Proof.Machine.execArwinit a b s
  | .vadd d a b m t => Sys2Proof.Machine.execVadd d a b m t s
  | .vsub d a b m t => Sys2Proof.Machine.execVsub d a b m t s
  | .vmul d a b m t => Sys2Proof.Machine.execVmul d a b m t s
  | .vdiv d a b m t => Sys2Proof.Machine.execVdiv d a b m t s
  | .vmin d a b m t => Sys2Proof.Machine.execVmin d a b m t s
  | .vmax d a b m t => Sys2Proof.Machine.execVmax d a b m t s
  | .vabs d a m t => Sys2Proof.Machine.execVabs d a m t s
  | .vneg d a m t => Sys2Proof.Machine.execVneg d a m t s
  | .vsqrt d a m t => Sys2Proof.Machine.execVsqrt d a m t s
  | .vrcp d a m t => Sys2Proof.Machine.execVrcp d a m t s
  | .vrsq d a m t => Sys2Proof.Machine.execVrsq d a m t s
  | .vexp2 d a m t => Sys2Proof.Machine.execVexp2 d a m t s
  | .vlog2 d a m t => Sys2Proof.Machine.execVlog2 d a m t s
  | .vcmpeq d a b m t => Sys2Proof.Machine.execVcmpeq d a b m t s
  | .vcmplt d a b m t => Sys2Proof.Machine.execVcmplt d a b m t s
  | .vcmple d a b m t => Sys2Proof.Machine.execVcmple d a b m t s
  | .vand d a b m => Sys2Proof.Machine.execVand d a b m s
  | .vor d a b m => Sys2Proof.Machine.execVor d a b m s
  | .vxor d a b m => Sys2Proof.Machine.execVxor d a b m s
  | .vnot d a m => Sys2Proof.Machine.execVnot d a m s
  | .vshl d a b m => Sys2Proof.Machine.execVshl d a b m s
  | .vshr d a b m => Sys2Proof.Machine.execVshr d a b m s
  | .vsra d a b m => Sys2Proof.Machine.execVsra d a b m s
  | .vmov d a m => Sys2Proof.Machine.execVmov d a m s
  | .vselm d a b m => Sys2Proof.Machine.execVselm d a b m s
  | .vcvt d a s0 m t => Sys2Proof.Machine.execVcvt d a s0 m t s
  | .vmulhi d a b m => Sys2Proof.Machine.execVmulhi d a b m s
  | .vfma d a b c t => Sys2Proof.Machine.execVfma d a b c t s
  | .vfms d a b c t => Sys2Proof.Machine.execVfms d a b c t s
  | .vnfma d a b c t => Sys2Proof.Machine.execVnfma d a b c t s
  | .vnfms d a b c t => Sys2Proof.Machine.execVnfms d a b c t s
  | .vfmak d a k t m => Sys2Proof.Machine.execVfmak d a k t m s
  | .vaddk d a k t m => Sys2Proof.Machine.execVaddk d a k t m s
  | .vmulk d a k t m => Sys2Proof.Machine.execVmulk d a k t m s
  | .vmovk d k t m => Sys2Proof.Machine.execVmovk d k t m s
  | .vfmal d a t m lit => Sys2Proof.Machine.execVfmal d a t m lit s
  | .vaddl d a t m lit => Sys2Proof.Machine.execVaddl d a t m lit s
  | .vmull d a t m lit => Sys2Proof.Machine.execVmull d a t m lit s
  | .vmovl d t m lit => Sys2Proof.Machine.execVmovl d t m lit s
  | .vmovf d i0 => Sys2Proof.Machine.execVmovf d i0 s
  | .vmovn d i0 => Sys2Proof.Machine.execVmovn d i0 s
  | .vld v a i0 => Sys2Proof.Machine.execVld v a i0 s
  | .vst v a i0 => Sys2Proof.Machine.execVst v a i0 s
  | .vldp v a i0 => Sys2Proof.Machine.execVldp v a i0 s
  | .vstp v a i0 => Sys2Proof.Machine.execVstp v a i0 s
  | .vrotm v a s0 => Sys2Proof.Machine.execVrotm v a s0 s
  | .vpop v => Sys2Proof.Machine.execVpop v s
  | .vpush v => Sys2Proof.Machine.execVpush v s
  | .vldkb a i0 => Sys2Proof.Machine.execVldkb a i0 s
  | .amovi a i0 => Sys2Proof.Machine.execAmovi a i0 s
  | .aadd b a => Sys2Proof.Machine.execAadd b a s
  | .aaddi a i0 => Sys2Proof.Machine.execAaddi a i0 s
  | .vrsum d a m t => Sys2Proof.Machine.execVrsum d a m t s
  | .vrmax d a m t => Sys2Proof.Machine.execVrmax d a m t s
  | .vrmin d a m t => Sys2Proof.Machine.execVrmin d a m t s
  | .vperm d a b m => Sys2Proof.Machine.execVperm d a b m s
  | .vbcast d a b m => Sys2Proof.Machine.execVbcast d a b m s
  | .vlutacc d a b m => Sys2Proof.Machine.execVlutacc d a b m s
  | .vhistacc d a b m => Sys2Proof.Machine.execVhistacc d a b m s
  | .vmasklen d a => Sys2Proof.Machine.execVmasklen d a s
  | .vpack d a b m x => Sys2Proof.Machine.execVpack d a b m x s
  | .vunpack d a b m x => Sys2Proof.Machine.execVunpack d a b m x s
  | .vscale d a b m t => Sys2Proof.Machine.execVscale d a b m t s
  | .viota d m => Sys2Proof.Machine.execViota d m s
  | .mlease => Sys2Proof.Machine.execMlease s
  | .mrel => Sys2Proof.Machine.execMrel s
  | .mcfg c r n => Sys2Proof.Machine.execMcfg c r n s
  | .mzero r n => Sys2Proof.Machine.execMzero r n s
  | .mma r n => Sys2Proof.Machine.execMma r n s
  | .mmat r n => Sys2Proof.Machine.execMmat r n s
  | .mscale r n => Sys2Proof.Machine.execMscale r n s
  | .mdrain => Sys2Proof.Machine.execMdrain s
  | .accrd g s0 => Sys2Proof.Machine.execAccrd g s0 s
  | .accwr g s0 => Sys2Proof.Machine.execAccwr g s0 s
  | .cmovi e d i0 => Sys2Proof.Machine.execCmovi e d i0 s
  | .cadd e d a b => Sys2Proof.Machine.execCadd e d a b s
  | .caddi e d a i0 => Sys2Proof.Machine.execCaddi e d a i0 s
  | .csub e d a b => Sys2Proof.Machine.execCsub e d a b s
  | .seql e l b => Sys2Proof.Machine.execSeql e l b s
  | .seqb e d b => Sys2Proof.Machine.execSeqb e d b s
  | .seqs e l d b => Sys2Proof.Machine.execSeqs e l d b s
  | .seqgo e n => Sys2Proof.Machine.execSeqgo e n s
  | .seqstop e => Sys2Proof.Machine.execSeqstop e s
  | .cpy e v p n => Sys2Proof.Machine.execCpy e v p n s
  | .gath e v p i0 n => Sys2Proof.Machine.execGath e v p i0 n s
  | .scatb v p i0 n => Sys2Proof.Machine.execScatb v p i0 n s
  | .bincfg e a => Sys2Proof.Machine.execBincfg e a s
  | .binrd e d b => Sys2Proof.Machine.execBinrd e d b s
  | .reduce e v p => Sys2Proof.Machine.execReduce e v p s
  | .pusha p n => Sys2Proof.Machine.execPusha p n s
  | .pushb p n => Sys2Proof.Machine.execPushb p n s
  | .arwset e a => Sys2Proof.Machine.execArwset e a s
  | .xsend x v l b => Sys2Proof.Machine.execXsend x v l b s
  | .xrecv d x => Sys2Proof.Machine.execXrecv d x s
  | .xperm d x => Sys2Proof.Machine.execXperm d x s
  | .atom d a b o w => Sys2Proof.Machine.execAtom d a b o w s
  | .aaddnr a b t => Sys2Proof.Machine.execAaddnr a b t s
  | .afence => Sys2Proof.Machine.execAfence s
  | .bkload a b => Sys2Proof.Machine.execBkload a b s
  | .bkrun a b => Sys2Proof.Machine.execBkrun a b s
  | .bkctx b c => Sys2Proof.Machine.execBkctx b c s
  | .bkwait b => Sys2Proof.Machine.execBkwait b s
  | .bankUnitAct k m => Sys2Proof.Machine.execBankUnitAct k m s
  | .bankUnitRd k m => Sys2Proof.Machine.execBankUnitRd k m s
  | .bankUnitWr k m => Sys2Proof.Machine.execBankUnitWr k m s
  | .bankUnitMac k m => Sys2Proof.Machine.execBankUnitMac k m s
  | .bankUnitAdda k m => Sys2Proof.Machine.execBankUnitAdda k m s
  | .bankUnitRed k m => Sys2Proof.Machine.execBankUnitRed k m s
  | .bankUnitMova k m => Sys2Proof.Machine.execBankUnitMova k m s
  | .bankUnitCtx k m => Sys2Proof.Machine.execBankUnitCtx k m s
  | .bankUnitEnd k m => Sys2Proof.Machine.execBankUnitEnd k m s
  | .bankUnitNop k m => Sys2Proof.Machine.execBankUnitNop k m s
  | .bkrunRecordStart u b => Sys2Proof.Machine.execBkrunRecordStart u b s
  | .bankUnitCommandStart k => Sys2Proof.Machine.execBankUnitCommandStart k s
  | .bkloadPerformed u b => Sys2Proof.Machine.execBkloadPerformed u b s
  | .contextSwitch k => Sys2Proof.Machine.execContextSwitch k s
  | .tickInterrupt u => Sys2Proof.Machine.execTickInterrupt u s
  | .tokenPush u b e => Sys2Proof.Machine.execTokenPush u b e s
  | .landing u b => Sys2Proof.Machine.execLanding u b s
  | .requestDepart u b src row => Sys2Proof.Machine.execRequestDepart u b src row s
  | .slotMissRetry u b src row => Sys2Proof.Machine.execSlotMissRetry u b src row s
  | .ldgReturn u b src => Sys2Proof.Machine.execLdgReturn u b src s
  | .stgPerformed u b src => Sys2Proof.Machine.execStgPerformed u b src s
  | .copyRowPerformed u b e src row => Sys2Proof.Machine.execCopyRowPerformed u b e src row s
  | .gathItemPerformed u b e src item => Sys2Proof.Machine.execGathItemPerformed u b e src item s
  | .scatbPerformed u b => Sys2Proof.Machine.execScatbPerformed u b s
  | .bincfgPerformed u b e => Sys2Proof.Machine.execBincfgPerformed u b e s
  | .reducePerformed u b e src => Sys2Proof.Machine.execReducePerformed u b e src s
  | .reduceTilePartial u b e src tile => Sys2Proof.Machine.execReduceTilePartial u b e src tile s
  | .pushRowAppend u b src => Sys2Proof.Machine.execPushRowAppend u b src s
  | .nestInstanceGenerate u b e => Sys2Proof.Machine.execNestInstanceGenerate u b e s
  | .atomPerformed u b => Sys2Proof.Machine.execAtomPerformed u b s
  | .aaddnrPerformed u b src => Sys2Proof.Machine.execAaddnrPerformed u b src s
  | .histPerformed u b => Sys2Proof.Machine.execHistPerformed u b s
  | .viewMove u b => Sys2Proof.Machine.execViewMove u b s
  | .viewAnswer u b => Sys2Proof.Machine.execViewAnswer u b s
  | .elideMove tid n => Sys2Proof.Machine.execElideMove tid n s
  | .frameScrubDone i0 => Sys2Proof.Machine.execFrameScrubDone i0 s
  | .descriptorDelete tid => Sys2Proof.Machine.execDescriptorDelete tid s
  | .arrayOpStart u b => Sys2Proof.Machine.execArrayOpStart u b s
  | .arrayOpPerformed u b => Sys2Proof.Machine.execArrayOpPerformed u b s
  | .accPortPerformed u b => Sys2Proof.Machine.execAccPortPerformed u b s
  | .leaseGrant cl => Sys2Proof.Machine.execLeaseGrant cl s
  | .clauseBoundary u b => Sys2Proof.Machine.execClauseBoundary u b s
  | .climbFrameLoad u b => Sys2Proof.Machine.execClimbFrameLoad u b s
  | .climbMonitorEval u b => Sys2Proof.Machine.execClimbMonitorEval u b s
  | .jobEnd u b => Sys2Proof.Machine.execJobEnd u b s
  | .waitForever u b => Sys2Proof.Machine.execWaitForever u b s
  | .waitTimeout u b e => Sys2Proof.Machine.execWaitTimeout u b e s
  | .permitTimeout u b => Sys2Proof.Machine.execPermitTimeout u b s
  | .faultFrameWrite u b => Sys2Proof.Machine.execFaultFrameWrite u b s
  | .correctableErrorFreeze u => Sys2Proof.Machine.execCorrectableErrorFreeze u s
  | .freezeEnd u => Sys2Proof.Machine.execFreezeEnd u s
  | .staticPauseEnd u b => Sys2Proof.Machine.execStaticPauseEnd u b s
  | .domainClose d => Sys2Proof.Machine.execDomainClose d s
  | .faultRangeMiss u b e src row => Sys2Proof.Machine.execFaultRangeMiss u b e src row s
  | .batchFullFlush die => Sys2Proof.Machine.execBatchFullFlush die s
  | .batchTimerFlush die => Sys2Proof.Machine.execBatchTimerFlush die s
  | .faultRecordDeliver die => Sys2Proof.Machine.execFaultRecordDeliver die s
  | .rangeReply die seq status => Sys2Proof.Machine.execRangeReply die seq status s
  | .promotionStart die => Sys2Proof.Machine.execPromotionStart die s
  | .moveFence die => Sys2Proof.Machine.execMoveFence die s
  | .tileSwitch die => Sys2Proof.Machine.execTileSwitch die s
  | .xsendArrival u b src => Sys2Proof.Machine.execXsendArrival u b src s
  | .permitReturn x slot => Sys2Proof.Machine.execPermitReturn x slot s
  | .iterationPlace die => Sys2Proof.Machine.execIterationPlace die s
  | .tail f q v => Sys2Proof.Machine.execTail f q v s
  | .adminTail f v => Sys2Proof.Machine.execAdminTail f v s
  | .adminBase f v => Sys2Proof.Machine.execAdminBase f v s
  | .cqh f c v => Sys2Proof.Machine.execCqh f c v s
  | .registerWrite f off v => Sys2Proof.Machine.execRegisterWrite f off v s
  | .packetRead q => Sys2Proof.Machine.execPacketRead q s
  | .stampRecheck q => Sys2Proof.Machine.execStampRecheck q s
  | .fabricDigest q member d => Sys2Proof.Machine.execFabricDigest q member d s
  | .packetComplete q i0 => Sys2Proof.Machine.execPacketComplete q i0 s
  | .cqAppend f c => Sys2Proof.Machine.execCqAppend f c s
  | .queueDrained q => Sys2Proof.Machine.execQueueDrained q s
  | .hostBarRead p va => Sys2Proof.Machine.execHostBarRead p va s
  | .hostBarWrite p va data => Sys2Proof.Machine.execHostBarWrite p va data s
  | .createQueue f base k => Sys2Proof.Machine.execCreateQueue f base k s
  | .destroyQueue f discard => Sys2Proof.Machine.execDestroyQueue f discard s
  | .restartQueue f => Sys2Proof.Machine.execRestartQueue f s
  | .createCq f base k => Sys2Proof.Machine.execCreateCq f base k s
  | .destroyCq f => Sys2Proof.Machine.execDestroyCq f s
  | .loadImage f => Sys2Proof.Machine.execLoadImage f s
  | .allocTensor f => Sys2Proof.Machine.execAllocTensor f s
  | .freeTensor f => Sys2Proof.Machine.execFreeTensor f s
  | .invalidate f lo n => Sys2Proof.Machine.execInvalidate f lo n s
  | .moveTile f n tier stack => Sys2Proof.Machine.execMoveTile f n tier stack s
  | .createCrossing f => Sys2Proof.Machine.execCreateCrossing f s
  | .destroyCrossing f => Sys2Proof.Machine.execDestroyCrossing f s
  | .jobRestart f => Sys2Proof.Machine.execJobRestart f s
  | .jobDiscard f => Sys2Proof.Machine.execJobDiscard f s
  | .releaseContext f k c => Sys2Proof.Machine.execReleaseContext f k c s
  | .resync f => Sys2Proof.Machine.execResync f s
  | .configurePartition f r => Sys2Proof.Machine.execConfigurePartition f r s
  | .resetPartition f => Sys2Proof.Machine.execResetPartition f s
  | .preempt f => Sys2Proof.Machine.execPreempt f s
  | .resume f => Sys2Proof.Machine.execResume f s
  | .migrateSave f => Sys2Proof.Machine.execMigrateSave f s
  | .migrateRestore f img => Sys2Proof.Machine.execMigrateRestore f img s
  | .dirtyLog f on base k => Sys2Proof.Machine.execDirtyLog f on base k s
  | .dirtyLogAppend p => Sys2Proof.Machine.execDirtyLogAppend p s
  | .setTolerance f us => Sys2Proof.Machine.execSetTolerance f us s
  | .writePasid f i0 pasid v => Sys2Proof.Machine.execWritePasid f i0 pasid v s
  | .writeRemap f v addr data valid masked => Sys2Proof.Machine.execWriteRemap f v addr data valid masked s
  | .loadWeights f => Sys2Proof.Machine.execLoadWeights f s
  | .setCurrent f => Sys2Proof.Machine.execSetCurrent f s
  | .weightTileArrival p vid i0 data => Sys2Proof.Machine.execWeightTileArrival p vid i0 data s
  | .versionRetire p vid => Sys2Proof.Machine.execVersionRetire p vid s
  | .sliceExpiry g => Sys2Proof.Machine.execSliceExpiry g s
  | .preemptionLimitExpiry u b => Sys2Proof.Machine.execPreemptionLimitExpiry u b s
  | .fabricCloseMulticast d => Sys2Proof.Machine.execFabricCloseMulticast d s
  | .governorTick => Sys2Proof.Machine.execGovernorTick s
  | .stackAlertEvent tier stack kind unit bank row hit => Sys2Proof.Machine.execStackAlertEvent tier stack kind unit bank row hit s
  | .alertLogRead tier stack n => Sys2Proof.Machine.execAlertLogRead tier stack n s
  | .powerLevelEnter => Sys2Proof.Machine.execPowerLevelEnter s
  | .wake => Sys2Proof.Machine.execWake s
  | .powerOnBoot h fw => Sys2Proof.Machine.execPowerOnBoot h fw s
  | .getMeasurements nonce => Sys2Proof.Machine.execGetMeasurements nonce s
  | .tdispEnterRun f => Sys2Proof.Machine.execTdispEnterRun f s
  | .tdispExitRun f => Sys2Proof.Machine.execTdispExitRun f s
  | .fabricDomainArrival d member news => Sys2Proof.Machine.execFabricDomainArrival d member news s
  | .weightManifestArrival p vid m => Sys2Proof.Machine.execWeightManifestArrival p vid m s
  | .tileResendRequest p vid i0 member => Sys2Proof.Machine.execTileResendRequest p vid i0 member s
  | .publisherKeyProvision slot key => Sys2Proof.Machine.execPublisherKeyProvision slot key s
  | .tdispConfigLocked f => Sys2Proof.Machine.execTdispConfigLocked f s
  | .bankUnitWritePerformed k => Sys2Proof.Machine.execBankUnitWritePerformed k s

end Sys2Proof.Machine
end

