-- ==== Sys2Proof/Machine/Turn.lean ====
section
/-!
DEFINITION. The issue of an instruction by a stream, and the turn of the streams of a lane or store core (01 R22; 19 R373).
-/

namespace Sys2Proof.Machine

/-- The stream of engine `e` of unit `u` issues what stands at its Q0. -/
def State.issueOut (s : State) (u e : Nat) : Host.Outcome State Fault Refusal :=
  match s.fetch u e with
  | .error o => o
  | .ok (s1, i) => exec i s1

/-- Whether the entry at Q0 of a stream can issue: the stream runs, and the entry does not wait. -/
def State.issues (s : State) (u e : Nat) : Bool :=
  (s.settle u).canIssue u e && match s.issueOut u e with
    | .next t => decide (((t.bank u ((s.settle u).core u).kbank).stream e).wait = .none)
    | _ => false

/-- The engines that come before `e` in the turn of a lane or store core: from the one after the engine that issued last (19 R373). -/
def turnBefore (last e : Nat) : List Nat := ((List.range 6).map (fun i => (last + 1 + i) % 6)).takeWhile (fun x => decide (x ≠ e))

/-- The issue point of engine `e` of unit `u`: on a main core each stream issues by itself; on a lane or store core it issues only where no stream before it in the turn can, and is then the one that issued last (19 R373). -/
def State.issueTurn (s : State) (u e : Nat) : Host.Outcome State Fault Refusal :=
  if u < 448 ∨ 528 ≤ u then s.issueOut u e
  else if (turnBefore (s.core u).lastE e).any (s.issues u) then .next s
  else if s.issues u e then (s.setCore u { s.core u with lastE := e }).issueOut u e
  else s.issueOut u e

end Sys2Proof.Machine
end

