-- ==== Sys2Proof/Machine/Step.lean ====
section
/-!
DEFINITION. One step of the machine (10 R240, R245): the move at the head of the agenda, or the one that the free value names.
-/

namespace Sys2Proof.Machine

/-- The move `m` made in state `s`; a move that is not enabled, and an instruction that waits, change nothing but the record of the wait (log entry 1). -/
def State.move (s : State) (m : Move) : Host.Outcome State Fault Refusal :=
  match m with
  | .issue u e => s.issueTurn u e
  | .micro k => (match s.microAt k with
    | some i => exec i s
    | none => .next (s.badWord k))
  | .event i => if Instr.isEvent i then exec i s else .next s
  | .elapse n => .next (s.elapse n)
  | .hostWrite a data => .next (s.hostWrite a data)
  | .tileWrite tid n v tier stack clearD fbase => .next (s.tileWrite tid n v tier stack clearD fbase)
  | .s2Write part fsz n v tier stack clearD w mbase => .next (s.s2Write part fsz n v tier stack clearD w mbase)
  | .hostMap pasid page ok => .next (s.hostMap pasid page ok)
  | .registerRead f off => .next (s.registerRead f off)
  | .dirtyHead p n => .next (s.dirtyHead p n)
  | .tdispChannel c => .next (s.tdispChannel c)
  | .migImport i => .next (s.migImport i)
  | .fabricMap d m => .next (s.fabricMap d m)
  | .loadRecord p member record => .next (s.loadRecord p member record)
  | .getCertificate => .next s.certificate

/-- One step. -/
def step (s : State) : Host.Outcome State Fault Refusal :=
  match s.agenda with
  | m :: rest => ({ s with agenda := rest }).move m
  | [] => ({ s with moves := s.moves + 1 }).move (Config.nextMove s.moves)

/-- The instruction whose bits are `w`, `nbits` of them given, stands where the next step fetches (log entry 9). -/
def State.withFetchWord (s : State) (nbits w : Nat) : State := s.placeWord (w % 2 ^ nbits)

end Sys2Proof.Machine
end

