-- ==== Sys2Proof/Safety.lean ====
section
/-!
DEFINITION. What counts as a safe run: a step that answers a next state. No step of this model ends in a fault or a refusal: every fault of the spec is a state of a job, a queue or the module.
-/

namespace Sys2Proof.Safety

open Sys2Proof.Machine

/-- An outcome that is a next state. -/
def goesOn (o : Host.Outcome State Fault Refusal) : Prop := ∃ t, o = .next t

/-- A job of the state that no fault has stopped, in every bank of every unit. -/
def noFault (s : State) : Prop := ∀ p ∈ s.units, p.2.b0.fault = none ∧ p.2.b1.fault = none

/-- `t` differs from `s` at most in the executing bank of the unit whose instruction is executed: no other bank, no scratchpad row, no other unit and nothing outside the units differs; every byte of global memory reads as before. -/
structure OnlyBank (s t : State) : Prop where
  rest   : { t with units := s.units } = s
  others : ∀ u, u ≠ s.cur → t.core u = s.core u
  own    : t.core s.cur = (s.core s.cur).setBank s.curB t.me
  mem    : ∀ a, rdByte t.mem a = rdByte s.mem a

/-- From bank `k` to bank `k'` the stream of engine `e` has issued its entry without a branch, and the other streams stand where they stood (01 R22, 04 R97). -/
structure Issued (e : Nat) (k k' : Bank) : Prop where
  own    : k'.stream e = k.advanced e none
  others : ∀ f, f ≠ e → k'.stream f = k.stream f

/-- The job of bank `b` of unit `u` has been stopped by a fault with this code and these details that is precise for engine `e`: neither registers nor memory nor any stream have changed (08 R210, R212). -/
structure StoppedBy (s t : State) (u b e code : Nat) (da db : DWord) (dc : Word) : Prop where
  fault  : ∃ c, (t.bank u b).fault = some { code := code, eng := e, precise := true, da := da, db := db, dc := dc, cyc := c }
  status : ∀ j, (t.bank u b).job = some j → j.status = .stopped
  bank   : { t.bank u b with job := (s.bank u b).job, fault := (s.bank u b).fault, nests := (s.bank u b).nests } = s.bank u b
  rest   : { t with units := s.units } = s
  others : ∀ v, v ≠ u → t.core v = s.core v
  pad    : (t.core u).pad = (s.core u).pad
  mem    : ∀ a, rdByte t.mem a = rdByte s.mem a

end Sys2Proof.Safety
end

