-- ==== Sys2Proof/Certificates/Slice0/Obligations.lean ====
section
/-!
DEFINITION. The statements for the provers: what each instruction and move does, in terms of the machine (OBLIGATIONS.json lists them with the rules that they formalise).
-/

namespace Sys2Proof.Spec

open Sys2Proof Sys2Proof.Machine Sys2Proof.Safety

/-! ### The control engine: scalar work (03) -/

/-- Bits [127:64] of an exact product. -/
def upper (p : Int) : DWord := (BitVec.ofInt 128 p).extractLsb' 64 64

/-- The guarded register forms of R65, R66 and R67 with the value that each writes. -/
def regForms : List ((BitVec 5 → BitVec 5 → BitVec 5 → BitVec 3 → Instr) × (DWord → DWord → DWord)) :=
  [(.add, fun x y => x + y), (.sub, fun x y => x - y), (.mul, fun x y => x * y),
   (.mulh, fun x y => upper (x.toInt * y.toInt)), (.mulhu, fun x y => upper (x.toNat * y.toNat)),
   (.div, fun x y => if y = 0 then -1 else BitVec.ofInt 64 (x.toInt.tdiv y.toInt)),
   (.divu, fun x y => if y = 0 then -1 else BitVec.ofNat 64 (x.toNat / y.toNat)),
   (.rem, fun x y => if y = 0 then x else BitVec.ofInt 64 (x.toInt.tmod y.toInt)),
   (.remu, fun x y => if y = 0 then x else BitVec.ofNat 64 (x.toNat % y.toNat)),
   (.and, fun x y => x &&& y), (.or, fun x y => x ||| y), (.xor, fun x y => x ^^^ y), (.andn, fun x y => x &&& ~~~y),
   (.shl, fun x y => x <<< (y.toNat % 64)), (.shr, fun x y => x >>> (y.toNat % 64)),
   (.sra, fun x y => x.sshiftRight (y.toNat % 64)),
   (.min, fun x y => if x.toInt ≤ y.toInt then x else y), (.max, fun x y => if x.toInt ≤ y.toInt then y else x),
   (.minu, fun x y => if x.toNat ≤ y.toNat then x else y), (.maxu, fun x y => if x.toNat ≤ y.toNat then y else x)]

/-- From `s` to `t` the control stream has issued without a branch, and nothing differs but the control registers of the executing bank. -/
def ControlRegs (s t : State) : Prop :=
  OnlyBank s t ∧ Issued 0 s.me t.me ∧ { t.me with s := s.me.s, streams := s.me.streams } = s.me

/-- Register `d` of the control engine has been written with `v`, where it takes a write (R63); every other register that is no loop index reads as before. -/
def WroteS (s t : State) (d : BitVec 5) (v : DWord) : Prop :=
  ∀ r, r ≠ 30 → r ≠ 31 → t.me.rdS r = if r = d ∧ d ≠ 0 then v else s.me.rdS r

/-- The conditions of `CMP` (R68). -/
def conditions : List (BitVec 3 × (DWord → DWord → Bool)) :=
  [(0, fun x y => decide (x = y)), (1, fun x y => decide (x ≠ y)), (2, fun x y => decide (x.toInt < y.toInt)),
   (3, fun x y => decide (y.toInt ≤ x.toInt)), (4, fun x y => decide (x.toNat < y.toNat)), (5, fun x y => decide (y.toNat ≤ x.toNat))]

/-- From `s` to `t` the control stream has issued without a branch, and nothing differs but the predicates of the executing bank. -/
def PredicateRegs (s t : State) : Prop :=
  OnlyBank s t ∧ Issued 0 s.me t.me ∧ { t.me with p := s.me.p, streams := s.me.streams } = s.me

/-- Predicate `d` has been written with `v` if `g` holds; a write to p0 is discarded. -/
def WroteP (s t : State) (g : Bool) (d : BitVec 3) (v : Bool) : Prop :=
  ∀ r, t.me.rdP r = if g = true ∧ r = d ∧ d ≠ 0 then v else s.me.rdP r

/-- The immediate forms of R72 that write a register. -/
def immForms : List ((BitVec 5 → BitVec 5 → BitVec 12 → Instr) × (DWord → DWord → DWord)) :=
  [(.addi, fun x y => x + y), (.andi, fun x y => x &&& y), (.ori, fun x y => x ||| y), (.xori, fun x y => x ^^^ y),
   (.muli, fun x y => x * y), (.mini, fun x y => if x.toInt ≤ y.toInt then x else y), (.maxi, fun x y => if x.toInt ≤ y.toInt then y else x)]

/-- The shifts by an immediate (R72). -/
def shiftForms : List ((BitVec 5 → BitVec 5 → BitVec 6 → Instr) × (DWord → Nat → DWord)) :=
  [(.shli, fun x n => x <<< n), (.shri, fun x n => x >>> n), (.srai, fun x n => x.sshiftRight n)]

/-- The byte address of an access of `n` bytes to scalar data memory (R75). -/
def ea (k : Bank) (a : BitVec 5) (o : BitVec 12) (n : Nat) : Nat :=
  (k.rdS a + o.signExtend 64 * BitVec.ofNat 64 n).toNat

/-- The loads of R75: size, and the value for the little-endian number read. -/
def loadForms : List ((BitVec 5 → BitVec 5 → BitVec 12 → Instr) × Nat × (Nat → DWord)) :=
  [(.ldb, 1, fun v => (BitVec.ofNat 8 v).signExtend 64), (.ldbu, 1, BitVec.ofNat 64),
   (.ldh, 2, fun v => (BitVec.ofNat 16 v).signExtend 64), (.ldhu, 2, BitVec.ofNat 64),
   (.ldw, 4, fun v => (BitVec.ofNat 32 v).signExtend 64), (.ldwu, 4, BitVec.ofNat 64), (.ldd, 8, BitVec.ofNat 64)]

/-- The stores of R75 with their sizes. -/
def storeForms : List ((BitVec 5 → BitVec 5 → BitVec 12 → Instr) × Nat) := [(.stb, 1), (.sth, 2), (.stw, 4), (.std, 8)]

end Sys2Proof.Spec

open Sys2Proof Sys2Proof.Machine Sys2Proof.Safety Sys2Proof.Spec

/-- R63, R65, R66, R67: the twenty guarded register forms. -/
def Obligations.ScalarRegisterFormsWriteTheirResult : Prop :=
  ∀ p ∈ regForms, ∀ (d a b : BitVec 5) (g : BitVec 3) (s : State),
    ∃ t, exec (p.1 d a b g) s = .next t ∧ ControlRegs s t
      ∧ WroteS s t d (if s.me.rdP g = true then p.2 (s.me.rdS a) (s.me.rdS b) else s.me.rdS d)
      ∧ (s.me.rdP g = false ∨ d = 0 ∨ d = 30 ∨ d = 31 → t.me.s = s.me.s)

/-- R68: `CMP`, `PAND`, `POR`, `PXOR`, `MOVP`. -/
def Obligations.PredicateFormsWriteTheirPredicate : Prop :=
  (∀ x ∈ conditions, ∀ (d : BitVec 3) (a b : BitVec 5) (g : BitVec 3) (s : State),
    ∃ t, exec (.cmp d a b g x.1) s = .next t ∧ PredicateRegs s t ∧ WroteP s t (s.me.rdP g) d (x.2 (s.me.rdS a) (s.me.rdS b)))
  ∧ (∀ (d a b g : BitVec 3) (s : State),
    (∃ t, exec (.pand d a b g) s = .next t ∧ PredicateRegs s t ∧ WroteP s t (s.me.rdP g) d (s.me.rdP a && s.me.rdP b))
    ∧ (∃ t, exec (.por d a b g) s = .next t ∧ PredicateRegs s t ∧ WroteP s t (s.me.rdP g) d (s.me.rdP a || s.me.rdP b))
    ∧ (∃ t, exec (.pxor d a b g) s = .next t ∧ PredicateRegs s t ∧ WroteP s t (s.me.rdP g) d (Bool.xor (s.me.rdP a) (s.me.rdP b))))
  ∧ (∀ (d : BitVec 3) (a : BitVec 5) (g : BitVec 3) (s : State),
    ∃ t, exec (.movp d a g) s = .next t ∧ PredicateRegs s t ∧ WroteP s t (s.me.rdP g) d (decide (s.me.rdS a ≠ 0)))

/-- R69 to R71: selection, counting and bit fields. -/
def Obligations.SelectionCountingAndBitFields : Prop :=
  ∀ (d a b : BitVec 5) (g : BitVec 3) (s : State),
    let x := s.me.rdS a
    let pos := (s.me.rdS b).toNat % 64
    let w := (s.me.rdS b).toNat / 256 % 64 + 1
    (∃ t, exec (.sel d a b g) s = .next t ∧ ControlRegs s t ∧ WroteS s t d (if s.me.rdP g = true then x else s.me.rdS b))
    ∧ (∃ n, n ≤ 64 ∧ (x = 0 → n = 64) ∧ (x ≠ 0 → n < 64 ∧ x.getLsbD (63 - n) = true) ∧ (∀ i, 63 - n < i → x.getLsbD i = false)
        ∧ ∃ t, exec (.clz d a g) s = .next t ∧ ControlRegs s t
          ∧ WroteS s t d (if s.me.rdP g = true then BitVec.ofNat 64 n else s.me.rdS d))
    ∧ (∃ t, exec (.popc d a g) s = .next t ∧ ControlRegs s t
        ∧ WroteS s t d (if s.me.rdP g = true then BitVec.ofNat 64 ((List.range 64).countP (fun i => x.getLsbD i)) else s.me.rdS d))
    ∧ (∃ v t, exec (.bfx d a b g) s = .next t ∧ ControlRegs s t ∧ WroteS s t d (if s.me.rdP g = true then v else s.me.rdS d)
        ∧ ∀ j, j < 64 → v.getLsbD j = (decide (j < w) && x.getLsbD (pos + j)))
    ∧ (∃ v t, exec (.bfi d a b g) s = .next t ∧ ControlRegs s t ∧ WroteS s t d (if s.me.rdP g = true then v else s.me.rdS d)
        ∧ ∀ j, j < 64 → v.getLsbD j = if pos ≤ j ∧ j < pos + w then x.getLsbD (j - pos) else (s.me.rdS d).getLsbD j)

/-- R72, R73: immediates and moves. -/
def Obligations.ImmediateFormsAndMoves : Prop :=
  (∀ p ∈ immForms, ∀ (d a : BitVec 5) (i : BitVec 12) (s : State),
    ∃ t, exec (p.1 d a i) s = .next t ∧ ControlRegs s t ∧ WroteS s t d (p.2 (s.me.rdS a) (i.signExtend 64)))
  ∧ (∀ p ∈ shiftForms, ∀ (d a : BitVec 5) (i : BitVec 6) (s : State),
    ∃ t, exec (p.1 d a i) s = .next t ∧ ControlRegs s t ∧ WroteS s t d (p.2 (s.me.rdS a) i.toNat))
  ∧ (∀ (d : BitVec 3) (a : BitVec 5) (i : BitVec 12) (s : State),
    (∃ t, exec (.cmpeqi d a i) s = .next t ∧ PredicateRegs s t ∧ WroteP s t true d (decide (s.me.rdS a = i.signExtend 64)))
    ∧ (∃ t, exec (.cmplti d a i) s = .next t ∧ PredicateRegs s t
        ∧ WroteP s t true d (decide ((s.me.rdS a).toInt < i.toInt)))
    ∧ (∃ t, exec (.cmpltui d a i) s = .next t ∧ PredicateRegs s t
        ∧ WroteP s t true d (decide ((s.me.rdS a).toNat < (i.signExtend 64).toNat))))
  ∧ (∀ (d : BitVec 5) (i : BitVec 19) (lit : Word) (s : State),
    (∃ t, exec (.movi d i) s = .next t ∧ ControlRegs s t ∧ WroteS s t d (i.signExtend 64))
    ∧ (∃ t, exec (.movl d lit) s = .next t ∧ ControlRegs s t ∧ WroteS s t d (lit.signExtend 64))
    ∧ (∃ t, exec (.movlh d lit) s = .next t ∧ ControlRegs s t ∧ WroteS s t d (lit ++ (s.me.rdS d).extractLsb' 0 32)))

/-- R75: the loads of scalar data memory. -/
def Sys2Proof.Spec.ScalarLoadReadsItsBytes : Prop :=
  ∀ p ∈ loadForms, ∀ (d a : BitVec 5) (o : BitVec 12) (s : State),
    ea s.me a o p.2.1 + p.2.1 ≤ 0x10000 → ea s.me a o p.2.1 % p.2.1 = 0 →
    ∃ t, exec (p.1 d a o) s = .next t ∧ ControlRegs s t
      ∧ WroteS s t d (p.2.2 (leNat (rdBytes s.me.sdm (ea s.me a o p.2.1) p.2.1)))

/-- R75: the stores of scalar data memory. -/
def Sys2Proof.Spec.ScalarStoreWritesItsBytes : Prop :=
  ∀ p ∈ storeForms, ∀ (v a : BitVec 5) (o : BitVec 12) (s : State),
    ea s.me a o p.2 + p.2 ≤ 0x10000 → ea s.me a o p.2 % p.2 = 0 →
    ∃ t, exec (p.1 v a o) s = .next t ∧ OnlyBank s t ∧ Issued 0 s.me t.me
      ∧ { t.me with sdm := s.me.sdm, streams := s.me.streams } = s.me
      ∧ (∀ i, i < p.2 → rdByte t.me.sdm (ea s.me a o p.2 + i) = BitVec.ofNat 8 ((s.me.rdS v).toNat / 256 ^ i))
      ∧ (∀ x, x < ea s.me a o p.2 ∨ ea s.me a o p.2 + p.2 ≤ x → rdByte t.me.sdm x = rdByte s.me.sdm x)

/-- R76: the two faults of scalar data memory. -/
def Sys2Proof.Spec.ScalarMemoryFaultsChangeNothing : Prop :=
  ∀ p ∈ loadForms.map (fun x => (x.1, x.2.1)) ++ storeForms, ∀ (d a : BitVec 5) (o : BitVec 12) (s : State), s.me.fault = none →
    (0x10000 < ea s.me a o p.2 + p.2 →
      ∃ t, exec (p.1 d a o) s = .next t ∧ StoppedBy s t s.cur s.curB 0 0x0004 (BitVec.ofNat 64 (ea s.me a o p.2)) 0 0)
    ∧ (ea s.me a o p.2 + p.2 ≤ 0x10000 → ea s.me a o p.2 % p.2 ≠ 0 →
      ∃ t, exec (p.1 d a o) s = .next t ∧ StoppedBy s t s.cur s.curB 0 0x0005 (BitVec.ofNat 64 (ea s.me a o p.2)) 0 0)

/-- R75 to R77: scalar data memory. -/
def Obligations.ScalarMemoryAccesses : Prop :=
  Sys2Proof.Spec.ScalarLoadReadsItsBytes ∧ Sys2Proof.Spec.ScalarStoreWritesItsBytes ∧ Sys2Proof.Spec.ScalarMemoryFaultsChangeNothing

namespace Sys2Proof.Spec

/-! ### The common stream class (04; 08 R201 to R207) -/

/-- From `s` to `t` nothing differs but the stream of engine `e` of the executing bank. -/
def StreamOnly (e : Nat) (s t : State) : Prop :=
  OnlyBank s t ∧ (∀ f, f ≠ e → t.me.stream f = s.me.stream f) ∧ { t.me with streams := s.me.streams } = s.me

/-- The model's records of the unperformed commands of the executing bank (08 R210) are those of `s`, but for what `f` takes from the old record. -/
def RecordsKept (f : Back → Back → Back) (s t : State) : Prop :=
  ∀ m y, get none t.me.backs m = some y → ∃ x, get none s.me.backs m = some x ∧ f x y = x

/-- The queue and the loop levels of stream `t` stand as those of `a`, with the nullify flags of Q0 and Q1 set if `annul`. -/
def QueueAs (t a : Stream) (annul : Bool) : Prop :=
  t.q0 = { addr := a.q0.addr, null := a.q0.null || annul } ∧ t.q1 = { addr := a.q1.addr, null := a.q1.null || annul } ∧ t.q2 = a.q2
    ∧ t.lp0 = a.lp0 ∧ t.lp1 = a.lp1 ∧ t.exits = a.exits

/-- Whether the slots of a branch are annulled: `nul` 1 annuls those of a branch not taken, 2 those of a taken one (R97). -/
def annuls (u : BitVec 2) (taken : Bool) : Bool := (decide (u = 1) && !taken) || (decide (u = 2) && taken)

/-- The condition of `BRQ` (R98). -/
def queueConds (k : Bank) (q : BitVec 4) : List (BitVec 3 × Bool) :=
  let n := (k.tokF q.toNat).toks.length
  let rows := (k.dfifo q.toNat).rows
  [(0, decide (n = 0)), (1, decide (n ≠ 0)), (2, decide (n = 8)), (3, decide (n < 8)), (4, rows.isEmpty), (5, !rows.isEmpty),
   (6, rows.head?.any (fun r => decide (r.row.poison ≠ 0))), (7, rows.head?.any (fun r => decide (r.row.poison = 0)))]

/-- Whether level `l` of stream `t` is active and innermost (R105). -/
def innermost (t : Stream) (l : Nat) : Prop := (t.lp l).act = true ∧ (l = 0 ∨ t.lp0.act = false)

/-- Whether R102 sends the entry after the last of `ahead` back to the start of level `l`: the level is active with its END there, no exit is pending for it, and its count exceeds the number of entries there by one at least. -/
def sentBack (t : Stream) (ahead : List (BitVec 13)) (l : Nat) : Prop :=
  ∃ x, ahead.getLast? = some x ∧ (t.lp l).act = true ∧ (t.lp l).stop = x ∧ ¬ (0 < t.exits ∧ innermost t l)
    ∧ ahead.count x + 1 ≤ (t.lp l).cnt.toNat

/-- `a` is the address that R102 gives the entry behind those at `ahead`: the start of the level that sends back, else the sequential successor. -/
def FilledBy (k : Bank) (e : Nat) (t : Stream) (ahead : List (BitVec 13)) (a : BitVec 13) : Prop :=
  (sentBack t ahead 0 → ¬ sentBack t ahead 1 → a = t.lp0.start)
  ∧ (sentBack t ahead 1 → ¬ sentBack t ahead 0 → a = t.lp1.start)
  ∧ (¬ sentBack t ahead 0 → ¬ sentBack t ahead 1 → ∀ x, ahead.getLast? = some x → a = k.succ e x)

/-- Stream `t` of engine `e` of bank `k` has been refilled from address `a` (R101, R108): flags 0, Q1 and Q2 by R102. -/
def RefilledFrom (k : Bank) (e : Nat) (t : Stream) (a : BitVec 13) : Prop :=
  t.q0 = { addr := a, null := false } ∧ t.q1.null = false ∧ t.q2.null = false
    ∧ FilledBy k e t [a] t.q1.addr ∧ FilledBy k e t [a, t.q1.addr] t.q2.addr

end Sys2Proof.Spec

/-- R22, R100, R102: the advance of the queue without a loop. -/
def Sys2Proof.Spec.NopAdvancesThePcQueue : Prop :=
  ∀ (e : BitVec 3) (s : State), (s.me.stream e.toNat).lp0.act = false → (s.me.stream e.toNat).lp1.act = false →
    ∃ t, exec (.nop e) s = .next t ∧ StreamOnly e.toNat s t
      ∧ (t.me.stream e.toNat).q0 = (s.me.stream e.toNat).q1 ∧ (t.me.stream e.toNat).q1 = (s.me.stream e.toNat).q2
      ∧ (t.me.stream e.toNat).q2 = { addr := s.me.succ e.toNat (s.me.stream e.toNat).q2.addr, null := false }
      ∧ (t.me.stream e.toNat).lp0 = (s.me.stream e.toNat).lp0 ∧ (t.me.stream e.toNat).lp1 = (s.me.stream e.toNat).lp1
      ∧ (t.me.stream e.toNat).b = (s.me.stream e.toNat).b ∧ (t.me.stream e.toNat).epoch = (s.me.stream e.toNat).epoch

/-- R22, R102, R103, R105, R106: the loop end and the entry that the queue then takes. -/
def Sys2Proof.Spec.LoopEndCountsDownOrLeaves : Prop :=
  ∀ (e : BitVec 3) (l : Nat) (s : State), l < 2 →
    let x := s.me.stream e.toNat
    let L := x.lp l
    L.act = true → L.stop = x.q0.addr →
    ∃ t, exec (.nop e) s = .next t ∧ StreamOnly e.toNat s t
      ∧ (0 < x.exits → (l = 0 ∨ x.lp0.act = false) →
          (t.me.stream e.toNat).lp l = { L with cnt := 0, act := false }
          ∧ (t.me.stream e.toNat).q0.addr = s.me.succ e.toNat x.q0.addr
          ∧ (t.me.stream e.toNat).exits =
              if (t.me.stream e.toNat).lp0.act = true ∨ (t.me.stream e.toNat).lp1.act = true then x.exits - 1 else 0)
      ∧ (x.exits = 0 →
          (t.me.stream e.toNat).q0 = x.q1 ∧ (t.me.stream e.toNat).q1 = x.q2 ∧ (t.me.stream e.toNat).q2.null = false
          ∧ FilledBy s.me e.toNat (t.me.stream e.toNat) [x.q1.addr, x.q2.addr] (t.me.stream e.toNat).q2.addr)
      ∧ (x.exits = 0 ∨ (l = 1 ∧ x.lp0.act = true) →
          (t.me.stream e.toNat).lp l =
            if L.cnt = 1 then { L with cnt := 0, act := false } else { L with cnt := L.cnt - 1, idx := L.idx + 1 })

/-- R97 to R99: the branches. -/
def Sys2Proof.Spec.BranchesFollowTheirCondition : Prop :=
  (∀ (e n k : BitVec 3) (p : BitVec 1) (u : BitVec 2) (lk : BitVec 1) (s : State),
    let taken := Bool.xor (s.me.rdP k) (decide (p = 1))
    ∃ t, exec (.br e n k p u lk) s = .next t ∧ StreamOnly e.toNat s t
      ∧ QueueAs (t.me.stream e.toNat) (s.me.advanced e.toNat (if taken then some (s.me.rdB e.toNat n) else none)) (annuls u taken)
      ∧ ∀ r, t.me.rdB e.toNat r =
          if taken = true ∧ lk = 1 ∧ r = 7 then wrapAddr e.toNat (s.me.advanced e.toNat none).q2.addr.toNat else s.me.rdB e.toNat r)
  ∧ (∀ (e n : BitVec 3) (q : BitVec 4) (u : BitVec 2) (s : State), ∀ c ∈ queueConds s.me q, c.1.toNat < 4 ∨ q.toNat < 4 →
    ∃ t, exec (.brq e n q c.1 u) s = .next t ∧ StreamOnly e.toNat s t
      ∧ QueueAs (t.me.stream e.toNat) (s.me.advanced e.toNat (if c.2 then some (s.me.rdB e.toNat n) else none)) (annuls u c.2)
      ∧ ∀ r, t.me.rdB e.toNat r = s.me.rdB e.toNat r)

/-- R94, R95: preparing a target. -/
def Sys2Proof.Spec.PrepareToBranchWritesItsTarget : Prop :=
  ∀ (e n : BitVec 3) (o : BitVec 18) (x : BitVec 5) (s : State),
    (∃ t, exec (.pbr e n o) s = .next t ∧ StreamOnly e.toNat s t
      ∧ QueueAs (t.me.stream e.toNat) (s.me.advanced e.toNat none) false
      ∧ ∀ r, t.me.rdB e.toNat r =
          if r = n then wrapAddr e.toNat (((s.me.stream e.toNat).q0.addr.setWidth 64 + o.signExtend 64 : BitVec 64)).toNat else s.me.rdB e.toNat r)
    ∧ (∃ t, exec (.pbrr e n x) s = .next t ∧ StreamOnly e.toNat s t
      ∧ QueueAs (t.me.stream e.toNat) (s.me.advanced e.toNat none) false
      ∧ ∀ r, t.me.rdB e.toNat r = if r = n then wrapAddr e.toNat (s.me.scal e.toNat x).toNat else s.me.rdB e.toNat r)

/-- R22, R94 to R99: branches. -/
def Obligations.BranchesAndTheirTargets : Prop :=
  Sys2Proof.Spec.BranchesFollowTheirCondition ∧ Sys2Proof.Spec.PrepareToBranchWritesItsTarget

/-- R101: the loop words. -/
def Sys2Proof.Spec.LoopWordsStartTheirLevel : Prop :=
  ∀ (e : BitVec 3) (l : BitVec 1) (n : BitVec 10) (x : BitVec 5) (o : BitVec 10) (s : State),
    let t0 := s.me.stream e.toNat
    let a := t0.q0.addr
    let stop := wrapAddr e.toNat (a.toNat + o.toNat)
    let inSequence := t0.q1 = { addr := s.me.succ e.toNat a, null := false }
      ∧ t0.q2 = { addr := s.me.succ e.toNat t0.q1.addr, null := false }
    let clash := (t0.lp (1 - l.toNat)).act = true ∧ (t0.lp (1 - l.toNat)).stop = stop
    let started := fun (c : Nat) (t : State) =>
      StreamOnly e.toNat s t
      ∧ (t.me.stream e.toNat).lp l.toNat = { start := s.me.succ e.toNat a, stop := stop, cnt := BitVec.ofNat 33 c, idx := 0, act := true }
      ∧ (t.me.stream e.toNat).lp (1 - l.toNat) = t0.lp (1 - l.toNat)
      ∧ RefilledFrom s.me e.toNat (t.me.stream e.toNat) (s.me.succ e.toNat a)
    (inSequence → ¬ clash → stop ≠ a → ¬ ((t0.lp (1 - l.toNat)).act = true ∧ (t0.lp (1 - l.toNat)).stop = a) →
      (∃ t, exec (.loop e l n o) s = .next t ∧ started (if n = 0 then 1024 else n.toNat) t)
      ∧ (∃ t, exec (.loopr e l x o) s = .next t
          ∧ started (if (s.me.scal e.toNat x).toNat % 2 ^ 32 = 0 then 2 ^ 32 else (s.me.scal e.toNat x).toNat % 2 ^ 32) t))
    ∧ (s.me.fault = none → ¬ inSequence ∨ clash →
      ∀ i ∈ [Instr.loop e l n o, Instr.loopr e l x o],
        ∃ t da, exec i s = .next t ∧ StoppedBy s t s.cur s.curB e.toNat 0x0001 da 0 0)

/-- R22, R100 to R106: the PC queue and the loop levels. -/
def Obligations.NopAndLoops : Prop :=
  Sys2Proof.Spec.NopAdvancesThePcQueue ∧ Sys2Proof.Spec.LoopEndCountsDownOrLeaves ∧ Sys2Proof.Spec.LoopWordsStartTheirLevel

/-- R108, R109: taking a trap and returning from it. -/
def Obligations.TrapEntrySavesAndTretRestores : Prop :=
  (∀ (s : State), s.me.csr.th = true →
    let x := s.me.stream 0
    ∃ t, exec .tret s = .next t ∧ OnlyBank s t ∧ (∀ f, f ≠ 0 → t.me.stream f = s.me.stream f)
      ∧ { t.me with csr := s.me.csr, streams := s.me.streams } = s.me
      ∧ t.me.csr = { s.me.csr with th := false }
      ∧ (t.me.stream 0).q0 = s.me.csr.epcqA ∧ (t.me.stream 0).q1 = s.me.csr.epcqB ∧ (t.me.stream 0).q2 = s.me.csr.epcqC
      ∧ (∀ r, t.me.rdB 0 r = s.me.rdB 0 r) ∧ (t.me.stream 0).epoch = x.epoch ∧ (t.me.stream 0).know = x.know ∧ (t.me.stream 0).phase = x.phase
      ∧ ∀ l, l < 2 → (x.lp l).act = false ∨ (x.lp l).stop ≠ x.q0.addr → (t.me.stream 0).lp l = x.lp l)
  ∧ ∀ (c : BitVec 16) (s : State), s.me.csr.th = false →
    let q := s.me.advanced 0 none
    ∃ t, exec (.trap 0 c) s = .next t ∧ OnlyBank s t ∧ (∀ f, f ≠ 0 → t.me.stream f = s.me.stream f)
      ∧ { t.me with csr := s.me.csr, streams := s.me.streams } = s.me
      ∧ t.me.csr = { s.me.csr with epcqA := q.q0, epcqB := q.q1, epcqC := q.q2, causeCode := c, causeKind := 2, th := true }
      ∧ (t.me.stream 0).lp0 = q.lp0 ∧ (t.me.stream 0).lp1 = q.lp1 ∧ (∀ r, t.me.rdB 0 r = s.me.rdB 0 r)
      ∧ RefilledFrom s.me 0 (t.me.stream 0) s.me.csr.tvec
      ∧ ∃ r, exec .tret t = .next r ∧ OnlyBank t r ∧ (∀ f, f ≠ 0 → r.me.stream f = s.me.stream f)
        ∧ { r.me with csr := t.me.csr, streams := t.me.streams } = t.me
        ∧ r.me.csr = { t.me.csr with th := false }
        ∧ (r.me.stream 0).q0 = q.q0 ∧ (r.me.stream 0).q1 = q.q1 ∧ (r.me.stream 0).q2 = q.q2

/-- R109, R207: the faults of the system forms of the stream class. -/
def Sys2Proof.Spec.TrapAndClauseFaults : Prop :=
  ∀ (s : State), s.me.fault = none →
    (s.me.csr.th = false → ∃ t da, exec .tret s = .next t ∧ StoppedBy s t s.cur s.curB 0 0x0001 da 0 0)
    ∧ (∀ c, s.me.csr.th = true → ∃ t, exec (.trap 0 c) s = .next t ∧ StoppedBy s t s.cur s.curB 0 0x0013 (c.setWidth 64) 0 0)
    ∧ (∀ (e : BitVec 3) (c : BitVec 16), e ≠ 0 → ∃ t, exec (.trap e c) s = .next t ∧ StoppedBy s t s.cur s.curB e.toNat 0x0014 (c.setWidth 64) 0 0)
    ∧ (∀ n, s.me.csr.th = true → ∀ i ∈ [Instr.join 0, Instr.clause 0 n], ∃ t da, exec i s = .next t ∧ StoppedBy s t s.cur s.curB 0 0x0001 da 0 0)
    ∧ (∀ (e : BitVec 3) (n m : BitVec 16), (e ≠ 0 ∨ s.me.csr.th = false) → (∃ f, f < 6 ∧ f ≠ e.toNat ∧ (s.me.stream f).phase = .clause n) →
        (∀ f, f ≠ e.toNat → ∀ x, (s.me.stream f).phase = .clause x → x = n) →
        (∃ t, exec (.join e) s = .next t ∧ StoppedBy s t s.cur s.curB e.toNat 0x000F (n.setWidth 64) (BitVec.allOnes 64) 0)
        ∧ (m ≠ n → ∃ t, exec (.clause e m) s = .next t ∧ StoppedBy s t s.cur s.curB e.toNat 0x000F (n.setWidth 64) (m.setWidth 64) 0))
    ∧ (∀ (e : BitVec 3) (m : BitVec 16), (e ≠ 0 ∨ s.me.csr.th = false) → (∃ f, f < 6 ∧ f ≠ e.toNat ∧ (s.me.stream f).phase = .joined) →
        (∀ f, f ≠ e.toNat → ∀ x, (s.me.stream f).phase ≠ .clause x) →
        ∃ t, exec (.clause e m) s = .next t ∧ StoppedBy s t s.cur s.curB e.toNat 0x000F (BitVec.allOnes 64) (m.setWidth 64) 0)

/-- R105, R201, R206: the ends of a stream and the leave flag. -/
def Sys2Proof.Spec.JoinClauseAndSetleave : Prop :=
  (∀ (e : BitVec 3) (s : State), (e = 0 → s.me.csr.th = false) →
    (∀ f, f ≠ e.toNat → ∀ n, (s.me.stream f).phase ≠ .clause n) →
    ∃ t, exec (.join e) s = .next t ∧ StreamOnly e.toNat s t
      ∧ (s.me.histPending = false → (t.me.stream e.toNat).phase = .joined
          ∧ QueueAs (t.me.stream e.toNat) (s.me.advanced e.toNat none) false)
      ∧ (s.me.histPending = true →
          t.me.stream e.toNat = { s.me.stream e.toNat with wait := .inner, waited := (t.me.stream e.toNat).waited }))
  ∧ (∀ (e : BitVec 3) (n : BitVec 16) (s : State), (e = 0 → s.me.csr.th = false) →
    (∀ f, f ≠ e.toNat → (s.me.stream f).phase ≠ .joined ∧ ∀ m, (s.me.stream f).phase = .clause m → m = n) →
    ∃ t, exec (.clause e n) s = .next t ∧ StreamOnly e.toNat s t
      ∧ t.me.stream e.toNat = { s.me.stream e.toNat with phase := .clause n })
  ∧ (∀ (s : State), s.me.accesses = true →
    ∃ t, exec .setleave s = .next t ∧ StreamOnly 0 s t ∧ t.me.stream 0 = { s.me.stream 0 with wait := .remote 0, waited := (t.me.stream 0).waited })
  ∧ (∀ (s : State), s.me.accesses = false →
    ∃ t, exec .setleave s = .next t ∧ OnlyBank s t ∧ { t.me with streams := s.me.streams, backs := s.me.backs } = s.me
      ∧ RecordsKept (fun x y => { y with t := { y.t with exits := x.t.exits } }) s t
      ∧ ∀ f, t.me.stream f =
          (let x := (s.me.advance 0).stream f
           if (x.lp0.act = true ∨ x.lp1.act = true) ∧ x.phase ≠ .idle then { x with exits := x.exits + 1 } else x))

/-- R105, R109, R201, R206, R207: the end of a stream. -/
def Obligations.FaultsJoinClauseAndSetleave : Prop :=
  Sys2Proof.Spec.TrapAndClauseFaults ∧ Sys2Proof.Spec.JoinClauseAndSetleave

/-- R203, R204, R242, R243: tokens. -/
def Sys2Proof.Spec.TokensCarryEpochs : Prop :=
  ∀ (e : BitVec 3) (f : BitVec 4) (n : BitVec 3) (s : State),
    let c := if n = 0 then 8 else n.toNat
    let q := s.me.tokF f.toNat
    (q.bound = true → q.prod = e.toNat → s.me.pushRoom e.toNat = true → (s.me.stream e.toNat).epoch ≠ 8191 →
      ∃ t, exec (.sigk e f n) s = .next t ∧ OnlyBank s t ∧ (∀ g, g ≠ e.toNat → t.me.stream g = s.me.stream g)
        ∧ { t.me with streams := s.me.streams, cmds := s.me.cmds, seq := s.me.seq } = s.me ∧ t.me.seq = s.me.seq + 1
        ∧ t.me.queue e.toNat = s.me.queue e.toNat ++
            [{ seq := s.me.seq, pc := (s.me.stream e.toNat).q0.addr, epoch := (s.me.stream e.toNat).epoch, op := .push f.toNat c }]
        ∧ (∀ g, g ≠ e.toNat → t.me.queue g = s.me.queue g)
        ∧ (t.me.stream e.toNat).epoch = (s.me.stream e.toNat).epoch + 1
        ∧ QueueAs (t.me.stream e.toNat) (s.me.advanced e.toNat none) false)
    ∧ (q.bound = true → q.prod = e.toNat → s.me.pushRoom e.toNat = true → (s.me.stream e.toNat).epoch = 8191 →
      ∃ t x, exec (.sigk e f n) s = .next t ∧ (t.me.queue e.toNat).getLast? = some x ∧ x.op = .push f.toNat c
        ∧ (t.me.stream e.toNat).epoch = x.epoch + 1)
    ∧ (q.bound = true → q.cons = e.toNat → c ≤ q.toks.length →
      ∃ t, exec (.waitk e f n) s = .next t ∧ OnlyBank s t ∧ (∀ g, g ≠ e.toNat → t.me.stream g = s.me.stream g)
        ∧ { t.me with streams := s.me.streams, tok := s.me.tok, backs := s.me.backs } = s.me
        ∧ (∀ m, get none t.me.backs m = (get none s.me.backs m).map (fun x =>
            if ∃ y ∈ s.me.queue e.toNat, y.seq = m then { x with pops := x.pops ++ [(f.toNat, q.toks.take c)] } else x))
        ∧ t.me.tokF f.toNat = { q with toks := q.toks.drop c } ∧ (∀ g, g ≠ f.toNat → t.me.tokF g = s.me.tokF g)
        ∧ (t.me.stream e.toNat).know = merge (s.me.stream e.toNat).know q.prod (q.toks.getD (c - 1) 0)
        ∧ QueueAs (t.me.stream e.toNat) (s.me.advanced e.toNat none) false)
    ∧ (s.me.fault = none →
      (q.bound = false ∨ q.prod ≠ e.toNat → ∃ t, exec (.sigk e f n) s = .next t ∧ StoppedBy s t s.cur s.curB e.toNat 0x0010 (f.setWidth 64) 0 0)
      ∧ (q.bound = false ∨ q.cons ≠ e.toNat → ∃ t, exec (.waitk e f n) s = .next t ∧ StoppedBy s t s.cur s.curB e.toNat 0x0010 (f.setWidth 64) 0 0))

/-- R195: waiting on an arrival word. -/
def Sys2Proof.Spec.WaitawAcquiresTheSnapshot : Prop :=
  ∀ (e : BitVec 3) (x y : BitVec 5) (s : State),
    let a : Word := (s.me.scal e.toNat x).setWidth 32
    let g : Word := (s.me.scal e.toNat y).setWidth 32
    let r := s.row s.cur s.curB (a.toNat / 512)
    let w := a.toNat / 16 % 32
    (a.toNat / 512 < s.me.rows → s.armed s.cur s.curB (a.toNat / 16) = true → (arrField r w 2 - g).toNat < 2 ^ 31 → s.me.isStatic = false →
      ∃ t, exec (.waitaw e x y) s = .next t ∧ OnlyBank s t ∧ (∀ f, f ≠ e.toNat → t.me.stream f = s.me.stream f)
        ∧ { t.me with streams := s.me.streams, arr := s.me.arr, backs := s.me.backs } = s.me
        ∧ RecordsKept (fun x y => { y with gens := x.gens }) s t
        ∧ (∀ i, (t.me.arrVec i).a = (s.me.arrVec i).a ∧ (t.me.arrVec i).s = (s.me.arrVec i).s ∧ (t.me.arrVec i).live = (s.me.arrVec i).live)
        ∧ (t.me.stream e.toNat).know = mergeAll (s.me.stream e.toNat).know (s.me.arrVec (a.toNat / 16)).s
        ∧ QueueAs (t.me.stream e.toNat) (s.me.advanced e.toNat none) false)
    ∧ (s.me.fault = none → s.me.rows ≤ a.toNat / 512 →
      ∃ t, exec (.waitaw e x y) s = .next t
        ∧ StoppedBy s t s.cur s.curB e.toNat 0x0003 (BitVec.ofNat 64 a.toNat) (BitVec.ofNat 64 s.me.rows) 0)
    ∧ (s.me.fault = none → a.toNat / 512 < s.me.rows → s.armed s.cur s.curB (a.toNat / 16) = false →
      ∃ t da, exec (.waitaw e x y) s = .next t ∧ StoppedBy s t s.cur s.curB e.toNat 0x000D da 3 0)

/-- R187, R195, R203, R204, R242, R243: synchronisation between streams. -/
def Obligations.TokensAndArrivalWaits : Prop :=
  Sys2Proof.Spec.TokensCarryEpochs ∧ Sys2Proof.Spec.WaitawAcquiresTheSnapshot

namespace Sys2Proof.Spec

/-! ### The system forms of the control engine (03 R78 to R92, 07 R183, 08 R192, 13 R310 to R316, 14 R326 to R329) -/

/-- The number that each CSR reads as, by its field map (R85 to R92). -/
def csrValues (s : State) : List (BitVec 5 × Nat) :=
  let c := s.me.csr
  [(0, c.frz.toNat * 2 ^ 48 + 8 * c.th.toNat + 4 * (decide (c.tickcmp.toNat ≤ (s.tickOf s.cur).toNat)).toNat + 2 * c.tie.toNat),
   (1, c.causeCode.toNat * 2 ^ 32 + c.causeKind.toNat), (2, c.tvec.toNat),
   (3, c.epcqA.null.toNat * 2 ^ 13 + c.epcqA.addr.toNat), (4, c.epcqB.null.toNat * 2 ^ 13 + c.epcqB.addr.toNat),
   (5, c.epcqC.null.toNat * 2 ^ 13 + c.epcqC.addr.toNat), (6, c.fframe.toNat), (7, c.dmrLevel.toNat * 2 ^ 16 + c.dmrId.toNat),
   (8, c.ftbase.toNat), (9, c.fctl.toNat), (10, c.aborts.toNat * 2 ^ 32 + c.climbs.toNat * 2 ^ 16 + c.tier.toNat * 2 ^ 8 + c.last.toNat),
   (11, c.waitlim.toNat), (12, (s.tickOf s.cur).toNat), (13, c.tickcmp.toNat), (14, (s.core s.cur).kbank % 2 ^ 64),
   (15, (s.me.streams.any (fun p => decide (0 < p.2.exits))).toNat), (16, (s.cycleOf s.cur).toNat), (17, s.permits s.cur % 2 ^ 64),
   (18, c.viewst.toNat)]

/-- What a write of `v` to a CSR leaves in the CSRs: its RW fields take the bits of `v`, RO and RSV fields stay (R81, R85 to R90). -/
def csrWrites (c : Csr) (v : DWord) : List (BitVec 5 × Csr) :=
  [(0, { c with frz := v.extractLsb' 48 16, tie := v.getLsbD 1 }),
   (1, { c with causeCode := v.extractLsb' 32 16, causeKind := v.extractLsb' 0 8 }), (2, { c with tvec := v.extractLsb' 0 13 }),
   (3, { c with epcqA := { addr := v.extractLsb' 0 13, null := v.getLsbD 13 } }),
   (4, { c with epcqB := { addr := v.extractLsb' 0 13, null := v.getLsbD 13 } }),
   (5, { c with epcqC := { addr := v.extractLsb' 0 13, null := v.getLsbD 13 } }),
   (6, { c with fframe := BitVec.ofNat 64 (v.toNat / 8 * 8) }), (8, { c with ftbase := v.extractLsb' 0 4 }), (9, { c with fctl := v.extractLsb' 0 4 }),
   (10, c), (11, { c with waitlim := v }), (13, { c with tickcmp := v }), (14, c), (15, c), (16, c), (17, c), (18, c)]

/-- The bank with DMR set to level `l` and id `i`. -/
def withDmr (k : Bank) (l : BitVec 3) (i : BitVec 16) : Bank := { k with csr := { k.csr with dmrLevel := l, dmrId := i } }

end Sys2Proof.Spec

/-- R81, R85 to R92: reading and writing CSRs. -/
def Obligations.CsrsReadAndWriteTheirFields : Prop :=
  (∀ (d : BitVec 5) (s : State), ∀ x ∈ csrValues s,
    ∃ t v, exec (.csrr d x.1) s = .next t ∧ ControlRegs s t ∧ WroteS s t d v ∧ v.toNat = x.2)
  ∧ (∀ (a : BitVec 5) (s : State), ∀ x ∈ csrWrites s.me.csr (s.me.rdS a),
    ∃ t, exec (.csrw a x.1) s = .next t ∧ OnlyBank s t ∧ Issued 0 s.me t.me
      ∧ { t.me with csr := s.me.csr, streams := s.me.streams } = s.me ∧ t.me.csr = x.2)
  ∧ (∀ (a : BitVec 5) (s : State),
    ∃ t, exec (.csrw a 12) s = .next t ∧ t.tickOf s.cur = s.me.rdS a ∧ t.cycleOf s.cur = s.cycleOf s.cur
      ∧ { t.me with streams := s.me.streams, backs := s.me.backs } = s.me ∧ RecordsKept (fun x y => { y with tickBy := x.tickBy }) s t
      ∧ { t with units := s.units } = s ∧ Issued 0 s.me t.me ∧ (∀ u, u ≠ s.cur → t.core u = s.core u)
      ∧ (∃ x, t.core s.cur = ({ s.core s.cur with tick := x }).setBank s.curB t.me) ∧ ∀ m, rdByte t.mem m = rdByte s.mem m)

/-- R83, R315: writing DMR. -/
def Obligations.CsrwToDmrActsAsDmrset : Prop :=
  (∀ (a : BitVec 5) (s : State),
    exec (.csrw a 7) s = exec (.dmrset ((s.me.rdS a).extractLsb' 16 3) ((s.me.rdS a).extractLsb' 0 16)) s)
  ∧ (∀ (l : BitVec 3) (i : BitVec 16) (s : State), s.me.fault = none → 4 < l.toNat ∨ (l = 0 ∧ 32767 < i.toNat) →
    ∃ t da, exec (.dmrset l i) s = .next t ∧ StoppedBy s t s.cur s.curB 0 0x0001 da 0 0)
  ∧ (∀ (l : BitVec 3) (i : BitVec 16) (s : State) (j : Job), s.me.fault = none → s.me.job = some j → j.climb = true → l.toNat < 2 →
    ∃ t da, exec (.dmrset l i) s = .next t ∧ StoppedBy s t s.cur s.curB 0 0x0001 da 0 0)

/-- R315, R316: joining and leaving a domain. -/
def Sys2Proof.Spec.DmrsetJoinsAndLeaves : Prop :=
  ∀ (l : BitVec 3) (i : BitVec 16) (s : State) (j : Job),
    s.me.job = some j → j.static = false → j.climb = false → l.toNat ≤ 4 → (l = 0 → i.toNat ≤ 32767) →
    s.undone s.cur s.curB = false →
    let key := domKey l.toNat (s.joinScope s.cur j l.toNat) i.toNat
    (∀ d, i ≠ 0 → s.me.csr.dmrId = 0 → s.domain key = some d → d.joined < d.quota → (l = 0 ∨ s.otherMember s.cur s.curB key = false) →
      ∃ t, exec (.dmrset l i) s = .next t ∧ t.me.csr = { s.me.csr with dmrLevel := l, dmrId := i }
        ∧ t.domain key = some { d with joined := d.joined + 1 } ∧ (∀ k', k' ≠ key → t.domain k' = s.domain k')
        ∧ (t.me.stream 0).q0 = (s.me.advanced 0 none).q0
        ∧ t.me.job = some { j with arrived := false, dscope := s.joinScope s.cur j l.toNat }
        ∧ { t.me with csr := s.me.csr, streams := s.me.streams, job := s.me.job } = s.me
        ∧ { t with units := s.units, domains := s.domains, sent := s.sent } = s ∧ ∀ a, rdByte t.mem a = rdByte s.mem a)
    ∧ (∀ d old, i = 0 → s.me.csr.dmrLevel.toNat < 4 → s.dmrKey s.cur s.curB = some old → s.domain old = some d → j.arrived = false →
      ∃ t, exec (.dmrset l i) s = .next t ∧ t.me.csr = { s.me.csr with dmrLevel := l, dmrId := 0 }
        ∧ t.domain old = some { d with departed := d.departed + 1 } ∧ (∀ k', k' ≠ old → t.domain k' = s.domain k')
        ∧ ∀ a, rdByte t.mem a = rdByte s.mem a)
    ∧ (i ≠ 0 → s.me.fault = none → (s.domain key = none ∨ ∃ d, s.domain key = some d ∧ d.quota ≤ d.joined) →
      ∃ t, exec (.dmrset l i) s = .next t ∧ StoppedBy s t s.cur s.curB 0 0x0007 (BitVec.ofNat 64 (l.toNat * 2 ^ 16 + i.toNat)) 0 0)

/-- R311, R316: arriving in a phase. -/
def Sys2Proof.Spec.DsyncAndHlatchArrive : Prop :=
  (∀ (a : BitVec 5) (s : State) (j : Job), s.me.job = some j → s.undone s.cur s.curB = false →
    (s.me.csr.dmrId = 0 → j.static = false →
      ∃ t, exec .dsync s = .next t ∧ StreamOnly 0 s t ∧ QueueAs (t.me.stream 0) (s.me.advanced 0 none) false)
    ∧ (∀ key d, s.dmrKey s.cur s.curB = some key → s.domain key = some d → s.me.csr.dmrLevel.toNat < 4 →
      ∃ t, exec .dsync s = .next t ∧ t.domain key = some { d with arrivals := d.arrivals + 1 } ∧ (∀ k', k' ≠ key → t.domain k' = s.domain k')
        ∧ (t.me.stream 0).phase = .close ∧ (t.me.stream 0).q0 = (s.me.stream 0).q0 ∧ (∀ j', t.me.job = some j' → j'.arrived = true)
        ∧ ∀ x, rdByte t.mem x = rdByte s.mem x)
    ∧ (∀ key d, s.dmrKey s.cur s.curB = some key → s.domain key = some d → s.me.csr.dmrLevel = 3 →
      ∃ t, exec (.hlatch a) s = .next t
        ∧ t.domain key = some { d with arrivals := d.arrivals + 1, latches := d.latches ++ [(j.writer, j.wbank, j.jid, s.me.rdS a)] }
        ∧ (t.me.stream 0).phase = .close ∧ (t.me.stream 0).q0 = (s.me.stream 0).q0 ∧ ∀ x, rdByte t.mem x = rdByte s.mem x)
    ∧ (s.me.fault = none → s.me.csr.dmrLevel ≠ 3 ∨ s.me.csr.dmrId = 0 →
      ∃ t da, exec (.hlatch a) s = .next t ∧ StoppedBy s t s.cur s.curB 0 0x0001 da 0 0))
  ∧ (∀ (a : BitVec 5) (s : State), s.me.isStatic = false → s.undone s.cur s.curB = true →
    let remote := fun (t : State) =>
      StreamOnly 0 s t ∧ t.me.stream 0 = { s.me.stream 0 with wait := .remote 0, waited := (t.me.stream 0).waited }
    (∀ key, s.dmrKey s.cur s.curB = some key → ∃ t, exec .dsync s = .next t ∧ remote t)
    ∧ (s.me.csr.dmrLevel = 3 → s.me.csr.dmrId ≠ 0 → ∃ t, exec (.hlatch a) s = .next t ∧ remote t))

/-- R311 to R316: domains. -/
def Obligations.DomainInstructions : Prop :=
  Sys2Proof.Spec.DmrsetJoinsAndLeaves ∧ Sys2Proof.Spec.DsyncAndHlatchArrive

/-- R183, R192: format table and arrival words. -/
def Obligations.ArwinitAndFmtset : Prop :=
  (∀ (q : BitVec 4) (a : BitVec 5) (s : State),
    ∃ t, exec (.fmtset q a) s = .next t ∧ OnlyBank s t ∧ Issued 0 s.me t.me ∧ { t.me with fmt := s.me.fmt, streams := s.me.streams } = s.me
      ∧ ∀ i, get 0 t.me.fmt i = if i = q.toNat then (s.me.rdS a).setWidth 32 else get 0 s.me.fmt i)
  ∧ (∀ (a b : BitVec 5) (s : State),
    let x : Word := (s.me.rdS a).setWidth 32
    let v := s.me.rdS b
    let row := x.toNat / 512
    let w := x.toNat / 16 % 32
    let others := fun (t : State) =>
      { t.me with streams := s.me.streams, arr := s.me.arr, backs := s.me.backs } = s.me ∧ Issued 0 s.me t.me
      ∧ RecordsKept (fun x y => { y with arws := x.arws }) s t
      ∧ (∀ i, i ≠ x.toNat / 16 → t.me.arrVec i = s.me.arrVec i)
      ∧ (∀ r, r ≠ row → t.row s.cur s.curB r = s.row s.cur s.curB r)
      ∧ (∀ n, n < 128 → n / 4 ≠ w → lane (t.row s.cur s.curB row).data n = lane (s.row s.cur s.curB row).data n)
      ∧ (∀ g, g < 32 → (t.row s.cur s.curB row).poison.getLsbD g = (decide (g ≠ w) && (s.row s.cur s.curB row).poison.getLsbD g))
      ∧ { t with units := s.units } = s ∧ (∀ u, u ≠ s.cur → t.core u = s.core u)
    (row < s.me.rows → v.getLsbD 33 = true →
      ∃ t, exec (.arwinit a b) s = .next t ∧ others t ∧ t.me.arrVec (x.toNat / 16) = {}
        ∧ ∀ f, f < 4 → arrField (t.row s.cur s.curB row) w f = 0)
    ∧ (row < s.me.rows → v.getLsbD 33 = false →
      ((s.me.arrVec (x.toNat / 16)).live = true ∨ (s.me.arr.filter (fun p => p.2.live)).length < 32) → s.me.tagBusy (x.toNat / 16) = false →
      ∃ t, exec (.arwinit a b) s = .next t ∧ others t ∧ t.me.arrVec (x.toNat / 16) = { live := true }
        ∧ arrField (t.row s.cur s.curB row) w 0 = v.extractLsb' 0 32 ∧ arrField (t.row s.cur s.curB row) w 1 = 0
        ∧ arrField (t.row s.cur s.curB row) w 2 = 0
        ∧ arrField (t.row s.cur s.curB row) w 3 = BitVec.ofNat 32 ((v.getLsbD 32).toNat * 2 ^ 18 + 2 ^ 16))
    ∧ (s.me.fault = none → s.me.rows ≤ row →
      ∃ t, exec (.arwinit a b) s = .next t
        ∧ StoppedBy s t s.cur s.curB 0 0x0003 (BitVec.ofNat 64 x.toNat) (BitVec.ofNat 64 s.me.rows) 0)
    ∧ (s.me.fault = none → row < s.me.rows → v.getLsbD 33 = false → (s.me.arrVec (x.toNat / 16)).live = false →
      32 ≤ (s.me.arr.filter (fun p => p.2.live)).length →
      ∃ t, exec (.arwinit a b) s = .next t ∧ StoppedBy s t s.cur s.curB 0 0x0011 (x.setWidth 64) 0 0))

/-- R78 to R80, R310: the global accesses of the control engine at issue. -/
def Obligations.LdgStgHistIssueCommands : Prop :=
  ∀ (d a b : BitVec 5) (o : BitVec 12) (s : State) (j : Job), s.me.job = some j →
    let va := s.me.rdS a + o.signExtend 64 * 8
    let issued := fun (op : CmdOp) (t : State) =>
      OnlyBank s t ∧ Issued 0 s.me t.me ∧ { t.me with cmds := s.me.cmds, seq := s.me.seq, streams := s.me.streams, backs := s.me.backs } = s.me
      ∧ t.me.seq = s.me.seq + 1 ∧ (∀ e, e ≠ 0 → t.me.queue e = s.me.queue e)
      ∧ t.me.queue 0 = s.me.queue 0 ++ [{ seq := s.me.seq, pc := (s.me.stream 0).q0.addr, epoch := (s.me.stream 0).epoch, op := op }]
    let noted := fun (t : State) =>
      get none t.me.backs s.me.seq = some { t := s.me.stream 0, s := s.me.s, p := s.me.p, sdm := s.me.sdm, fmt := s.me.fmt, csr := s.me.csr,
                                               request := j.request }
      ∧ ∀ n, n ≠ s.me.seq → get none t.me.backs n = get none s.me.backs n
    (∀ x, s.flatAt j s.cur 8 va = .ok x →
      (∃ t, exec (.ldg d a o) s = .next t ∧ issued (.ldg d.toNat va) t ∧ noted t)
      ∧ (∃ t, exec (.stg b a o) s = .next t ∧ issued (.stg va (s.me.rdS b)) t ∧ noted t))
    ∧ (∀ f, s.flatAt j s.cur 8 va = .error f → s.me.fault = none → ∀ i ∈ [Instr.ldg d a o, Instr.stg b a o],
      ∃ t, exec i s = .next t ∧ StoppedBy s t s.cur s.curB 0 f.code f.da f.db f.dc)
    ∧ (∀ v x, s.me.histPending = false → s.checkView j s.cur ((s.me.rdS a).setWidth 32) true false = .ok (v, x) →
      (let m := (s.me.rdS b).toNat % 2 ^ 32
       m = 0 ∨ v.box.runFlt ((s.me.rdS a).setWidth 32) v.box.lo m = none) →
      (x.fmt = 4 ∨ x.fmt = 2 →
        ∃ t, exec (.hist a b) s = .next t
          ∧ issued (.hist ((s.me.rdS b).toNat % 2 ^ 32) { form := (s.me.rdS a).setWidth 32, tid := x.id, box := v.box }
              (let per := if x.fmt = 4 then 512 else 128
               ((s.me.rdS b).toNat % 2 ^ 32 + per - 1) / per)) t ∧ noted t))
    ∧ (∀ v x, s.me.histPending = false → s.viewOf j.part ((s.me.rdS a).setWidth 32) = some v → s.tensor v.tid = some x →
      x.fmt ≠ 4 → x.fmt ≠ 2 → s.me.fault = none →
      ∃ t da, exec (.hist a b) s = .next t ∧ StoppedBy s t s.cur s.curB 0 0x0001 da 0 0)

/-- R326, R327, R329: view instructions at issue. -/
def Obligations.ViewInstructionsRequestAndWait : Prop :=
  ∀ (d a b : BitVec 5) (w r : BitVec 1) (s : State),
    let ea := s.me.rdS b
    let form : Word := (s.me.rdS a).setWidth 32
    let word := fun i => leNat (rdBytes s.me.sdm (ea.toNat + 4 * i) 4)
    let waiting := fun (t : State) =>
      OnlyBank s t ∧ (∀ e, e ≠ 0 → t.me.stream e = s.me.stream e)
      ∧ t.me.stream 0 = { s.me.stream 0 with phase := .answer, wait := .none, waited := 0 }
      ∧ { t.me with streams := s.me.streams, view := s.me.view, job := s.me.job } = s.me
      ∧ t.me.job = s.me.job.map (fun j => if j.static then { j with paused := true, pauseBy := none } else j)
    (∃ t q, exec (.vdrop a) s = .next t ∧ waiting t ∧ t.me.view = some q ∧ q.op = 2 ∧ q.form = form ∧ q.moved = false)
    ∧ (ea.toNat ≤ 0xFFC0 → ea.toNat % 8 = 0 →
      (∀ x ∈ [(Instr.vnarrow a b, 1), (Instr.vquery a b, 3)],
        ∃ t q, exec x.1 s = .next t ∧ waiting t ∧ t.me.view = some q ∧ q.op = x.2 ∧ q.form = form ∧ q.ea = ea ∧ q.moved = false
          ∧ q.box.lo = (List.range 6).map word ∧ q.box.hi = (List.range 6).map (fun i => word (6 + i)))
      ∧ ((rdByte s.me.sdm (ea.toNat + 48)).toNat < 2 →
        ∃ t q, exec (.vderive d a b w r) s = .next t ∧ waiting t ∧ t.me.view = some q ∧ q.op = 0 ∧ q.form = form ∧ q.d = d.toNat
          ∧ q.rights = w ++ r ∧ q.pers = decide ((rdByte s.me.sdm (ea.toNat + 48)).toNat = 1) ∧ q.moved = false
          ∧ q.box.lo = (List.range 6).map word ∧ q.box.hi = (List.range 6).map (fun i => word (6 + i))))
    ∧ (s.me.fault = none → ∀ i ∈ [Instr.vderive d a b w r, Instr.vnarrow a b, Instr.vquery a b],
      (0xFFC0 < ea.toNat → ∃ t, exec i s = .next t ∧ StoppedBy s t s.cur s.curB 0 0x0004 ea 0 0)
      ∧ (ea.toNat ≤ 0xFFC0 → ea.toNat % 8 ≠ 0 → ∃ t, exec i s = .next t ∧ StoppedBy s t s.cur s.curB 0 0x0005 ea 0 0))
    ∧ (s.me.fault = none → ea.toNat ≤ 0xFFC0 → ea.toNat % 8 = 0 → 2 ≤ (rdByte s.me.sdm (ea.toNat + 48)).toNat →
      ∃ t da, exec (.vderive d a b w r) s = .next t ∧ StoppedBy s t s.cur s.curB 0 0x0001 da 0 0)

namespace Sys2Proof.Spec

/-! ### The vector engine (06, 07) -/

/-- From `s` to `t` the vector stream has issued without a branch, nothing differs but the vector registers, and of those only `d`. -/
def VectorReg (s t : State) (d : BitVec 5) : Prop :=
  OnlyBank s t ∧ Issued 1 s.me t.me ∧ { t.me with v := s.me.v, streams := s.me.streams } = s.me ∧ ∀ r, r ≠ d → t.me.rdV r = s.me.rdV r

/-- Register `d` has its governed elements of `w` bits written with `f`, its other elements kept; a granule is poisoned where a written element's source was or a kept element was (R139). -/
def WroteElements (s t : State) (d : BitVec 5) (w : Nat) (gov : Nat → Bool) (f : Nat → Nat) (bad : Nat → Bool) : Prop :=
  (∀ j, j < 4096 / w → (t.me.rdV d).el w j = if gov j then f j % 2 ^ w else (s.me.rdV d).el w j)
  ∧ (∀ g, g < 32 → ((t.me.rdV d).poison.getLsbD g = true ↔
      ∃ i, i < 128 / w ∧ (if gov (128 / w * g + i) then bad (128 / w * g + i) else (s.me.rdV d).poison.getLsbD g) = true))

/-- The value of a float element under FZI, and the bits of an exact result rounded in FCTL's mode, under FZO (R88, R117, R118). -/
def inF (k : Bank) (f : Fmt) (x : Nat) : FVal := f.val (f.flush k.fzi x)
def outF (k : Bank) (f : Fmt) (v : FVal) : Nat := f.flush k.fzo (f.round k.rm v)

/-- An operation on the type of an instruction: `ff` on a float format, `fi` on INT32 words. -/
def onType (ty : VT) (ff : Fmt → Nat) (fi : Nat) : Nat := match ty.fmt with | some f => ff f | none => fi

/-- A word of the low 32 bits of a number. -/
def w32 (x : Nat) : Word := BitVec.ofNat 32 x

/-- The arithmetic of two sources (R143): whether INT32 is allowed, and the element. -/
def binForms (k : Bank) (ty : VT) : List ((BitVec 5 → BitVec 5 → BitVec 5 → BitVec 3 → BitVec 2 → Instr) × Bool × (Nat → Nat → Nat)) :=
  [(.vadd, true, fun x y => onType ty (fun f => outF k f (FVal.add k.rm (inF k f x) (inF k f y))) (w32 x + w32 y).toNat),
   (.vsub, true, fun x y => onType ty (fun f => outF k f (FVal.add k.rm (inF k f x) (inF k f y).neg)) (w32 x - w32 y).toNat),
   (.vmul, true, fun x y => onType ty (fun f => outF k f (FVal.mul (inF k f x) (inF k f y))) (w32 x * w32 y).toNat),
   (.vdiv, false, fun x y => onType ty (fun f => outF k f (FVal.div (inF k f x) (inF k f y))) 0),
   (.vmin, true, fun x y => onType ty (fun f => if (inF k f x).isNan ∨ (inF k f y).isNan then f.nanBits
      else if (inF k f x).below (inF k f y) then f.flush k.fzi x else f.flush k.fzi y)
      (if (w32 x).toInt ≤ (w32 y).toInt then w32 x else w32 y).toNat),
   (.vmax, true, fun x y => onType ty (fun f => if (inF k f x).isNan ∨ (inF k f y).isNan then f.nanBits
      else if (inF k f y).below (inF k f x) then f.flush k.fzi x else f.flush k.fzi y)
      (if (w32 x).toInt ≤ (w32 y).toInt then w32 y else w32 x).toNat)]

/-- The forms of one source (R144, R145). -/
def unForms (k : Bank) (ty : VT) : List ((BitVec 5 → BitVec 5 → BitVec 3 → BitVec 2 → Instr) × Bool × (Nat → Nat)) :=
  [(.vabs, true, fun x => onType ty (fun f => outF k f (inF k f x).abs) (if (w32 x).toInt < 0 then -w32 x else w32 x).toNat),
   (.vneg, true, fun x => onType ty (fun f => outF k f (inF k f x).neg) (-w32 x).toNat),
   (.vsqrt, false, fun x => onType ty (fun f => outF k f (inF k f x).sqrt) 0),
   (.vrcp, false, fun x => onType ty (fun f => outF k f (FVal.div (.fin false 1 0) (inF k f x))) 0),
   (.vrsq, false, fun x => onType ty (fun f => outF k f (inF k f x).rsq) 0),
   (.vexp2, false, fun x => onType ty (fun f => f.flush k.fzo (f.exp2 k.rm (inF k f x))) 0),
   (.vlog2, false, fun x => onType ty (fun f => f.flush k.fzo (f.log2 k.rm (inF k f x))) 0)]

/-- The operations on 32-bit lanes (R147). -/
def bitForms : List ((BitVec 5 → BitVec 5 → BitVec 5 → MaskType → Instr) × (Word → Word → Word)) :=
  [(.vand, fun x y => x &&& y), (.vor, fun x y => x ||| y), (.vxor, fun x y => x ^^^ y), (.vshl, fun x y => x <<< (y.toNat % 32)),
   (.vshr, fun x y => x >>> (y.toNat % 32)), (.vsra, fun x y => x.sshiftRight (y.toNat % 32)),
   (.vmulhi, fun x y => (BitVec.ofInt 64 (x.toInt * y.toInt)).extractLsb' 32 32)]

/-- The multiply-adds of four registers (R150): the signs of the product and of the addend. -/
def fmaForms : List ((BitVec 5 → BitVec 5 → BitVec 5 → BitVec 5 → BitVec 2 → Instr) × Bool × Bool) :=
  [(.vfma, false, false), (.vfms, false, true), (.vnfma, true, false), (.vnfms, true, true)]

/-- A value negated where `n` says so. -/
def signed (n : Bool) (v : FVal) : FVal := if n then v.neg else v

/-- The constant forms (R173): with a word of the constant bank, and with a literal word; whether vd is a source; the element. The constant is an FP32 value. -/
def constForms (k : Bank) (d a : BitVec 5) (i : BitVec 8) (m : BitVec 3) (t : BitVec 2) (lit : Word) (ty : VT) :
    List (Instr × Word × Bool × (Word → Nat → Nat → Nat)) :=
  let fma := fun (c : Word) (x y : Nat) =>
    onType ty (fun f => outF k f (FVal.add k.rm (FVal.mul (inF k f y) (inF k f x)) (inF k fp32 c.toNat))) (w32 y * w32 x + c).toNat
  let add := fun (c : Word) (x _ : Nat) => onType ty (fun f => outF k f (FVal.add k.rm (inF k f x) (inF k fp32 c.toNat))) (w32 x + c).toNat
  let mul := fun (c : Word) (x _ : Nat) => onType ty (fun f => outF k f (FVal.mul (inF k f x) (inF k fp32 c.toNat))) (w32 x * c).toNat
  [(.vfmak d a i t m, k.rdK i, true, fma), (.vfmal d a t m lit, lit, true, fma), (.vaddk d a i t m, k.rdK i, false, add),
   (.vaddl d a t m lit, lit, false, add), (.vmulk d a i t m, k.rdK i, false, mul), (.vmull d a t m lit, lit, false, mul)]

/-- The result of a comparison of two elements (R146). -/
def cmpForms (k : Bank) (ty : VT) : List ((BitVec 3 → BitVec 5 → BitVec 5 → BitVec 3 → BitVec 2 → Instr) × (Nat → Nat → Bool)) :=
  let on := fun (ff : FVal → FVal → Bool) (fi : Int → Int → Bool) (x y : Nat) =>
    match ty.fmt with | some f => ff (inF k f x) (inF k f y) | none => fi (w32 x).toInt (w32 y).toInt
  [(.vcmpeq, on FVal.eqv (fun x y => decide (x = y))), (.vcmplt, on FVal.lt (fun x y => decide (x < y))),
   (.vcmple, on (fun x y => x.lt y || x.eqv y) (fun x y => decide (x ≤ y)))]

/-- The vector stream has issued and nothing else differs but the masks. -/
def MaskRegs (s t : State) : Prop :=
  OnlyBank s t ∧ Issued 1 s.me t.me ∧ { t.me with m := s.me.m, streams := s.me.streams } = s.me

/-- The vector stream has issued and nothing else differs but the address registers. -/
def AddressRegs (s t : State) : Prop :=
  OnlyBank s t ∧ Issued 1 s.me t.me ∧ { t.me with a := s.me.a, streams := s.me.streams } = s.me

/-- From `s` to `t` nothing outside the executing bank, the scratchpad of its unit and that scratchpad's race tags differs. -/
def OnlyPad (s t : State) : Prop :=
  { t with units := s.units } = s ∧ (∀ u, u ≠ s.cur → t.core u = s.core u)
  ∧ { t.core s.cur with pad := (s.core s.cur).pad, tags := (s.core s.cur).tags } = (s.core s.cur).setBank s.curB t.me
  ∧ ∀ a, rdByte t.mem a = rdByte s.mem a

/-- The row address of a row access: an address register plus an offset in rows (R152). -/
def rowAt (k : Bank) (a : BitVec 3) (i : BitVec 14) : Word := k.rdA a + i.signExtend 32 * 512

end Sys2Proof.Spec

/-- R137 to R145: lane-wise arithmetic of one and two sources. -/
def Obligations.VectorArithmeticWritesGovernedElements : Prop :=
  ∀ (d a b : BitVec 5) (m : BitVec 3) (t : BitVec 2) (s : State),
    (∀ ty, s.me.vtype t = some ty →
      (∀ p ∈ binForms s.me ty, p.2.1 = true ∨ ty ≠ .i32 →
        ∃ u, exec (p.1 d a b m t) s = .next u ∧ VectorReg s u d
          ∧ WroteElements s u d ty.bits (ty.gov (s.me.rdM m)) (fun j => p.2.2 ((s.me.rdV a).el ty.bits j) ((s.me.rdV b).el ty.bits j))
              (fun j => (s.me.rdV a).bad ty.bits j || (s.me.rdV b).bad ty.bits j))
      ∧ (∀ p ∈ unForms s.me ty, p.2.1 = true ∨ ty ≠ .i32 →
        ∃ u, exec (p.1 d a m t) s = .next u ∧ VectorReg s u d
          ∧ WroteElements s u d ty.bits (ty.gov (s.me.rdM m)) (fun j => p.2.2 ((s.me.rdV a).el ty.bits j)) (fun j => (s.me.rdV a).bad ty.bits j))
      ∧ (ty = .i32 → s.me.fault = none →
        ∀ i ∈ [Instr.vdiv d a b m t, Instr.vsqrt d a m t, Instr.vrcp d a m t, Instr.vrsq d a m t, Instr.vexp2 d a m t, Instr.vlog2 d a m t],
          ∃ u da, exec i s = .next u ∧ StoppedBy s u s.cur s.curB 1 0x0001 da 0 0))
    ∧ (s.me.vtype t = none → s.me.fault = none → ∀ i ∈ [Instr.vadd d a b m t, Instr.vsub d a b m t, Instr.vmul d a b m t, Instr.vdiv d a b m t,
        Instr.vmin d a b m t, Instr.vmax d a b m t, Instr.vabs d a m t, Instr.vneg d a m t, Instr.vsqrt d a m t, Instr.vrcp d a m t,
        Instr.vrsq d a m t, Instr.vexp2 d a m t, Instr.vlog2 d a m t],
      ∃ u da, exec i s = .next u ∧ StoppedBy s u s.cur s.curB 1 0x0001 da 0 0)

/-- R147, R148, R160: operations on 32-bit lanes. -/
def Sys2Proof.Spec.LaneOperationsWriteGovernedLanes : Prop :=
  ∀ (d a b : BitVec 5) (m : BitVec 3) (t : BitVec 2) (s : State),
    let M := s.me.rdM m
    let va := s.me.rdV a
    let vb := s.me.rdV b
    (s.me.vtype t = some .i32 → ∀ p ∈ bitForms, ∃ u, exec (p.1 d a b ⟨m, t⟩) s = .next u ∧ VectorReg s u d
      ∧ WroteElements s u d 32 (fun j => M.getLsbD j) (fun j => (p.2 (w32 (va.el 32 j)) (w32 (vb.el 32 j))).toNat) (fun j => va.bad 32 j || vb.bad 32 j))
    ∧ (s.me.vtype t = some .i32 → ∃ u, exec (.vnot d a ⟨m, t⟩) s = .next u ∧ VectorReg s u d
      ∧ WroteElements s u d 32 (fun j => M.getLsbD j) (fun j => 2 ^ 32 - 1 - va.el 32 j) (fun j => va.bad 32 j))
    ∧ (s.me.vtype t = some .i32 → ∃ u, exec (.vmov d a ⟨m, t⟩) s = .next u ∧ VectorReg s u d
      ∧ WroteElements s u d 32 (fun j => M.getLsbD j) (fun j => va.el 32 j) (fun j => va.bad 32 j))
    ∧ (∃ u, exec (.viota d m) s = .next u ∧ VectorReg s u d ∧ WroteElements s u d 32 (fun j => M.getLsbD j) (fun j => j) (fun _ => false))
    ∧ (s.me.vtype t = some .i32 → ∃ u, exec (.vselm d a b ⟨m, t⟩) s = .next u ∧ VectorReg s u d
      ∧ WroteElements s u d 32 (fun _ => true) (fun j => if M.getLsbD j then va.el 32 j else vb.el 32 j)
          (fun j => if M.getLsbD j then va.bad 32 j else vb.bad 32 j))
    ∧ (s.me.vtype t ≠ some .i32 → s.me.fault = none →
      ∀ i ∈ bitForms.map (fun p => p.1 d a b ⟨m, t⟩) ++ [Instr.vnot d a ⟨m, t⟩, Instr.vmov d a ⟨m, t⟩, Instr.vselm d a b ⟨m, t⟩],
        ∃ u da, exec i s = .next u ∧ StoppedBy s u s.cur s.curB 1 0x0001 da 0 0)

/-- R146, R160: masks. -/
def Sys2Proof.Spec.VectorComparisonsWriteMasks : Prop :=
  (∀ (d : BitVec 3) (a b : BitVec 5) (m : BitVec 3) (t : BitVec 2) (s : State) (ty : VT), s.me.vtype t = some ty → ∀ p ∈ cmpForms s.me ty,
    let c := fun j => p.2 ((s.me.rdV a).el ty.bits j) ((s.me.rdV b).el ty.bits j)
    let bit := fun i => match ty with
      | .b16 => c (2 * i) && c (2 * i + 1)
      | .f64 => c (i / 2)
      | _ => c i
    let wr := fun i => match ty with
      | .f64 => (s.me.rdM m).getLsbD (2 * (i / 2))
      | _ => (s.me.rdM m).getLsbD i
    ∃ u, exec (p.1 d a b m t) s = .next u ∧ MaskRegs s u ∧ (∀ r, r ≠ d ∨ r = 0 → u.me.rdM r = s.me.rdM r)
      ∧ (d ≠ 0 → ∀ i, i < 128 → (u.me.rdM d).getLsbD i = if wr i then bit i else (s.me.rdM d).getLsbD i))
  ∧ (∀ (d a : BitVec 3) (s : State),
    ∃ u, exec (.vmasklen d a) s = .next u ∧ MaskRegs s u ∧ (∀ r, r ≠ d ∨ r = 0 → u.me.rdM r = s.me.rdM r)
      ∧ (d ≠ 0 → ∀ i, i < 128 → (u.me.rdM d).getLsbD i = decide ((i : Int) < (s.me.rdA a).toInt)))

/-- R139, R146 to R148, R160: lanes and masks. -/
def Obligations.LanesAndComparisons : Prop :=
  Sys2Proof.Spec.LaneOperationsWriteGovernedLanes ∧ Sys2Proof.Spec.VectorComparisonsWriteMasks

/-- R149, R150, R161: multiply-adds, conversion, scaling. -/
def Sys2Proof.Spec.FusedConvertedAndScaledElements : Prop :=
  ∀ (d a b c : BitVec 5) (m : BitVec 3) (cs t : BitVec 2) (s : State) (ty : VT), s.me.vtype t = some ty →
    let va := s.me.rdV a
    let vb := s.me.rdV b
    let vc := s.me.rdV c
    (∀ p ∈ fmaForms, ∀ f, ty.fmt = some f →
      ∃ u, exec (p.1 d a b c t) s = .next u ∧ VectorReg s u d
        ∧ WroteElements s u d ty.bits (fun _ => true)
            (fun j => outF s.me f (FVal.add s.me.rm (signed p.2.1 (FVal.mul (inF s.me f (va.el ty.bits j)) (inF s.me f (vb.el ty.bits j))))
              (signed p.2.2 (inF s.me f (vc.el ty.bits j)))))
            (fun j => va.bad ty.bits j || vb.bad ty.bits j || vc.bad ty.bits j))
    ∧ (∀ src, s.me.vtype cs = some src →
      ∃ u, exec (.vcvt d a cs m t) s = .next u ∧ VectorReg s u d
        ∧ WroteElements s u d ty.bits (ty.gov (s.me.rdM m))
            (fun j => if j < min src.count ty.count then s.me.convert src ty (va.el src.bits j) else 0)
            (fun j => decide (j < min src.count ty.count) && va.bad src.bits j))
    ∧ (∀ f, ty.fmt = some f →
      ∃ u, exec (.vscale d a b m t) s = .next u ∧ VectorReg s u d
        ∧ WroteElements s u d ty.bits (ty.gov (s.me.rdM m))
            (fun j => outF s.me f ((inF s.me f (va.el ty.bits j)).scale (lane vb.data (j * ty.bits / 32)).toInt))
            (fun j => va.bad ty.bits j || vb.bad 32 (j * ty.bits / 32)))
    ∧ (ty = .i32 → s.me.fault = none → ∀ i ∈ [Instr.vfma d a b c t, Instr.vfms d a b c t, Instr.vnfma d a b c t, Instr.vnfms d a b c t, Instr.vscale d a b m t],
      ∃ u da, exec i s = .next u ∧ StoppedBy s u s.cur s.curB 1 0x0001 da 0 0)

/-- R170 to R175: constants and literals. -/
def Sys2Proof.Spec.ConstantAndLiteralForms : Prop :=
  (∀ (d a : BitVec 5) (i : BitVec 8) (m : BitVec 3) (t : BitVec 2) (lit : Word) (s : State) (ty : VT), s.me.vtype t = some ty →
    (∀ p ∈ constForms s.me d a i m t lit ty,
      ∃ u, exec p.1 s = .next u ∧ VectorReg s u d
        ∧ WroteElements s u d ty.bits (ty.gov (s.me.rdM m))
            (fun j => p.2.2.2 p.2.1 ((s.me.rdV a).el ty.bits j) ((s.me.rdV d).el ty.bits j))
            (fun j => (s.me.rdV a).bad ty.bits j || (p.2.2.1 && (s.me.rdV d).bad ty.bits j)))
    ∧ (∀ p ∈ [(Instr.vmovk d i t m, s.me.rdK i), (Instr.vmovl d t m lit, lit)],
      ∃ u, exec p.1 s = .next u ∧ VectorReg s u d
        ∧ WroteElements s u d ty.bits (ty.gov (s.me.rdM m))
            (fun _ => match ty with
              | .f32 => p.2.toNat
              | .i32 => p.2.toNat
              | .b16 => outF s.me bf16 (inF s.me fp32 p.2.toNat)
              | .f64 => outF s.me fp64 (inF s.me fp32 p.2.toNat))
            (fun _ => false)))
  ∧ (∀ (d : BitVec 5) (i : BitVec 20) (s : State),
    (∃ u, exec (.vmovf d i) s = .next u ∧ VectorReg s u d ∧ (u.me.rdV d).poison = 0
      ∧ ∀ j, j < 128 → lane (u.me.rdV d).data j = i ++ (0 : BitVec 12))
    ∧ (∃ u, exec (.vmovn d i) s = .next u ∧ VectorReg s u d ∧ (u.me.rdV d).poison = 0
      ∧ ∀ j, j < 128 → lane (u.me.rdV d).data j = i.signExtend 32))

/-- R149, R150, R161, R170 to R175. -/
def Obligations.FusedConvertedAndConstantForms : Prop :=
  Sys2Proof.Spec.FusedConvertedAndScaledElements ∧ Sys2Proof.Spec.ConstantAndLiteralForms

/-- R151 to R154, R159: moves of lanes and bytes. -/
def Obligations.AddressesLanesAndBytesMove : Prop :=
  (∀ (a b : BitVec 3) (i : BitVec 14) (s : State), ∀ p ∈ [(Instr.amovi a i, i.signExtend 32), (Instr.aaddi a i, s.me.rdA a + i.signExtend 32),
      (Instr.aadd b a, s.me.rdA a + s.me.rdA b)],
    ∃ u, exec p.1 s = .next u ∧ AddressRegs s u ∧ ∀ r, r ≠ 6 → r ≠ 7 → u.me.rdA r = if r = a then p.2 else s.me.rdA r)
  ∧ (∀ (d a b : BitVec 5) (x m : BitVec 3) (s : State),
    let M := s.me.rdM m
    let va := s.me.rdV a
    (∃ u, exec (.vperm d a b m) s = .next u ∧ VectorReg s u d
      ∧ WroteElements s u d 32 (fun j => M.getLsbD j) (fun j => va.el 32 ((s.me.rdV b).el 32 j % 128)) (fun j => va.bad 32 ((s.me.rdV b).el 32 j % 128)))
    ∧ (∃ u, exec (.vbcast d a x m) s = .next u ∧ VectorReg s u d
      ∧ WroteElements s u d 32 (fun j => M.getLsbD j) (fun _ => va.el 32 ((s.me.rdA x).toNat % 128)) (fun _ => va.bad 32 ((s.me.rdA x).toNat % 128))))
  ∧ (∀ (v w : BitVec 5) (a : BitVec 3) (s : State),
    let n := (s.me.rdA a).toNat % 512
    let from_ := fun i => if i + n < 512 then (s.me.rdV v, i + n) else (s.me.rdV w, i + n - 512)
    ∃ u, exec (.vrotm v a w) s = .next u ∧ VectorReg s u v
      ∧ (∀ i, i < 512 → (u.me.rdV v).el 8 i = (from_ i).1.el 8 (from_ i).2)
      ∧ (∀ g, g < 32 → ((u.me.rdV v).poison.getLsbD g = true ↔
          ∃ c, c < 16 ∧ (from_ (16 * g + c)).1.poison.getLsbD ((from_ (16 * g + c)).2 / 16) = true)))

/-- R152, R189, R196, R248: row accesses of the vector engine. -/
def Sys2Proof.Spec.VectorRowAccesses : Prop :=
  ∀ (v : BitVec 5) (a : BitVec 3) (i : BitVec 14) (s : State),
    (∀ p ∈ [(Instr.vld v a i, rowAt s.me a i, false), (Instr.vldp v a i, s.me.rdA a, true)],
      let r := p.2.1.toNat / 512
      (∀ row, row = s.row s.cur s.curB r → r < s.me.rows →
        s.me.arrRow r = true ∨ (s.rowTag s.cur s.curB r).race (s.me.stream 1).know 1 false = none →
        ∃ u, exec p.1 s = .next u ∧ OnlyPad s u ∧ Issued 1 s.me u.me
          ∧ { u.me with v := s.me.v, a := s.me.a, streams := s.me.streams } = s.me
          ∧ (∀ x, u.me.rdV x = if x = v then row else s.me.rdV x)
          ∧ (∀ x, x ≠ 6 → x ≠ 7 → u.me.rdA x = if p.2.2 = true ∧ x = a then rowAt s.me a i else s.me.rdA x)
          ∧ (u.core s.cur).pad = (s.core s.cur).pad ∧ (∀ n, n ≠ s.me.base + r → get {} (u.core s.cur).tags n = get {} (s.core s.cur).tags n))
      ∧ (s.me.rows ≤ r → s.me.fault = none →
        ∃ u, exec p.1 s = .next u ∧ StoppedBy s u s.cur s.curB 1 0x0003 (BitVec.ofNat 64 p.2.1.toNat) (BitVec.ofNat 64 s.me.rows) 0)
      ∧ (∀ g, r < s.me.rows → s.me.arrRow r = false → (s.rowTag s.cur s.curB r).race (s.me.stream 1).know 1 false = some g → s.me.fault = none →
        ∃ u, exec p.1 s = .next u ∧ StoppedBy s u s.cur s.curB 1 0x000B (BitVec.ofNat 64 r) (BitVec.ofNat 64 g) 1))
    ∧ (∀ p ∈ [(Instr.vst v a i, rowAt s.me a i, false), (Instr.vstp v a i, s.me.rdA a, true)],
      let r := p.2.1.toNat / 512
      (r < s.me.rows → s.me.arrRow r = false → (s.rowTag s.cur s.curB r).race (s.me.stream 1).know 1 true = none →
        ∃ u, exec p.1 s = .next u ∧ OnlyPad s u ∧ Issued 1 s.me u.me ∧ { u.me with a := s.me.a, streams := s.me.streams } = s.me
          ∧ (∀ x, x ≠ 6 → x ≠ 7 → u.me.rdA x = if p.2.2 = true ∧ x = a then rowAt s.me a i else s.me.rdA x)
          ∧ u.row s.cur s.curB r = s.me.rdV v ∧ (∀ n, n ≠ s.me.base + r → get {} (u.core s.cur).pad n = get {} (s.core s.cur).pad n)
          ∧ (∀ n, n ≠ s.me.base + r → get {} (u.core s.cur).tags n = get {} (s.core s.cur).tags n)
          ∧ (u.rowTag s.cur s.curB r).wr = 1 ∧ (u.rowTag s.cur s.curB r).we = (s.me.stream 1).epoch)
      ∧ (s.me.rows ≤ r → s.me.fault = none →
        ∃ u, exec p.1 s = .next u ∧ StoppedBy s u s.cur s.curB 1 0x0003 (BitVec.ofNat 64 p.2.1.toNat) (BitVec.ofNat 64 s.me.rows) 0)
      ∧ (r < s.me.rows → s.me.arrRow r = true → s.me.fault = none →
        ∃ u, exec p.1 s = .next u ∧ StoppedBy s u s.cur s.curB 1 0x0012 (BitVec.ofNat 64 r) 0 0)
      ∧ (∀ g, r < s.me.rows → s.me.arrRow r = false → (s.rowTag s.cur s.curB r).race (s.me.stream 1).know 1 true = some g → s.me.fault = none →
        ∃ u, exec p.1 s = .next u ∧ StoppedBy s u s.cur s.curB 1 0x000B (BitVec.ofNat 64 r) (BitVec.ofNat 64 g) 1))

/-- R155, R156, R177: FIFOs and the constant bank. -/
def Sys2Proof.Spec.VectorFifosAndConstantBank : Prop :=
  (∀ (v : BitVec 5) (s : State) (r : FRow) (rs : List FRow), (s.me.dfifo 2).rows = r :: rs →
    ∃ u, exec (.vpop v) s = .next u ∧ OnlyBank s u ∧ (∀ f, f ≠ 1 → u.me.stream f = s.me.stream f)
      ∧ { u.me with v := s.me.v, fifo := s.me.fifo, streams := s.me.streams } = s.me
      ∧ (∀ x, u.me.rdV x = if x = v then r.row else s.me.rdV x) ∧ (u.me.dfifo 2).rows = rs ∧ (∀ f, f ≠ 2 → u.me.dfifo f = s.me.dfifo f)
      ∧ (u.me.stream 1).know = merge (s.me.stream 1).know r.eng r.epoch ∧ QueueAs (u.me.stream 1) (s.me.advanced 1 none) false)
  ∧ (∀ (v : BitVec 5) (s : State), (s.me.dfifo 3).rows.length < 16 →
    ∃ u, exec (.vpush v) s = .next u ∧ OnlyBank s u ∧ Issued 1 s.me u.me ∧ { u.me with fifo := s.me.fifo, streams := s.me.streams } = s.me
      ∧ (u.me.dfifo 3).rows = (s.me.dfifo 3).rows ++ [{ row := s.me.rdV v, eng := 1, epoch := (s.me.stream 1).epoch }]
      ∧ ∀ f, f ≠ 3 → u.me.dfifo f = s.me.dfifo f)
  ∧ (∀ (a : BitVec 3) (i : BitVec 14) (s : State),
    let r := (rowAt s.me a i).toNat / 512
    let x := s.row s.cur s.curB r
    let y := s.row s.cur s.curB (r + 1)
    r + 1 < s.me.rows → s.me.arrRow r = true ∨ (s.rowTag s.cur s.curB r).race (s.me.stream 1).know 1 false = none →
    s.me.arrRow (r + 1) = true ∨ (s.rowTag s.cur s.curB (r + 1)).race (s.me.stream 1).know 1 false = none →
    (x.poison = 0 → y.poison = 0 →
      ∃ u, exec (.vldkb a i) s = .next u ∧ OnlyPad s u ∧ Issued 1 s.me u.me ∧ { u.me with k := s.me.k, streams := s.me.streams } = s.me
        ∧ (∀ n : BitVec 8, u.me.rdK n = if n.toNat < 128 then lane x.data n.toNat else lane y.data (n.toNat - 128))
        ∧ (u.core s.cur).pad = (s.core s.cur).pad)
    ∧ (s.me.fault = none → x.poison ≠ 0 ∨ y.poison ≠ 0 →
      ∃ u, exec (.vldkb a i) s = .next u
        ∧ StoppedBy s u s.cur s.curB 1 0x000A (BitVec.ofNat 64 (512 * r)) (BitVec.ofNat 64 (x.poison.toNat + 2 ^ 32 * y.poison.toNat)) 0))

/-- R152, R155, R156, R177, R178, R186, R189, R196, R247, R248. -/
def Obligations.VectorMemoryAndFifos : Prop :=
  Sys2Proof.Spec.VectorRowAccesses ∧ Sys2Proof.Spec.VectorFifosAndConstantBank

/-- R157, R158: reductions. -/
def Sys2Proof.Spec.ReductionsFillTheRegister : Prop :=
  ∀ (d a : BitVec 5) (m : BitVec 3) (t : BitVec 2) (s : State) (ty : VT), s.me.vtype t = some ty →
    let va := s.me.rdV a
    let M := s.me.rdM m
    let filled := fun (i : Instr) (ok : Nat → Prop) =>
      ∃ u x, exec i s = .next u ∧ VectorReg s u d ∧ ok x
        ∧ (∀ j, j < ty.count → (u.me.rdV d).el ty.bits j = x % 2 ^ ty.bits)
        ∧ (u.me.rdV d).poison = if (∃ j, j < ty.count ∧ ty.gov M j = true ∧ va.bad ty.bits j = true) then BitVec.allOnes 32 else 0
    let governed := (List.range 128).filter (fun j => M.getLsbD j)
    let word := fun j => (w32 (va.el 32 j)).toInt
    filled (.vrsum d a m t) (fun x => (ty = .i32 → x = ((governed.map (va.el 32)).sum) % 2 ^ 32) ∧ (ty ≠ .i32 → x = vsum ty va M))
    ∧ filled (.vrmax d a m t) (fun x => (ty = .i32 → (∀ j ∈ governed, word j ≤ (w32 x).toInt)
        ∧ ((governed = [] ∧ (w32 x).toInt = -2 ^ 31) ∨ (∃ j ∈ governed, word j = (w32 x).toInt))) ∧ (ty ≠ .i32 → x = vbest true ty va M))
    ∧ filled (.vrmin d a m t) (fun x => (ty = .i32 → (∀ j ∈ governed, (w32 x).toInt ≤ word j)
        ∧ ((governed = [] ∧ (w32 x).toInt = 2 ^ 31 - 1) ∨ (∃ j ∈ governed, word j = (w32 x).toInt))) ∧ (ty ≠ .i32 → x = vbest false ty va M))

/-- R162, R163: tables and histograms. -/
def Sys2Proof.Spec.TableAndHistogramAccumulation : Prop :=
  ∀ (d a b : BitVec 5) (m : BitVec 3) (s : State),
    let M := s.me.rdM m
    let vb := s.me.rdV b
    (let code := fun g p => vb.el 8 (128 * g + p)
     let reg := fun g p => s.me.rdV (BitVec.ofNat 5 (a.toNat + 2 * g + code g p / 128))
     ∃ u, exec (.vlutacc d a b m) s = .next u ∧ VectorReg s u d
      ∧ WroteElements s u d 32 (fun p => M.getLsbD p)
          (fun p => leftSum fp32 ((s.me.rdV d).el 32 p) ([0, 1, 2, 3].map (fun g => (reg g p).el 32 (code g p % 128))))
          (fun p => (s.me.rdV d).bad 32 p || [0, 1, 2, 3].any (fun g => vb.bad 8 (128 * g + p) || (reg g p).bad 32 (code g p % 128))))
    ∧ (d.toNat ≤ 24 →
      ∃ u, exec (.vhistacc d a b m) s = .next u ∧ OnlyBank s u ∧ Issued 1 s.me u.me ∧ { u.me with v := s.me.v, streams := s.me.streams } = s.me
        ∧ (∀ r : BitVec 5, r.toNat < d.toNat ∨ d.toNat + 8 ≤ r.toNat → u.me.rdV r = s.me.rdV r)
        ∧ ∀ g h l, g < 4 → h < 2 → l < 128 →
          (let r := BitVec.ofNat 5 (d.toNat + 2 * g + h)
           let into := (List.range 128).filter (fun p => M.getLsbD p && decide (vb.el 8 (128 * g + p) = 128 * h + l))
           (u.me.rdV r).el 32 l = leftSum fp32 ((s.me.rdV r).el 32 l) (into.map ((s.me.rdV a).el 32)) % 2 ^ 32)
          ∧ ∀ n, n < 32 →
            ((u.me.rdV (BitVec.ofNat 5 (d.toNat + 2 * g + h))).poison.getLsbD n = true ↔
              ∃ i, i < 4 ∧ ((s.me.rdV (BitVec.ofNat 5 (d.toNat + 2 * g + h))).bad 32 (4 * n + i) = true
                ∨ ∃ p, p < 128 ∧ M.getLsbD p = true ∧ vb.el 8 (128 * g + p) = 128 * h + (4 * n + i)
                    ∧ ((s.me.rdV a).bad 32 p = true ∨ vb.bad 8 (128 * g + p) = true))))

/-- R134, R135, R157, R158, R162, R163. -/
def Obligations.VectorMovesReductionsAndTables : Prop :=
  Sys2Proof.Spec.ReductionsFillTheRegister ∧ Sys2Proof.Spec.TableAndHistogramAccumulation

/-- R164 to R166: packing and unpacking MX blocks. -/
def Obligations.MxPackAndUnpack : Prop :=
  ∀ (d a b : BitVec 5) (m x : BitVec 3) (s : State), x.toNat < 3 →
    let M := s.me.rdM m
    let fmt := 5 + x.toNat
    let bb := blockBytes fmt
    let gs := (List.range 4).filter (fun g => anyBelow 32 (fun i => M.getLsbD (32 * g + i)))
    let n := gs.length
    let keep := rowBlocks fmt - n
    let inBlock := fun (t g : Nat) => bb * t < 16 * g + 16 ∧ 16 * g < bb * (t + 1)
    let movedBad := fun (r : BitVec 5) (size by_ g : Nat) => ∃ i, i < size ∧ i / 16 = g ∧ (s.me.rdV r).poison.getLsbD ((i + by_) / 16) = true
    (d ≠ b →
      ∃ u, exec (.vpack d a b m x) s = .next u ∧ OnlyBank s u ∧ Issued 1 s.me u.me ∧ { u.me with v := s.me.v, streams := s.me.streams } = s.me
        ∧ (∀ r, r ≠ d → r ≠ b → u.me.rdV r = s.me.rdV r)
        ∧ (∀ i, i < (rowBlocks fmt - n) * bb → (u.me.rdV d).el 8 i = (s.me.rdV d).el 8 (i + n * bb))
        ∧ (∀ i, i < rowBlocks fmt - n → (u.me.rdV b).el 8 i = (s.me.rdV b).el 8 (i + n))
        ∧ (∀ t g, gs[t]? = some g →
          (u.me.rdV d).data.toNat / 2 ^ (8 * ((rowBlocks fmt - n) * bb + bb * t)) % 2 ^ (8 * bb) = (packGroup fmt (s.me.rdV a) M g).bits % 2 ^ (8 * bb)
          ∧ (u.me.rdV b).el 8 (rowBlocks fmt - n + t) = (packGroup fmt (s.me.rdV a) M g).scale % 2 ^ 8)
        ∧ (∀ i, rowBlocks fmt * bb ≤ i → i < 512 → (u.me.rdV d).el 8 i = 0) ∧ (∀ i, rowBlocks fmt ≤ i → i < 512 → (u.me.rdV b).el 8 i = 0)
        ∧ (∀ g, g < 32 → ((u.me.rdV d).poison.getLsbD g = true ↔ movedBad d (keep * bb) (n * bb) g
            ∨ ∃ t h, gs[t]? = some h ∧ inBlock (keep + t) g ∧ ((packGroup fmt (s.me.rdV a) M h).ovf = true
                ∨ ∃ i, i < 32 ∧ M.getLsbD (32 * h + i) = true ∧ (s.me.rdV a).poison.getLsbD ((32 * h + i) / 4) = true)))
        ∧ (∀ g, g < 32 → ((u.me.rdV b).poison.getLsbD g = true ↔ movedBad b keep n g)))
    ∧ (d ≠ a → d ≠ b → a ≠ b →
      ∃ u, exec (.vunpack d a b m x) s = .next u ∧ OnlyBank s u ∧ Issued 1 s.me u.me ∧ { u.me with v := s.me.v, streams := s.me.streams } = s.me
        ∧ (∀ r, r ≠ d → r ≠ a → r ≠ b → u.me.rdV r = s.me.rdV r)
        ∧ (∀ j, j < 128 → (u.me.rdV d).el 32 j =
            if M.getLsbD j then
              (let t := (gs.takeWhile (fun h => decide (h ≠ j / 32))).length
               fp32.round 0 (mxVal (mxBits fmt) (mxEl fmt (s.me.rdV a) t (j % 32)) ((s.me.rdV b).el 8 t)) % 2 ^ 32)
            else (s.me.rdV d).el 32 j)
        ∧ (∀ i, i < 512 → (u.me.rdV a).el 8 i = if i < (rowBlocks fmt - n) * bb then (s.me.rdV a).el 8 (i + n * bb) else 0)
        ∧ (∀ i, i < 512 → (u.me.rdV b).el 8 i = if i < rowBlocks fmt - n then (s.me.rdV b).el 8 (i + n) else 0)
        ∧ (∀ g, g < 32 → ((u.me.rdV d).poison.getLsbD g = true ↔ ∃ i, i < 4 ∧
            if M.getLsbD (4 * g + i) then
              (let t := (gs.takeWhile (fun h => decide (h ≠ (4 * g + i) / 32))).length
               (∃ h, h < 32 ∧ (s.me.rdV a).poison.getLsbD h = true ∧ inBlock t h) ∨ (s.me.rdV b).poison.getLsbD (t / 16) = true)
            else (s.me.rdV d).poison.getLsbD g = true))
        ∧ (∀ g, g < 32 → ((u.me.rdV a).poison.getLsbD g = true ↔ movedBad a (keep * bb) (n * bb) g))
        ∧ (∀ g, g < 32 → ((u.me.rdV b).poison.getLsbD g = true ↔ movedBad b keep n g)))

namespace Sys2Proof.Spec

/-! ### The matrix engine (11) -/

/-- From `s` to `t` nothing outside the units and the clusters differs, and of the clusters only `i`. -/
def OnlyCluster (s t : State) (i : Nat) : Prop :=
  { t with units := s.units, clusters := s.clusters } = s ∧ (∀ n, n ≠ i → t.cluster n = s.cluster n) ∧ ∀ a, rdByte t.mem a = rdByte s.mem a

/-- The matrix stream has issued and nothing of the units differs but that stream. -/
def MatrixIssued (s t : State) : Prop :=
  (∀ u, u ≠ s.cur → t.core u = s.core u) ∧ t.core s.cur = (s.core s.cur).setBank s.curB t.me ∧ Issued 2 s.me t.me
    ∧ { t.me with streams := s.me.streams } = s.me

/-- A command with operands `op` of engine `e` has been issued: it stands behind the engine's commands, numbered and stamped; nothing else differs but the stream and the note of a passed pause in the job. -/
def CommandIssued (s t : State) (e : Nat) (op : CmdOp) : Prop :=
  OnlyBank s t ∧ Issued e s.me t.me
    ∧ { t.me with cmds := s.me.cmds, seq := s.me.seq, streams := s.me.streams, job := s.me.job } = s.me
    ∧ t.me.job.map (fun j => { j with passed := none }) = s.me.job.map (fun j => { j with passed := none })
    ∧ t.me.seq = s.me.seq + 1 ∧ (∀ f, f ≠ e → t.me.queue f = s.me.queue f)
    ∧ t.me.queue e = s.me.queue e ++ [{ seq := s.me.seq, pc := (s.me.stream e).q0.addr, epoch := (s.me.stream e).epoch, op := op }]

/-- A command with operands `op` of the control or matrix engine has been issued, and the model has noted beside it what a fault of it would restore: the stream, the control registers, the lease `l` and the number `fr` from which its operations count (08 R210). -/
def CommandNoted (s t : State) (e : Nat) (l : Lease) (fr : Nat) (op : CmdOp) : Prop :=
  OnlyBank s t ∧ Issued e s.me t.me
    ∧ { t.me with cmds := s.me.cmds, seq := s.me.seq, streams := s.me.streams, job := s.me.job, backs := s.me.backs } = s.me
    ∧ t.me.job.map (fun j => { j with passed := none }) = s.me.job.map (fun j => { j with passed := none })
    ∧ t.me.seq = s.me.seq + 1 ∧ (∀ f, f ≠ e → t.me.queue f = s.me.queue f)
    ∧ t.me.queue e = s.me.queue e ++ [{ seq := s.me.seq, pc := (s.me.stream e).q0.addr, epoch := (s.me.stream e).epoch, op := op }]
    ∧ (∀ n, n ≠ s.me.seq → get none t.me.backs n = get none s.me.backs n)
    ∧ get none t.me.backs s.me.seq = some {
        t := s.me.stream e, s := s.me.s, p := s.me.p, sdm := s.me.sdm, fmt := s.me.fmt, csr := s.me.csr,
        lease := l, from_ := fr, request := s.me.job.bind (fun j => j.request) }

/-- No command of the matrix queue of bank `k` up to `c` is held by a fault, and each one before `c` satisfies `ok`. -/
def ClearTo (k : Bank) (c : Cmd) (ok : Cmd → Prop) : Prop :=
  c.held = false ∧ ∀ p ∈ k.before 2 c.seq, p.held = false ∧ ok p

/-- The number that a finite value is. -/
def num : FVal → Option ℚ
  | .fin neg m e => some ((if neg then -1 else 1) * m * (2 : ℚ) ^ e)
  | _ => none

/-- Word `w` of a format is the number `q` rounded to nearest even (R118). -/
def Nearest (f : Fmt) (w : Nat) (q : ℚ) : Prop := ∃ v, num v = some q ∧ w = f.round 0 v

/-- The sum of the products of the numbers `a` and `b` from place `size * g` on, `size` of them. -/
def groupSum (size g : Nat) (a b : List ℚ) : ℚ := ((((a.zip b).drop (size * g)).take size).map (fun p => p.1 * p.2)).sum

/-- `new` is the sum of R131 to R133 from the word `acc` over the products of the numbers `a` and `b`: `c` are the accumulators, `size` products are added at a time, exactly or where `twice` holds rounded first, and each addition is rounded. -/
def SumOfProducts (f : Fmt) (size : Nat) (twice : Bool) (acc new : Nat) (a b : List ℚ) : Prop :=
  ∃ c : Nat → Nat, c 0 = acc
    ∧ (∀ g x, size * g < min a.length b.length → num (f.val (c g)) = some x →
        if twice = true then ∃ r, Nearest f r (groupSum size g a b) ∧ ∀ y, num (f.val r) = some y → Nearest f (c (g + 1)) (x + y)
        else Nearest f (c (g + 1)) (x + groupSum size g a b))
    ∧ ∀ x, num (f.val acc) = some x → x + ((a.zip b).map (fun p => p.1 * p.2)).sum ≠ 0 → new = c ((min a.length b.length + size - 1) / size)

/-- The count that a field encodes, 0 for the full power. -/
def cnt10 (n : BitVec 10) : Nat := if n = 0 then 1024 else n.toNat

end Sys2Proof.Spec

/-- R261 to R265, R275, R373: lease and windows. -/
def Obligations.MatrixLeaseAndWindows : Prop :=
  (∀ s : State,
    let i := clusterOf s.cur s.curB
    let r := requester s.cur s.curB
    (s.leaseOf s.cur s.curB = .none →
      ∃ t, exec .mlease s = .next t ∧ OnlyCluster s t i ∧ MatrixIssued s t
        ∧ (s.cur < 448 → (t.cluster i).leaseOf r = .waiting)
        ∧ (448 ≤ s.cur → s.curB < 2 → s.me.arrayBusy = true ∨ (∀ q, q < 8 → q ≠ r → (s.cluster i).leaseOf q ≠ .waiting) → (t.cluster i).leaseOf r = .held
            ∧ (t.cluster i).tile = (if s.me.arrayBusy = true then (s.cluster i).tile else none)
            ∧ (t.cluster i).from_ = (if s.me.arrayBusy = true then s.me.seq else 0))
        ∧ (∀ q, q ≠ r → q ≤ 7 → s.cur < 448 → (t.cluster i).leaseOf q = (s.cluster i).leaseOf q) ∧ (t.cluster i).acc = (s.cluster i).acc)
    ∧ (s.leaseOf s.cur s.curB ≠ .none → ∃ t, exec .mlease s = .next t ∧ MatrixIssued s t ∧ t.clusters = s.clusters)
    ∧ (∃ t, exec .mrel s = .next t ∧ OnlyCluster s t i ∧ MatrixIssued s t ∧ (t.cluster i).leaseOf r = .none
        ∧ (∀ q, q ≠ r → (t.cluster i).leaseOf q = (s.cluster i).leaseOf q) ∧ (t.cluster i).acc = (s.cluster i).acc)
    ∧ ((∀ c ∈ s.me.queue 2, c.isArray = false ∧ c.isAcc = false) → ∃ t, exec .mdrain s = .next t ∧ MatrixIssued s t ∧ t.clusters = s.clusters))
  ∧ (∀ (i j : Nat) (s : State), j < 8 →
    let x := s.cluster i
    let at_ := fun n => (x.last + 1 + n) % 8
    (∀ r, r < 8 → x.leaseOf r ≠ .held) → (∀ p ∈ banksOf i, (s.bank p.1 p.2).arrayBusy = false) →
    x.leaseOf (at_ j) = .waiting → (∀ n, n < j → x.leaseOf (at_ n) ≠ .waiting) →
    ∃ t, exec (.leaseGrant i) s = .next t ∧ OnlyCluster s t i ∧ t.units = s.units ∧ (t.cluster i).leaseOf (at_ j) = .held
      ∧ (t.cluster i).last = at_ j ∧ (t.cluster i).since = s.now ∧ (t.cluster i).tile = none ∧ (t.cluster i).from_ = 0 ∧ (t.cluster i).acc = x.acc
      ∧ ∀ q, q ≠ at_ j → (t.cluster i).leaseOf q = x.leaseOf q)
  ∧ (∀ (c : BitVec 2) (r n : BitVec 10) (s : State) (j : Job), s.cur < 448 → s.me.job = some j →
    r.toNat + cnt10 n ≤ storeRows s.cur → s.windowClash s.cur c.toNat r.toNat (cnt10 n) = false →
    (s.partOf (s.cur / 4 * 4 + c.toNat) = none ∨ s.partHas j.part (s.cur / 4 * 4 + c.toNat) = true) →
    ∃ t, exec (.mcfg c r n) s = .next t ∧ OnlyCluster s t (s.cur / 4)
      ∧ (∀ u, u ≠ s.cur → t.core u = s.core u) ∧ t.core s.cur = (s.core s.cur).setBank s.curB t.me ∧ Issued 2 s.me t.me
      ∧ { t.me with streams := s.me.streams, backs := s.me.backs } = s.me ∧ RecordsKept (fun x y => { y with wins := x.wins }) s t
      ∧ (t.cluster (s.cur / 4)).window s.cur c.toNat = (r.toNat, cnt10 n)
      ∧ ∀ d, d ≠ c.toNat → (t.cluster (s.cur / 4)).window s.cur d = (s.cluster (s.cur / 4)).window s.cur d)
  ∧ (∀ (c : BitVec 2) (r n : BitVec 10) (s : State), 448 ≤ s.cur → r.toNat + cnt10 n ≤ storeRows s.cur →
    ∃ t, exec (.mcfg c r n) s = .next t ∧ MatrixIssued s t ∧ { t with units := s.units } = s)
  ∧ (∀ (c : BitVec 2) (r n : BitVec 10) (s : State), s.me.fault = none →
    (storeRows s.cur < r.toNat + cnt10 n ∨ (s.cur < 448 ∧ s.windowClash s.cur c.toNat r.toNat (cnt10 n) = true) →
      ∃ t da, exec (.mcfg c r n) s = .next t ∧ StoppedBy s t s.cur s.curB 2 0x0001 da 0 0)
    ∧ (∀ j, s.cur < 448 → s.me.job = some j → r.toNat + cnt10 n ≤ storeRows s.cur → s.windowClash s.cur c.toNat r.toNat (cnt10 n) = false →
      s.partOf (s.cur / 4 * 4 + c.toNat) ≠ none → s.partHas j.part (s.cur / 4 * 4 + c.toNat) = false →
      ∃ t, exec (.mcfg c r n) s = .next t ∧ StoppedBy s t s.cur s.curB 2 0x0007 (c.setWidth 64) 0 0))

/-- R263 to R278: the matrix operations at issue. -/
def Obligations.MatrixOperationsIssueCommands : Prop :=
  (∀ (r n : BitVec 10) (s : State), ∀ p ∈ [(Instr.mzero r n, ArrOp.mzero), (Instr.mma r n, .mma), (Instr.mmat r n, .mmat), (Instr.mscale r n, .mscale)],
    (s.leaseOf s.cur s.curB = .held → (p.2 = .mma → s.leaseBound s.cur s.curB = false) →
      ((s.me.queue 2).filter Cmd.isArray).length < 8 → r.toNat + cnt10 n ≤ s.me.accRows →
      (p.2 ≠ .mzero → entOk (s.me.fmtEnt 2) = true) → (p.2 = .mscale → entAF (s.me.fmtEnt 2) ≠ 4) →
      (p.2 = .mmat → s.tileCode s.cur s.curB = some (entBF (s.me.fmtEnt 2))) →
      s.me.busyGroup true (r.toNat / 4) ((r.toNat + cnt10 n - 1) / 4) = none →
      ∃ t, exec p.1 s = .next t ∧ CommandNoted s t 2 .held (s.cluster (clusterOf s.cur s.curB)).from_ (.array p.2 r.toNat (cnt10 n) (s.me.fmtEnt 2)))
    ∧ (s.leaseOf s.cur s.curB = .none → s.me.fault = none → ∃ t da, exec p.1 s = .next t ∧ StoppedBy s t s.cur s.curB 2 0x0001 da 0 0))
  ∧ (∀ (g : BitVec 8) (r : BitVec 14) (s : State), ∀ p ∈ [(Instr.accrd g r, true), (Instr.accwr g r, false)],
    let w := arrW (s.narrow s.cur s.curB)
    let rows := if p.2 then accRdRows w (entOF (s.me.fmtEnt 2)) else 4 * w / 128
    g.toNat < s.me.accRows / 4 → entOk (s.me.fmtEnt 2) = true → (p.2 = false → entOF (s.me.fmtEnt 2) ≠ 5) →
    r.toNat + rows ≤ s.me.rows → s.me.busyGroup false g.toNat g.toNat = none →
    ∃ t, exec p.1 s = .next t ∧ CommandNoted s t 2 (s.leaseOf s.cur s.curB) (s.cluster (clusterOf s.cur s.curB)).from_ (.acc p.2 g.toNat r.toNat (s.me.fmtEnt 2)))

/-- R269 to R279: the matrix operations performed. -/
def Obligations.MatrixOperationsPerform : Prop :=
  (∀ (u b : Nat) (s : State) (c : Cmd) (f fmt need : Nat) (ch : Chunk) (q : DFifo),
    (s.core u).freeze = 0 → (s.bank u b).framed = false → (s.bank u b).firstArray = some c → ClearTo (s.bank u b) c (fun p => p.isAcc = false) →
    s.arrNext u b c = some (f, fmt, need) →
    ((s.bank u b).dfifo f).piece fmt need = some (ch, q) →
    ∃ t r, exec (.arrayOpStart u b) s = .next t ∧ (t.bank u b).dfifo f = q ∧ (∀ g, g ≠ f → (t.bank u b).dfifo g = (s.bank u b).dfifo g)
      ∧ ((t.bank u b).stream 2).know = (((s.bank u b).dfifo f).rows.take (if 5 ≤ fmt ∧ fmt ≤ 7 then 2 else 1)).foldl
          (fun k y => merge k y.eng y.epoch) ((s.bank u b).stream 2).know
      ∧ (∀ e, e ≠ 2 → (t.bank u b).stream e = (s.bank u b).stream e)
      ∧ (t.bank u b).run = some r ∧ r.seq = c.seq
      ∧ (if f = 1 then r.b = ((s.bank u b).runOf c).b ++ [ch] ∧ r.a = ((s.bank u b).runOf c).a
         else r.a = ((s.bank u b).runOf c).a ++ [ch] ∧ r.b = ((s.bank u b).runOf c).b)
      ∧ (t.bank u b).cmds = (s.bank u b).cmds ∧ { t with units := s.units } = s)
  ∧ (∀ (u b : Nat) (s : State) (c : Cmd) (r : ArrRun) (op : ArrOp) (row n : Nat) (e : Word),
    (s.core u).freeze = 0 → (s.bank u b).run = some r → (s.bank u b).firstArray = some c → r.seq = c.seq →
    ClearTo (s.bank u b) c (fun p => p.isAcc = false) → s.arrNext u b c = none → c.op = .array op row n e →
    let x := s.cluster (clusterOf u b)
    let nw := s.narrow u b
    let first := (s.bank u b).accBase + row
    let old := fun i => get {} x.acc (first + i)
    let aRows := groupsOf (kExtent nw e) (n + 1) (r.a.flatMap (Chunk.elems (opFmt (entAF e))))
    let elems := fun (l : List Chunk) => l.flatMap (Chunk.elems (opFmt (entBF e)))
    ∃ t, exec (.arrayOpPerformed u b) s = .next t ∧ { t with units := s.units, clusters := s.clusters, free := s.free } = s
      ∧ (∀ i, i ≠ clusterOf u b → t.cluster i = s.cluster i)
      ∧ (t.bank u b).queue 2 = ((s.bank u b).queue 2).filter (fun y => decide (y.seq ≠ c.seq)) ∧ (t.bank u b).run = none
      ∧ (∀ m, m < first ∨ first + n ≤ m → get {} (t.cluster (clusterOf u b)).acc m = get {} x.acc m)
      ∧ (t.cluster (clusterOf u b)).tile = (if op = .mma then some { code := entBF e, kp := kExtent nw e, els := r.b, at_ := c.seq } else x.tile)
      ∧ (∀ i, i < n → get {} (t.cluster (clusterOf u b)).acc (first + i) =
          match op with
          | .mzero => {}
          | .mscale => scaleRow (arrW nw) (r.b.flatMap (Chunk.elems 0)) (old i)
          | .mma => mmaRow e (nExtent nw e) (groupsOf (kExtent nw e) (nExtent nw e + 1) (elems r.b)) (aRows.getD i []) (old i)
          | .mmat => mmaRow e (nExtent nw e) (match x.tile with
              | some y => (List.range (nExtent nw e)).map (fun j => y.column s.free (kExtent nw e) j (elems y.els))
              | none => []) (aRows.getD i []) (old i))
      ∧ (op = .mma → ∀ i j qa qb, i < n → j < nExtent nw e →
          (aRows.getD i []).map (fun x => num x.1) = qa.map some →
          ((groupsOf (kExtent nw e) (nExtent nw e + 1) (elems r.b)).getD j []).map (fun x => num x.1) = qb.map some →
          let at_ := fun (y : State) => (get {} (y.cluster (clusterOf u b)).acc (first + i) : AccRow)
          if entAF e = 4 then SumOfProducts fp64 1 false ((at_ s).el 64 j) ((at_ t).el 64 j) qa qb
          else SumOfProducts fp32 32 (decide (entAF e = 0 ∨ entBF e = 0)) ((at_ s).el 32 j) ((at_ t).el 32 j) qa qb)
      ∧ (op = .mscale → ∀ i j x y, i < n → j < arrW nw → num (fp32.val ((old i).el 32 j)) = some x →
          num ((r.b.flatMap (Chunk.elems 0)).getD j (.nan, false)).1 = some y →
          Nearest fp32 ((get {} (t.cluster (clusterOf u b)).acc (first + i) : AccRow).el 32 j) (x * y))
  ∧ (∀ (u b : Nat) (s : State) (c : Cmd) (rd : Bool) (g srow : Nat) (e : Word),
    (s.core u).freeze = 0 → ((s.bank u b).queue 2).find? Cmd.isAcc = some c → ClearTo (s.bank u b) c (fun p => s.arrNext u b p = none) →
    c.op = .acc rd g srow e →
    let w := arrW (s.narrow u b)
    let x := s.cluster (clusterOf u b)
    let first := (s.bank u b).accBase + 4 * g
    (rd = true → ∀ s1, s.writeRows u b 2 c.epoch srow (accRdOut x w first e) = .ok s1 →
      ∃ t, exec (.accPortPerformed u b) s = .next t ∧ t.clusters = s.clusters
        ∧ (t.bank u b).queue 2 = ((s.bank u b).queue 2).filter (fun y => decide (y.seq ≠ c.seq))
        ∧ (∀ i v, (accRdOut x w first e)[i]? = some v → t.row u b (srow + i) = v)
        ∧ (entOF e = 0 ∨ 5 ≤ entOF e → ∀ i m, i < 4 * w / 128 → m < 128 →
            (t.row u b (srow + i)).el 32 m = (get {} x.acc (first + (128 * i + m) / w) : AccRow).el 32 ((128 * i + m) % w))
        ∧ (entOF e = 1 → ∀ i m q, i < 4 * w / 256 → m < 256 →
            num (fp32.val ((get {} x.acc (first + (256 * i + m) / w) : AccRow).el 32 ((256 * i + m) % w))) = some q →
            Nearest bf16 ((t.row u b (srow + i)).el 16 m) q))
    ∧ (rd = false → ∀ rs s1, s.readRows u b 2 c.epoch srow (4 * w / 128) = .ok (rs, s1) →
      ∃ t, exec (.accPortPerformed u b) s = .next t ∧ (t.core u).pad = (s.core u).pad
        ∧ (t.bank u b).queue 2 = ((s.bank u b).queue 2).filter (fun y => decide (y.seq ≠ c.seq))
        ∧ ∀ i j, i < 4 → j < w → (get {} (t.cluster (clusterOf u b)).acc (first + i)).el 32 j =
            (s.row u b (srow + (i * w + j) / 128)).el 32 ((i * w + j) % 128))))

namespace Sys2Proof.Spec

/-! ### The copy and exchange engines at issue (09 R215 to R239, 17 R366 to R368, 21 R403 to R409) -/

/-- The stream of engine `e` has issued, and nothing else differs but the copy registers, of which only `d` of that engine has been written, with `v`, where it takes a write (R215). -/
def CopyReg (s t : State) (e : BitVec 3) (d : BitVec 4) (v : Word) : Prop :=
  OnlyBank s t ∧ Issued e.toNat s.me t.me ∧ { t.me with c := s.me.c, streams := s.me.streams } = s.me
    ∧ (∀ r, r ≠ 14 → r ≠ 15 → t.me.rdC e.toNat r = if r = d ∧ d ≠ 0 then v else s.me.rdC e.toNat r)
    ∧ ∀ f r, f ≠ e.toNat → t.me.rdC f r = s.me.rdC f r

/-- The stream of engine `e` has issued, and nothing else differs but its sequencer registers and tag. -/
def SeqOnly (s t : State) (e : BitVec 3) : Prop :=
  OnlyBank s t ∧ Issued e.toNat s.me t.me ∧ { t.me with seqr := s.me.seqr, streams := s.me.streams } = s.me
    ∧ ∀ f, f ≠ e.toNat → t.me.sq f = s.me.sq f

/-- What engine `e` captures for a copy command (R216): form, scratchpad address, count, coordinates, tag. -/
def captured (k : Bank) (e : BitVec 3) (kind : CopyKind) (v p : BitVec 4) (n : Nat) : CopyCmd :=
  { kind := kind, form := k.rdC e.toNat v, pad := k.rdC e.toNat p, n := n, coord := (k.sq e.toNat).coords, tag := (k.sq e.toNat).tag }

/-- The count of a field of 14 bits, 0 for the full power. -/
def cnt14 (n : BitVec 14) : Nat := if n = 0 then 16384 else n.toNat

end Sys2Proof.Spec

/-- R215, R224, R225, R227, R232: scalar work, sequencer registers, tag, reading a bin, stopping a nest. -/
def Sys2Proof.Spec.CopyScalarAndSequencerRegisters : Prop :=
  ∀ (e : BitVec 3) (d a b : BitVec 4) (i : BitVec 16) (l x : BitVec 3) (n : BitVec 8) (s : State),
    let k := s.me
    let v := k.rdC e.toNat b
    (∃ t, exec (.cmovi e d i) s = .next t ∧ CopyReg s t e d (i.signExtend 32))
    ∧ (∃ t, exec (.cadd e d a b) s = .next t ∧ CopyReg s t e d (k.rdC e.toNat a + v))
    ∧ (∃ t, exec (.caddi e d a i) s = .next t ∧ CopyReg s t e d (k.rdC e.toNat a + i.signExtend 32))
    ∧ (∃ t, exec (.csub e d a b) s = .next t ∧ CopyReg s t e d (k.rdC e.toNat a - v))
    ∧ (∃ t, exec (.seql e l b) s = .next t ∧ SeqOnly s t e ∧ { t.me.sq e.toNat with l := (k.sq e.toNat).l } = k.sq e.toNat
        ∧ ∀ j, get 0 (t.me.sq e.toNat).l j = if j = l.toNat then v else get 0 (k.sq e.toNat).l j)
    ∧ (∃ t, exec (.seqb e x b) s = .next t ∧ SeqOnly s t e ∧ { t.me.sq e.toNat with x := (k.sq e.toNat).x } = k.sq e.toNat
        ∧ ∀ j, get 0 (t.me.sq e.toNat).x j = if j = x.toNat then v else get 0 (k.sq e.toNat).x j)
    ∧ (x.toNat < 6 → ∃ t, exec (.seqs e l x b) s = .next t ∧ SeqOnly s t e ∧ { t.me.sq e.toNat with s := (k.sq e.toNat).s } = k.sq e.toNat
        ∧ ∀ j m, m < 6 → get 0 (t.me.sq e.toNat).s (6 * j + m) = if j = l.toNat ∧ m = x.toNat then v else get 0 (k.sq e.toNat).s (6 * j + m))
    ∧ (∃ t, exec (.arwset e a) s = .next t ∧ SeqOnly s t e
        ∧ t.me.sq e.toNat = { k.sq e.toNat with tag := if a = 0 then none else some (k.rdC e.toNat a) })
    ∧ ((∀ c ∈ k.queue e.toNat, c.isBincfg = false ∧ c.isScatb = false) →
        ∃ t, exec (.binrd e d n) s = .next t
          ∧ CopyReg s t e d (if n.toNat < (k.sq e.toNat).nb.toNat then get 0 (k.sq e.toNat).bcnt n.toNat else 0))
    ∧ (∃ t, exec (.seqstop e) s = .next t ∧ OnlyBank s t ∧ Issued e.toNat k t.me
        ∧ { t.me with nests := k.nests, cmds := k.cmds, streams := k.streams } = k
        ∧ t.me.generating e.toNat = false ∧ (∀ f, f ≠ e.toNat → t.me.nest f = k.nest f ∧ t.me.queue f = k.queue f)
        ∧ (t.me.queue e.toNat).filter (fun c => !c.isNest) = (k.queue e.toNat).filter (fun c => !c.isNest))

/-- R216, R219 to R223, R230, R231: the copy commands at issue. -/
def Obligations.CopyCommandsIssueWithTheirChecks : Prop :=
  ∀ (e : BitVec 3) (v p i : BitVec 4) (n : BitVec 14) (m : BitVec 10) (s : State) (j : Job),
    let k := s.me
    let row := fun (r : BitVec 4) => (k.rdC e.toNat r).toNat / 512
    let rd := decide (e = 3)
    let wr := decide (e = 4)
    let lastIdx := row i + (cnt10 m - 1) / 128
    s.me.job = some j → k.places e.toNat < 8 →
    (∀ x, row p + cnt14 n ≤ k.rows → s.checkRun j s.cur (k.rdC e.toNat v) rd wr (captured k e .cpy v p (cnt14 n)).point (cnt14 n) = .ok x →
      ∃ t, exec (.cpy e v p n) s = .next t ∧ CommandIssued s t e.toNat (.copy { captured k e .cpy v p (cnt14 n) with chk := some x }))
    ∧ (∀ w t, row p + cnt10 m ≤ k.rows → lastIdx < k.rows → s.checkView j s.cur (k.rdC e.toNat v) rd wr = .ok (w, t) →
      ∃ u, exec (.gath e v p i m) s = .next u ∧ CommandIssued s u e.toNat (.copy { captured k e .gath v p (cnt10 m) with
        idx := k.rdC e.toNat i, chk := some { form := k.rdC e.toNat v, tid := t.id, box := w.box } }))
    ∧ (∀ w t, e = 4 → row p + cnt10 m ≤ k.rows → lastIdx < k.rows → s.checkView j s.cur (k.rdC 4 v) false true = .ok (w, t) →
      (∀ c ∈ k.queue 4, c.isBincfg = false) → (k.sq 4).binFlt t w.box (captured k e .scatb v p (cnt10 m)) = none →
      ∃ u, exec (.scatb v p i m) s = .next u ∧ CommandIssued s u 4 (.copy { captured k e .scatb v p (cnt10 m) with
        idx := k.rdC 4 i, chk := some { form := k.rdC 4 v, tid := t.id, box := w.box } }))
    ∧ (row p + 5 ≤ k.rows →
      ∃ t, exec (.bincfg e p) s = .next t ∧ CommandIssued s t e.toNat (.copy
        { kind := .bincfg, pad := k.rdC e.toNat p, coord := (k.sq e.toNat).coords }))
    ∧ (∀ w t, row p + 1 ≤ k.rows → k.rdC e.toNat (v + 1) = 0 → s.checkView j s.cur (k.rdC e.toNat v) true false = .ok (w, t) →
      t.fmt ≠ 2 → t.fmt ≠ 3 → t.fmt ≠ 4 →
      ∃ u, exec (.reduce e v p) s = .next u ∧ CommandIssued s u e.toNat (.copy { captured k e .reduce v p 0 with
        chk := some { form := k.rdC e.toNat v, tid := t.id, box := w.box } }))
    ∧ (∀ w t w2 t2, row p + 1 ≤ k.rows → k.rdC e.toNat (v + 1) ≠ 0 → s.checkView j s.cur (k.rdC e.toNat v) true false = .ok (w, t) →
      s.checkView j s.cur (k.rdC e.toNat (v + 1)) true false = .ok (w2, t2) → t.fmt ∉ [2, 3, 4] → t2.fmt ∉ [2, 3, 4] →
      (w.box.region (captured k e .reduce v p 0).point).firstOut w2.box = none →
      ∃ u, exec (.reduce e v p) s = .next u ∧ CommandIssued s u e.toNat (.copy { captured k e .reduce v p 0 with
        formB := k.rdC e.toNat (v + 1), chk := some { form := k.rdC e.toNat v, tid := t.id, box := w.box },
        chkB := some { form := k.rdC e.toNat (v + 1), tid := t2.id, box := w2.box } }))
    ∧ (e = 3 → row p + cnt14 n ≤ k.rows → ∀ x ∈ [(Instr.pusha p n, CopyKind.pusha), (Instr.pushb p n, .pushb)],
      ∃ t, exec x.1 s = .next t ∧ CommandIssued s t 3 (.copy { captured k e x.2 0 p (cnt14 n) with form := 0 }))
    ∧ (s.me.fault = none →
      (k.rows < row p + cnt14 n →
        ∃ t, exec (.cpy e v p n) s = .next t ∧ StoppedBy s t s.cur s.curB e.toNat 0x0003
          (BitVec.ofNat 64 (512 * max (row p) k.rows)) (BitVec.ofNat 64 k.rows) 0)
      ∧ (∀ f, row p + cnt14 n ≤ k.rows →
        s.checkRun j s.cur (k.rdC e.toNat v) rd wr (captured k e .cpy v p (cnt14 n)).point (cnt14 n) = .error f →
        ∃ t, exec (.cpy e v p n) s = .next t ∧ StoppedBy s t s.cur s.curB e.toNat f.code f.da f.db f.dc)
      ∧ (∀ f, row p + cnt10 m ≤ k.rows → lastIdx < k.rows → s.checkView j s.cur (k.rdC e.toNat v) rd wr = .error f →
        ∃ t, exec (.gath e v p i m) s = .next t ∧ StoppedBy s t s.cur s.curB e.toNat f.code f.da f.db f.dc)
      ∧ (∀ w t, s.viewOf j.part (k.rdC e.toNat v) = some w → s.tensor w.tid = some t → t.fmt ∈ [2, 3, 4] →
        ∃ u da, exec (.reduce e v p) s = .next u ∧ StoppedBy s u s.cur s.curB e.toNat 0x0001 da 0 0))

/-- R226: starting a nest. -/
def Sys2Proof.Spec.SeqgoStartsTheNest : Prop :=
  ∀ (e n : BitVec 3) (s : State),
    let k := s.me
    let x := k.stream e.toNat
    (∀ c, k.templateAt e.toNat = some c → k.generating e.toNat = false → k.places e.toNat < 8 →
      ∃ t q, exec (.seqgo e n) s = .next t ∧ OnlyBank s t ∧ (∀ f, f ≠ e.toNat → t.me.stream f = k.stream f)
        ∧ { t.me with nests := k.nests, cmds := k.cmds, seq := k.seq, streams := k.streams } = k ∧ t.me.seq = k.seq + 1
        ∧ t.me.nest e.toNat = some q ∧ (∀ f, f ≠ e.toNat → t.me.nest f = k.nest f ∧ t.me.queue f = k.queue f)
        ∧ q.x = (k.sq e.toNat).coords ∧ (∀ i, i < 6 → q.l.getD i 0 = get 0 (k.sq e.toNat).l i) ∧ q.s = (k.sq e.toNat).s
        ∧ q.n = n.toNat ∧ q.tmpl = c ∧ q.k = 0 ∧ q.gen = true ∧ q.pc = x.q1.addr ∧ q.epoch = x.epoch ∧ q.seq = k.seq
        ∧ (t.me.queue e.toNat).getLast? = some { seq := k.seq, pc := x.q1.addr, epoch := x.epoch, op := .nest }
        ∧ (t.me.queue e.toNat).length = (k.queue e.toNat).length + 1
        ∧ (x.lp0.act = false → x.lp1.act = false → (t.me.stream e.toNat).q0 = x.q2))
    ∧ (k.templateAt e.toNat = none → k.fault = none →
      ∃ t da, exec (.seqgo e n) s = .next t ∧ StoppedBy s t s.cur s.curB e.toNat 0x0001 da 0 0)

/-- R215, R217, R224 to R227, R232. -/
def Obligations.CopyRegistersAndSeqgo : Prop :=
  Sys2Proof.Spec.CopyScalarAndSequencerRegisters ∧ Sys2Proof.Spec.SeqgoStartsTheNest

/-- R366 to R368: sending, receiving and counting permits at a Crossing. -/
def Obligations.CrossingInstructionsTakeSlots : Prop :=
  ∀ (d x v l : BitVec 3) (b : BitVec 1) (s : State),
    let k := s.me
    let i := (k.rdE x).toNat % 8
    let f : Word := (k.rdE v).setWidth 32
    (∀ n c j w y, s.sendEntry s.cur i = some (n, c) → k.job = some j → s.checkView j s.cur f true false = .ok (w, y) → y.fmt = c.fmt →
      let els := if w.box.empty then 0 else w.box.volume
      let op := CmdOp.xsend n c.freeSlot (decide (b = 1)) ((k.rdE l).setWidth 15) { form := f, tid := y.id, box := w.box } (els / rowElems y.fmt) []
      let sent : Cmd := { seq := k.seq, pc := (k.stream 5).q0.addr, epoch := (k.stream 5).epoch, op := op }
      els % rowElems y.fmt = 0 → els / rowElems y.fmt ≤ c.rows → k.places 5 < 8 →
      (w.box.empty = false → w.box.runFlt f (startPoint y.fmt w.box.lo) els = none) →
      (c.cnt ≠ 0 → ∃ t c', exec (.xsend x v l b) s = .next t ∧ { t with units := s.units, crossings := s.crossings } = s
        ∧ (∀ u, u ≠ s.cur → t.core u = s.core u) ∧ (t.core s.cur).pad = (s.core s.cur).pad ∧ Issued 5 k t.me
        ∧ { t.me with cmds := k.cmds, seq := k.seq, streams := k.streams, job := k.job } = k ∧ (∀ g, g ≠ 5 → t.me.queue g = k.queue g)
        ∧ t.me.queue 5 = k.queue 5 ++ [sent]
        ∧ get none t.crossings n = some c' ∧ (∀ m, m ≠ n → get none t.crossings m = get none s.crossings m) ∧ c'.cnt = c.cnt - 1
        ∧ c'.flight = c.flight ++ [(s.curB, k.seq)] ∧ (c'.slot c.freeSlot).st = .filling ∧ (∀ m, m ≠ c.freeSlot → c'.slot m = c.slot m) ∧ c'.arr = c.arr
        ∧ (∀ m, m < c.nslots → (c.slot m).st = .free → (c.slot c.freeSlot).st = .free ∧ c.freeSlot ≤ m))
      ∧ (c.cnt = 0 → ∃ t, exec (.xsend x v l b) s = .next t ∧ t.crossings = s.crossings ∧ t.me.queue 5 = k.queue 5
        ∧ (t.me.stream 5).q0 = (k.stream 5).q0 ∧ (t.me.stream 5).wait = .permit i))
    ∧ (∀ n c sl bb ly p rest, s.recvEntry s.cur i = some (n, c) → c.arr = (sl, bb, ly, p) :: rest →
      (k.isStatic = true → k.job.bind (fun j => j.passed) = some 5) →
      ∃ t c', exec (.xrecv d x) s = .next t ∧ Issued 5 k t.me ∧ (∀ r, r ≠ d → t.me.rdE r = k.rdE r)
        ∧ (t.me.rdE d).extractLsb' 32 32 = (c.slot sl).form ∧ (1 ≤ p → p ≤ 16384 → ((t.me.rdE d).extractLsb' 18 14).toNat = p - 1)
        ∧ ((t.me.rdE d).extractLsb' 16 2).toNat = sl % 4 ∧ (t.me.rdE d).getLsbD 15 = bb ∧ (t.me.rdE d).extractLsb' 0 15 = ly
        ∧ get none t.crossings n = some c' ∧ c'.arr = rest ∧ (c'.slot sl).st = .held ∧ c'.cnt = c.cnt
        ∧ (∀ m, m ≠ sl → c'.slot m = c.slot m) ∧ (∀ m, m ≠ n → get none t.crossings m = get none s.crossings m)
        ∧ (let h := formHandle (c.slot sl).form
           get {} t.views h = { get {} s.views h with r := true, w := true } ∧ ∀ m, m ≠ h → get {} t.views m = get {} s.views m)
        ∧ ∀ a, rdByte t.mem a = rdByte s.mem a)
    ∧ (k.isStatic = true → k.job.bind (fun j => j.passed) ≠ some 5 → s.recvEntry s.cur i ≠ none →
      ∃ t, exec (.xrecv d x) s = .next t ∧ { t with units := s.units } = s ∧ (t.me.stream 5).q0 = (k.stream 5).q0
        ∧ ∀ j, t.me.job = some j → j.paused = true)
    ∧ (∃ t, exec (.xperm d x) s = .next t ∧ OnlyBank s t ∧ Issued 5 k t.me ∧ { t.me with e := k.e, streams := k.streams } = k
      ∧ ∀ r, t.me.rdE r = if r = d then BitVec.ofNat 64 (match s.sendEntry s.cur i with | some (_, c) => c.cnt | none => 0) else k.rdE r)
    ∧ (k.fault = none → (∀ n c j w y e, k.places 5 < 8 → s.sendEntry s.cur i = some (n, c) → k.job = some j →
        s.checkView j s.cur f true false = .ok (w, y) → w.box.empty = false →
        w.box.runFlt f (startPoint y.fmt w.box.lo) w.box.volume = some e →
        ∃ t, exec (.xsend x v l b) s = .next t ∧ StoppedBy s t s.cur s.curB 5 e.code e.da e.db e.dc)
      ∧ (k.places 5 < 8 → s.sendEntry s.cur i = none →
        ∃ t, exec (.xsend x v l b) s = .next t ∧ StoppedBy s t s.cur s.curB 5 0x0007 (BitVec.ofNat 64 i) 0 0)
      ∧ (s.recvEntry s.cur i = none → ∃ t, exec (.xrecv d x) s = .next t ∧ StoppedBy s t s.cur s.curB 5 0x0007 (BitVec.ofNat 64 i) 0 0))

/-- R236 to R238, R403 to R409: atomics and bank-unit commands at issue, and the two waits. -/
def Obligations.AtomicsAndBankUnitCommandsIssue : Prop :=
  ∀ (d a b : BitVec 3) (o : BitVec 4) (w t : BitVec 1) (m : BitVec 2) (s : State) (j : Job),
    let k := s.me
    let va := k.rdE a
    let sel := k.rdE b
    let selected := sel.toNat < 2 ^ 28 ∧ sel.toNat / 32 % 32 < 24 ∧ ∃ p, get none s.parts j.part = some p ∧ selUnit sel ∈ p.cfg.bankUnits
    let nw := sel.toNat / 2 ^ 19 % 512
    let fw := sel.toNat / 2 ^ 11 % 256
    let passes := fun (i : Instr) => ∃ u, exec i s = .next u ∧ OnlyBank s u ∧ (∀ f, f ≠ 5 → u.me.stream f = k.stream f)
      ∧ { u.me with streams := k.streams, job := k.job } = k ∧ QueueAs (u.me.stream 5) (k.advanced 5 none) false
    k.job = some j →
    (k.places 5 < 8 →
      (∀ x, s.flatAt j s.cur (if w = 1 then 8 else 4) va = .ok x →
        ∃ u, exec (.atom d a b o w) s = .next u ∧ CommandIssued s u 5 (.atom o.toNat w.toNat d.toNat va sel (k.rdE d)))
      ∧ (∀ x, s.flatAt j s.cur 4 va = .ok x →
        ∃ u, exec (.aaddnr a b t) s = .next u ∧ CommandIssued s u 5 (.aaddnr (decide (t = 1)) va (sel.setWidth 32)))
      ∧ (selected → va.toNat % 8 = 0 → 1 ≤ nw → nw ≤ 256 → fw + nw ≤ 256 →
        ∃ u, exec (.bkload a b) s = .next u ∧ CommandIssued s u 5 (.bkload sel va))
      ∧ (1 ≤ sel.toNat → sel.toNat ≤ 64 → va.toNat % 32 = 0 →
        ∃ u, exec (.bkrun a b) s = .next u ∧ CommandIssued s u 5 (.bkrun va sel.toNat 0 false))
      ∧ (selected → ∃ u, exec (.bkctx b m) s = .next u ∧ CommandIssued s u 5 (.bkctx sel m.toNat)))
    ∧ (j.static = false → (∀ q ∈ k.queue 5, q.isAaddnr = false) → passes .afence)
    ∧ (j.static = false → selected → (∀ q ∈ k.queue 5, q.holdsWait (selUnit sel) = false) → passes (.bkwait b))
    ∧ (j.static = true → j.passed = some 5 → passes .afence ∧ (selected → passes (.bkwait b)))
    ∧ (k.fault = none →
      (¬ selected → ∃ u, exec (.bkwait b) s = .next u ∧ StoppedBy s u s.cur s.curB 5 0x0007 sel 0 0)
      ∧ (k.places 5 < 8 →
      (¬ selected → ∀ i ∈ [Instr.bkload a b, Instr.bkctx b m], ∃ u, exec i s = .next u ∧ StoppedBy s u s.cur s.curB 5 0x0007 sel 0 0)
      ∧ (∀ f, s.flatAt j s.cur (if w = 1 then 8 else 4) va = .error f →
        ∃ u, exec (.atom d a b o w) s = .next u ∧ StoppedBy s u s.cur s.curB 5 f.code f.da f.db f.dc)
      ∧ (∀ f, s.flatAt j s.cur 4 va = .error f → ∃ u, exec (.aaddnr a b t) s = .next u ∧ StoppedBy s u s.cur s.curB 5 f.code f.da f.db f.dc)
      ∧ (selected → va.toNat % 8 ≠ 0 → ∃ u, exec (.bkload a b) s = .next u ∧ StoppedBy s u s.cur s.curB 5 0x0006 va 0 0)
      ∧ (selected → va.toNat % 8 = 0 → nw = 0 ∨ 256 < nw ∨ 256 < fw + nw →
        ∃ u, exec (.bkload a b) s = .next u ∧ StoppedBy s u s.cur s.curB 5 0x0007 sel 0 0)
      ∧ (sel.toNat = 0 ∨ 64 < sel.toNat → ∃ u, exec (.bkrun a b) s = .next u ∧ StoppedBy s u s.cur s.curB 5 0x0007 sel 0 0)
      ∧ (1 ≤ sel.toNat → sel.toNat ≤ 64 → va.toNat % 32 ≠ 0 → ∃ u, exec (.bkrun a b) s = .next u ∧ StoppedBy s u s.cur s.curB 5 0x0006 va 0 0)))
    ∧ (8 ≤ k.places 5 → ∀ i ∈ [Instr.atom d a b o w, Instr.aaddnr a b t, Instr.bkload a b, Instr.bkrun a b, Instr.bkctx b m],
      ∃ u, exec i s = .next u ∧ { u with units := s.units } = s ∧ u.me.fault = k.fault ∧ u.me.queue 5 = k.queue 5
        ∧ (u.me.stream 5).q0 = (k.stream 5).q0)

namespace Sys2Proof.Spec

/-! ### Commands performed (03 R79; 08 R194, R204; 09 R220 to R237; 12 R294, R295; 13 R310; 17 R366; 19 R393) -/

/-- From bank `k` to `k'` command number `n` of engine `e` has left with its departures; every other command but entries of nests stands as before. -/
def Left (k k' : Bank) (e n : Nat) : Prop :=
  k'.cmd e n = none ∧ (∀ c ∈ k.queue e, c.seq ≠ n → c.isNest = false → c ∈ k'.queue e) ∧ (∀ f, f ≠ e → k'.queue f = k.queue f)
    ∧ ∀ d ∈ k'.departed, d.src ≠ n

/-- From `s` to `t` no unit but `u` differs. -/
def OnlyUnit (s t : State) (u : Nat) : Prop := ∀ v, v ≠ u → t.core v = s.core v

/-- Every byte of memory outside the `n` bytes at `a` reads as before. -/
def OnlyBytes (s t : State) (a n : Nat) : Prop := ∀ x, x < a ∨ a + n ≤ x → rdByte t.mem x = rdByte s.mem x

/-- Every byte of memory reads as before. -/
def SameMem (s t : State) : Prop := ∀ x, rdByte t.mem x = rdByte s.mem x

/-- The operations of `ATOM` on `n` bytes (R236): number, and new value for old value, operand and comparand. -/
def atomOps (n old v x : Nat) : List (Nat × Nat) :=
  let a := BitVec.ofNat (8 * n) old
  let b := BitVec.ofNat (8 * n) v
  [(0, (a + b).toNat), (1, (a &&& b).toNat), (2, (a ||| b).toNat), (3, (a ^^^ b).toNat), (4, (if a.toInt ≤ b.toInt then a else b).toNat),
   (5, (if a.toInt ≤ b.toInt then b else a).toNat), (6, (if a.toNat ≤ b.toNat then a else b).toNat), (7, (if a.toNat ≤ b.toNat then b else a).toNat),
   (8, b.toNat), (9, if old = x then b.toNat else old)]

/-- Row `i` of command `c` (with operands `x`) of engine `e` has been performed: the command leaves with its last row, and a tag gets a landing of 512 bytes. -/
def RowPerformed (k k' : Bank) (e i : Nat) (c : Cmd) (x : CopyCmd) : Prop :=
  (x.n ≤ x.done.length + 1 → Left k k' e c.seq)
  ∧ (x.done.length + 1 < x.n → k'.cmd e c.seq = some { c with op := .copy { x with done := i :: x.done } })
  ∧ k'.landings = k.landings ++ (match x.tag with | none => [] | some a => [{ addr := a, n := 512, eng := some e, epoch := c.epoch }])
  ∧ { k' with cmds := k.cmds, departed := k.departed, landings := k.landings, ttags := k.ttags, fifo := k.fifo, missed := k.missed } = k

/-- The bytes of tile or page `n` that the elements at `cs` reach. -/
def bytesIn (t : Tensor) (cs : List (List Nat)) (n : Nat) : List Nat := ((cs.map t.loc).filter (fun l => decide (l.1 = n))).map (fun l => l.2 / 8)

/-- Address `a` is where an access by bank `b` of unit `u` to the elements at `cs` finds the frame of tile or page `n` of `t`. -/
def FrameAt (s : State) (u b : Nat) (t : Tensor) (cs : List (List Nat)) (n : Nat) (write : Bool) (a : Nat) : Prop :=
  ∃ T S B, s.transAt u t n (s.bank u b).pasid write (bytesIn t cs n) = .frame T S B ∧ a = physAddr T S B

end Sys2Proof.Spec

/-- R204, R194, R294, R295: tokens, landings and departures. -/
def Obligations.TokensLandingsAndDepartures : Prop :=
  (∀ (u b e : Nat) (s : State) (c : Cmd) (f n : Nat),
    ((s.bank u b).queue e).find? Cmd.isPush = some c → c.op = .push f n → (s.bank u b).before e c.seq = [] →
    ((s.bank u b).tokF f).toks.length + n ≤ 8 → s.mayPush u b e = true →
    ∃ t, exec (.tokenPush u b e) s = .next t ∧ OnlyUnit s t u ∧ { t with units := s.units } = s
      ∧ { t.bank u b with tok := (s.bank u b).tok, cmds := (s.bank u b).cmds } = s.bank u b
      ∧ (t.bank u b).tokF f = { (s.bank u b).tokF f with toks := ((s.bank u b).tokF f).toks ++ List.replicate n c.epoch }
      ∧ (∀ g, g ≠ f → (t.bank u b).tokF g = (s.bank u b).tokF g)
      ∧ (t.bank u b).queue e = ((s.bank u b).queue e).filter (fun x => decide (x.seq ≠ c.seq))
      ∧ (∀ g, g ≠ e → (t.bank u b).queue g = (s.bank u b).queue g))
  ∧ (∀ (u b : Nat) (s : State) (l : Landing) (ls : List Landing),
    let k := s.bank u b
    let r := l.addr.toNat / 512
    let w := l.addr.toNat / 16 % 32
    let i := l.addr.toNat / 16
    let old := s.row u b r
    k.landings = l :: ls → (s.core u).freeze = 0 → k.inTransit = false → r < k.rows →
    ∃ t, exec (.landing u b) s = .next t ∧ OnlyUnit s t u ∧ { t with units := s.units } = s
      ∧ (t.bank u b).landings = ls ∧ { t.bank u b with landings := k.landings, arr := k.arr } = k
      ∧ (∀ x, x ≠ r → t.row u b x = s.row u b x) ∧ (t.row u b r).poison = old.poison
      ∧ (∀ n, n < 128 → n / 4 ≠ w → lane (t.row u b r).data n = lane old.data n) ∧ (∀ x, x ≠ i → (t.bank u b).arrVec x = k.arrVec x)
      ∧ (s.armed u b i = false → t.row u b r = old ∧ (t.bank u b).arrVec i = k.arrVec i)
      ∧ (s.armed u b i = true → (∀ e, l.eng = some e → e < 6) →
          let sum := min ((arrField old w 1).toNat + l.n) (2 ^ 32 - 1)
          let T := if arrField old w 0 = 0 then 2 ^ 32 else (arrField old w 0).toNat
          let A := match l.eng with | some e => merge (k.arrVec i).a e l.epoch | none => (k.arrVec i).a
          let low := match l.eng with | some e => e * 8192 + l.epoch.toNat | none => 7 * 8192
          let new := t.row u b r
          arrField new w 0 = arrField old w 0 ∧ (arrField new w 1).toNat = sum % T
          ∧ arrField new w 2 = arrField old w 2 + BitVec.ofNat 32 (sum / T)
          ∧ (∀ j, 18 ≤ j → (arrField new w 3).getLsbD j = (arrField old w 3).getLsbD j) ∧ (arrField new w 3).getLsbD 16 = true
          ∧ (arrField new w 3).getLsbD 17 = ((arrField old w 3).getLsbD 17 || decide (2 ^ 32 - 1 < (arrField old w 1).toNat + l.n))
          ∧ ((arrField new w 3).extractLsb' 0 16).toNat = (if T ≤ sum then low else ((arrField old w 3).extractLsb' 0 16).toNat)
          ∧ (t.bank u b).arrVec i = { k.arrVec i with a := A, s := if T ≤ sum then A else (k.arrVec i).s }))
  ∧ (∀ (u b src r : Nat) (s : State), ∀ i ∈ [Instr.requestDepart u b src r, Instr.slotMissRetry u b src r],
    ∃ t ds, exec i s = .next t ∧ OnlyUnit s t u ∧ { t with units := s.units, stackSt := s.stackSt } = s ∧ (t.core u).pad = (s.core u).pad
      ∧ { t.bank u b with departed := (s.bank u b).departed, missed := (s.bank u b).missed } = s.bank u b
      ∧ (t.bank u b).departed = (s.bank u b).departed ++ ds ∧ ∀ d ∈ ds, d.src = src ∧ d.row = r)
  ∧ (∀ (u b src r e n : Nat) (s : State) (c : Cmd) (y : Tensor) (offs : List Nat) (w : Bool),
    let k := s.bank u b
    let T := match s.look u y.id n with | some x => x.tier | none => if y.tiled then (y.tile n).tier.toNat else 2
    let S := match s.look u y.id n with | some x => x.stack | none => if y.tiled then (y.tile n).stack.toNat else y.tbase / 2 ^ 36 % 32
    let fr := s.departFrame u y n k.pasid offs
    let gone := fun (t : State) (x : Ttb) (due : Option Nat) =>
      (t.bank u b).departed = k.departed ++ [{ src := src, row := r, x := x, due := due }] ∧ (t.bank u b).missedOf src r x.tile = none
    k.findCmd src = some (e, c) → c.fresh = false → s.mayPerform u b e c = true → s.undeparted u b e c r = [(y, n, offs, w)] →
    (s.ownsSlot u T S = false → ∀ i ∈ [Instr.requestDepart u b src r, Instr.slotMissRetry u b src r],
      (∀ x, fr = some x → ∃ t, exec i s = .next t ∧ gone t x none ∧ t.stackSt = s.stackSt)
      ∧ (∀ A B F, fr = none → y.tiled = true → (y.tile n).tier ≠ 3 → s.look u y.id n = none →
        s.translate y n Pasid.none false = .frame A B F →
        ∃ t x, exec i s = .next t ∧ t.bank u b = k ∧ t.look u y.id n = some x ∧ x.tier = A ∧ x.stack = B ∧ x.base = F
          ∧ x.ia = (y.tile n).fbase.toNat * 4096))
    ∧ (s.ownsSlot u T S = true → k.missedOf src r n = none → s.earlierLeaves u b e c r (T, S) = false →
      ∀ q, s.freeSlotAt u T S s.now = some q →
      (∀ x, fr = some x → ∃ t, exec (.requestDepart u b src r) s = .next t ∧ gone t x (some (s.now + latency c x.tier w)))
      ∧ (fr = none → ∃ t, exec (.requestDepart u b src r) s = .next t ∧ (t.bank u b).departed = k.departed
          ∧ (t.bank u b).missedOf src r n = some { src := src, row := r, tile := n, tier := T, stack := S, slot := q, at_ := s.now }))
    ∧ (s.ownsSlot u T S = true → k.missedOf src r n = none →
      (s.earlierLeaves u b e c r (T, S) = true ∨ s.freeSlotAt u T S s.now = none → exec (.requestDepart u b src r) s = .next s)
      ∧ exec (.slotMissRetry u b src r) s = .next s)
    ∧ (s.ownsSlot u T S = true → ∀ m, k.missedOf src r n = some m →
      exec (.requestDepart u b src r) s = .next s
      ∧ (m.at_ < s.now → m.slot ∈ slotsAt T s.now → ∀ x, fr = some x →
          ∃ t, exec (.slotMissRetry u b src r) s = .next t ∧ gone t x (some (s.now + latency c x.tier w)))
      ∧ (s.now ≤ m.at_ ∨ m.slot ∉ slotsAt T s.now → exec (.slotMissRetry u b src r) s = .next s)))

/-- R79, R236, R237, R310: control loads and stores, atomics and the histogram, performed. -/
def Obligations.FlatAccessesPerform : Prop :=
  ∀ (u b src : Nat) (s : State) (c : Cmd) (y : Tensor),
    let k := s.bank u b
    let l := s.lend u b src 0
    let reached := ∀ j, k.job = some j → j.reaches y (dieOf u) = true
    let word := fun (a n : Nat) => leNat (rdBytes s.mem a n)
    let kept := fun (t : State) =>
      OnlyUnit s t u ∧ { t.bank u b with s := k.s, e := k.e, cmds := k.cmds, departed := k.departed, missed := k.missed, ttags := k.ttags,
                                          backs := k.backs } = k ∧ (t.core u).pad = (s.core u).pad
    (∀ d a f s1, k.cmd 0 src = some c → c.op = .ldg d a → s.window k.part a.toNat = some y → reached → s.mayPerform u b 0 c = true →
      s.arrived u b 0 c 0 = true → s.flatFlt y a false = none →
      l.reach u b 0 c.epoch y (y.ofFlat a.toNat).1 .read [(y.ofFlat a.toNat).2] = .ok (f, s1) →
      s.poisoned (f + (y.ofFlat a.toNat).2) 8 = false →
      ∃ t, exec (.ldgReturn u b src) s = .next t ∧ kept t ∧ { t with units := s.units } = s ∧ Left k (t.bank u b) 0 src ∧ (t.bank u b).e = k.e
        ∧ (∃ w, ∀ n, get none (t.bank u b).backs n = if n = src then none else (get none k.backs n).map (fun x =>
            if src < n then { x with s := ({ k with s := x.s }.wrS (BitVec.ofNat 5 d) w).s } else x))
        ∧ ∀ r, r ≠ 30 → r ≠ 31 → (t.bank u b).rdS r = if r = BitVec.ofNat 5 d ∧ r ≠ 0
            then BitVec.ofNat 64 (if y.pad (y.ofFlat a.toNat).2 then 0 else word (f + (y.ofFlat a.toNat).2) 8) else k.rdS r)
    ∧ (∀ a v f s1, k.cmd 0 src = some c → c.op = .stg a v → s.window k.part a.toNat = some y → reached → s.mayPerform u b 0 c = true →
      s.arrived u b 0 c 0 = true → k.wrote src 0 = false → s.flatFlt y a true = none →
      l.reach u b 0 c.epoch y (y.ofFlat a.toNat).1 .write [(y.ofFlat a.toNat).2] = .ok (f, s1) →
      y.pad (y.ofFlat a.toNat).2 = false →
      ∃ t, exec (.stgPerformed u b src) s = .next t ∧ kept t ∧ Left k (t.bank u b) 0 src ∧ (t.bank u b).s = k.s ∧ (t.bank u b).e = k.e
        ∧ (∀ n, get none (t.bank u b).backs n = if n = src then none else get none k.backs n)
        ∧ (∀ i, i < 8 → rdByte t.mem (f + (y.ofFlat a.toNat).2 + i) = BitVec.ofNat 8 (v.toNat / 256 ^ i)) ∧ OnlyBytes s t (f + (y.ofFlat a.toNat).2) 8
        ∧ ∀ j, k.job = some j → s.tensor y.id = some y →
            ∃ z, t.tensor y.id = some z ∧ z.stamp (y.ofFlat a.toNat).1 = s.stampOf j k)
    ∧ (∀ op w d a v x f s1, (k.queue 5).find? Cmd.isAtom = some c → c.seq = src → c.op = .atom op w d a v x → s.window k.part a.toNat = some y → reached →
      s.mayPerform u b 5 c = true → s.arrived u b 5 c 0 = true → k.wrote src 0 = false → s.flatFlt y a true = none →
      l.reach u b 5 c.epoch y (y.ofFlat a.toNat).1 .atomic [(y.ofFlat a.toNat).2] = .ok (f, s1) → y.pad (y.ofFlat a.toNat).2 = false →
      let n := if w = 1 then 8 else 4
      let p := f + (y.ofFlat a.toNat).2
      s.poisoned p n = false →
      ∀ q ∈ atomOps n (word p n) (v.toNat % 2 ^ (8 * n)) (x.toNat % 2 ^ (8 * n)), q.1 = op →
      ∃ t, exec (.atomPerformed u b) s = .next t ∧ kept t ∧ (t.bank u b).backs = k.backs ∧ Left k (t.bank u b) 5 src ∧ (t.bank u b).s = k.s
        ∧ (∀ r, (t.bank u b).rdE r = if r = BitVec.ofNat 3 d then BitVec.ofNat 64 (word p n) else k.rdE r)
        ∧ (∀ i, i < n → rdByte t.mem (p + i) = BitVec.ofNat 8 (q.2 / 256 ^ i)) ∧ OnlyBytes s t p n)
    ∧ (∀ int a v f s1, k.cmd 5 src = some c → c.op = .aaddnr int a v → s.window k.part a.toNat = some y → reached → s.mayPerform u b 5 c = true →
      s.arrived u b 5 c 0 = true → k.wrote src 0 = false → s.flatFlt y a true = none →
      l.reach u b 5 c.epoch y (y.ofFlat a.toNat).1 .atomic [(y.ofFlat a.toNat).2] = .ok (f, s1) →
      y.pad (y.ofFlat a.toNat).2 = false → s.poisoned (f + (y.ofFlat a.toNat).2) 4 = false →
      let p := f + (y.ofFlat a.toNat).2
      let new := if int then (word p 4 + v.toNat) % 2 ^ 32 else fp32.round 0 (FVal.add 0 (fp32.val (word p 4)) (fp32.val v.toNat))
      ∃ t, exec (.aaddnrPerformed u b src) s = .next t ∧ kept t ∧ (t.bank u b).backs = k.backs ∧ Left k (t.bank u b) 5 src ∧ (t.bank u b).s = k.s ∧ (t.bank u b).e = k.e
        ∧ (∀ i, i < 4 → rdByte t.mem (p + i) = BitVec.ofNat 8 (new / 256 ^ i)) ∧ OnlyBytes s t p 4)
    ∧ (∀ m chk x j vs s1, (k.queue 0).find? (fun c => match c.op with | .hist _ _ _ => true | _ => false) = some c → c.op = .hist m chk x →
      k.job = some j → s.tensor chk.tid = some y → s.mayPerform u b 0 c = true → s.allArrived u b 0 c = true → s.histRead u b c.epoch y chk.box 0 m = .ok (vs, s1) →
      let bins := fun (s : State) (d p i : Nat) => get (0 : Word) (get [] (get {} s.dies d : Die).hist p) i
      let hits := fun (i : Nat) => (vs.filter (fun (v : Int) => if i = 256 then decide (v < 0 ∨ 256 ≤ v) else decide (v = (i : Int)))).length
      ∃ t, exec (.histPerformed u b) s = .next t ∧ kept t
        ∧ (∀ n, get none (t.bank u b).backs n = if n = c.seq then none else get none k.backs n) ∧ { t with units := s.units, dies := s.dies } = s
        ∧ Left k (t.bank u b) 0 c.seq ∧ (t.bank u b).s = k.s ∧ (t.bank u b).e = k.e
        ∧ (∀ i, i ≤ 256 → (bins t j.die j.part i).toNat = min ((bins s j.die j.part i).toNat + hits i) (2 ^ 32 - 1))
        ∧ ∀ d p i, (d ≠ j.die ∨ p ≠ j.part) → bins t d p i = bins s d p i)

/-- R218, R220, 05 R127: a row of a run in global memory. -/
def Sys2Proof.Spec.GlobalRowsHoldTheirElements : Prop :=
  ∀ (s : State) (u b e : Nat) (ep : BitVec 13) (t : Tensor) (cs : List (List Nat)), cs.length = rowElems t.fmt →
    let tile := fun (i : Nat) => (t.loc (cs.getD i [])).1
    let bit := fun (i : Nat) => (t.loc (cs.getD i [])).2
    let w := elemBits t.fmt
    let ord := fun (l : Nat) => t.order.getD l 0
    (t.ndim ≤ t.order.length → ∀ x : List Nat,
      let E := rowElems t.fmt
      let q := ((List.range t.ndim).map (fun d => dim x d % dim t.tsh d * ((List.range d).map (dim t.tsh)).prod)).sum
      let o := dim x 0 / E * 4096 + dim x 0 % E * w + 8 * ((List.range 5).map (fun d => dim x (d + 1) * dim t.stride d)).sum
      t.loc x = if t.tiled = true
        then (((List.range t.ndim).map (fun l => dim x (ord l) / dim t.tsh (ord l)
            * ((List.range l).map (fun m => dim t.ext (ord m) / dim t.tsh (ord m))).prod)).sum, q / E * 4096 + q % E * w)
        else (o / 32768, o % 32768))
    ∧ (∀ v s1, s.readRun u b e ep t cs = .ok (v, s1) →
      (∀ i a, i < rowElems t.fmt → FrameAt s u b t cs (tile i) false a → v.data.toNat / 2 ^ (w * i) % 2 ^ w = s.memBits a (bit i) w)
      ∧ (t.fmt = 6 → v.data.toNat < 2 ^ 4032)
      ∧ (∀ g, g < 32 → (v.poison.getLsbD g = true ↔
          ∃ i a, i < rowElems t.fmt ∧ i * w / 128 = g ∧ FrameAt s u b t cs (tile i) false a ∧ s.poisoned (a + bit i / 8) ((w + 7) / 8) = true))
      ∧ SameMem s s1 ∧ s1.poison = s.poison)
    ∧ (∀ r s1, s.writeRun u b e ep t cs r = .ok s1 →
      let span := fun (i a : Nat) => (8 * a + bit i, w)
      let pads := fun (i a : Nat) => (8 * a + bit i / 4096 * 4096 + 4032, 64)
      let apart := fun (x y : Nat × Nat) => x.1 + x.2 ≤ y.1 ∨ y.1 + y.2 ≤ x.1
      (∀ i a, i < rowElems t.fmt → FrameAt s u b t cs (tile i) true a →
        (∀ j c, j < rowElems t.fmt → j ≠ i → FrameAt s u b t cs (tile j) true c → apart (span i a) (span j c)) →
        (t.fmt = 6 → ∀ j c, j < rowElems t.fmt → FrameAt s u b t cs (tile j) true c → apart (span i a) (pads j c)) →
        s1.memBits a (bit i) w = r.data.toNat / 2 ^ (w * i) % 2 ^ w)
      ∧ (∀ x, (∀ i a, i < rowElems t.fmt → FrameAt s u b t cs (tile i) true a →
          apart (8 * x, 8) (8 * ((8 * a + bit i) / 8), (bit i % 8 + w + 7) / 8 * 8) ∧ (t.fmt = 6 → apart (8 * x, 8) (pads i a))) →
          rdByte s1.mem x = rdByte s.mem x))

/-- R220, R221, R223, R366: rows of copies, pushes and sends. -/
def Sys2Proof.Spec.CopyRowsPerform : Prop :=
  ∀ (u b e src i : Nat) (s : State) (c : Cmd) (x : CopyCmd),
    let k := s.bank u b
    let l := s.lend u b src i
    let row := x.pad.toNat / 512 + i
    (s.bank u b).cmd e src = some c → c.op = .copy x → s.mayPerform u b e c = true → k.wrote src i = false →
    (∀ q y, x.kind = .cpy → x.chk = some q → s.tensor q.tid = some y → i < x.n → i ∉ x.done → s.arrived u b e c i = true →
      let cs := rowCoords y.fmt q.box (startPoint y.fmt x.point) i
      (∀ v s1 s2, e = 3 → l.readRun u b 3 c.epoch y cs = .ok (v, s1) → s1.writeRow u b 3 c.epoch row v = .ok s2 →
        ∃ t, exec (.copyRowPerformed u b 3 src i) s = .next t ∧ OnlyUnit s t u ∧ { t with units := s.units } = s
          ∧ RowPerformed k (t.bank u b) 3 i c x ∧ (t.bank u b).fifo = k.fifo ∧ t.row u b row = v ∧ ∀ r, r ≠ row → t.row u b r = s.row u b r)
      ∧ (∀ v s1 s2, e = 4 → l.readRow u b 4 c.epoch row = .ok (v, s1) → s1.writeRun u b 4 c.epoch y cs v = .ok s2 →
        ∃ t, exec (.copyRowPerformed u b 4 src i) s = .next t ∧ OnlyUnit s t u ∧ RowPerformed k (t.bank u b) 4 i c x ∧ (t.bank u b).fifo = k.fifo
          ∧ v = s.row u b row ∧ (∀ r, t.row u b r = s.row u b r) ∧ SameMem s2 t))
    ∧ (∀ q y j v s1, x.kind = .gath → x.chk = some q → s.tensor q.tid = some y → k.job = some j → i < x.n → i ∉ x.done →
      s.gathBehind u b e x y q.box i = false → s.arrived u b e c i = true →
      l.readRow u b e c.epoch (x.idx.toNat / 512 + (x.first + i) / 128) = .ok (v, s1) →
      let p := x.point.take 1 ++ [(x.coord.getD 1 0 + lane v.data ((x.first + i) % 128)).toNat] ++ x.point.drop 2
      (∀ z y' w s2 s3, e = 3 → s1.checkRun j u x.form true false p 1 = .ok z → s1.tensor z.tid = some y' →
        s1.readRun u b 3 c.epoch y' (rowCoords y'.fmt z.box (startPoint y'.fmt p) 0) = .ok (w, s2) → s2.writeRow u b 3 c.epoch row w = .ok s3 →
        ∃ t, exec (.gathItemPerformed u b 3 src i) s = .next t ∧ OnlyUnit s t u ∧ { t with units := s.units } = s
          ∧ RowPerformed k (t.bank u b) 3 i c x ∧ (t.bank u b).fifo = k.fifo ∧ t.row u b row = w ∧ ∀ r, r ≠ row → t.row u b r = s.row u b r)
      ∧ (∀ z y' w s2 s3, e = 4 → s1.checkRun j u x.form false true p 1 = .ok z → s1.tensor z.tid = some y' → s1.readRow u b 4 c.epoch row = .ok (w, s2) →
        s2.writeRun u b 4 c.epoch y' (rowCoords y'.fmt z.box (startPoint y'.fmt p) 0) w = .ok s3 →
        ∃ t, exec (.gathItemPerformed u b 4 src i) s = .next t ∧ OnlyUnit s t u ∧ RowPerformed k (t.bank u b) 4 i c x ∧ (t.bank u b).fifo = k.fifo
          ∧ w = s.row u b row ∧ (∀ r, t.row u b r = s.row u b r) ∧ SameMem s3 t)
      ∧ (∀ f, k.fault = none → s1.checkRun j u x.form (decide (e = 3)) (decide (e = 4)) p 1 = .error f →
        ∃ t g, exec (.gathItemPerformed u b e src i) s = .next t ∧ (t.bank u b).fault = some g ∧ g.code = f.code ∧ g.eng = e ∧ g.da = f.da ∧ g.db = f.db
          ∧ (∀ r, t.row u b r = s.row u b r) ∧ SameMem s t))
    ∧ (∀ v s1, e = 3 → (x.kind = .pusha ∨ x.kind = .pushb) →
      let f := if x.kind = .pusha then 0 else 1
      i = x.done.length → (k.dfifo f).rows.length < 16 → s.readRow u b 3 c.epoch row = .ok (v, s1) →
      ∃ t, exec (.pushRowAppend u b src) s = .next t ∧ OnlyUnit s t u ∧ { t with units := s.units } = s ∧ RowPerformed k (t.bank u b) 3 i c x
        ∧ (t.bank u b).dfifo f = { k.dfifo f with rows := (k.dfifo f).rows ++ [{ row := s.row u b row, eng := 3, epoch := c.epoch }] }
        ∧ (∀ g, g ≠ f → (t.bank u b).dfifo g = k.dfifo g) ∧ ∀ r, t.row u b r = s.row u b r)

/-- R127, R194, R218, R220, R221, R223, R224. -/
def Obligations.GlobalRowsAndCopyRows : Prop :=
  Sys2Proof.Spec.GlobalRowsHoldTheirElements ∧ Sys2Proof.Spec.CopyRowsPerform

/-- R366, R369, R370: rows of an `XSEND`, its arrival, and the return of a permit. -/
def Obligations.CrossingsDeliverAndReturnSlots : Prop :=
  (∀ (u b src i : Nat) (s s2 : State) (c : Cmd) (x slot rows : Nat) (mb : Bool) (ly : BitVec 15) (q : Chk) (done : List Nat) (y : Tensor) (cr : Crossing),
    (s.bank u b).cmd 5 src = some c → c.op = .xsend x slot mb ly q rows done → s.tensor q.tid = some y → get none s.crossings x = some cr →
    i < rows → i ∉ done → s.mayPerform u b 5 c = true → s.arrived u b 5 c i = true → (s.bank u b).wrote src i = false →
    (s.lend u b src i).xsendRow u b c.epoch y q.box cr slot i = .ok s2 →
    ∃ t, exec (.copyRowPerformed u b 5 src i) s = .next t ∧ OnlyUnit s t u ∧ SameMem s2 t ∧ t.crossings = s.crossings
      ∧ (t.bank u b).cmd 5 src = some { c with op := .xsend x slot mb ly q rows (i :: done) } ∧ (∀ r, t.row u b r = s.row u b r)
      ∧ (∀ z, s.tensor cr.tid = some z → z.id = cr.tid → ∃ z', t.tensor cr.tid = some z' ∧ z'.stamp slot = {} ∧ (z'.stamp slot).pcore = 0x3FF)
      ∧ (∀ v s1 z T S B, (s.lend u b src i).readRun u b 5 c.epoch y (rowCoords y.fmt q.box (startPoint y.fmt q.box.lo) i) = .ok (v, s1) →
          s1.tensor cr.tid = some z → s1.translate z slot .none true = .frame T S B →
          z.tiled = true → z.ndim = 2 → z.order.take 2 = [0, 1] → rows ≤ cr.rows →
          dim z.tsh 0 = rowElems z.fmt → dim z.ext 0 = rowElems z.fmt → dim z.tsh 1 = cr.rows →
          let line := slot * cr.rows + i
          let A := physAddr T S B
          let w := elemBits z.fmt
          (∀ m, m < rowElems z.fmt → z.loc [m, line, 0, 0, 0, 0] = (slot, 4096 * i + m * w)
            ∧ t.memBits A (4096 * i + m * w) w = v.data.toNat / 2 ^ (w * m) % 2 ^ w)
          ∧ OnlyBytes s t (A + 512 * i) 512))
  ∧ (∀ (u b src : Nat) (s : State) (c : Cmd) (x slot rows : Nat) (mb : Bool) (ly : BitVec 15) (q : Chk) (done : List Nat) (cr : Crossing),
    let k := s.bank u b
    k.cmd 5 src = some c → c.op = .xsend x slot mb ly q rows done → get none s.crossings x = some cr → rows ≤ done.length →
    s.mayPerform u b 5 c = true →
    let K := s.bank cr.rcoreU cr.rbank
    let r := cr.aw.toNat / 512
    let counted := fun (t : State) => ∃ cr', get none t.crossings x = some cr' ∧ (cr'.slot slot).st = .arrived ∧ (∀ n, n ≠ slot → cr'.slot n = cr.slot n)
      ∧ cr'.arr = cr.arr ++ [(slot, mb, ly, rows)] ∧ cr'.cnt = cr.cnt ∧ (∀ n, n ≠ x → get none t.crossings n = get none s.crossings n)
      ∧ Left k (t.bank u b) 5 src ∧ SameMem s t
    (cr.aw = 0xFFFFFFFF ∨ K.job = none →
      ∃ t, exec (.xsendArrival u b src) s = .next t ∧ counted t ∧ (t.bank cr.rcoreU cr.rbank).landings = K.landings)
    ∧ (cr.aw ≠ 0xFFFFFFFF → K.job ≠ none → r < K.rows → s.armed cr.rcoreU cr.rbank (cr.aw.toNat / 16) = true →
      (arrField (s.row cr.rcoreU cr.rbank r) (cr.aw.toNat / 16 % 32) 3).getLsbD 18 = true →
      ∃ t, exec (.xsendArrival u b src) s = .next t ∧ counted t
        ∧ (t.bank cr.rcoreU cr.rbank).landings = K.landings ++ [{ addr := cr.aw, n := cr.rows * 512, eng := none, epoch := 0 }])
    ∧ (cr.aw ≠ 0xFFFFFFFF → K.job ≠ none → (r < K.rows → s.armed cr.rcoreU cr.rbank (cr.aw.toNat / 16) = true →
        (arrField (s.row cr.rcoreU cr.rbank r) (cr.aw.toNat / 16 % 32) 3).getLsbD 18 = false) →
      k.fault = none →
      ∃ t g, exec (.xsendArrival u b src) s = .next t ∧ counted t ∧ (t.bank u b).fault = some g ∧ g.code = 0x0007 ∧ g.eng = 5
        ∧ g.da = q.form.setWidth 64 ∧ (t.bank cr.rcoreU cr.rbank).landings = K.landings))
  ∧ (∀ (x n : Nat) (s : State) (c : Crossing) (f : Frame) (y : Tensor),
    let h := formHandle (c.slot n).form
    let old : View := get {} s.views h
    let lines : Box := { lo := [0, n * c.rows, 0, 0, 0, 0], hi := [dim y.ext 0, (n + 1) * c.rows, 1, 1, 1, 1] }
    get none s.crossings x = some c → (c.slot n).st = .releasing → (c.slot n).frame = some f → s.tensor c.tid = some y →
    old.retired = false → old.gen ≠ 4095 →
    ∃ t c' z, exec (.permitReturn x n) s = .next t
      ∧ { t with crossings := s.crossings, views := s.views, tensors := s.tensors, free := s.free } = s
      ∧ get none t.crossings x = some c' ∧ c'.cnt = c.cnt + 1 ∧ c'.arr = c.arr ∧ (∀ m, m ≠ n → c'.slot m = c.slot m)
      ∧ c'.slot n = { st := .free, form := BitVec.ofNat 32 ((old.gen.toNat + 1) * 2 ^ 20 + h), frame := none }
      ∧ (∀ m, m ≠ x → get none t.crossings m = get none s.crossings m)
      ∧ get {} t.views h = { used := true, gen := old.gen + 1, part := c.part, tid := c.tid, holder := .system, box := lines }
      ∧ (∀ m, m ≠ h → get {} t.views m = get {} s.views m)
      ∧ t.tensor c.tid = some z ∧ (z.tile n).v = true ∧ (z.tile n).cov = 1 ∧ (z.tile n).tier = BitVec.ofNat 2 f.tier
      ∧ (z.tile n).stack = BitVec.ofNat 5 f.stack ∧ (z.tile n).fbase = BitVec.ofNat 41 f.base ∧ (∀ m, m ≠ n → z.tile m = y.tile m)
      ∧ ∀ i, i ≠ c.tid → t.tensor i = s.tensor i)
  ∧ (∀ (x n g : Nat) (s : State) (c : Crossing) (f : Frame) (y : Tensor),
    let h := formHandle (c.slot n).form
    let old : View := get {} s.views h
    let new : View := get {} s.views g
    let lines : Box := { lo := [0, n * c.rows, 0, 0, 0, 0], hi := [dim y.ext 0, (n + 1) * c.rows, 1, 1, 1, 1] }
    get none s.crossings x = some c → (c.slot n).st = .releasing → (c.slot n).frame = some f → s.tensor c.tid = some y →
    old.used = true → old.gen = 4095 → s.takeHandle c.part = some g →
    g ≠ h ∧ 1 ≤ g ∧ g < 2 ^ 20 ∧ new.used = false ∧ new.retired = false ∧ s.handles c.part < s.handleQuota c.part
    ∧ ∃ t c', exec (.permitReturn x n) s = .next t ∧ get none t.crossings x = some c' ∧ c'.cnt = c.cnt + 1
      ∧ (c'.slot n).st = .free ∧ formHandle (c'.slot n).form = g ∧ (∀ m, m ≠ n → c'.slot m = c.slot m)
      ∧ (let z : View := get {} t.views h
         z.used = false ∧ z.retired = true ∧ z.gen = 4095)
      ∧ (new.gen ≠ 4095 → (c'.slot n).form = BitVec.ofNat 32 ((new.gen.toNat + 1) * 2 ^ 20 + g)
          ∧ get {} t.views g = { used := true, gen := new.gen + 1, part := c.part, tid := c.tid, holder := .system, box := lines })
      ∧ ∀ m, m ≠ h → m ≠ g → get {} t.views m = get {} s.views m)
  ∧ (∀ (x n : Nat) (s : State) (c : Crossing), get none s.crossings x = some c →
    ((c.slot n).st ≠ .releasing ∨ (c.slot n).frame = none
      ∨ ((get {} s.views (formHandle (c.slot n).form) : View).gen = 4095 ∧ s.handleQuota c.part ≤ s.handles c.part)) →
    exec (.permitReturn x n) s = .next s)

namespace Sys2Proof.Spec

/-- The counts of the bins after rows with these indices (R231). -/
def binCounts (nb sp : Nat) (cap : Nat → Nat) : (Nat → Nat) → List Nat → Nat → Nat
  | c, [] => c
  | c, x :: xs =>
    let b := if nb ≤ x then sp else x % 256
    let d := if b ≠ sp ∧ cap b ≤ c b then sp else b
    binCounts nb sp cap (fun i => if i = d then min (c i + 1) (2 ^ 32 - 1) else c i) xs

/-- Iteration count of level `l` at ordinal `i` of a nest with these bounds; level 0 fastest (R226). -/
def nestDigit (bounds : List Nat) (l i : Nat) : Nat := i / (bounds.take l).foldl (· * ·) 1 % bounds.getD l 0

end Sys2Proof.Spec

/-- R230, R231: the bins. -/
def Sys2Proof.Spec.BinCommandsPerform : Prop :=
  (∀ (u b e : Nat) (s s1 : State) (c : Cmd) (x : CopyCmd) (rs : List Row),
    let k := s.bank u b
    let ln := fun (r j : Nat) => lane (s.row u b (x.pad.toNat / 512 + r)).data j
    let ok := ln 4 0 ≠ 0 ∧ (ln 4 0).toNat ≤ 256 ∧ (ln 4 1).toNat < (ln 4 0).toNat ∧ ∀ j, 2 ≤ j → j < 128 → ln 4 j = 0
    (k.queue e).find? Cmd.isBincfg = some c → c.op = .copy x → s.mayPerform u b e c = true →
    s.readRows u b e c.epoch (x.pad.toNat / 512) 5 = .ok (rs, s1) →
    (ok → ∃ t, exec (.bincfgPerformed u b e) s = .next t ∧ OnlyUnit s t u ∧ { t with units := s.units } = s ∧ Left k (t.bank u b) e c.seq
      ∧ { t.bank u b with seqr := k.seqr, cmds := k.cmds, departed := k.departed, missed := k.missed } = k ∧ (t.core u).pad = (s.core u).pad
      ∧ (∀ f, f ≠ e → (t.bank u b).sq f = k.sq f)
      ∧ { (t.bank u b).sq e with base := (k.sq e).base, cap := (k.sq e).cap, bcnt := (k.sq e).bcnt } = { k.sq e with nb := ln 4 0, sp := ln 4 1 }
      ∧ ∀ i, i < 256 → get 0 ((t.bank u b).sq e).base i = ln (i / 128) (i % 128) ∧ get 0 ((t.bank u b).sq e).cap i = ln (2 + i / 128) (i % 128)
          ∧ get 0 ((t.bank u b).sq e).bcnt i = 0)
    ∧ (¬ ok → k.fault = none → ∃ t g, exec (.bincfgPerformed u b e) s = .next t ∧ (t.bank u b).fault = some g ∧ g.code = 0x0001 ∧ g.eng = e
      ∧ g.da = k.iword e c.pc ∧ (t.bank u b).seqr = k.seqr))
  ∧ (∀ (u b : Nat) (s s1 : State) (c : Cmd) (x : CopyCmd) (q : Chk) (y : Tensor) (r : SeqRegs) (n : Nat),
    let k := s.bank u b
    let idx := (List.range x.n).map (fun j => (lane (s.row u b (x.idx.toNat / 512 + j / 128)).data (j % 128)).toNat)
    (k.queue 4).find? Cmd.isScatb = some c → c.op = .copy x → x.chk = some q → s.tensor q.tid = some y → s.mayPerform u b 4 c = true → s.allArrived u b 4 c = true →
    s.scatRows u b c x y q.box (k.sq 4) 0 x.n = .ok (s1, r, n) →
    ∃ t, exec (.scatbPerformed u b) s = .next t ∧ OnlyUnit s t u ∧ SameMem s1 t ∧ Left k (t.bank u b) 4 c.seq
      ∧ (t.core u).pad = (s.core u).pad ∧ (∀ f, f ≠ 4 → (t.bank u b).sq f = k.sq f)
      ∧ { t.bank u b with seqr := k.seqr, cmds := k.cmds, departed := k.departed, missed := k.missed, landings := k.landings,
                              ttags := k.ttags } = k
      ∧ { (t.bank u b).sq 4 with bcnt := (k.sq 4).bcnt } = k.sq 4
      ∧ (∀ i, (get 0 ((t.bank u b).sq 4).bcnt i : Word).toNat = binCounts (k.sq 4).nb.toNat (k.sq 4).sp.toNat
          (fun i => (get 0 (k.sq 4).cap i : Word).toNat) (fun i => (get 0 (k.sq 4).bcnt i : Word).toNat) idx i)
      ∧ (t.bank u b).landings = k.landings ++ (match x.tag with
          | none => []
          | some a => if n = 0 then [] else [{ addr := a, n := 512 * n, eng := some 4, epoch := c.epoch }])
      ∧ (0 < x.n →
          let i := x.n - 1
          let sq := k.sq 4
          let cap := fun (j : Nat) => (get 0 sq.cap j : Word).toNat
          let count := binCounts sq.nb.toNat sq.sp.toNat cap (fun j => (get 0 sq.bcnt j : Word).toNat) (idx.take i)
          let b0 := if sq.nb.toNat ≤ idx.getD i 0 then sq.sp.toNat else idx.getD i 0 % 256
          let bin := if b0 ≠ sq.sp.toNat ∧ cap b0 ≤ count b0 then sq.sp.toNat else b0
          let line := ((get 0 sq.base bin : Word).toNat + count bin) % 2 ^ 32
          let x0 := if 5 ≤ y.fmt ∧ y.fmt ≤ 7 then dim x.point 0 / 32 * 32 else dim x.point 0
          let el := fun (m : Nat) => [x0 + m, line, dim x.point 2, dim x.point 3, dim x.point 4, dim x.point 5]
          count bin < cap bin → x.point.length = 6 → q.box.has (el 0) = true → x0 + rowElems y.fmt ≤ dim q.box.hi 0 →
          ∃ s2 s3 : State, s2.writeRun u b 4 c.epoch y ((List.range (rowElems y.fmt)).map el) (s.row u b (x.pad.toNat / 512 + i)) = Except.ok s3 ∧ SameMem s3 t))

/-- R222, R226, R393: reductions and nests. -/
def Sys2Proof.Spec.ReductionsAndNestsProceed : Prop :=
  (∀ (u b e src : Nat) (s : State) (c : Cmd) (x : CopyCmd) (ta : Tensor) (tb : Option Tensor) (ps : List (List Nat)),
    let k := s.bank u b
    k.cmd e src = some c → c.op = .copy x → x.kind = .reduce → s.redViews x = some (ta, tb, ps) → s.mayPerform u b e c = true →
    (∀ n vs s1, ta.redPoints n ps ≠ [] → (∀ p ∈ x.parts, p.1 ≠ n) → s.allArrived u b e c = true → s.products u b e c.epoch ta tb (ta.redPoints n ps) = .ok (vs, s1) →
      ∃ t, exec (.reduceTilePartial u b e src n) s = .next t ∧ OnlyUnit s t u ∧ { t with units := s.units } = s ∧ (t.core u).pad = (s.core u).pad
        ∧ { t.bank u b with cmds := k.cmds, ttags := k.ttags } = k
        ∧ (t.bank u b).cmd e src = some { c with op := .copy { x with parts :=
            x.parts ++ [(n, BitVec.ofNat 32 (partialOf (vs.map (fun v => v.1))), vs.any (fun v => v.2), exactSum (vs.map (fun v => v.1)))] } })
    ∧ (∀ s1, ((ps.map ta.redTile).eraseDups).length = x.parts.length →
      let sorted := sortBy (fun p q => decide (p.1 ≤ q.1)) x.parts
      let row := x.pad.toNat / 512
      let sum := firstSum (sorted.map (fun p => p.2.1.toNat))
      let res := match exactSum (sorted.map (fun p => p.2.2.2)) with
        | .inf neg => if neg then 0xFF800000 else 0x7F800000
        | .fin _ 0 _ => if sum = 0x80000000 then 0 else sum
        | _ => sum
      let out : Row := { data := BitVec.ofNat 4096 res, poison := if sorted.any (fun p => p.2.2.1) then 1 else 0 }
      s.writeRow u b e c.epoch row out = .ok s1 →
      ∃ t, exec (.reducePerformed u b e src) s = .next t ∧ OnlyUnit s t u ∧ { t with units := s.units } = s ∧ Left k (t.bank u b) e src
        ∧ { t.bank u b with cmds := k.cmds, departed := k.departed, missed := k.missed, landings := k.landings } = k
        ∧ (lane (t.row u b row).data 0).toNat = res % 2 ^ 32
        ∧ (res < 2 ^ 32 → ∀ j, 1 ≤ j → j < 128 → lane (t.row u b row).data j = 0)
        ∧ (∀ g, (t.row u b row).poison.getLsbD g = (decide (g = 0) && x.parts.any (fun p => p.2.2.1)))
        ∧ (∀ r, r ≠ row → t.row u b r = s.row u b r)))
  ∧ (∀ (u b e : Nat) (s : State) (n : Nest),
    let k := s.bank u b
    let at_ := n.tmpl.pad.toNat / 512 + (if n.tmpl.kind = .reduce then n.k else n.k * n.tmpl.n)
    let c := n.instance_ n.k
    k.nest e = some n → n.gen = true →
    (n.total ≤ n.k → ∃ t, exec (.nestInstanceGenerate u b e) s = .next t ∧ (t.bank u b).nest e = none ∧ { t with units := s.units } = s)
    ∧ (n.k < n.total → (s.core u).freeze = 0 →
      placesOf false (putBefore n.seq { seq := k.seq, pc := n.pc, epoch := n.epoch, op := .copy c } (k.queue e)) ≤ 8 → n.n ≤ n.l.length →
      (2 ^ 32 ≤ 512 * at_ → k.fault = none →
        ∃ t g, exec (.nestInstanceGenerate u b e) s = .next t ∧ (t.bank u b).fault = some g ∧ g.code = 0x0003 ∧ g.eng = e) ∧ (512 * at_ < 2 ^ 32 →
      (c.nestK = n.k + 1 ∧ c.kind = n.tmpl.kind ∧ c.n = n.tmpl.n ∧ c.form = n.tmpl.form ∧ c.idx = n.tmpl.idx ∧ c.tag = n.tmpl.tag ∧ c.pad.toNat = 512 * at_
        ∧ c.first = (if n.tmpl.kind = .gath then n.k * n.tmpl.n else 0)
        ∧ ∀ d, d < 6 → c.coord.getD d 0 = n.x.getD d 0 + ((List.range n.n).map (fun l =>
            BitVec.ofNat 32 (nestDigit n.bounds l n.k) * get 0 n.s (6 * l + d))).foldr (· + ·) 0)
      ∧ (∀ c1, s.copyCheck u b e (k.iword e n.pc) c = .ok c1 →
        ∃ t, exec (.nestInstanceGenerate u b e) s = .next t ∧ OnlyUnit s t u ∧ { t with units := s.units } = s
          ∧ { t.bank u b with cmds := k.cmds, nests := k.nests, seq := k.seq } = k ∧ (t.bank u b).seq = k.seq + 1
          ∧ { seq := k.seq, pc := n.pc, epoch := n.epoch, op := .copy c1 } ∈ (t.bank u b).queue e
          ∧ (∀ q ∈ k.queue e, q.isNest = false → q ∈ (t.bank u b).queue e) ∧ (∀ f, f ≠ e → (t.bank u b).queue f = k.queue f)
          ∧ (t.bank u b).nest e = (if n.k + 1 < n.total then some { n with k := n.k + 1 } else none))
      ∧ (∀ f, k.fault = none → s.copyCheck u b e (k.iword e n.pc) c = .error f →
        ∃ t g, exec (.nestInstanceGenerate u b e) s = .next t ∧ (t.bank u b).fault = some g ∧ g.code = f.code ∧ g.eng = e ∧ g.precise = false
          ∧ g.da = f.da ∧ (t.bank u b).cmds = k.cmds))))

/-- R136, R222, R226, R229 to R231, R393. -/
def Obligations.BinsReductionsAndNests : Prop :=
  Sys2Proof.Spec.BinCommandsPerform ∧ Sys2Proof.Spec.ReductionsAndNestsProceed

namespace Sys2Proof.Spec

/-! ### Views, elision, jobs, phases (14 R321 to R346; 08 R197 to R212; 13 R308 to R317; 16 R353) -/

/-- The answer of the coverage unit stands with the request: made, with this result and this form (R328). -/
def Answered (k : Bank) (q : ViewReq) (r : Nat) (out : Word) : Prop :=
  ∃ p, k.view = some p ∧ p.moved = true ∧ p.result = r ∧ p.out = out ∧ p.op = q.op ∧ p.form = q.form ∧ p.d = q.d ∧ p.ea = q.ea

/-- From `s` to `t` only the view table, with the Crossing slots and the tiles to elide that follow from it, the free choices and bank `b` of unit `u` differ, and of that bank only the request and the views that the job holds. -/
def ViewTableOnly (s t : State) (u b : Nat) : Prop :=
  { t with units := s.units, views := s.views, free := s.free, crossings := s.crossings, uncovs := s.uncovs } = s ∧ OnlyUnit s t u
    ∧ { t.bank u b with view := (s.bank u b).view, job := (s.bank u b).job } = s.bank u b
    ∧ ∀ j, (s.bank u b).job = some j → ∃ h, (t.bank u b).job = some { j with held := h }

/-- From `s` to `t` bank `b` of unit `u` has become free, and the climb monitors are told of it (R382): no other bank and no other part of another core differs, but that a climbable job of a partition that holds the unit is to be evaluated. -/
def WokenBanks (s t : State) (u b : Nat) : Prop :=
  (∀ v, v ≠ u → { t.core v with b0 := (s.core v).b0, b1 := (s.core v).b1 } = s.core v)
    ∧ ∀ v c, c < 2 → v ≠ u ∨ c ≠ b →
        (∃ f : Bool, t.bank v c = (s.bank v c).onJob (fun j => { j with eval := j.eval || f }))
        ∧ ∀ j, (s.bank v c).job = some j → j.climb = true → s.holds j.part u = true → ∃ j', (t.bank v c).job = some j' ∧ j'.eval = true

end Sys2Proof.Spec

/-- R323, R327 to R334: the move of a view instruction and its answer. That a view move waits while the control stream has an unperformed access is the model's choice (log entry 44: R341 leaves open where a view move falls), and so is which bound and which REASON a box that breaks out reports where several apply (log entry 105). -/
def Obligations.ViewMovesAndAnswers : Prop :=
  (∀ (u b : Nat) (s : State) (q : ViewReq) (j : Job),
    let k := s.bank u b
    let h := formHandle q.form
    let inside := fun (v : View) => q.box.empty = true ∨ ∀ d, d < 6 → dim v.box.lo d ≤ dim q.box.lo d ∧ dim q.box.hi d ≤ dim v.box.hi d
    k.view = some q → q.moved = false → k.job = some j →
    ((∃ c ∈ k.queue 0, c.isPush = false) → exec (.viewMove u b) s = .next s) ∧ ((∀ c ∈ k.queue 0, c.isPush = true) →
    (s.viewOf j.part q.form = none → k.fault = none →
      ∃ t f, exec (.viewMove u b) s = .next t ∧ t.views = s.views ∧ (t.bank u b).view = none ∧ (t.bank u b).fault = some f ∧ f.code = 0x0009
        ∧ f.eng = 0 ∧ f.precise = true ∧ f.da = q.form.setWidth 64)
    ∧ (∀ v y, s.viewOf j.part q.form = some v → s.tensor v.tid = some y →
      (q.op = 0 → inside v → (q.rights.getLsbD 0 = true → v.r = true) → (q.rights.getLsbD 1 = true → v.w = true) →
        (s.handleQuota j.part ≤ s.handles j.part → ∃ t, exec (.viewMove u b) s = .next t ∧ ViewTableOnly s t u b ∧ Answered (t.bank u b) q 1 0 ∧ t.views = s.views)
        ∧ (∀ n, s.takeHandle j.part = some n →
          1 ≤ n ∧ n < 2 ^ 20 ∧ (get {} s.views n : View).used = false ∧ (get {} s.views n : View).retired = false
          ∧ (q.pers = false → 32 ≤ (s.jobViews j.jid).length →
              ∃ t, exec (.viewMove u b) s = .next t ∧ ViewTableOnly s t u b ∧ Answered (t.bank u b) q 2 0 ∧ t.views = s.views)
          ∧ (q.pers = true ∨ (s.jobViews j.jid).length < 32 →
              let g0 : BitVec 12 := (get {} s.views n : View).gen
              let g : BitVec 12 := if g0 = 4095 then 1 else g0 + 1
              let holder := if q.pers then Holder.persistent else .job j.jid
              ∃ t, exec (.viewMove u b) s = .next t ∧ ViewTableOnly s t u b ∧ Answered (t.bank u b) q 0 (BitVec.ofNat 32 (g.toNat * 2 ^ 20 + n))
                ∧ get {} t.views n = { used := true, gen := g, part := v.part, tid := v.tid, box := q.box, r := q.rights.getLsbD 0, w := q.rights.getLsbD 1, holder := holder }
                ∧ (∀ m, m ≠ n → get {} t.views m = get {} s.views m) ∧ t.crossings = s.crossings)))
      ∧ (q.op = 1 → inside v → ∃ t, exec (.viewMove u b) s = .next t ∧ ViewTableOnly s t u b ∧ Answered (t.bank u b) q 0 q.form
          ∧ get {} t.views h = { v with box := q.box } ∧ ∀ m, m ≠ h → get {} t.views m = get {} s.views m)
      ∧ (q.op = 2 → v.holder = .system → ∃ t, exec (.viewMove u b) s = .next t ∧ ViewTableOnly s t u b ∧ Answered (t.bank u b) q 3 q.form ∧ t.views = s.views)
      ∧ (q.op = 2 → v.holder ≠ .system → ∃ t, exec (.viewMove u b) s = .next t ∧ ViewTableOnly s t u b ∧ Answered (t.bank u b) q 0 q.form
          ∧ get {} t.views h = { gen := v.gen, retired := decide (v.gen = 4095), part := v.part } ∧ ∀ m, m ≠ h → get {} t.views m = get {} s.views m)
      ∧ (q.op = 3 → ∃ t p, exec (.viewMove u b) s = .next t ∧ ViewTableOnly s t u b ∧ t.views = s.views ∧ (t.bank u b).view = some p ∧ p.moved = true ∧ p.result = 0
          ∧ (v.box.empty = false → ∀ d, d < 6 → dim v.box.lo d < 2 ^ 32 → dim v.box.hi d < 2 ^ 32 →
              leNat ((p.record.drop (4 * d)).take 4) = dim v.box.lo d ∧ leNat ((p.record.drop (24 + 4 * d)).take 4) = dim v.box.hi d)
          ∧ (v.box.empty = true → p.record.take 48 = List.replicate 48 0)
          ∧ p.record.length = 64 ∧ p.record.getD 48 0 = BitVec.ofNat 8 ((if v.holder = .persistent then 1 else 0) + (if v.box.empty = true then 2 else 0))
          ∧ p.record.getD 49 0 = BitVec.ofNat 8 (v.r.toNat + 2 * v.w.toNat) ∧ leNat ((p.record.drop 50).take 2) = 0
          ∧ leNat ((p.record.drop 52).take 4) = (if y.covered = true
              then ((List.range y.tileCount).filter (fun n => decide (s.covCount y n ≠ 0))).length else 2 ^ 32 - 1) % 2 ^ 32
          ∧ leNat ((p.record.drop 56).take 3) = y.id % 2 ^ 24 ∧ p.record.drop 59 = List.replicate 5 0)
      ∧ (k.fault = none → (q.op = 0 ∨ q.op = 1) → ∀ d, d < 6 → q.box.empty = false →
          (∀ c, c < d → dim v.box.lo c ≤ dim q.box.lo c ∧ dim q.box.hi c ≤ dim v.box.hi c) → (dim q.box.lo d < dim v.box.lo d ∨ dim v.box.hi d < dim q.box.hi d) →
          let x := if dim q.box.lo d < dim v.box.lo d then dim q.box.lo d else dim q.box.hi d
          ∃ t f, exec (.viewMove u b) s = .next t ∧ t.views = s.views ∧ (t.bank u b).fault = some f ∧ f.code = 0x0008 ∧ f.eng = 0 ∧ f.precise = true
            ∧ f.da = q.form.setWidth 64 ∧ f.db = BitVec.ofNat 64 (d * 2 ^ 48 + x % 2 ^ 48))
      ∧ (k.fault = none → q.op = 0 → inside v → (q.rights.getLsbD 0 = true ∧ v.r = false) ∨ (q.rights.getLsbD 1 = true ∧ v.w = false) →
          ∃ t f, exec (.viewMove u b) s = .next t ∧ t.views = s.views ∧ (t.bank u b).fault = some f ∧ f.code = 0x0008 ∧ f.da = q.form.setWidth 64
            ∧ f.db = BitVec.ofNat 64 (2 ^ 56 + q.rights.toNat)))))
  ∧ (∀ (u b : Nat) (s : State) (q : ViewReq),
    let k := s.bank u b
    let form := if q.op = 0 then q.out else q.form
    k.view = some q → q.moved = true → (s.core u).freeze = 0 →
    ∃ t, exec (.viewAnswer u b) s = .next t ∧ OnlyUnit s t u ∧ { t with units := s.units } = s ∧ (t.core u).pad = (s.core u).pad
      ∧ { t.bank u b with view := k.view, streams := k.streams, csr := k.csr, s := k.s, sdm := k.sdm } = k
      ∧ (t.bank u b).view = none ∧ (t.bank u b).csr = { k.csr with viewst := BitVec.ofNat 64 (q.result * 2 ^ 32 + form.toNat) }
      ∧ (∀ r, r ≠ 30 → r ≠ 31 → (t.bank u b).rdS r = if q.op = 0 ∧ r = BitVec.ofNat 5 q.d ∧ r ≠ 0 then q.out.setWidth 64 else k.rdS r)
      ∧ (q.op ≠ 3 → (t.bank u b).sdm = k.sdm) ∧ (q.op = 3 → ∀ i v, q.record[i]? = some v → rdByte (t.bank u b).sdm (q.ea.toNat + i) = v)
      ∧ (∀ a, a < q.ea.toNat ∨ q.ea.toNat + q.record.length ≤ a → rdByte (t.bank u b).sdm a = rdByte k.sdm a)
      ∧ ((t.bank u b).stream 0).phase = .running ∧ QueueAs ((t.bank u b).stream 0) (k.advanced 0 none) false
      ∧ ∀ e, e ≠ 0 → (t.bank u b).stream e = k.stream e)

/-- R338, R339, R344, R346: elision, scrub, deletion. The deletion of a freed plain tensor's descriptor behind its last command is the model's choice (log entry 69); no rule says when it goes. -/
def Obligations.ElisionScrubsAndDeletes : Prop :=
  (∀ (tid n : Nat) (s : State) (y : Tensor), s.tensor tid = some y → y.id = tid →
    let free := y.covered = true ∧ (y.tile n).cov ≠ 2 ∧ s.covCount y n = 0
    let first := ∀ x ∈ s.uncovs, x.tid = tid → n ∈ x.tiles → ∀ m ∈ x.tiles, n ≤ m
    (n < y.tileCount → free → (y.tile n).mf = false → s.tileBusy y n = false → first →
      ∃ t z, exec (.elideMove tid n) s = .next t ∧ t.tensor tid = some z
        ∧ z.tile n = { y.tile n with v := false, cov := 2, d := false, fbase := 0 } ∧ (∀ m, m ≠ n → z.tile m = y.tile m)
        ∧ (∀ i, i ≠ tid → t.tensor i = s.tensor i) ∧ (∀ u, t.look u tid n = none) ∧ (∀ u b, t.bank u b = s.bank u b) ∧ t.views = s.views
        ∧ SameMem s t
        ∧ (∀ x ∈ t.uncovs, x.tid = tid → n ∉ x.tiles) ∧ (∀ i, ∀ m ∈ (t.die i).moves, m.started = true → m.tid = tid → m.tile ≠ n)
        ∧ ((y.tile n).v = true → (y.tile n).tier ≠ 3 →
            let f : Frame := { tier := (y.tile n).tier.toNat, stack := (y.tile n).stack.toNat, fsz := y.fsz, base := (y.tile n).fbase.toNat, part := y.part }
            t.scrubs = s.scrubs ++ [{ frame := f, slot := s.slotOf tid n }] ∧ ∀ g ∈ t.frames, g.same f = false)
        ∧ ((y.tile n).v = false ∨ (y.tile n).tier = 3 → t.scrubs = s.scrubs))
    ∧ (y.tileCount ≤ n ∨ ¬ free ∨ (y.tile n).mf = true ∨ s.tileBusy y n = true ∨ ¬ first → exec (.elideMove tid n) s = .next s))
  ∧ (∀ (i : Nat) (s : State) (x : Scrub), s.scrubs[i]? = some x →
    let n := 4096 * 4 ^ x.frame.fsz
    let e := get {} s.stage2 (s2Key x.frame.part x.frame.fsz (x.frame.base * 4096 / n))
    let room := ∀ q w k, s.part x.frame.part = some q → q.dirty = some (w, k) → q.dlTail + q.dlPend.length < 2 ^ k + q.dlHead
    let under := stage2On x.frame.part = true ∧ x.frame.tier ≠ 3
    let here := e.v = true ∧ e.tier.toNat = x.frame.tier ∧ e.stack.toNat = x.frame.stack
      ∧ stackHolds x.frame.tier x.frame.stack (e.mbase.toNat * 4096) n = true
    (¬ room → under → here → e.d = false → exec (.frameScrubDone i) s = .next s) ∧ (room →
    ∃ t, exec (.frameScrubDone i) s = .next t
      ∧ (under → ¬ here → SameMem s t ∧ t.poison = s.poison ∧ t.stage2 = s.stage2)
      ∧ (¬ under ∨ here →
        let a := physAddr x.frame.tier x.frame.stack ((if stage2On x.frame.part = true ∧ x.frame.tier ≠ 3 then e.mbase.toNat else x.frame.base) * 4096)
        (∀ p, a ≤ p → p < a + n → rdByte t.mem p = 0) ∧ OnlyBytes s t a n
        ∧ (∀ g, a / 16 ≤ g → g < (a + n) / 16 → get false t.poison g = false) ∧ ∀ g, g < a / 16 ∨ (a + n) / 16 ≤ g → get false t.poison g = get false s.poison g)
      ∧ t.scrubs = s.scrubs.eraseIdx i ∧ t.units = s.units ∧ t.views = s.views ∧ t.tensors = s.tensors
      ∧ (x.slot = none → t.frames = s.frames ∧ t.crossings = s.crossings)
      ∧ (∀ c m cr, x.slot = some (c, m) → get none s.crossings c = some cr →
          t.frames = s.frames ++ [x.frame] ∧ ∃ cr', get none t.crossings c = some cr' ∧ cr'.slot m = { cr.slot m with frame := some x.frame }
            ∧ ∀ o, o ≠ m → cr'.slot o = cr.slot o)))
  ∧ (∀ (tid : Nat) (s : State) (y : Tensor), s.tensor tid = some y → y.id = tid →
    let gone := y.covered = true ∧ (∀ v ∈ s.views, v.2.used = true → v.2.tid ≠ tid) ∧ (∀ n, n < y.tileCount → (y.tile n).cov = 2) ∧ s.slotOf tid 0 = none
    (gone → s.tensorBusy tid = false →
      ∃ t, exec (.descriptorDelete tid) s = .next t ∧ { t with tensors := s.tensors } = s ∧ t.tensor tid = none ∧ ∀ i, i ≠ tid → t.tensor i = s.tensor i)
    ∧ (¬ gone → y.freed = true → s.tensorBusy tid = false →
      ∃ t, exec (.descriptorDelete tid) s = .next t ∧ t.tensor tid = none ∧ (∀ i, i ≠ tid → t.tensor i = s.tensor i) ∧ t.views = s.views ∧ SameMem s t)
    ∧ (s.tensorBusy tid = true ∨ (¬ gone ∧ y.freed = false) → exec (.descriptorDelete tid) s = .next s))

/-- R107, R197 to R201, R308, R353: the end of a job, the static pause, the tick interrupt, freezes. -/
def Obligations.JobsEndPauseFreezeAndTick : Prop :=
  (∀ (u b : Nat) (s : State) (j : Job),
    let k := s.bank u b
    k.job = some j →
    (b < 2 → j.status = .ready → (s.core u).freeze = 0 → (∀ e ∈ j.engines, (k.stream e).phase = .joined) → (∀ p ∈ k.cmds, p.2 = []) → (∀ p ∈ k.nests, p.2 = none) → s.doneMiss j = none →
      (∀ q w n, s.part j.part = some q → q.dirty = some (w, n) → q.dlTail + q.dlPend.length + 4 ≤ 2 ^ n + q.dlHead) →
      ∃ t, exec (.jobEnd u b) s = .next t ∧ t.bank u b = {} ∧ WokenBanks s t u b
        ∧ (t.cluster (clusterOf u b)).leaseOf (requester u b) = .none
        ∧ (∀ h, (get {} s.views h : View).used = true → (get {} s.views h : View).holder = .job j.jid → (get {} t.views h : View).used = false)
        ∧ (∀ i p, s.taskOf j = some i → get none s.packets j.packet = some p → ∃ p', get none t.packets j.packet = some p'
            ∧ ∀ m, p'.tasks[m]? = (p.tasks[m]?).map (fun x => if m = i then { x with ended := x.ended + 1 } else x))
        ∧ (∀ y v s1, s.window j.part (j.task + 96).toNat = some y → s.atomFlat u b 5 0 y (j.task + 96) 4 (fun v => (v + 1) % 2 ^ 32) = .ok (v, s1) → SameMem s1 t))
    ∧ (j.status ≠ .ready ∨ (s.core u).freeze ≠ 0 ∨ (∃ e ∈ j.engines, (k.stream e).phase ≠ .joined) ∨ (∃ p ∈ k.cmds, p.2 ≠ []) ∨ (∃ p ∈ k.nests, p.2 ≠ none) → exec (.jobEnd u b) s = .next s))
  ∧ (∀ (u b : Nat) (s : State) (j : Job),
    let k := s.bank u b
    k.job = some j → j.static = true → j.paused = true → j.status = .ready → (s.core u).kbank = b → (s.core u).freeze = 0 → s.now % 64 = 0 →
    (∀ p ∈ k.cmds, ∀ c ∈ p.2, p.1 = 2 ∧ s.starvedCmd u b = some c.seq) → (k.stream 0).phase ≠ .close → (k.stream 0).phase ≠ .answer → (∀ e, j.pauseBy = some e → s.remoteWait u b e = none) →
    ∃ t, exec (.staticPauseEnd u b) s = .next t ∧ { t with units := s.units, agenda := s.agenda } = s ∧ OnlyUnit s t u
      ∧ t.bank u b = { k with job := some { j with paused := false, pauseBy := none, passed := j.pauseBy } }
      ∧ t.agenda = (match j.pauseBy with | some e => [.issue u e] | none => []) ++ s.agenda)
  ∧ (∀ (u : Nat) (s : State),
    let b := (s.core u).kbank
    let k := s.bank u b
    let x := k.stream 0
    let due := k.ready = true ∧ k.isStatic = false ∧ (s.core u).freeze = 0 ∧ k.csr.tickcmp.toNat ≤ (s.tickOf u).toNat ∧ k.csr.tie = true ∧ k.csr.th = false ∧ x.phase = .running
    (due → ∃ t, exec (.tickInterrupt u) s = .next t ∧ { t with units := s.units } = s ∧ OnlyUnit s t u
      ∧ { t.bank u b with csr := k.csr, streams := k.streams } = k ∧ (∀ e, e ≠ 0 → (t.bank u b).stream e = k.stream e)
      ∧ (t.bank u b).csr = { k.csr with epcqA := x.q0, epcqB := x.q1, epcqC := x.q2, causeCode := 0, causeKind := 1, th := true }
      ∧ ((t.bank u b).stream 0).q0 = { addr := k.csr.tvec, null := false } ∧ ((t.bank u b).stream 0).lp0 = x.lp0 ∧ ((t.bank u b).stream 0).lp1 = x.lp1
      ∧ ((t.bank u b).stream 0).kept = x.waited ∧ ((t.bank u b).stream 0).waited = 0)
    ∧ (¬ due → exec (.tickInterrupt u) s = .next s))
  ∧ (∀ (u : Nat) (s : State), u < 528 →
    let c := s.core u
    let k := c.bank c.kbank
    (c.freeze = 0 → ∃ t, exec (.correctableErrorFreeze u) s = .next t ∧ OnlyUnit s t u ∧ { t with units := s.units, errs := s.errs } = s
      ∧ t.errs = { s.errs with corrected := s.errs.corrected + 1 } ∧ (t.core u).freeze = 65 ∧ (t.core u).pad = c.pad ∧ (t.core u).kbank = c.kbank
      ∧ ((t.core u).bank c.kbank).csr = { k.csr with frz := if k.csr.frz = BitVec.allOnes 16 then k.csr.frz else k.csr.frz + 1 }
      ∧ ((t.core u).bank c.kbank).departed = k.departed.map (fun d => if d.due.isSome then { d with late := d.late + 64 } else d)
      ∧ { (t.core u).bank c.kbank with csr := k.csr, departed := k.departed } = k)
    ∧ (c.freeze ≠ 0 → ∃ t, exec (.correctableErrorFreeze u) s = .next t ∧ { t with errs := s.errs } = s ∧ t.errs.corrected = s.errs.corrected + 1)
    ∧ (c.freeze = 1 → ∃ t, exec (.freezeEnd u) s = .next t ∧ { t with units := s.units } = s ∧ OnlyUnit s t u ∧ t.core u = { c with freeze := 0 })
    ∧ (c.freeze ≠ 1 → exec (.freezeEnd u) s = .next s))

/-- R311, R312, R317, R446: the close of a phase. What is done with news that comes before its domain's entry, the count of finished tasks, and the phase that an arrival and a departure name, are the model's choice (log entries 87 and 103). -/
def Obligations.DomainPhasesClose : Prop :=
  ∀ (d : DomKey) (s : State) (x : Domain),
    let key := (d.level * 2 ^ 20 + d.scope) * 2 ^ 16 + d.id
    let part := key / 2 ^ 16 % 2 ^ 20
    let me := (s.fabricOf d.scope).2
    let may := x.latches.findSome? (s.latchMiss d.scope) = none ∧ (s.latches part x.latches).logOver d.scope = false
    let closed := fun (t : State) =>
      t.domain key = some { x with pn := x.pn + 1, arrivals := 0, latches := [] } ∧ (∀ n, n ≠ key → t.domain n = s.domain n)
      ∧ (x.latches = [] → SameMem s t ∧ t.dies = s.dies
        ∧ (∀ u b, b < 2 → s.dmrKey u b ≠ some key → t.bank u b = s.bank u b)
        ∧ (∀ u b j, b < 2 → (s.bank u b).job = some j → s.dmrKey u b = some key → j.arrived = true → j.status ≠ .stopped →
            (t.bank u b).job = some { j with arrived := false, snap := [] } ∧ (t.bank u b).ttags = []
            ∧ ((t.bank u b).stream 0).phase = .running ∧ ((t.bank u b).stream 0).know = mergeAll ((s.bank u b).stream 0).know j.snap
            ∧ QueueAs ((t.bank u b).stream 0) ((s.bank u b).advanced 0 none) false ∧ (∀ e, e ≠ 0 → (t.bank u b).stream e = (s.bank u b).stream e)
            ∧ { t.bank u b with job := (s.bank u b).job, streams := (s.bank u b).streams, ttags := (s.bank u b).ttags } = s.bank u b)
        ∧ (∀ u b j, b < 2 → (s.bank u b).job = some j → s.dmrKey u b = some key → j.arrived = true → j.status = .stopped →
            (t.bank u b).job = some { j with arrived := false, snap := [] } ∧ (t.bank u b).ttags = []
            ∧ (t.bank u b).stream 0 = { (s.bank u b).stream 0 with know := mergeAll ((s.bank u b).stream 0).know j.snap })
        ∧ (∀ u b j, b < 2 → (s.bank u b).job = some j → s.dmrKey u b = some key → j.arrived = false →
            t.bank u b = { s.bank u b with ttags := [] }))
      ∧ (x.latches ≠ [] → SameMem (s.latches part x.latches) t ∧ ∀ n i, get (0 : Word) (get [] (t.die n).hist part) i = 0)
    s.domain key = some x →
    (x.arrivals + x.departed = x.quota → d.level ≠ 4 ∨ me = 0 → may →
      ∃ t, exec (.domainClose d) s = .next t ∧ closed t ∧ t.sent = s.sent ++ (if d.level = 4 then [.close key] else []))
    ∧ (x.arrivals + x.departed ≠ x.quota ∨ (d.level = 4 ∧ me ≠ 0) → exec (.domainClose d) s = .next s)
    ∧ (x.arrivals + x.departed = x.quota → d.level ≠ 4 ∨ me = 0 →
      x.latches.findSome? (s.latchMiss d.scope) = none → (s.latches part x.latches).logOver d.scope = true → exec (.domainClose d) s = .next s)
    ∧ (∀ u b j w y, x.arrivals + x.departed = x.quota → d.level ≠ 4 ∨ me = 0 → x.latches.findSome? (s.latchMiss d.scope) = some (u, b, j, w, y) →
      (j.status = .missing ∨ (s.die (dieOf u)).full = true → exec (.domainClose d) s = .next s)
      ∧ (j.status ≠ .missing → (s.die (dieOf u)).full = false →
        ∃ t, exec (.domainClose d) s = .next t ∧ t.domains = s.domains ∧ SameMem s t
          ∧ ∀ j', (s.bank u b).job = some j' → (t.bank u b).job = some { j' with status := .missing }))
    ∧ (∀ mu mb mj w wb jid a h bs T A, may → x.arrivals + x.departed = x.quota → d.level ≠ 4 ∨ me = 0 →
      x.latches = [(w, wb, jid, a)] → s.placedJobs.find? (fun y => decide (y.2.2.jid = jid)) = some (mu, mb, mj) →
      a.toNat % 8 = 0 → s.devRead part a.toNat 8 mj.asid = some h → leAt h 0 4 = 1 → s.devRead part (a.toNat + 8) 16 mj.asid = some bs →
      let rec_ := leAt bs 0 8
      let level := leAt bs 8 1
      let field := leAt bs 9 1
      rec_ % 128 = 0 → 1 ≤ level → level ≤ 6 → field ≤ 1 → leAt bs 10 1 ≤ 2 →
      (∀ i, i < 128 → s.window part (rec_ + i) = some T ∧ T.pad (T.ofFlat (rec_ + i)).2 = false
        ∧ s.devAddr T (rec_ + i) mj.asid false = some (A + i) ∧ s.devAddr T (rec_ + i) mj.asid true = some (A + i)) →
      rec_ + 128 ≤ T.wbase + T.windowBytes →
      let H := fun (i : Nat) => min ((s.dies.map (fun d => (get (0 : Word) (get [] d.2.hist part) i).toNat)).sum) (2 ^ 32 - 1)
      let base := if leAt bs 10 1 = 0 then H (leAt bs 11 1)
        else if leAt bs 10 1 = 1 then min (((List.range (leAt bs 11 1)).map H).sum) (2 ^ 32 - 1) else H 256
      let at_ := A + (if field = 0 then 8 else 32) + 4 * (level - 1)
      ∃ t, exec (.domainClose d) s = .next t ∧ leNat (rdBytes t.mem at_ 4) = (base + leAt bs 12 4) % 2 ^ 32
        ∧ (∀ i, i < 16 → (leNat (rdBytes t.mem (A + 66) 2)).testBit i = ((leNat (rdBytes s.mem (A + 66) 2)).testBit i && decide (i ≠ 2 * (level - 1) + field)))
        ∧ ∀ p, (p < at_ ∨ at_ + 4 ≤ p) → (p < A + 66 ∨ A + 68 ≤ p) → rdByte t.mem p = rdByte s.mem p)
    ∧ (∀ mu mb mj w wb jid a, may → x.arrivals + x.departed = x.quota → d.level ≠ 4 ∨ me = 0 →
      x.latches = [(w, wb, jid, a)] → s.placedJobs.find? (fun y => decide (y.2.2.jid = jid)) = some (mu, mb, mj) → (s.bank mu mb).fault = none →
      (a.toNat % 8 ≠ 0 ∨ ∃ h, s.devRead part a.toNat 8 mj.asid = some h ∧ 256 < leAt h 0 4) →
      ∃ t f, exec (.domainClose d) s = .next t ∧ (t.bank mu mb).fault = some f ∧ f.code = 0x0007 ∧ f.eng = 0 ∧ f.da = a ∧ SameMem s t
        ∧ ∃ z, t.domain key = some z ∧ z.pn = x.pn + 1)
    ∧ (d.level = 4 → me ≠ 0 → may → ∃ t, exec (.fabricCloseMulticast d) s = .next t ∧ closed t ∧ t.sent = s.sent)
    ∧ (∀ m news, d.level = 4 → m ≠ me → m < (s.fabricOf d.scope).1 →
      ∃ t, exec (.fabricDomainArrival d m news) s = .next t
        ∧ ((∀ n, news ≠ .tasksDone n) → { t with domains := s.domains } = s ∧ ∀ n, n ≠ key → t.domain n = s.domain n)
        ∧ (news = .join → t.domain key = some { x with joined := x.joined + 1 })
        ∧ (∀ pn, news = .arrive pn → t.domain key = some (if pn = x.pn.toNat then { x with arrivals := x.arrivals + 1 } else x))
        ∧ (∀ was pn, news = .depart was pn → t.domain key = some { x with
            departed := x.departed + 1, arrivals := if was = true ∧ pn = x.pn.toNat then x.arrivals - 1 else x.arrivals })
        ∧ (∀ n, news = .tasksDone n → SameMem s t ∧ t.units = s.units
            ∧ ∀ y, t.domain key = some y → (∀ i, get 0 y.doneBy i = if i = m then max n (get 0 x.doneBy m) else get 0 x.doneBy i) ∧ { y with doneBy := x.doneBy } = x))
    ∧ (∀ m news, d.level ≠ 4 ∨ m = me ∨ (s.fabricOf d.scope).1 ≤ m → exec (.fabricDomainArrival d m news) s = .next s)
    ∧ (∀ s m news, s.domain key = none → d.level = 4 → m ≠ (s.fabricOf d.scope).2 → m < (s.fabricOf d.scope).1 →
      ∃ t, exec (.fabricDomainArrival d m news) s = .next t ∧ { t with early := s.early } = s ∧ t.early = s.early ++ [(key, m, news)])

/-- R208 to R212, R366: waits that end in a fault, and the fault frame. -/
def Obligations.WaitsFaultAndFramesAreWritten : Prop :=
  ∀ (u b : Nat) (s : State) (j : Job),
    let k := s.bank u b
    k.job = some j →
    (∀ e c o pre post, k.fault = none → j.status = .ready → (∀ g ∈ j.engines, (k.stream g).phase = .joined ∨ s.localWait u b g ≠ none) → (∀ g, g < 6 → s.onlyHeld u b g = true) →
      (∀ p ∈ k.nests, p.2 = none) → k.landings = [] → (k.allAt = none ∨ (∃ p ∈ k.tok, p.2.toks ≠ []) ∨ ∃ p ∈ k.cmds, p.2 ≠ []) →
      j.engines = pre ++ e :: post → (∀ g ∈ pre, s.localWait u b g = none) → s.localWait u b e = some (c, o) →
      ∃ t, exec (.waitForever u b) s = .next t ∧ StoppedBy s t u b e 0x000D (BitVec.ofNat 64 o) (BitVec.ofNat 64 c) 0)
    ∧ (∀ e o, k.fault = none → s.remoteWait u b e = some o → j.status = .ready →
      (k.csr.waitlim ≠ 0 → k.csr.waitlim.toNat ≤ (k.stream e).waited →
        (e ≠ 5 ∨ k.permitWait = false → ∃ t, exec (.waitTimeout u b e) s = .next t ∧ StoppedBy s t u b e 0x000E (BitVec.ofNat 64 o) k.csr.waitlim 0)
        ∧ (e = 5 → k.permitWait = true → ∃ t, exec (.permitTimeout u b) s = .next t ∧ StoppedBy s t u b 5 0x0015 (BitVec.ofNat 64 o) 0 0))
      ∧ (k.csr.waitlim = 0 ∨ (k.stream e).waited < k.csr.waitlim.toNat →
        exec (.waitTimeout u b e) s = .next s ∧ (e = 5 → exec (.permitTimeout u b) s = .next s)))
    ∧ (∀ f i x, k.fault = some f → f.code ≠ 0x0017 → f.slot = none → s.settled u b = true → s.part j.part = some x → i < x.cfg.frameSlots →
      get false x.slots i = false → (∀ m, m < i → get false x.slots m = true) → (∀ n, x.state ≠ .resetting n) →
      let s0 := s.unwind u b f.code
      let frame := (s0.bank u b).faultFrame b f j
      let gone := f.code = 0x0018 ∨ j.preempt = some true
      ∃ t x', exec (.faultFrameWrite u b) s = .next t ∧ rdBytes t.mem (hostAddr (x.cfg.frameBase + 1024 * i)) frame.length = frame
        ∧ OnlyBytes s t (hostAddr (x.cfg.frameBase + 1024 * i)) frame.length
        ∧ (let A := hostAddr (x.cfg.frameBase + 1024 * i)
           (∀ p ∈ [(0, 4, 0x46524D46), (4, 2, f.code % 2 ^ 16), (6, 1, f.eng % 256), (7, 1, (f.precise.toNat + 2 * b) % 256), (8, 8, f.da.toNat),
               (16, 8, f.db.toNat), (24, 4, f.dc.toNat), (28, 4, (s0.bank u b).flightList.length), (32, 8, j.ord.toNat), (40, 8, j.code % 2 ^ 64),
               (48, 8, f.cyc.toNat), (56, 8, 0)], leNat (rdBytes t.mem (A + p.1) p.2.1) = p.2.2)
           ∧ ∀ e, e < 6 →
             let y := (s0.bank u b).stream e
             let o := A + 64 + 64 * e
             (y.phase = .idle → ∀ m, m < 64 → rdByte t.mem (o + m) = 0)
             ∧ (y.phase ≠ .idle → leNat (rdBytes t.mem o 2) = y.q0.addr.toNat + 2 ^ 15 * y.q0.null.toNat
                 ∧ leNat (rdBytes t.mem (o + 2) 2) = y.q1.addr.toNat + 2 ^ 15 * y.q1.null.toNat
                 ∧ leNat (rdBytes t.mem (o + 4) 2) = y.q2.addr.toNat + 2 ^ 15 * y.q2.null.toNat
                 ∧ leNat (rdBytes t.mem (o + 44) 2) = y.epoch.toNat))
        ∧ t.part j.part = some x' ∧ get false x'.slots i = true ∧ (∀ m, m ≠ i → get false x'.slots m = get false x.slots m)
        ∧ (gone → t.bank u b = {}) ∧ (¬ gone → t.bank u b = { s0.bank u b with fault := some { f with slot := some i } })
        ∧ (¬ gone → (∀ c ∈ k.queue 0, c.isPush = true) → (∀ c ∈ k.queue 2, c.isPush = true) → t.bank u b = { k with fault := some { f with slot := some i } })
        ∧ (∀ c x, ¬ gone → (k.queue 0).find? (fun c => !c.isPush) = some c → get none k.backs c.seq = some x →
            (t.bank u b).s = x.s ∧ (t.bank u b).p = x.p ∧ (t.bank u b).sdm = x.sdm ∧ (t.bank u b).fmt = x.fmt ∧ { (t.bank u b).csr with frz := x.csr.frz } = x.csr
            ∧ (t.bank u b).view = none ∧ (t.core u).tick = (s.core u).tick - x.tickBy
            ∧ ((t.bank u b).stream 0).q0 = x.t.q0 ∧ ((t.bank u b).stream 0).q1 = x.t.q1 ∧ ((t.bank u b).stream 0).q2 = x.t.q2
            ∧ ((t.bank u b).stream 0).lp0 = x.t.lp0 ∧ ((t.bank u b).stream 0).lp1 = x.t.lp1 ∧ ((t.bank u b).stream 0).b = x.t.b
            ∧ ((t.bank u b).stream 0).epoch = c.epoch ∧ ((t.bank u b).stream 0).phase = .running
            ∧ (∀ g l, x.pops = [(g, l)] → (∀ d ∈ k.queue 2, d.isPush = true) → ((t.bank u b).tokF g).toks = l ++ (k.tokF g).toks)
            ∧ (∀ d ∈ (t.bank u b).queue 0, d.isPush = true → d.seq ≤ c.seq) ∧ ∀ e, e ≠ 0 → e ≠ 2 → (t.bank u b).queue e = k.queue e)
        ∧ (∀ c x, ¬ gone → f.code ≠ 0x000C → (k.queue 2).find? (fun c => !c.isPush) = some c → get none k.backs c.seq = some x →
            (t.bank u b).run = none ∧ ((t.bank u b).stream 2).q0 = x.t.q0 ∧ ((t.bank u b).stream 2).q1 = x.t.q1 ∧ ((t.bank u b).stream 2).q2 = x.t.q2
            ∧ ((t.bank u b).stream 2).lp0 = x.t.lp0 ∧ ((t.bank u b).stream 2).lp1 = x.t.lp1 ∧ ((t.bank u b).stream 2).b = x.t.b
            ∧ ((t.bank u b).stream 2).epoch = c.epoch ∧ ∀ d ∈ (t.bank u b).queue 2, d.isPush = true → d.seq ≤ c.seq))
    ∧ (∀ f, k.fault = some f → f.code = 0x0017 ∨ f.slot ≠ none ∨ s.settled u b = false ∨ (∃ x n, s.part j.part = some x ∧ x.state = .resetting n) →
      exec (.faultFrameWrite u b) s = .next s)

namespace Sys2Proof.Spec

/-! ### Tiers, climbing, placement (01 R24 to R29; 13 R303 to R306; 19 R377 to R396) -/

/-- A bank whose streams have left their `CLAUSE`: each runs, one entry further. -/
def LeftClause (k t : Bank) : Prop :=
  ∀ e, e < 6 → (∃ n, (k.stream e).phase = .clause n) → (t.stream e).phase = .running
    ∧ (t.stream e).q0 = (k.advanced e none).q0 ∧ (t.stream e).q1 = (k.advanced e none).q1 ∧ (t.stream e).q2 = (k.advanced e none).q2

/-- What a clause boundary clears in a bank (R27), and what it leaves. -/
def Cleared (k t : Bank) : Prop :=
  (∀ r, t.rdV r = {}) ∧ (∀ r, r ≠ 0 → t.rdM r = 0) ∧ (∀ r, t.rdK r = 0) ∧ (∀ f, t.dfifo f = {}) ∧ t.ttags = [] ∧ (∀ e, t.sq e = {})
    ∧ (∀ e, (t.stream e).epoch = 0 ∧ (t.stream e).know = []) ∧ (∀ i, (t.arrVec i).a = [] ∧ (t.arrVec i).s = [])
    ∧ t.csr.epcqA = {} ∧ t.csr.epcqB = {} ∧ t.csr.epcqC = {} ∧ t.csr.tie = false ∧ t.csr.causeCode = 0 ∧ t.csr.causeKind = 0 ∧ t.csr.viewst = 0 ∧ t.csr.tickcmp = BitVec.allOnes 64
    ∧ t.csr.tvec = k.csr.tvec ∧ t.csr.dmrLevel = k.csr.dmrLevel ∧ t.csr.dmrId = k.csr.dmrId ∧ t.csr.waitlim = k.csr.waitlim
    ∧ t.s = k.s ∧ t.p = k.p ∧ t.a = k.a ∧ t.c = k.c ∧ t.e = k.e ∧ t.sdm = k.sdm ∧ t.fmt = k.fmt ∧ t.imem = k.imem

end Sys2Proof.Spec

/-- R25 to R27, R206, R384 to R386, R394: the clause boundary and what follows it. -/
def Obligations.ClauseBoundariesClearAndGoOn : Prop :=
  (∀ (u b : Nat) (s : State) (j : Job),
    let k := s.bank u b
    let f := s.formBoundary u b
    let n := (k.allAt.getD 0).toNat
    b < 2 → k.job = some j → s.boundaryForms u b = true → (∀ r, j.request = some r → r.image = none) →
    (j.climb = false ∨ f.climbTarget { j with paused := j.static, pauseBy := none, passed := none } k.csr.tier.toNat = none) →
    (j.preempt = none → j.request = none →
      ∃ t, exec (.clauseBoundary u b) s = .next t ∧ Cleared k (t.bank u b) ∧ LeftClause k (t.bank u b) ∧ OnlyUnit s t u ∧ SameMem s t
        ∧ (∀ r, r < k.base ∨ k.base + k.rows ≤ r → get {} (t.core u).pad r = get {} (s.core u).pad r)
        ∧ (∀ r, k.base ≤ r → r < k.base + k.rows → get {} (t.core u).tags r = {}
            ∧ ((∀ p ∈ k.arr, p.2.live = true → k.base + p.1 / 32 ≠ r) → get {} (t.core u).pad r = {})
            ∧ ((∃ p ∈ k.arr, p.2.live = true ∧ k.base + p.1 / 32 = r) → get {} (t.core u).pad r = get {} (s.core u).pad r))
        ∧ (∀ r, j.accRow ≤ r → r < j.accRow + j.accN → get {} (t.cluster (clusterOf u b)).acc r = {})
        ∧ ((s.leaseOf u b = .none → t.leaseOf u b = .none) ∧ (s.leaseOf u b ≠ .none → t.leaseOf u b = .waiting))
        ∧ (t.core u).kbank = (if (s.bank u (1 - b)).ready then 1 - b else b))
    ∧ (j.preempt = some false → j.request = none → ∀ i x, f.freeSave j.part = some i → s.part j.part = some x →
      ∃ t x' v, exec (.clauseBoundary u b) s = .next t ∧ t.bank u b = {} ∧ t.part j.part = some x' ∧ x'.saved = x.saved ++ [v] ∧ v.slot = i ∧ v.job.jid = j.jid
        ∧ (∀ q ∈ k.arr, q.2.live = true → get {} v.job.rows (q.1 / 32) = s.row u b (q.1 / 32))
        ∧ (let image := f.climbImage u b { j with paused := j.static, pauseBy := none, passed := none } n true
           let A := hostAddr (x.cfg.saveBase + 70656 * i)
           rdBytes t.mem A image.length = image ∧ OnlyBytes s t A image.length
           ∧ (∀ p ∈ [(0, 4, 0x434C4D46), (4, 2, 1), (6, 1, if u < 448 then 2 else if u < 496 then 1 else 0), (7, 1, b + 2),
               (8, 2, (if u < 448 then u else if u < 496 then u - 448 else u - 496) % 2 ^ 16), (10, 2, j.die % 2 ^ 16), (12, 4, n % 2 ^ 32),
               (16, 8, j.code % 2 ^ 64), (24, 8, j.ord.toNat), (32, 8, j.task.toNat), (40, 1, j.mask.toNat),
               (41, 2, (j.writer + 1024 * j.wbank) % 2 ^ 16), (44, 4, j.foot % 2 ^ 32), (60, 4, j.ppn.toNat), (0x40, 8, k.csr.tvec.toNat),
               (0x48, 8, k.csr.dmrLevel.toNat * 2 ^ 16 + k.csr.dmrId.toNat), (0x50, 8, k.csr.ftbase.toNat), (0x58, 8, k.csr.fctl.toNat),
               (0x68, 8, k.csr.waitlim.toNat)], leNat (rdBytes t.mem (A + p.1) p.2.1) = p.2.2)
           ∧ ((k.stream 0).phase ≠ .idle →
               leNat (rdBytes t.mem (A + 0x200) 2) = (k.stream 0).q0.addr.toNat + 2 ^ 15 * (k.stream 0).q0.null.toNat
               ∧ rdByte t.mem (A + 0x206) = 4 ∧ rdByte t.mem (A + 0x229) = 4 ∧ leNat (rdBytes t.mem (A + 0x22C) 2) = 0
               ∧ ∀ r, 1 ≤ r → r ≤ 29 → leNat (rdBytes t.mem (A + 0x200 + 80 + 8 * r) 8) = (k.rdS (BitVec.ofNat 5 r)).toNat)
           ∧ (k.liveWords.length ≤ 32 → ∀ m, m < 65536 → rdByte t.mem (A + 0x1400 + m) = rdByte k.sdm m)))
    ∧ (j.preempt = some true → ∃ t, exec (.clauseBoundary u b) s = .next t ∧ t.bank u b = {} ∧ SameMem s t)
    ∧ (∀ r tu tb, j.preempt = none → j.request = some r → r.ever = true → r.taken = false → r.unit = some (tu, tb) →
      (f.jobInputs { j with paused := j.static, pauseBy := none, passed := none }).filter (fun x => decide (x.tier < r.target)) = [] →
      ∃ t j' r', exec (.clauseBoundary u b) s = .next t ∧ (t.bank u b).job = some j' ∧ j'.request = some r' ∧ r'.image.isSome = true ∧ r'.unit = some (tu, tb) ∧ SameMem s t)
    ∧ (∀ r, j.preempt = none → j.request = some r → r.ever = true → r.taken = true →
      (f.jobInputs { j with paused := j.static, pauseBy := none, passed := none }).filter (fun x => decide (x.tier < r.target)) = [] →
      ∃ t j', exec (.clauseBoundary u b) s = .next t ∧ (t.bank u b).job = some j' ∧ j'.request = none ∧ (t.bank u b).csr.last = 3
        ∧ (k.csr.aborts ≠ BitVec.allOnes 16 → (t.bank u b).csr.aborts = k.csr.aborts + 1) ∧ LeftClause k (t.bank u b)))
  ∧ (∀ (u b : Nat) (s : State), s.boundaryForms u b = false → exec (.clauseBoundary u b) s = .next s)

/-- R382, R383, R385, R386, R388: requests to climb, the monitor, and the hand-over. -/
def Obligations.ClimbRequestsAndHandover : Prop :=
  (∀ (s : State) (j : Job), s.me.job = some j → ∀ p ∈ [(Instr.climb, min 2 (s.me.csr.tier.toNat + 1)), (.climbFar, 1), (.climbNear, 2)],
    (s.me.fault = none → j.static = true → ∃ t da, exec p.1 s = .next t ∧ StoppedBy s t s.cur s.curB 0 0x0001 da 0 0)
    ∧ (j.static = false → j.climb = false → ∃ t, exec p.1 s = .next t ∧ OnlyBank s t ∧ Issued 0 s.me t.me
        ∧ { t.me with csr := s.me.csr, streams := s.me.streams } = s.me ∧ t.me.csr = { s.me.csr with last := 8 })
    ∧ (j.static = false → j.climb = true → p.2 ≤ s.me.csr.tier.toNat → ∃ t, exec p.1 s = .next t ∧ OnlyBank s t ∧ Issued 0 s.me t.me
        ∧ { t.me with csr := s.me.csr, streams := s.me.streams } = s.me ∧ t.me.csr = { s.me.csr with last := 7 })
    ∧ (∀ r, j.static = false → j.climb = true → s.me.csr.tier.toNat < p.2 → j.request = some r → p.2 ≤ r.target →
        ∃ t, exec p.1 s = .next t ∧ StreamOnly 0 s t ∧ QueueAs (t.me.stream 0) (s.me.advanced 0 none) false)
    ∧ (j.static = false → j.climb = true → s.me.csr.tier.toNat < p.2 → (∀ r, j.request = some r → r.target < p.2) →
        ∃ t j' r, exec p.1 s = .next t ∧ { t with units := s.units, dies := s.dies } = s ∧ OnlyUnit s t s.cur ∧ Issued 0 s.me t.me
          ∧ { t.me with job := s.me.job, streams := s.me.streams } = s.me ∧ t.me.job = some j' ∧ { j' with request := j.request } = j
          ∧ j'.request = some r ∧ r.target = p.2 ∧ r.image = none ∧ r.taken = false
          ∧ (r.ever = true ↔ r.unit ≠ none)
          ∧ (let s0 := s.onMe (fun k => { k with job := some { j with request := none } })
             let open_ := fun (u b : Nat) => b < 2 ∧ s.holds j.part u = true ∧ tierOf u = p.2 ∧ (p.2 = 2 → u ∈ dieCores j.die)
               ∧ (s0.bank u b).job = none ∧ s0.reserver u b = none
             (∀ u b, j.die < 16 → r.unit = some (u, b) → open_ u b ∧ s0.windowFor u b j.foot = some r.base)
             ∧ (r.unit = none → ∀ u b, u < 528 → open_ u b → s0.windowFor u b j.foot = none))))
  ∧ (∀ (u b : Nat) (s : State) (j : Job),
    let k := s.bank u b
    k.job = some j → j.climb = true → (∀ r, j.request = some r → r.image = none) → (j.eval = false → exec (.climbMonitorEval u b) s = .next s) ∧ (j.eval = true →
    (∀ g, s.climbTarget j k.csr.tier.toNat = some g → ∃ t r, exec (.climbMonitorEval u b) s = .next t ∧ { t with units := s.units } = s ∧ OnlyUnit s t u
        ∧ t.bank u b = { k with job := some { j with request := some r, eval := false } } ∧ r.target = g ∧ r.ever = true ∧ r.unit ≠ none ∧ k.csr.tier.toNat < g)
    ∧ (s.climbTarget j k.csr.tier.toNat = none → ∃ t, exec (.climbMonitorEval u b) s = .next t ∧ { t with units := s.units } = s ∧ OnlyUnit s t u
        ∧ t.bank u b = { k with job := some { j with eval := false } })))
  ∧ (∀ (u b : Nat) (s : State) (j : Job) (r : Climb) (bs : List Byte) (tu tb : Nat),
    let k := s.bank u b
    k.job = some j → j.request = some r → r.image = some bs → r.unit = some (tu, tb) →
    (imageOk bs = false → ∃ t j', exec (.climbFrameLoad u b) s = .next t ∧ OnlyUnit s t u ∧ (t.bank u b).job = some j' ∧ j'.request = none
      ∧ j'.jid = j.jid ∧ (t.bank u b).csr.last = 4 ∧ (k.csr.aborts ≠ BitVec.allOnes 16 → (t.bank u b).csr.aborts = k.csr.aborts + 1) ∧ LeftClause k (t.bank u b))
    ∧ (imageOk bs = true → tu ≠ u → ∃ t j', exec (.climbFrameLoad u b) s = .next t ∧ t.bank u b = {} ∧ (t.bank tu tb).job = some j'
      ∧ j'.jid = j.jid ∧ j'.part = j.part ∧ j'.packet = j.packet ∧ j'.base = r.base ∧ j'.status = .ready ∧ j'.request = none ∧ j'.preempt = j.preempt
      ∧ (t.bank tu tb).landings = k.landings ∧ (t.bank tu tb).csr.last = 1 ∧ (t.bank tu tb).csr.tier.toNat = tierOf tu
      ∧ (s.leaseOf u b ≠ .none → tu < 448 → t.leaseOf tu tb = .waiting) ∧ SameMem s t))

/-- R379 to R382, R396: the promotion engine. Copying the whole tile in one step at the switch is the model's choice (log entry 51), and so is dropping a move to a tier that the tile has already reached or passed (log entry 91). -/
def Obligations.PromotionMovesTiles : Prop :=
  ∀ (d : Nat) (s : State) (m : PMove) (rest : List PMove) (y : Tensor), (s.die d).moves = m :: rest → s.tensor m.tid = some y →
    let listIs := fun (t : State) (l : List PMove) => (t.die d).moves = l ∧ ∀ x, x ≠ d → t.die x = s.die x
    (m.started = false → (∀ x ∈ s.moves_, x.started = true → x.sameTile m = false) →
      (s.mayMove y m.tile = true → (y.tile m.tile).tier.toNat < m.tier →
        (∀ f, m.frame = some f → ∃ t, exec (.promotionStart d) s = .next t ∧ { t with dies := s.dies } = s ∧ listIs t ({ m with started := true } :: rest))
        ∧ (∀ f s1, m.frame = none → s.takeFrame y.part m.tier m.stack y.fsz = some (f, s1) →
            ∃ t, exec (.promotionStart d) s = .next t ∧ { t with dies := s.dies, frames := s.frames, free := s.free } = s
              ∧ listIs t ({ m with started := true, frame := some f } :: rest) ∧ t.frames = s.frames ++ [f] ∧ f.part = y.part ∧ f.tier = m.tier ∧ f.stack = m.stack)
        ∧ (m.frame = none → s.takeFrame y.part m.tier m.stack y.fsz = none →
            ∃ t, exec (.promotionStart d) s = .next t ∧ { t with dies := s.dies } = s ∧ listIs t rest))
      ∧ (s.mayMove y m.tile = false ∨ m.tier ≤ (y.tile m.tile).tier.toNat → ∃ t, exec (.promotionStart d) s = .next t
          ∧ { t with dies := s.dies, frames := s.frames } = s ∧ listIs t rest ∧ (m.frame = none → t.frames = s.frames)
          ∧ (∀ f, m.frame = some f → t.frames = s.frames.filter (fun g => !g.same f))))
    ∧ (m.started = true ∨ (∃ x ∈ s.moves_, x.started = true ∧ x.sameTile m = true) → exec (.promotionStart d) s = .next s)
    ∧ (m.started = true → m.fenced = false → y.id = m.tid →
      (s.mayMove y m.tile = true → ∃ t z, exec (.moveFence d) s = .next t ∧ { t with dies := s.dies, tensors := s.tensors } = s ∧ listIs t ({ m with fenced := true } :: rest)
        ∧ t.tensor m.tid = some z ∧ z.tile m.tile = { y.tile m.tile with mf := true } ∧ ∀ n, n ≠ m.tile → z.tile n = y.tile n)
      ∧ (s.mayMove y m.tile = false → ∃ t, exec (.moveFence d) s = .next t ∧ t.tensors = s.tensors ∧ listIs t rest ∧ SameMem s t))
    ∧ (∀ f T S B, m.fenced = true → m.frame = some f → y.id = m.tid → y.tiled = true → Memory.wf s.mem → s.inFlight y m.tile = false →
      s.translate y m.tile Pasid.none false = .frame T S B →
      let n := 4096 * 4 ^ y.fsz
      let old := physAddr T S B
      (s.machineBase f = none → exec (.tileSwitch d) s = .next s) ∧ ∀ nb, s.machineBase f = some nb →
      let new := physAddr f.tier f.stack nb
      (old + n ≤ new ∨ new + n ≤ old) → (∀ q w k, s.part y.part = some q → q.dirty = some (w, k) → q.dlTail + q.dlPend.length < 2 ^ k + q.dlHead) →
      ∃ t z, exec (.tileSwitch d) s = .next t ∧ listIs t rest ∧ (∀ i, i < n → rdByte t.mem (new + i) = rdByte s.mem (old + i)) ∧ OnlyBytes s t new n
        ∧ t.tensor m.tid = some z ∧ (z.tile m.tile).mf = false ∧ (z.tile m.tile).v = (y.tile m.tile).v ∧ (z.tile m.tile).tier = BitVec.ofNat 2 f.tier
        ∧ (z.tile m.tile).stack = BitVec.ofNat 5 f.stack ∧ (z.tile m.tile).fbase = BitVec.ofNat 41 f.base ∧ (z.tile m.tile).stamp = (y.tile m.tile).stamp
        ∧ (∀ k, k ≠ m.tile → z.tile k = y.tile k)
        ∧ (∀ u x, t.look u m.tid m.tile = some x → x.tier = f.tier ∧ x.stack = f.stack ∧ x.base = nb ∧ x.ia = f.base * 4096)
        ∧ (∀ u b, b < 2 → ∃ g : Bool, t.bank u b = (s.bank u b).onJob (fun j => { j with eval := j.eval || g }))
        ∧ (∀ u b j, b < 2 → (s.bank u b).job = some j → j.climb = true → j.part = y.part → (∃ x ∈ t.jobInputs j, x.tid = m.tid ∧ x.n = m.tile) →
            ∃ j', (t.bank u b).job = some j' ∧ j'.eval = true)
        ∧ ((y.tile m.tile).v = true → (y.tile m.tile).tier ≠ 3 → ∃ g, t.scrubs = s.scrubs ++ [g] ∧ g.frame.tier = (y.tile m.tile).tier.toNat
            ∧ g.frame.stack = (y.tile m.tile).stack.toNat ∧ g.frame.base = (y.tile m.tile).fbase.toNat))

/-- R303 to R306, R14, R24: placing an iteration. -/
def Obligations.IterationsArePlaced : Prop :=
  ∀ (d : Nat) (s : State) (c : Choice) (rest : List Choice) (r : TaskRec) (im : Image) (u b base : Nat),
    let p := c.pkt
    let w := s.walkReport d
    let m := s.members p.part
    let ds := (diesOf c.tsk.dies).length
    let done := c.tsk.on d
    let n := m.2 * ds + ((diesOf c.tsk.dies).filter (fun x => decide (x < d))).length + m.1 * ds * done
    let climb := decide (c.tsk.cls = 2) && im.climb
    s.lenfy.boot = .running → w.choices d = c :: rest → w.savedOf d c = [] → w.recOf p.part p.asid c.tsk = some r → get none s.images c.tsk.code = some im →
    done < c.tsk.share m d r.total → w.findBank p.part p.asid d im.foot p.prio climb r p.args.toNat = some (u, b, base) → (∀ x ∈ r.preload, x < 32768) →
    w.reserver u b = none → b < 2 →
    ∃ t j, exec (.iterationPlace d) s = .next t ∧ SameMem s t ∧ OnlyUnit s t u ∧ t.bank u (1 - b) = s.bank u (1 - b) ∧ (t.bank u b).job = some j
      ∧ j.part = p.part ∧ j.fn = p.fn ∧ j.queue = p.queue ∧ j.packet = c.pid ∧ j.task = c.tsk.addr ∧ j.ord = BitVec.ofNat 64 n ∧ j.code = c.tsk.code
      ∧ j.mask = im.mask ∧ j.static = im.static ∧ j.foot = im.foot ∧ j.prio = p.prio ∧ j.die = d ∧ j.writer = u ∧ j.wbank = b ∧ j.ppn = (s.core u).placed
      ∧ j.base = base ∧ j.size = im.foot ∧ j.status = .ready ∧ j.climb = climb ∧ j.jid = s.jids + 1
      ∧ (∀ l, l < 6 → let v := (r.indices n).getD l 0
          (t.bank u b).rdS (BitVec.ofNat 5 (l + 1)) = v.setWidth 64 ∧ (t.bank u b).rdC 3 (BitVec.ofNat 4 (l + 1)) = v ∧ (t.bank u b).rdC 4 (BitVec.ofNat 4 (l + 1)) = v)
      ∧ (t.bank u b).rdS 7 = BitVec.ofNat 64 n ∧ (t.bank u b).rdS 8 = p.args ∧ (∀ x, 9 ≤ x → x < 30 → (t.bank u b).rdS (BitVec.ofNat 5 x) = 0)
      ∧ (t.bank u b).imem = im.imem ∧ (t.bank u b).tok = im.toks ∧ (t.bank u b).cmds = [] ∧ (t.bank u b).csr.tvec = im.trap
      ∧ (∀ e, e < 6 → im.mask.getLsbD e = true → ((t.bank u b).stream e).phase = .running ∧ ((t.bank u b).stream e).q0 = { addr := im.entry.getD e 0, null := false }
          ∧ ((t.bank u b).stream e).epoch = 0)
      ∧ (∀ x, base ≤ x → x < base + im.foot → get {} (t.core u).pad x = {} ∧ get {} (t.core u).tags x = {})
      ∧ (∀ x, x < base ∨ base + im.foot ≤ x → get {} (t.core u).pad x = get {} (s.core u).pad x)
      ∧ (t.core u).placed = (s.core u).placed + 1 ∧ t.jids = s.jids + 1
      ∧ (∀ q, get none s.packets c.pid = some q → ∃ q', get none t.packets c.pid = some q'
          ∧ ∀ i, q'.tasks[i]? = (q.tasks[i]?).map (fun (x : Task) => if i = c.i then { x with nextN := set 0 x.nextN d (x.on d + 1) } else x))

namespace Sys2Proof.Spec

/-! ### Translation misses and bank units (08 R211; 12 R297 to R299; 21 R397 to R410) -/

/-- A context after a word has chosen the next one (R401). -/
def chosen (x : Ctx) (m : Micro) : Ctx :=
  if m.nxt = 0 then { x with upc := x.upc + 1 }
  else if m.nxt = 1 then { x with upc := m.tgt }
  else if m.nxt = 2 then (if x.lc = 0 then { x with upc := x.upc + 1 } else { x with upc := m.tgt, lc := x.lc - 1, i := x.i + 1 })
  else x

/-- A command that is performed from its start: none of its rows, items or partials stands (R211). -/
def fromStart : CmdOp → CmdOp
  | .copy c => .copy { c with done := [], parts := [] }
  | .xsend x n m l q r _ => .xsend x n m l q r []
  | o => o

/-- Lane-wise FP32 results of a bank unit. -/
def Lanes (r : Row) (f : Nat → Nat) (p : BitVec 32) : Prop := (∀ j, j < 128 → r.el 32 j = f j % 2 ^ 32) ∧ r.poison = p

/-- Where line `l` of a command lies, by the run of its lines that holds it: tier, stack and machine byte offset. -/
def lineAt (c : BCmd) (l : Nat) : Nat × Nat × Nat := ((c.seg l).tier, (c.seg l).stack, (c.seg l).off + 512 * (l - (c.seg l).first))

/-- The reason for which a word may not issue, 0 where it may (R402): the unit, the index and the word address of its context, the word, its command, whether its OP uses LINE, the largest RS, whether it is an ACT. -/
def breach (x : BUnit) (i : Word) (upc : BitVec 8) (m : Micro) (c : BCmd) (lop : Bool) (rs : Nat) (act : Bool) : Nat :=
  let l : Int := m.line.toInt + (i.toNat : Int) * c.step.toInt
  let pg := (lineAt c l.toNat).2.2 % unitSpan (lineAt c l.toNat).1 / 2048
  let ready := (get none x.pages (pg % 16)).any (fun o => decide (o.1 = pg) && decide (o.2 + 12 ≤ x.cyc))
  let again := (get none x.lastAct (pg % 16)).any (fun t => decide (x.cyc < t + 40))
  if m.cx.toNat ≠ c.ctx then 4
  else if lop = true ∧ (l < 0 ∨ (c.lines.toNat : Int) ≤ l) then 5
  else if lop = true ∧ (if act then again = true else ready = false) then 6
  else if rs < m.rs.toNat ∨ m.rsv ≠ 0 ∨ (lop = false ∧ m.line ≠ 0) ∨ x.parity.contains upc.toNat = true then 7
  else 0

/-- The words of the microcode: whether the OP uses LINE, the largest RS, whether it is an ACT (R400, R402). -/
def wordForms (n : Nat) (m : Micro) : List (Instr × Bool × Nat × Bool) :=
  [(.bankUnitNop n m, false, 0, false), (.bankUnitAct n m, true, 0, true), (.bankUnitRd n m, true, 1, false), (.bankUnitWr n m, true, 0, false),
   (.bankUnitMac n m, false, 0, false), (.bankUnitAdda n m, false, 1, false), (.bankUnitRed n m, false, 0, false), (.bankUnitMova n m, false, 1, false),
   (.bankUnitCtx n m, false, 0, false), (.bankUnitEnd n m, false, 0, false)]

/-- The words that give a result to a register (R400): the word, the largest RS, the register (0 ACC, 1 RA, 2 RB), the cycles, and what the result is. -/
def resultWords (n : Nat) (m : Micro) (x : Ctx) : List (Instr × Nat × Nat × Nat × (Row → Prop)) :=
  let y := if m.rs = 0 then x.ra else x.rb
  let v := fun (r : Row) j => fp32.val (r.el 32 j)
  [(.bankUnitMac n m, 0, 0, 4, fun r => Lanes r (fun j => fp32.round 0 (FVal.add 0 (v x.acc j) ((v x.ra j).mul (v x.rb j)))) (x.acc.poison ||| x.ra.poison ||| x.rb.poison)),
   (.bankUnitAdda n m, 1, 0, 4, fun r => Lanes r (fun j => fp32.round 0 (FVal.add 0 (v x.acc j) (v y j))) (x.acc.poison ||| y.poison)),
   (.bankUnitRed n m, 0, 0, 12, fun r => r.el 32 0 = treeSum fp32 7 ((List.range 128).map (x.acc.el 32)) ∧ (∀ j, 1 ≤ j → j < 128 → r.el 32 j = 0) ∧ r.poison = if x.acc.poison = 0 then 0 else 1),
   (.bankUnitMova n m, 1, (if m.rs = 0 then 0 else 1), 1, fun r => r = if m.rs = 0 then x.ra else x.acc)]

end Sys2Proof.Spec

/-- R211, R297 to R299: misses, batches, records and replies. The model's choices in it: FUNC of a record (log entry 96), the freeing of its queue entry by the reply (log entry 95), the rows that land once more (log entry 99). -/
def Obligations.MissesAreBatchedAndAnswered : Prop :=
  (∀ (u b e src r : Nat) (s : State) (c : Cmd) (j : Job) (tid n stage own : Nat) (w : Bool) (y : Tensor),
    let k := s.bank u b
    let D := s.die (dieOf u)
    let me : Waiter := { u := u, b := b, e := e, src := some src, own := own }
    k.cmd e src = some c → k.job = some j → s.mayPerform u b e c = true → s.missOf u b e r c = some (tid, n, stage, w, own) → s.tensor tid = some y →
    let held := fun (t : State) => ∃ j', (t.bank u b).job = some j' ∧ { j' with status := j.status } = j ∧ j'.status = (if j.status = .stopped then .stopped else .missing)
      ∧ (t.bank u b).cmd e src = some { c with held := true } ∧ (∀ f, f ≠ e → (t.bank u b).queue f = k.queue f) ∧ OnlyUnit s t u ∧ SameMem s t
    (64 ≤ D.batch.length → exec (.faultRangeMiss u b e src r) s = .next s)
    ∧ (D.batch.length < 64 → stage ≠ 4 → (∀ x ∈ D.batch ++ D.out ++ D.unans, x.covers y.part y.id (y.flat n) (min stage 2) = false) →
      ∃ t m, exec (.faultRangeMiss u b e src r) s = .next t ∧ held t ∧ (t.die (dieOf u)).batch = D.batch ++ [m]
        ∧ (t.die (dieOf u)).timer = (if D.batch = [] then s.now else D.timer) ∧ (t.die (dieOf u)).out = D.out ∧ (t.die (dieOf u)).unans = D.unans
        ∧ m.va = y.flat n ∧ m.pages = 1 ∧ m.fsz = y.fsz ∧ m.read = !w ∧ m.write = w ∧ m.host = decide (stage = 3) ∧ m.stage = min stage 2 ∧ m.tid = y.id
        ∧ m.part = y.part ∧ m.jobs = [me])
    ∧ (∀ pre x post, D.batch.length < 64 → stage ≠ 4 → D.batch = pre ++ x :: post → (∀ z ∈ pre, z.covers y.part y.id (y.flat n) (min stage 2) = false) →
      x.covers y.part y.id (y.flat n) (min stage 2) = true →
      ∃ t, exec (.faultRangeMiss u b e src r) s = .next t ∧ held t
        ∧ (t.die (dieOf u)).batch = pre ++ { x with jobs := x.jobs ++ [me], write := x.write || w } :: post)
    ∧ (D.batch.length < 64 → stage = 4 →
      ∃ t, exec (.faultRangeMiss u b e src r) s = .next t ∧ held t ∧ t.dies = s.dies
        ∧ ∀ p, get none t.versions p = if p = y.part * 65536 + y.version.getD 0
            then (get none s.versions p).map (fun v => { v with waits := v.waits ++ [(y.id, n, me)] }) else get none s.versions p))
  ∧ (∀ (d : Nat) (s : State),
    let D := s.die d
    let pages := fun (l : List Miss) => (l.map (fun m => m.pages)).sum
    let kind := fun (m : Miss) => (m.part, m.fsz, m.tid, m.stage, m.read, m.write, m.host)
    let waiters := fun (l : List Miss) => (l.map (fun m => m.jobs.length)).sum
    let flushed := fun (t : State) => ∃ rs, { t with dies := s.dies } = s ∧ (∀ x, x ≠ d → t.die x = s.die x) ∧ (t.die d).batch = [] ∧ (t.die d).out = D.out ++ rs
      ∧ (t.die d).unans = D.unans ∧ (t.die d).seqNo = D.seqNo + BitVec.ofNat 32 rs.length ∧ (t.die d).batchNo = D.batchNo + 1
      ∧ pages rs = pages D.batch ∧ waiters rs = waiters D.batch ∧ rs.length ≤ D.batch.length
      ∧ (∀ m ∈ D.batch, ∃ r ∈ rs, kind r = kind m ∧ r.va ≤ m.va ∧ m.va + m.pages * frameBytes m.fsz ≤ r.va + r.pages * frameBytes r.fsz ∧ ∀ j ∈ m.jobs, j ∈ r.jobs)
      ∧ (∀ r ∈ rs, ∀ i, i < r.pages → ∃ m ∈ D.batch, kind m = kind r ∧ m.va ≤ r.va + i * frameBytes r.fsz ∧ r.va + i * frameBytes r.fsz < m.va + m.pages * frameBytes m.fsz)
      ∧ (∀ i q r, rs[i]? = some q → rs[i + 1]? = some r → q.va ≤ r.va
          ∧ ¬ (kind q = kind r ∧ r.va = q.va + q.pages * frameBytes q.fsz ∧ q.pages + r.pages ≤ 64))
      ∧ ∀ i m, rs[i]? = some m → m.seq = D.seqNo + BitVec.ofNat 32 i
          ∧ m.batch = (if i + 1 = rs.length then (D.batchNo &&& 0x7FFFFFFF) ||| 0x80000000 else D.batchNo &&& 0x7FFFFFFF)
    (64 ≤ D.batch.length → ∃ t, exec (.batchFullFlush d) s = .next t ∧ flushed t)
    ∧ (D.batch.length < 64 → exec (.batchFullFlush d) s = .next s)
    ∧ (D.batch ≠ [] → D.timer + 27200 ≤ s.now → ∃ t, exec (.batchTimerFlush d) s = .next t ∧ flushed t)
    ∧ (D.batch = [] ∨ s.now < D.timer + 27200 → exec (.batchTimerFlush d) s = .next s)
    ∧ (∀ pre m ms p, D.out = pre ++ m :: ms → (∀ x ∈ pre, ∀ q, s.part (if x.stage = 1 then x.part else 0) = some q → q.cfg.faultQSize ≤ q.fqTail - q.fqHead) → s.part (if m.stage = 1 then m.part else 0) = some p → p.fqTail - p.fqHead < p.cfg.faultQSize →
      ∃ t p', exec (.faultRecordDeliver d) s = .next t ∧ (t.die d).out = pre ++ ms ∧ (t.die d).unans = D.unans ++ [m] ∧ t.part (if m.stage = 1 then m.part else 0) = some p'
        ∧ p'.fqTail = p.fqTail + 1
        ∧ (let a := hostAddr (p.cfg.faultQBase + 32 * (p.fqTail % p.cfg.faultQSize))
           OnlyBytes s t a 32 ∧ leNat (rdBytes t.mem a 8) = m.va % 2 ^ 64 ∧ leNat (rdBytes t.mem (a + 8) 4) = m.pages % 2 ^ 32
           ∧ leNat (rdBytes t.mem (a + 12) 1) = m.fsz % 2 ^ 8
           ∧ leNat (rdBytes t.mem (a + 13) 1) = (if m.read then 1 else 0) + (if m.write then 2 else 0) + (if m.stage = 2 then 4 else 0) + (if m.host then 8 else 0)
           ∧ leNat (rdBytes t.mem (a + 16) 3) = m.tid % 2 ^ 24 ∧ rdByte t.mem (a + 19) = 0 ∧ leNat (rdBytes t.mem (a + 26) 1) = d % 2 ^ 8 ∧ rdByte t.mem (a + 27) = 0
           ∧ leNat (rdBytes t.mem (a + 14) 2) = (m.jobs.map (fun j => (j.u, j.b))).eraseDups.length % 2 ^ 16
           ∧ leNat (rdBytes t.mem (a + 24) 2) = s.fnOf m.part % 2 ^ 16 ∧ leNat (rdBytes t.mem (a + 20) 4) = m.seq.toNat ∧ leNat (rdBytes t.mem (a + 28) 4) = m.batch.toNat))
    ∧ (∀ n st, (∀ m ∈ D.unans, m.seq ≠ n) → ∃ t, exec (.rangeReply d n st) s = .next t ∧ { t with errs := s.errs } = s ∧ t.errs = { s.errs with replies := s.errs.replies + 1 })
    ∧ (∀ n st m u b e src own j, D.unans.find? (fun m => decide (m.seq = n)) = some m → m.jobs = [{ u := u, b := b, e := e, src := some src, own := own }] → (s.bank u b).job = some j → j.status = .missing → b < 2 →
      (s.bank u b).fault = none →
      let freed := fun (t : State) => ∀ p, s.part (if m.stage = 1 then m.part else 0) = some p →
        ∃ p', t.part (if m.stage = 1 then m.part else 0) = some p' ∧ { p' with fqHead := p.fqHead } = p ∧ p'.fqHead = p.fqHead + 1
      (st = 0 → ∃ t, exec (.rangeReply d n st) s = .next t ∧ (t.die d).unans = D.unans.filter (fun q => decide (q.seq ≠ n)) ∧ SameMem s t ∧ freed t
        ∧ (t.bank u b).queue e = ((s.bank u b).queue e).map (fun c => if c.seq = src then { c with op := fromStart c.op, held := false } else c)
        ∧ (∀ d ∈ (t.bank u b).departed, d.src ≠ src)
        ∧ (t.stillWaits u b = false → (t.bank u b).job = some { j with status := .ready }))
      ∧ (st ≠ 0 → (s.bank u b).cmd e src ≠ none →
        ∃ t f, exec (.rangeReply d n st) s = .next t ∧ (t.die d).unans = D.unans.filter (fun q => decide (q.seq ≠ n)) ∧ SameMem s t ∧ freed t
        ∧ (t.bank u b).queue e = ((s.bank u b).queue e).map (fun c => if c.seq = src then { c with held := true, lost := true } else c)
        ∧ (t.bank u b).fault = some f ∧ f.code = 0x0007 ∧ f.eng = e ∧ f.da = BitVec.ofNat 64 own ∧ (t.bank u b).job = some { j with status := .stopped })))

/-- R399 to R402, R405: the words of the microcode. -/
def Sys2Proof.Spec.MicrocodeWordsTakeEffect : Prop :=
  ∀ (n : Nat) (m : Micro) (s : State) (c : BCmd) (y : Tensor),
    let x := s.bunit n
    let k := s.bank c.u c.b
    let s1 := s.onBunit n (fun z => z.onCtx c.ctx (fun v => v.retire x.cyc))
    let r := (x.ctx c.ctx).retire x.cyc
    let l := (lineOf m r.i c).toNat
    let own := x.wr.any (fun w => decide (w.cmd.seq = c.seq) && decide (w.cmd.u = c.u) && decide (w.cmd.b = c.b))
    let bad := fun (lop : Bool) (rs : Nat) (act : Bool) => breach x r.i r.upc m c lop rs act
    let rest := fun (t : State) => (∀ i, i ≠ c.ctx → (t.bunit n).ctx i = x.ctx i) ∧ (∀ i, i ≠ n → t.bunit i = s.bunit i) ∧ (t.bunit n).ucode = x.ucode ∧ SameMem s t
    let ended := fun (t : State) (z : Ctx) (late : Bool) => rest t ∧ (t.bunit n).ctx c.ctx = z
      ∧ (late = true → (t.bunit n).cmd = some c ∧ (t.bunit n).ending = true)
      ∧ (late = false → (t.bunit n).cmd = none ∧ ∀ q ea N i, k.cmd 5 c.seq = some q → q.op = .bkrun ea N i true →
          (N ≤ i + 1 → Left k (t.bank c.u c.b) 5 c.seq)
          ∧ (i + 1 < N → (t.bank c.u c.b).cmd 5 c.seq = some { q with op := .bkrun ea N (i + 1) false }))
    let after := fun (t : State) (z : Ctx) (late : Bool) =>
      (m.nxt ≠ 3 → rest t ∧ (t.bunit n).cmd = some c ∧ (t.bunit n).cyc = x.cyc + m.wait.toNat + 1 ∧ (t.bunit n).ctx c.ctx = chosen z m ∧ (t.bunit n).queue = x.queue)
      ∧ (m.nxt = 3 → ended t z late)
    let still := fun (t : State) => (m.nxt ≠ 3 → { t with bunits := s.bunits } = s) ∧ (t.bunit n).wr = x.wr ∧ (t.bunit n).pages = x.pages ∧ (t.bunit n).lastAct = x.lastAct
    x.cmd = some c → x.ending = false → x.cyc ≤ s.now / 2 → (∀ w ∈ x.wr, x.cyc < w.due) → s.tensor c.tid = some y →
    (∀ p ∈ resultWords n m r, bad false p.2.1 false = 0 →
      ∃ t v, exec p.1 s = .next t ∧ after t { r with pend := r.pend ++ [{ due := x.cyc + p.2.2.2.1, reg := p.2.2.1, row := v }] } own ∧ still t ∧ p.2.2.2.2 v)
    ∧ (bad true 1 false = 0 →
      let a := physAddr (lineAt c l).1 (lineAt c l).2.1 (lineAt c l).2.2
      (∀ s2, s1.raceTile c.u c.b 5 c.ep y c.tile .read = .ok s2 →
        ∃ t v, exec (.bankUnitRd n m) s = .next t
          ∧ after t { r with pend := r.pend ++ [{ due := x.cyc + 10, reg := if m.rs = 0 then 1 else 2, row := v }] } own
          ∧ (t.bunit n).wr = x.wr ∧ (t.bunit n).pages = x.pages ∧ (t.bunit n).lastAct = x.lastAct
          ∧ (∀ i, i < 512 → v.el 8 i = if y.fmt = 6 ∧ 504 ≤ i then 0 else (rdByte s.mem (a + i)).toNat)
          ∧ ∀ g, g < 32 → v.poison.getLsbD g = get false s.poison (a / 16 + g))
      ∧ (∀ f q ea N i, s1.raceTile c.u c.b 5 c.ep y c.tile .read = .error f → k.cmd 5 c.seq = some q → q.op = .bkrun ea N i true → k.fault = none →
        ∃ t g, exec (.bankUnitRd n m) s = .next t ∧ (t.bunit n).cmd = none ∧ (t.bank c.u c.b).fault = some g ∧ g.code = f.code ∧ g.eng = 5 ∧ g.da = f.da
          ∧ g.db = (if f.code = 0x000B then f.db else BitVec.ofNat 64 i) ∧ SameMem s t))
    ∧ (bad true 0 false = 0 → ∃ t, exec (.bankUnitWr n m) s = .next t ∧ after t r true
        ∧ (t.bunit n).wr = x.wr ++ [{ due := x.cyc + 8, line := l, row := r.acc, cmd := c }] ∧ (t.bunit n).pages = x.pages ∧ (t.bunit n).lastAct = x.lastAct)
    ∧ (bad true 0 true = 0 →
      let page := (lineAt c l).2.2 % unitSpan (lineAt c l).1 / 2048
      ∃ t, exec (.bankUnitAct n m) s = .next t ∧ after t r own ∧ (t.bunit n).wr = x.wr
        ∧ (∀ i, get none (t.bunit n).pages i = if i = page % 16 then some (page, x.cyc) else get none x.pages i)
        ∧ ∀ i, get none (t.bunit n).lastAct i = if i = page % 16 then some x.cyc else get none x.lastAct i)
    ∧ (bad false 0 false = 0 →
      (∃ t, exec (.bankUnitNop n m) s = .next t ∧ after t r own ∧ still t)
      ∧ (m.nxt = 3 ∨ s1.ctxAsked n = false → ∃ t, exec (.bankUnitCtx n m) s = .next t ∧ after t r own ∧ still t)
      ∧ (m.nxt ≠ 3 → s1.ctxAsked n = true → ∃ t, exec (.bankUnitCtx n m) s = .next t ∧ still t ∧ rest t ∧ (t.bunit n).cmd = none
          ∧ (t.bunit n).ctx c.ctx = chosen r m ∧ (t.bunit n).cyc = x.cyc + 1 ∧ (t.bunit n).queue = x.queue ++ [{ c with susp := some m.wait.toNat }])
      ∧ (∃ t, exec (.bankUnitEnd n m) s = .next t ∧ ended t r own ∧ (t.bunit n).wr = x.wr ∧ (t.bunit n).pages = x.pages ∧ (t.bunit n).lastAct = x.lastAct))
    ∧ (∀ w ∈ wordForms n m, ∀ q ea N i, bad w.2.1 w.2.2.1 w.2.2.2 ≠ 0 → k.cmd 5 c.seq = some q → q.op = .bkrun ea N i true → k.fault = none →
      ∃ t f, exec w.1 s = .next t ∧ (t.bunit n).cmd = none ∧ (t.bank c.u c.b).fault = some f ∧ f.code = 0x0016 ∧ f.eng = 5
        ∧ f.da = ea ∧ f.db = BitVec.ofNat 64 i ∧ f.dc = BitVec.ofNat 32 (bad w.2.1 w.2.2.1 w.2.2.2 + 256 * r.upc.toNat) ∧ SameMem s t)

/-- R397, R400, R404 to R407: bank-unit commands performed, records, contexts, line writes. -/
def Obligations.BankUnitCommandsProceed : Prop :=
  (∀ (u b : Nat) (s s1 : State) (c : Cmd) (sel ea : DWord) (ws : List DWord),
    let k := s.bank u b
    let n := selUnit sel
    let nw := sel.toNat / 2 ^ 19 % 512
    let fw := sel.toNat / 2 ^ 11 % 256
    k.xfind (fun o => match o with | .bkload _ _ => true | _ => false) = some c → c.op = .bkload sel ea → s.mayPerform u b 5 c = true → s.allArrived u b 5 c = true →
    (s.bunit n).cmd = none → (∀ q ∈ (s.bunit n).queue, q.susp = none) → (s.bunit n).wr = [] → s.readDwords u b c.epoch ea.toNat nw = .ok (ws, s1) →
    ((∀ w ∈ ws, ((s.bunit n).ctx (w.toNat / 2 ^ 42 % 4)).owner = some k.part) →
      ∃ t, exec (.bkloadPerformed u b) s = .next t ∧ Left k (t.bank u b) 5 c.seq ∧ SameMem s t
        ∧ (∀ i w, ws[i]? = some w → get 0 (t.bunit n).ucode (fw + i) = w)
        ∧ (∀ a, a < fw ∨ fw + ws.length ≤ a → get 0 (t.bunit n).ucode a = get 0 (s.bunit n).ucode a)
        ∧ (t.bunit n).ctxs = (s.bunit n).ctxs ∧ ∀ i, i ≠ n → t.bunit i = s.bunit i)
    ∧ ((∃ w ∈ ws, ((s.bunit n).ctx (w.toNat / 2 ^ 42 % 4)).owner ≠ some k.part) → k.fault = none →
      ∃ t f, exec (.bkloadPerformed u b) s = .next t ∧ t.bunits = s.bunits ∧ (t.bank u b).fault = some f ∧ f.code = 0x0007 ∧ f.eng = 5 ∧ f.da = sel))
  ∧ (∀ (n u b : Nat) (s : State) (c : Cmd) (sel : DWord) (i : Nat),
    let k := s.bank u b
    let o := ((s.bunit n).ctx i).owner
    let may := o = some k.part ∨ (o = none ∧ ∃ x, s.part k.part = some x ∧ (n, i) ∈ x.cfg.contexts)
    s.ctxRequest n (fun _ _ => true) = some (u, b, c) → c.op = .bkctx sel i →
    (may → (s.bunit n).cmd = none →
      ∃ t, exec (.contextSwitch n) s = .next t ∧ OnlyUnit s t u ∧ SameMem s t ∧ (t.bunit n).run = i
        ∧ (t.bunit n).ctx i = (if o = none then { owner := some k.part } else (s.bunit n).ctx i)
        ∧ (∀ x, x ≠ i → (t.bunit n).ctx x = (s.bunit n).ctx x) ∧ (∀ f, f ≠ 5 → (t.bank u b).queue f = k.queue f) ∧ (t.bank u b).cmd 5 c.seq = none)
    ∧ (¬ may → k.fault = none →
      ∃ t f, exec (.contextSwitch n) s = .next t ∧ t.bunits = s.bunits ∧ (t.bank u b).fault = some f ∧ f.code = 0x0007 ∧ f.da = sel)
    ∧ (may → (s.bunit n).cmd ≠ none → exec (.contextSwitch n) s = .next s))
  ∧ (∀ (u b : Nat) (s s1 : State) (c : Cmd) (ea : DWord) (N k : Nat) (ws : List DWord),
    s.nextRecord u b = some (c, ea, N, k) → s.readDwords u b c.epoch (ea.toNat + 32 * k) 4 = .ok (ws, s1) →
    (∀ i q, s1.bkCheck u b c ea k (bkRec ws) = .ok (i, q) →
      ∃ t, exec (.bkrunRecordStart u b) s = .next t ∧ SameMem s t ∧ (t.bunit i).queue = (s.bunit i).queue ++ [q]
        ∧ q.u = u ∧ q.b = b ∧ q.seq = c.seq ∧ q.ctx = (ws.getD 1 0).toNat / 256 % 4 ∧ q.entry = (ws.getD 1 0).extractLsb' 0 8 ∧ q.lc = (ws.getD 1 0).extractLsb' 16 16
        ∧ q.step = (ws.getD 1 0).extractLsb' 32 32 ∧ q.lines = (ws.getD 2 0).extractLsb' 0 32 ∧ q.va = ws.getD 0 0
        ∧ (∀ z T S B, s1.window (s1.bank u b).part q.va.toNat = some z → s1.translate z (z.ofFlat q.va.toNat).1 (s1.bank u b).pasid false = .frame T S B →
            let l1 := (frameBytes z.fsz - (z.tbase + (q.va.toNat - z.wbase)) % frameBytes z.fsz) / 512
            let one := z.tiled = true ∨ z.part = 0 ∨ q.lines.toNat ≤ l1
            q.tid = z.id ∧ q.tile = (z.ofFlat q.va.toNat).1
            ∧ (∀ l, one ∨ l < l1 → lineAt q l = (T, S, B + (z.ofFlat q.va.toNat).2 + 512 * l))
            ∧ ∀ l T' S' B', ¬ one → l1 ≤ l → s1.translate z (z.ofFlat (q.va.toNat + 512 * l1)).1 (s1.bank u b).pasid false = .frame T' S' B' →
                lineAt q l = (T', S', B' + (z.ofFlat (q.va.toNat + 512 * l1)).2 + 512 * (l - l1)))
        ∧ (∀ n, n ≠ i → t.bunit n = s.bunit n) ∧ ∃ o : Cmd, (t.bank u b).cmd 5 c.seq = some { o with op := .bkrun ea N k true })
    ∧ (∀ f, s1.bkCheck u b c ea k (bkRec ws) = .error (.flt f) → (s.bank u b).fault = none →
      ∃ t g, exec (.bkrunRecordStart u b) s = .next t ∧ t.bunits = s.bunits ∧ (t.bank u b).fault = some g ∧ g.code = f.code ∧ g.eng = 5 ∧ g.da = f.da
        ∧ g.db = if f.code = 0x000B then f.db else BitVec.ofNat 64 k))
  ∧ (∀ (n : Nat) (s : State),
    let x := s.bunit n
    let t0 := max x.cyc (s.now / 2)
    x.cmd = none → s.ctxAsked n = false →
    (∀ pre c post, x.queue = pre ++ c :: post → c.ctx = x.run → c ∉ pre → (∀ q ∈ x.queue, q.ctx = x.run → q.susp = none) → (∀ q ∈ pre, q.ctx ≠ x.run) →
      ∃ t, exec (.bankUnitCommandStart n) s = .next t ∧ { t with bunits := s.bunits } = s ∧ (t.bunit n).cmd = some c ∧ (t.bunit n).queue = pre ++ post
        ∧ (t.bunit n).cyc = t0 ∧ (t.bunit n).ctx c.ctx = { x.ctx c.ctx with upc := c.entry, lc := c.lc, i := 0 })
    ∧ (∀ pre c post w, x.queue = pre ++ c :: post → c.ctx = x.run → c ∉ pre → c.susp = some w → (∀ q ∈ pre, q.ctx = x.run → q.susp = none) →
      ∃ t, exec (.bankUnitCommandStart n) s = .next t ∧ { t with bunits := s.bunits } = s ∧ (t.bunit n).cmd = some { c with susp := none }
        ∧ (t.bunit n).queue = pre ++ post ∧ (t.bunit n).cyc = t0 + w + 1 ∧ (t.bunit n).ctxs = x.ctxs)
    ∧ ((∀ q ∈ x.queue, q.ctx ≠ x.run) → exec (.bankUnitCommandStart n) s = .next s))
  ∧ (∀ (n : Nat) (s s3 : State) (w : BWrite) (ws : List BWrite) (y : Tensor),
    let s1 := s.onBunit n (fun x => { x with wr := ws })
    let x := s.bunit n
    let early := s.now / 2 < w.due ∨ (x.cmd ≠ none ∧ x.ending = false ∧ x.cyc < w.due)
    x.wr = w :: ws →
    (early → exec (.bankUnitWritePerformed n) s = .next s)
    ∧ (¬ early → x.ending = false → s.tensor w.cmd.tid = some y →
    s1.raceTile w.cmd.u w.cmd.b 5 w.cmd.ep y w.cmd.tile .write = .ok s3 →
    (∀ q v k, s.part w.cmd.part = some q → q.dirty = some (v, k) → q.dlTail + q.dlPend.length < 2 ^ k + q.dlHead) →
    let a := physAddr (lineAt w.cmd w.line).1 (lineAt w.cmd w.line).2.1 (lineAt w.cmd w.line).2.2
    let N := if y.fmt = 6 then 504 else 512
    ∃ t, exec (.bankUnitWritePerformed n) s = .next t ∧ (t.bunit n).wr = ws ∧ (∀ i, i < N → (rdByte t.mem (a + i)).toNat = w.row.el 8 i) ∧ OnlyBytes s t a N
      ∧ (∀ g, g < N / 16 → get false t.poison (a / 16 + g) = w.row.poison.getLsbD g)
      ∧ ∀ g, (g < a / 16 ∨ a / 16 + N / 16 ≤ g) → get false t.poison g = get false s.poison g))

namespace Sys2Proof.Spec

/-! ### The package edge (22 R414 to R429) -/

/-- From `s` to `t` queue `g` has become `q`, and nothing else differs but that the module is awake. -/
def QueueOnly (s t : State) (g : Nat) (q : Queue) : Prop :=
  { t with queues := s.queues, power := s.power } = s ∧ t.power = 0 ∧ t.queue g = q ∧ ∀ x, x ≠ g → t.queue x = s.queue x

/-- From `s` to `t` no function but `f` differs, which has become `x`. -/
def FuncIs (s t : State) (f : Nat) (x : Func) : Prop := t.func f = x ∧ ∀ g, g ≠ f → t.func g = s.func g

/-- An interrupt of vector `v` of function `f` has been sent through the remapping table (R424). -/
def Signalled (s t : State) (f v : Nat) : Prop :=
  let x : Remap := get {} s.remap (2048 * f + v)
  (x.v = false → t.errs = { s.errs with irqs := s.errs.irqs + 1 } ∧ t.sent = s.sent ∧ t.remap = s.remap)
  ∧ (x.v = true → x.m = false → t.sent = s.sent ++ [Sent.irq x.addr x.data] ∧ t.errs = s.errs ∧ t.remap = s.remap)
  ∧ (x.v = true → x.m = true → t.sent = s.sent ∧ t.errs = s.errs ∧ get {} t.remap (2048 * f + v) = { x with held := true }
      ∧ ∀ i, i ≠ 2048 * f + v → get {} t.remap i = get {} s.remap i)

/-- The bytes `r` stand at address `a` of host memory, and no other byte of memory has changed. -/
def HostBytes (s t : State) (a : Nat) (r : List Byte) : Prop :=
  OnlyBytes s t (hostAddr a) r.length ∧ rdBytes t.mem (hostAddr a) r.length = r

/-- A completion record of R422. -/
def RecordOf (s : State) (r : List Byte) (stamp status q f : Nat) (tag : Nat) (detail iters : Nat) : Prop :=
  r.length = 32 ∧ leAt r 0 2 = stamp % 2 ^ 16 ∧ leAt r 2 2 = status % 2 ^ 16 ∧ leAt r 4 2 = q % 2 ^ 16 ∧ leAt r 6 2 = f % 2 ^ 16
    ∧ leAt r 8 8 = tag % 2 ^ 64 ∧ leAt r 16 8 = (s.cycleOf 0).toNat ∧ leAt r 24 4 = detail % 2 ^ 32 ∧ leAt r 28 4 = iters % 2 ^ 32

/-- Record `r` has gone to host address `a` and to completion queue `c` of function `f`, each if named (R422). -/
def Recorded (s t : State) (f a c vec : Nat) (r : List Byte) : Prop :=
  let x : Cq := get {} (s.func f).cqs c
  (if a = 0 then SameMem s t else HostBytes s t a r)
    ∧ get {} (t.func f).cqs c = (if c ≠ 0xFFFF ∧ x.live = true then { x with pend := x.pend ++ [(r, vec)] } else x)

/-- The local checks of R419, in their order, on packet `bs` of function `f`: the status and DETAIL of a refusal, or none. -/
def Verdict (s : State) (f : Nat) (bs : List Byte) (r : Option (Nat × Nat)) : Prop :=
  let p := s.fnPart f
  (∃ o, s.badField f bs = some o ∧ r = some (0x0502, o))
  ∨ (s.badField f bs = none ∧ (s.func f).hasPasid (leAt bs 4 4) = false ∧ r = some (0x0501, leAt bs 4 4))
  ∨ (s.badField f bs = none ∧ (s.func f).hasPasid (leAt bs 4 4) = true ∧ ∃ rs, s.records p { fn := f, id := leAt bs 4 4 } bs = some rs
      ∧ ((∃ i x, rs[i]? = some x ∧ s.taskOk p (leAt bs 32 8) (leAt bs 40 8) x = false
            ∧ (∀ j y, j < i → rs[j]? = some y → s.taskOk p (leAt bs 32 8) (leAt bs 40 8) y = true) ∧ r = some (0x0301, i))
        ∨ ((∀ x ∈ rs, s.taskOk p (leAt bs 32 8) (leAt bs 40 8) x = true)
            ∧ ((leAt bs 18 2 = 0xFFFE ∧ r = some (0x0502, 18))
              ∨ (leAt bs 18 2 ≠ 0xFFFE ∧ (∃ st, s.bind p (leAt bs 18 2) = .error st) ∧ r = some (0x0702, leAt bs 18 2))
              ∨ ((∃ w, s.bind p (leAt bs 18 2) = .ok w) ∧ r = none)))))

/-- From `s` to `t` queue `g` has left the packet that it reads (R445): alone nothing follows; in a fabric a digest that it has sent is taken back, and nothing else is sent. -/
def Withdrawn (s t : State) (g : Nat) : Prop :=
  let q := s.queue g
  let n := (s.members (s.queuePart g)).1
  (n = 1 → (t.queue g).digests = q.digests ∧ (t.queue g).owed = q.owed ∧ (t.queue g).gaveUp = q.gaveUp ∧ t.sent = s.sent)
  ∧ (n ≠ 1 → ((∃ w d bs rs z, q.reading = some (.fabric (.value w) d bs rs z)) → t.sent = s.sent ++ [Sent.digest g .withdraw])
      ∧ ((∀ w d bs rs z, q.reading ≠ some (.fabric (.value w) d bs rs z)) → t.sent = s.sent))

/-- Move `i` has packet `bs` of queue `q` to check: at the first read of its slot, at the second one 1 µs later, or as task records that missed are read again (R419, R428). -/
def HasPacket (s : State) (q : Nat) (i : Instr) (bs : List Byte) : Prop :=
  let x := s.queue q
  (((i = .packetRead q ∧ x.state = .running ∧ x.reading = none)
      ∨ (i = .stampRecheck q ∧ (x.state = .running ∨ x.state = .paused) ∧ ∃ t0, x.reading = some (.stamp t0) ∧ t0 + 1700 ≤ s.now))
    ∧ s.ringOk x.slotAt = true ∧ bs = s.hostGet x.slotAt 64 ∧ leAt bs 0 2 = x.head.toNat % 65536)
  ∨ (i = .packetRead q ∧ (x.state = .running ∨ x.state = .paused) ∧ x.reading = some (.records bs))

/-- From `s` to `t` queue `q` has gone to ERROR with `code` (R419, R427); in a fabric it says so once, and the digests that others still send for its packet are owed (R445). -/
def QueueFails (s t : State) (q code : Nat) : Prop :=
  let x := s.queue q
  let m := s.members (s.queuePart q)
  { t with queues := s.queues, sent := s.sent } = s ∧ (∀ g, g ≠ q → t.queue g = s.queue g)
  ∧ { t.queue q with digests := x.digests, owed := x.owed, gaveUp := x.gaveUp } = { x with state := .error, err := BitVec.ofNat 16 code, reading := none }
  ∧ (m.1 = 1 → (t.queue q).digests = x.digests ∧ (t.queue q).owed = x.owed ∧ (t.queue q).gaveUp = x.gaveUp ∧ t.sent = s.sent)
  ∧ (m.1 ≠ 1 → t.sent = s.sent ++ (if x.gaveUp = true then [] else [Sent.digest q (.refusal code)]) ∧ (t.queue q).gaveUp = false
      ∧ (t.queue q).owed = x.owed ++ (List.range m.1).filter (fun i => decide (i ≠ m.2) && x.digests.all (fun d => decide (d.1 ≠ i))))

/-- From `s` to `t` queue `q` has refused packet `bs` with `st` (R419): its record is written and HEAD moves on; no packet is accepted. -/
def Refused (s t : State) (q : Nat) (bs : List Byte) (st detail : Nat) : Prop :=
  let x := s.queue q
  (∃ ds, t.queue q = { x with head := x.head + 1, reading := none, digests := ds, gaveUp := (t.queue q).gaveUp })
  ∧ t.packets = s.packets ∧ t.domains = s.domains ∧ t.versions = s.versions
  ∧ ∃ r, RecordOf s r (x.head.toNat % 65536) st q x.fn (leAt bs 56 8) detail 0
      ∧ Recorded s t x.fn (if leAt bs 24 8 % 32 = 0 then leAt bs 24 8 else 0) (if leAt bs 20 2 < 64 then leAt bs 20 2 else 0xFFFF) (leAt bs 22 2) r

/-- From `s` to `t` queue `q` has accepted packet `bs` with the binding `w` (R418, R419, R452). -/
def Accepted (s t : State) (q : Nat) (bs : List Byte) (w : Option Nat) : Prop :=
  let x := s.queue q
  let p := s.fnPart x.fn
  (∃ ds, t.queue q = { x with head := x.head + 1, reading := none, digests := ds, gaveUp := (t.queue q).gaveUp }) ∧ SameMem s t
  ∧ t.pids = s.pids + 1 ∧ (∀ i, i ≠ s.pids + 1 → get none t.packets i = get none s.packets i)
  ∧ ∃ k, get none t.packets (s.pids + 1) = some k ∧ k.queue = q ∧ k.idx = x.head.toNat ∧ k.fn = x.fn ∧ k.part = p ∧ k.marker = decide (leAt bs 2 1 = 1)
      ∧ k.prio = leAt bs 3 1 % 8 ∧ k.fence = (decide (leAt bs 3 1 / 8 % 2 = 1) && decide (leAt bs 2 1 = 0)) ∧ k.pasid = leAt bs 4 4
      ∧ k.cq = leAt bs 20 2 ∧ k.vec = leAt bs 22 2 ∧ k.recAt = BitVec.ofNat 64 (leAt bs 24 8) ∧ k.args = BitVec.ofNat 64 (leAt bs 32 8)
      ∧ k.wq = leAt bs 48 4 ∧ k.wth = BitVec.ofNat 32 (leAt bs 52 4) ∧ k.tag = BitVec.ofNat 64 (leAt bs 56 8) ∧ k.wver = w
      ∧ k.tasks.length = leAt bs 16 2 ∧ (∀ i z, k.tasks[i]? = some z → z.addr = BitVec.ofNat 64 (leAt bs 8 8 + 128 * i) ∧ z.ended = 0 ∧ z.disc = 0 ∧ z.dropped = false)
      ∧ ∀ v z, k.wver = some v → s.version p v = some z → t.version p v = some { z with bound := z.bound + 1 }

end Sys2Proof.Spec

/-- R416, R417, R424, R425; 14 R340: registers, completion queues and BAR windows. -/
def Obligations.HostRegistersAndWindows : Prop :=
  (∀ (f l g : Nat) (v : Word) (s : State), s.exposed f = true → s.globalQ f l = some g →
    let q := s.queue g
    (q.state = .running ∨ q.state = .paused → (v - q.head).toNat ≤ 2 ^ q.k →
      ∃ t, exec (.tail f l v) s = .next t ∧ QueueOnly s t g { q with tail := v })
    ∧ (q.state = .running ∨ q.state = .paused → 2 ^ q.k < (v - q.head).toNat →
      ∃ t, exec (.tail f l v) s = .next t ∧ { t with queues := s.queues, power := s.power, sent := s.sent } = s ∧ t.power = 0 ∧ (∀ x, x ≠ g → t.queue x = s.queue x)
        ∧ { t.queue g with digests := q.digests, owed := q.owed, gaveUp := q.gaveUp } = { q with tail := v, state := .error, err := 0x0507, reading := none }
        ∧ Withdrawn s t g)
    ∧ (q.state ≠ .running → q.state ≠ .paused →
      ∃ t, exec (.tail f l v) s = .next t ∧ { t with errs := s.errs, power := s.power } = s ∧ t.power = 0 ∧ t.errs = { s.errs with tails := s.errs.tails + 1 }))
  ∧ (∀ (f : Nat) (v : Word) (s : State), s.exposed f = true →
    let x := s.func f
    (x.state ≠ .error → (v - x.head).toNat ≤ 2 ^ x.ringK →
      ∃ t, exec (.adminTail f v) s = .next t ∧ { t with funcs := s.funcs, power := s.power } = s ∧ FuncIs s t f { x with tail := v, state := .running })
    ∧ (x.state ≠ .error → 2 ^ x.ringK < (v - x.head).toNat →
      ∃ t, exec (.adminTail f v) s = .next t ∧ { t with funcs := s.funcs, power := s.power } = s ∧ FuncIs s t f { x with tail := v, state := .error, err := 0x0507 })
    ∧ (x.state = .error → ∃ t, exec (.adminTail f v) s = .next t ∧ { t with errs := s.errs, power := s.power } = s ∧ t.power = 0 ∧ t.errs = { s.errs with tails := s.errs.tails + 1 }))
  ∧ (∀ (f : Nat) (v : DWord) (s : State), s.exposed f = true →
    let x := s.func f
    (x.tail = x.head → ∃ t, exec (.adminBase f v) s = .next t ∧ { t with funcs := s.funcs } = s ∧ FuncIs s t f { x with base := v &&& 0xFFFFFFFFFFFFF00F })
    ∧ (x.tail ≠ x.head → exec (.adminBase f v) s = .next s))
  ∧ (∀ (f c : Nat) (v : Word) (s : State), s.exposed f = true → c < 64 →
    ∃ t, exec (.cqh f c v) s = .next t ∧ { t with funcs := s.funcs } = s ∧ (∀ g, g ≠ f → t.func g = s.func g)
      ∧ { t.func f with cqh := (s.func f).cqh } = s.func f ∧ get 0 (t.func f).cqh c = v ∧ ∀ d, d ≠ c → get 0 (t.func f).cqh d = get 0 (s.func f).cqh d)
  ∧ (∀ (f o : Nat) (v : DWord) (s : State),
    let w : Word := v.setWidth 32
    (o = 0 → exec (.registerWrite f o v) s = exec (.adminTail f w) s) ∧ (o = 0x010 → exec (.registerWrite f o v) s = exec (.adminBase f v) s)
    ∧ (∀ c, c < 64 → o = 0x800 + 8 * c → exec (.registerWrite f o v) s = exec (.cqh f c w) s)
    ∧ (∀ l, l < 256 → o = 0x1000 * (l + 1) → exec (.registerWrite f o v) s = exec (.tail f l w) s)
    ∧ (o ≠ 0 → o ≠ 0x010 → (∀ c, c < 64 → o ≠ 0x800 + 8 * c) → (∀ l, l < 256 → o ≠ 0x1000 * (l + 1)) → exec (.registerWrite f o v) s = .next s))
  ∧ (∀ (f o : Nat) (rest : List Move) (s : State), s.agenda = .registerRead f o :: rest →
    let r : State := { s with agenda := rest }
    (s.exposed f = false → step s = .next r)
    ∧ (s.exposed f = true → ∃ v, v < 2 ^ 64 ∧ step s = .next { r with sent := s.sent ++ [Sent.answer (leBytes 8 v)] }
        ∧ (o = 0x000 → v = (s.func f).tail.toNat) ∧ (o = 0x010 → v = (s.func f).base.toNat)
        ∧ (o = 0x008 → v = (s.func f).head.toNat * 2 ^ 32 + (s.func f).err.toNat * 2 ^ 16 + (s.func f).state.code)
        ∧ (∀ c, c < 64 → o = 0x800 + 8 * c → v = (get 0 (s.func f).cqh c).toNat)
        ∧ (∀ l g, l < 256 → s.globalQ f l = some g → (o = 0x1000 * (l + 1) → v = (s.queue g).tail.toNat)
            ∧ (o = 0x1000 * (l + 1) + 0x008 → v = (s.queue g).head.toNat * 2 ^ 32 + (s.queue g).err.toNat * 2 ^ 16 + (s.queue g).state.code)
            ∧ (o = 0x1000 * (l + 1) + 0x018 → v = (s.queue g).done.toNat))
        ∧ (o = 0x100 → v = if f = 0 then s.bootst.toNat else 0)
        ∧ ((∀ x ∈ [0x000, 0x008, 0x010, 0x100], o ≠ x) → (∀ c, c < 64 → o ≠ 0x800 + 8 * c)
            → (∀ l g, l < 256 → s.globalQ f l = some g → ∀ x ∈ [0x000, 0x008, 0x018], o ≠ 0x1000 * (l + 1) + x) → v = 0)))
  ∧ (∀ (f c : Nat) (s : State) (r : List Byte) (vec : Nat) (rest : List (List Byte × Nat)),
    let y : Cq := get {} (s.func f).cqs c
    y.pend = (r, vec) :: rest →
    let resets := ∃ z n, s.part (s.fnPart f) = some z ∧ z.state = .resetting n
    ((y.tail - get 0 (s.func f).cqh c).toNat < 2 ^ y.k → ¬ resets →
      ∃ t, exec (.cqAppend f c) s = .next t ∧ HostBytes s t (y.base + 32 * (y.tail.toNat % 2 ^ y.k)) r
        ∧ { t with mem := s.mem, funcs := s.funcs, sent := s.sent, errs := s.errs, remap := s.remap } = s
        ∧ get {} (t.func f).cqs c = { y with tail := y.tail + 1, pend := rest } ∧ (∀ d, d ≠ c → get {} (t.func f).cqs d = get {} (s.func f).cqs d)
        ∧ (vec ≠ 0xFFFF → Signalled s t f vec) ∧ (vec = 0xFFFF → t.sent = s.sent ∧ t.errs = s.errs ∧ t.remap = s.remap))
    ∧ (2 ^ y.k ≤ (y.tail - get 0 (s.func f).cqh c).toNat ∨ resets → exec (.cqAppend f c) s = .next s))
  ∧ (∀ (p va : Nat) (s : State),
    let a := va / 64 * 64
    ∃ t bs, exec (.hostBarRead p va) s = .next t ∧ { t with sent := s.sent, free := s.free } = s ∧ t.sent = s.sent ++ [Sent.answer bs] ∧ bs.length = 64
      ∧ ∀ i, i < 64 → (∀ x, s.barAddr p (a + i) false = some x → bs[i]? = some (if s.barPad p (a + i) then 0 else rdByte s.mem x)) ∧ (s.elided p (a + i) = true → bs[i]? = some 0))
  ∧ (∀ (p va : Nat) (data : List Byte) (s : State), data ≠ [] → (∀ q w k, s.part p = some q → q.dirty = some (w, k) → q.dlTail + q.dlPend.length < 2 ^ k + q.dlHead) →
    ((∀ i, i < data.length → s.barPad p (va + i) = true ∨ s.barAddr p (va + i) true = none) → ∃ t, exec (.hostBarWrite p va data) s = .next t ∧ SameMem s t)
    ∧ (∀ b y n, s.tensor y.id = some y → (∀ i, i < data.length → s.window p (va + i) = some y ∧ (y.ofFlat (va + i)).1 = n ∧ s.barAddr p (va + i) true = some (b + i) ∧ s.barPad p (va + i) = false) →
      ∃ t, exec (.hostBarWrite p va data) s = .next t ∧ rdBytes t.mem b data.length = data ∧ OnlyBytes s t b data.length ∧ t.errs = s.errs
        ∧ (∀ i, i + 16 ≤ data.length → (va + i) % 16 = 0 → get false t.poison ((b + i) / 16) = false)
        ∧ (∀ g, (∀ i, i + 16 ≤ data.length → (va + i) % 16 = 0 → (b + i) / 16 ≠ g) → get false t.poison g = get false s.poison g)
        ∧ (y.tiled = true → ∃ y', t.tensor y.id = some y' ∧ (y'.tile n).stamp = {} ∧ (y'.tile n).stamp.pcore = 0x3FF ∧ (y'.tile n).d = true))
    ∧ ((∀ i, i < data.length → s.elided p (va + i) = true) →
      ∃ t, exec (.hostBarWrite p va data) s = .next t ∧ { t with errs := s.errs } = s ∧ t.errs = { s.errs with bar := s.errs.bar + 1 }))

/-- R419, R421, R422, R426, R427; 23 R445: reading, refusing, accepting and completing packets. -/
def Obligations.PacketsAreReadAndCompleted : Prop :=
  (∀ (q : Nat) (s : State) (i : Instr),
    let x := s.queue q
    let bs := s.hostGet x.slotAt 64
    s.queueReads q = true →
    ((i = .packetRead q ∧ x.state = .running ∧ x.reading = none) ∨ (i = .stampRecheck q ∧ (x.state = .running ∨ x.state = .paused) ∧ ∃ t0, x.reading = some (.stamp t0) ∧ t0 + 1700 ≤ s.now)) →
    (s.ringOk x.slotAt = false → ∃ t, exec i s = .next t ∧ QueueFails s t q 0x0506)
    ∧ (s.ringOk x.slotAt = true → leAt bs 0 2 ≠ x.head.toNat % 65536 →
      (i = .packetRead q → ∃ t, exec i s = .next t ∧ { t with queues := s.queues } = s ∧ t.queue q = { x with reading := some (.stamp s.now) } ∧ ∀ g, g ≠ q → t.queue g = s.queue g)
      ∧ (i ≠ .packetRead q → ∃ t, exec i s = .next t ∧ QueueFails s t q 0x0505)))
  ∧ (∀ (q : Nat) (s : State) (i : Instr) (bs : List Byte),
    let x := s.queue q
    let p := s.fnPart x.fn
    s.queueReads q = true → HasPacket s q i bs →
    (s.badField x.fn bs = none → (s.func x.fn).hasPasid (leAt bs 4 4) = true → s.records p { fn := x.fn, id := leAt bs 4 4 } bs = none →
      ∃ t, exec i s = .next t ∧ { t with queues := s.queues, dies := s.dies, versions := s.versions } = s ∧ t.queue q = { x with reading := some (.records bs) })
    ∧ ((s.members (s.queuePart q)).1 = 1 →
      (∀ st d, Verdict s x.fn bs (some (st, d)) → ∃ t, exec i s = .next t ∧ Refused s t q bs st d)
      ∧ (∀ w, Verdict s x.fn bs none → s.bind p (leAt bs 18 2) = .ok w → ∃ t, exec i s = .next t ∧ Accepted s t q bs w))
    ∧ (∀ v, 2 ≤ (s.members (s.queuePart q)).1 → (s.members (s.queuePart q)).2 < (s.members (s.queuePart q)).1 → x.gaveUp = false → x.digests = [] → Verdict s x.fn bs v →
      ∃ t own d rs w, exec i s = .next t ∧ (∀ st o, v = some (st, o) → own = .refusal st ∧ d = o)
        ∧ (v = none → own = .value (Config.shake256 ((bs.drop 2).take 18 ++ bs.drop 32 ++ rs.flatten)) ∧ s.records p { fn := x.fn, id := leAt bs 4 4 } bs = some rs ∧ s.bind p (leAt bs 18 2) = .ok w)
        ∧ t.queue q = { x with reading := some (.fabric own d bs rs w) } ∧ t.sent = s.sent ++ [Sent.digest q own] ∧ { t with queues := s.queues, sent := s.sent } = s))
  ∧ (∀ (q r : Nat) (d : Digest) (s : State),
    let x := s.queue q
    let n := (s.members (s.queuePart q)).1
    let me := (s.members (s.queuePart q)).2
    let ds := if d = .withdraw then (withdrawn r x.digests.reverse).reverse else x.digests ++ [(r, d)]
    let first := fun (i : Nat) => (ds.find? (fun z => decide (z.1 = i))).map Prod.snd
    r < n → r ≠ me →
    (d ≠ .withdraw → r ∈ x.owed → ∃ t, exec (.fabricDigest q r d) s = .next t ∧ QueueOnly s t q { x with owed := x.owed.erase r })
    ∧ (d = .withdraw ∨ r ∉ x.owed →
      ((∀ own e bs rs w, x.reading ≠ some (.fabric own e bs rs w)) ∨ (∃ i, i < n ∧ i ≠ me ∧ first i = none) →
        ∃ t, exec (.fabricDigest q r d) s = .next t ∧ QueueOnly s t q { x with digests := ds })
      ∧ (∀ own e bs rs w, x.reading = some (.fabric own e bs rs w) → (∀ i, i < n → i ≠ me → first i ≠ none) → me < n →
        let word := fun (i : Nat) => if i = me then some own else first i
        let odd := fun (i : Nat) => i < n ∧ ∀ v, word i = some (.value v) → word 0 ≠ some (.value v)
        (∀ st, own = .refusal st → st ≠ 0x0701 → ∃ t, exec (.fabricDigest q r d) s = .next t ∧ Refused s t q bs st e)
        ∧ (own = .refusal 0x0701 → ∃ t i, exec (.fabricDigest q r d) s = .next t ∧ odd i ∧ (∀ j, j < i → ¬ odd j) ∧ Refused s t q bs 0x0701 i)
        ∧ (∀ v, own = .value v → (∀ i, i < n → i ≠ me → first i = some (.value v)) → rs.length = leAt bs 16 2 →
            ∃ t, exec (.fabricDigest q r d) s = .next t
              ∧ Accepted s t q bs (match s.bind (s.fnPart x.fn) (leAt bs 18 2) with | .ok z => z | .error _ => w))
        ∧ (∀ v, own = .value v → (∃ i, i < n ∧ i ≠ me ∧ first i ≠ some (.value v)) →
            ∃ t i, exec (.fabricDigest q r d) s = .next t ∧ odd i ∧ (∀ j, j < i → ¬ odd j) ∧ Refused s t q bs 0x0701 i))))
  ∧ (∀ (q i pid : Nat) (p : Packet) (s : State), pid ≠ 0 → (s.packetsOf q).find? (fun y => decide (y.2.idx = i)) = some (pid, p) →
    let disc := (p.tasks.map (fun z => z.disc)).sum
    ((∀ z ∈ p.tasks, s.taskDone pid p z = true) → (∀ y n, s.part p.part = some y → y.state ≠ .resetting n) → (p.marker = true → ((s.packetsOf q).head?.map Prod.fst) = some pid) →
      ∃ t r, exec (.packetComplete q i) s = .next t ∧ t.queue q = { s.queue q with done := (s.queue q).done + 1 } ∧ get none t.packets pid = none
        ∧ (∀ x, x ≠ pid → get none t.packets x = get none s.packets x)
        ∧ RecordOf s r (i % 65536) (if disc ≠ 0 ∨ (s.queue q).discard = true then 0x0504 else 0) q p.fn p.tag.toNat disc p.iters
        ∧ Recorded s t p.fn p.recAt.toNat p.cq p.vec r
        ∧ (∀ v z, p.wver = some v → s.version p.part v = some z → t.version p.part v = some { z with bound := z.bound - 1 })
        ∧ ∀ tid y, s.tensor tid = some y → ∃ y', t.tensor tid = some y'
            ∧ ∀ n, (y'.tile n).stamp = (if (y.tile n).stamp.pkt = pid then { (y.tile n).stamp with shut := true } else (y.tile n).stamp))
    ∧ ((∃ z ∈ p.tasks, s.taskDone pid p z = false) ∨ (∃ y n, s.part p.part = some y ∧ y.state = .resetting n) ∨ (p.marker = true ∧ ((s.packetsOf q).head?.map Prod.fst) ≠ some pid) → exec (.packetComplete q i) s = .next s))
  ∧ (∀ (q : Nat) (s : State),
    let x := s.queue q
    let y := s.func x.fn
    let bs := s.hostGet y.ringAt 64
    let ends := y.tail ≠ y.head ∧ leAt bs 2 2 = 0x02 ∧ s.globalQ x.fn (leAt bs 4 4) = some q
    (x.state = .draining → s.packetsOf q = [] → ∃ t, exec (.queueDrained q) s = .next t ∧ t.queue q = { x with state := .disabled, discard := false } ∧ t.packets = s.packets
      ∧ (¬ ends → { t with queues := s.queues } = s)
      ∧ (ends → (t.func x.fn).head = y.head + 1 ∧ HostBytes s t (leAt bs 16 8) (leBytes 2 (leAt bs 0 2) ++ List.replicate 30 0)))
    ∧ (x.state ≠ .draining ∨ s.packetsOf q ≠ [] → exec (.queueDrained q) s = .next s))

namespace Sys2Proof.Spec

/-! ### Management commands (22 R417, R429) -/

/-- The command at the head of the ring of function `f`. -/
def headCmd (s : State) (f : Nat) : MCmd := mcmd (s.hostGet (s.func f).ringAt 64)

/-- The ring of function `f` holds a command that the module reads with the expected stamp (R417, R419, R427). -/
def Read (s : State) (f : Nat) : Prop :=
  s.lenfy.boot = .running ∧ (s.func f).state = .running ∧ (s.func f).tail ≠ (s.func f).head ∧ s.ringOk (s.func f).ringAt = true
    ∧ (headCmd s f).stamp = (s.func f).head.toNat % 65536

/-- The command at the head of the ring of `f` has code `op` and may be carried out (R429, R437). -/
def Ready (s : State) (f op : Nat) : Prop :=
  Read s f ∧ zeroBytes (s.hostGet (s.func f).ringAt 64) 24 64 = true ∧ (headCmd s f).op = op ∧ (0x20 ≤ op → op < 0x30 → f = 0)
    ∧ s.resets (s.fnPart f) = false

/-- The command of `f` has ended with `status` and values `vals`: its 32 bytes of result stand, no other byte has changed, and the ring has moved on. -/
def Ended (s t : State) (f status : Nat) (vals : List Byte) : Prop :=
  let m := headCmd s f
  HostBytes s t m.res ((leBytes 2 m.stamp ++ leBytes 2 status ++ vals ++ List.replicate 28 0).take 32)
    ∧ (t.func f).head = (s.func f).head + 1 ∧ (t.func f).state = (s.func f).state ∧ (t.func f).tail = (s.func f).tail

/-- The command of `f` has ended, vector 0 has been signalled, and of the rest only what `r` leaves out of `t` may differ from `s`. -/
def Done (s t r : State) (f status : Nat) (vals : List Byte) : Prop :=
  Ended s t f status vals ∧ Signalled s t f 0
    ∧ { r with mem := s.mem, funcs := s.funcs, remap := s.remap, sent := s.sent, errs := s.errs, power := s.power } = s

/-- No function but `f` differs, and of that only the head, and that no stale stamp is noted. -/
def HeadOnly (s t : State) (f : Nat) : Prop := FuncIs s t f { s.func f with head := (s.func f).head + 1, stale := none }

/-- The command has been answered with `status` and has had no effect. -/
def Denied (s t : State) (f status : Nat) (vals : List Byte := []) : Prop := Done s t t f status vals ∧ HeadOnly s t f

/-- Command `i` of function `f` has code `op` (R429); RESET_PARTITION stands apart. -/
def IsCommand (f a b c : Nat) (x : Bool) (y : Bool) (p : BitVec 20) (d : DWord) (w : Word) (r : PartRecord) (i : Instr) (op : Nat) : Prop := (i, op) ∈
  [(.createQueue f a b, 0x01), (.destroyQueue f x, 0x02), (.restartQueue f, 0x03), (.createCq f a b, 0x04), (.destroyCq f, 0x05), (.loadImage f, 0x10),
   (.allocTensor f, 0x11), (.freeTensor f, 0x12), (.invalidate f a b, 0x13), (.moveTile f a b c, 0x14), (.createCrossing f, 0x15), (.destroyCrossing f, 0x16),
   (.jobRestart f, 0x17), (.jobDiscard f, 0x18), (.releaseContext f a b, 0x19), (.resync f, 0x1A), (.configurePartition f r, 0x20), (.preempt f, 0x22),
   (.resume f, 0x23), (.migrateSave f, 0x24), (.migrateRestore f a, 0x25), (.dirtyLog f x a b, 0x26), (.setTolerance f a, 0x27), (.writePasid f a p x, 0x28),
   (.writeRemap f a d w x y, 0x29), (.loadWeights f, 0x30), (.setCurrent f, 0x31)]

/-- The codes of R429. -/
def codesOf : List Nat :=
  [0x01, 0x02, 0x03, 0x04, 0x05] ++ (List.range 11).map (fun i => 0x10 + i) ++ (List.range 10).map (fun i => 0x20 + i) ++ [0x30, 0x31]

/-- The state of a queue that is enabled (R415, R433). -/
def Enabled (s : State) (f : Nat) (q : QState) : Prop := q = .running ∨ q = .paused ∧ ∃ x, s.part (s.fnPart f) = some x ∧ x.state ≠ .running ∧ x.state ≠ .waiting

/-- Whether word `i` of a stream is the literal of the word before it (R37). -/
def literalAt (ws : List Nat) : Nat → Bool
  | 0 => false
  | i + 1 => !literalAt ws i && takesLiteral (ws.getD i 0)

/-- The engine to which word `i` of a stream goes: its ENG field, a literal with its opcode word (R36, R37). -/
def engineAt (ws : List Nat) (i : Nat) : Nat := fld (ws.getD (if literalAt ws i then i - 1 else i) 0) 29 3

/-- A new image's words stand at their engines in stream order, each literal behind its opcode word and with the literal tag, which no other word has (R36, R37). -/
def WordsPlaced (im : Image) (ws : List Nat) : Prop := ∀ i w, ws[i]? = some w →
  get 0 im.imem (8192 * engineAt ws i + ((List.range i).filter (fun j => decide (engineAt ws j = engineAt ws i))).length)
    = BitVec.ofNat 33 (w + if literalAt ws i then 2 ^ 32 else 0)

end Sys2Proof.Spec

/-- R417, R419, R427, R429: which commands are carried out, and how the others are answered. -/
def Obligations.CommandsFollowTheRingProtocol : Prop :=
  ∀ (f a b c : Nat) (x y : Bool) (p : BitVec 20) (d : DWord) (w : Word) (r : PartRecord) (s : State),
    ∀ i op, IsCommand f a b c x y p d w r i op →
    let u := s.func f
    let zero := zeroBytes (s.hostGet u.ringAt 64) 24 64
    (s.lenfy.boot ≠ .running ∨ u.state ≠ .running ∨ u.tail = u.head → exec i s = .next s)
    ∧ (s.lenfy.boot = .running → u.state = .running → u.tail ≠ u.head → s.ringOk u.ringAt = false →
      ∃ t, exec i s = .next t ∧ { t with funcs := s.funcs } = s ∧ FuncIs s t f { u with state := .error, err := 0x0506, stale := none })
    ∧ (s.lenfy.boot = .running → u.state = .running → u.tail ≠ u.head → s.ringOk u.ringAt = true → (headCmd s f).stamp ≠ u.head.toNat % 65536 →
      (u.stale = none → ∃ t, exec i s = .next t ∧ { t with funcs := s.funcs } = s ∧ FuncIs s t f { u with stale := some s.now })
      ∧ (∀ t0, u.stale = some t0 → s.now < t0 + 1700 → exec i s = .next s)
      ∧ (∀ t0, u.stale = some t0 → t0 + 1700 ≤ s.now →
          ∃ t, exec i s = .next t ∧ { t with funcs := s.funcs } = s ∧ FuncIs s t f { u with state := .error, err := 0x0505, stale := none }))
    ∧ (Read s f → zero = false ∨ (headCmd s f).op ∉ codesOf →
      ∃ t, exec i s = .next t ∧ Denied s t f 0x0502)
    ∧ (Read s f → zero = true → (headCmd s f).op ∈ codesOf → (headCmd s f).op ≠ op → exec i s = .next s)
    ∧ (Read s f → zero = true → (headCmd s f).op = op → 0x20 ≤ op → op < 0x30 → f ≠ 0 → ∃ t, exec i s = .next t ∧ Denied s t f 0x0508)
    ∧ (Read s f → zero = true → (headCmd s f).op = op → (0x20 ≤ op → op < 0x30 → f = 0) → s.resets (s.fnPart f) = true → exec i s = .next s)

/-- R415, R416, R420, R424, R426, R427, R436, R439, R440: queues, completion queues and tables. -/
def Obligations.QueueAndTableCommands : Prop :=
  (∀ (f base k g : Nat) (s : State), Ready s f 0x01 → s.globalQ f (headCmd s f).target = some g →
    (6 ≤ k → k ≤ 15 → base % 4096 = 0 → (s.queue g).state = .disabled →
      ∃ t st, exec (.createQueue f base k) s = .next t ∧ Done s t { t with queues := s.queues } f 0 [] ∧ HeadOnly s t f ∧ Enabled s f st
        ∧ t.queue g = { fn := f, base := base, k := k, state := st, digests := (s.queue g).digests, owed := (s.queue g).owed } ∧ ∀ x, x ≠ g → t.queue x = s.queue x)
    ∧ (k < 6 ∨ 15 < k ∨ base % 4096 ≠ 0 ∨ (s.queue g).state ≠ .disabled → ∃ t, exec (.createQueue f base k) s = .next t ∧ Denied s t f 0x0502))
  ∧ (∀ (f g : Nat) (s : State), Ready s f 0x03 → s.globalQ f (headCmd s f).target = some g →
    ((s.queue g).state = .error →
      ∃ t st, exec (.restartQueue f) s = .next t ∧ Done s t { t with queues := s.queues } f 0 [] ∧ HeadOnly s t f ∧ Enabled s f st
        ∧ t.queue g = { s.queue g with state := st, reading := none } ∧ ∀ x, x ≠ g → t.queue x = s.queue x)
    ∧ ((s.queue g).state ≠ .error → ∃ t, exec (.restartQueue f) s = .next t ∧ Denied s t f 0x0502))
  ∧ (∀ (f g : Nat) (s : State), Ready s f 0x02 → s.globalQ f (headCmd s f).target = some g → (s.queue g).state ≠ .draining →
    ((s.queue g).state = .disabled → ∀ x, ∃ t, exec (.destroyQueue f x) s = .next t ∧ Denied s t f 0x0502)
    ∧ ((s.queue g).state ≠ .disabled →
      let limited := fun (u b : Nat) => ∃ k, (s.bank u b).fault = some k ∧ k.code = 0x0018 ∧ k.slot = none
      let drains := fun (t : State) (x : Bool) => { t.queue g with digests := (s.queue g).digests, owed := (s.queue g).owed, gaveUp := (s.queue g).gaveUp }
        = { s.queue g with state := .draining, reading := none, discard := x }
      (∃ t, exec (.destroyQueue f false) s = .next t ∧ { t with queues := s.queues, power := s.power, sent := s.sent } = s ∧ drains t false ∧ Withdrawn s t g
        ∧ ∀ x, x ≠ g → t.queue x = s.queue x)
      ∧ ∃ t, exec (.destroyQueue f true) s = .next t ∧ drains t true
        ∧ (t.func f).head = (s.func f).head
        ∧ (∀ pid k, get none s.packets pid = some k → k.queue = g → ∃ k', get none t.packets pid = some k' ∧ ∀ z ∈ k'.tasks, z.dropped = true)
        ∧ ((∀ x ∈ s.placedJobs, x.2.2.started = true ∧ (x.2.2.status ≠ .stopped ∨ limited x.1 x.2.1)) → (∀ x ∈ somes s.parts, x.2.saved = []) →
          ∀ u b j, b < 2 → (s.bank u b).job = some j → j.packet ∈ (s.packetsOf g).map Prod.fst → (t.bank u b).job = some { j with preempt := some true, preCyc := if j.preempt.isNone then 0 else j.preCyc })))
  ∧ (∀ (f base k : Nat) (s : State), Ready s f 0x04 →
    let c := (headCmd s f).target
    let x : Cq := get {} (s.func f).cqs c
    (c < 64 → 4 ≤ k → k ≤ 16 → x.live = false →
      ∃ t, exec (.createCq f base k) s = .next t ∧ Done s t t f 0 [] ∧ get {} (t.func f).cqs c = { live := true, base := base, k := k } ∧ get 0 (t.func f).cqh c = 0
        ∧ ∀ d, d ≠ c → get {} (t.func f).cqs d = get {} (s.func f).cqs d)
    ∧ (64 ≤ c ∨ k < 4 ∨ 16 < k ∨ x.live = true → ∃ t, exec (.createCq f base k) s = .next t ∧ Denied s t f 0x0502))
  ∧ (∀ (f : Nat) (s : State), Ready s f 0x05 →
    let c := (headCmd s f).target
    let x : Cq := get {} (s.func f).cqs c
    (x.live = true → ∃ t, exec (.destroyCq f) s = .next t ∧ Done s t t f 0 [] ∧ get {} (t.func f).cqs c = {} ∧ ∀ d, d ≠ c → get {} (t.func f).cqs d = get {} (s.func f).cqs d)
    ∧ (x.live = false → ∃ t, exec (.destroyCq f) s = .next t ∧ Denied s t f 0x0502))
  ∧ (∀ (us : Nat) (s : State), Ready s 0 0x27 → (headCmd s 0).target ≤ 96 →
    ∃ t, exec (.setTolerance 0 us) s = .next t ∧ Done s t t 0 0 [] ∧ (t.func (headCmd s 0).target).tol = some us
      ∧ ∀ g, g ≠ 0 → g ≠ (headCmd s 0).target → t.func g = s.func g)
  ∧ (∀ (i : Nat) (v : BitVec 20) (x : Bool) (s : State), Ready s 0 0x28 → (headCmd s 0).target ≤ 96 → i < 1024 →
    let g := (headCmd s 0).target
    ((s.func g).tdisp = .unlocked → ∃ t, exec (.writePasid 0 i v x) s = .next t ∧ Done s t t 0 0 []
        ∧ (get 0 (t.func g).pasid i).toNat = v.toNat + (if x then 2 ^ 20 else 0) ∧ (∀ j, j ≠ i → get 0 (t.func g).pasid j = get 0 (s.func g).pasid j)
        ∧ ∀ h, h ≠ 0 → h ≠ g → t.func h = s.func h)
    ∧ ((s.func g).tdisp ≠ .unlocked → ∃ t, exec (.writePasid 0 i v x) s = .next t ∧ Denied s t 0 0x0508))
  ∧ (∀ (v : Nat) (ad : DWord) (da : Word) (x y : Bool) (s : State), Ready s 0 0x29 → (headCmd s 0).target ≤ 96 → v < 2048 →
    let g := (headCmd s 0).target
    let old : Remap := get {} s.remap (2048 * g + v)
    ((s.func g).tdisp = .unlocked → ∃ t, exec (.writeRemap 0 v ad da x y) s = .next t ∧ Ended s t 0 0 []
        ∧ (2048 * g + v ≠ 0 → get {} t.remap (2048 * g + v) = { addr := ad, data := da, v := x, m := y, held := old.held && y })
        ∧ (old.held = true → y = false → x = true → Sent.irq ad da ∈ t.sent) ∧ ∀ i, i ≠ 2048 * g + v → i ≠ 0 → get {} t.remap i = get {} s.remap i)
    ∧ ((s.func g).tdisp ≠ .unlocked → ∃ t, exec (.writeRemap 0 v ad da x y) s = .next t ∧ Denied s t 0 0x0508))
  ∧ (∀ (on : Bool) (base k : Nat) (s : State), Ready s 0 0x26 → s.resets (headCmd s 0).target = false → s.part (headCmd s 0).target = none ∨ stage2On (headCmd s 0).target = false →
    ∃ t, exec (.dirtyLog 0 on base k) s = .next t ∧ Denied s t 0 0x0502)
  ∧ (∀ (on : Bool) (base k : Nat) (x : Part) (s : State), Ready s 0 0x26 → stage2On (headCmd s 0).target = true → s.part (headCmd s 0).target = some x →
    s.resets (headCmd s 0).target = false →
    ∃ t, exec (.dirtyLog 0 on base k) s = .next t ∧ Done s t { t with parts := s.parts } 0 0 [] ∧ HeadOnly s t 0
      ∧ t.part (headCmd s 0).target = some { x with dirty := if on then some (base, k) else none, dlTail := 0, dlHead := 0, dlPend := [] }
      ∧ ∀ p, p ≠ (headCmd s 0).target → t.part p = s.part p)
  ∧ (∀ (p : Nat) (x : Part) (base k : Nat) (v : DWord) (rest : List DWord) (s : State),
    s.part p = some x → x.dirty = some (base, k) → x.dlPend = v :: rest →
    (x.dlTail - x.dlHead < 2 ^ k → ∃ t, exec (.dirtyLogAppend p) s = .next t ∧ HostBytes s t (base + 8 * (x.dlTail % 2 ^ k)) (leBytes 8 v.toNat)
        ∧ { t with mem := s.mem, parts := s.parts } = s ∧ t.part p = some { x with dlTail := x.dlTail + 1, dlPend := rest })
    ∧ (2 ^ k ≤ x.dlTail - x.dlHead → exec (.dirtyLogAppend p) s = .next s))
  ∧ (∀ (f : Nat) (s : State), Ready s f 0x1A →
    let a := hostAddr (headCmd s f).res
    let qs := s.partQueues (s.fnPart f)
    let js := s.placedJobs.filter (fun x => decide (x.2.2.part = s.fnPart f))
    let at_ := fun (t : State) (o n : Nat) => leNat (rdBytes t.mem (a + o) n)
    ∃ t, exec (.resync f) s = .next t ∧ OnlyBytes s t a (64 + 16 * (qs.length + js.length))
      ∧ leNat (rdBytes t.mem a 4) = 0x5253594E ∧ leNat (rdBytes t.mem (a + 4) 4) = (somes s.parts).length % 2 ^ 32
      ∧ leNat (rdBytes t.mem (a + 8) 8) = s.errs.corrected.toNat ∧ leNat (rdBytes t.mem (a + 16) 2) = s.errs.replies.toNat
      ∧ leNat (rdBytes t.mem (a + 18) 2) = s.errs.bar.toNat ∧ leNat (rdBytes t.mem (a + 20) 2) = s.errs.tails.toNat ∧ leNat (rdBytes t.mem (a + 22) 2) = s.errs.irqs.toNat
      ∧ (∀ i, i < 32 → rdByte t.mem (a + 32 + i) = 0)
      ∧ (∀ i q, qs[i]? = some q → at_ t (64 + 16 * i) 4 = q % 2 ^ 32 ∧ at_ t (68 + 16 * i) 2 = (s.queue q).state.code ∧ at_ t (70 + 16 * i) 2 = (s.queue q).err.toNat
          ∧ at_ t (72 + 16 * i) 4 = (s.queue q).head.toNat ∧ at_ t (76 + 16 * i) 4 = (s.queue q).done.toNat)
      ∧ (∀ i x, js[i]? = some x → let o := 64 + 16 * (qs.length + i)
          at_ t o 4 = x.2.2.ord.toNat % 2 ^ 32 ∧ at_ t (o + 4) 4 = x.1 % 2 ^ 32 ∧ at_ t (o + 8) 8 = (s.bank x.1 x.2.1).csr.clst % 2 ^ 64)
      ∧ HeadOnly s t f ∧ Signalled s t f 0
      ∧ ∀ k, (get {} t.stackSt k : Stack).alert = false ∧ ∀ z ∈ (get {} t.stackSt k : Stack).ring, z.seen = true)

/-- 02 R35 to R40; 08 R212; 12 R280, R281, R287; 14 R325, R337, R346; 17 R362 to R364; 19 R379; 21 R405; 22 R429: images, tensors, Crossings, jobs, contexts. Two clauses are the model's choice: FREE_TENSOR marks a tensor in use as freed and leaves its descriptor to its last command (log entry 69), and MOVE_TILE refuses a stack that the package does not hold (log entry 78). -/
def Obligations.ObjectCommands : Prop :=
  (∀ (f : Nat) (s s1 : State), Ready s f 0x10 → (∀ x ∈ s1.images, x.1 + 1 < 2 ^ 64) →
    let m := headCmd s f
    let bs := s.hostGet m.arg 64
    let ws := (List.range (leAt bs 28 4)).map (fun i => leNat (rdBytes s.mem (hostAddr (m.arg + 64) + 4 * i) 4))
    let fault := imageFault bs (split [] none 0 ws)
    let behind := m.arg + 64 + 4 * leAt bs 28 4
    let count := leNat (rdBytes s.mem (hostAddr behind) 4)
    (∀ st loc, fault = some (st, loc) → ∃ t, exec (.loadImage f) s = .next t ∧ Denied s t f st (leBytes 4 loc))
    ∧ (count = 0 → s.loadTensors (s.fnPart f) (behind + 4) count = (s, none))
    ∧ (∀ st, fault = none → s.loadTensors (s.fnPart f) (behind + 4) count = (s1, some st) → ∃ t, exec (.loadImage f) s = .next t ∧ Denied s1 t f st)
    ∧ (fault = none → s.loadTensors (s.fnPart f) (behind + 4) count = (s1, none) →
      ∃ t h im, exec (.loadImage f) s = .next t ∧ Done s1 t { t with images := s1.images, free := s1.free } f 0 (leBytes 8 h ++ leBytes 2 (leAt bs 8 2))
        ∧ HeadOnly s1 t f ∧ 1 ≤ h ∧ h < 2 ^ 64 ∧ get none s1.images h = none ∧ get none t.images h = some im ∧ (∀ i, i ≠ h → get none t.images i = get none s1.images i)
        ∧ im.part = s1.fnPart f ∧ im.mask = BitVec.ofNat 6 (leAt bs 6 1) ∧ (im.climb = true ↔ leAt bs 7 1 = 1) ∧ (im.static = true ↔ leAt bs 7 1 = 2)
        ∧ im.bucket = leAt bs 8 2 ∧ (∀ e, e < 6 → im.entry[e]? = some (BitVec.ofNat 13 (leAt bs (10 + 2 * e) 2))) ∧ im.trap = BitVec.ofNat 13 (leAt bs 22 2)
        ∧ im.foot = leAt bs 24 4 ∧ WordsPlaced im ws))
  ∧ (∀ (f : Nat) (s : State), Ready s f 0x11 →
    let bs := s.hostGet (headCmd s f).arg 128
    let y := tensorOf (s.fnPart f) bs
    (∀ st, s.tensorFault bs y = some st → ∃ t, exec (.allocTensor f) s = .next t ∧ Denied s t f st)
    ∧ (s.tensorFault bs y = none → s.takeHandle y.part = none → ∃ t, exec (.allocTensor f) s = .next t ∧ Denied s t f 0x0205)
    ∧ (∀ h, s.tensorFault bs y = none → s.takeHandle y.part = some h →
      ∃ t v, exec (.allocTensor f) s = .next t ∧ Done s t { t with tensors := s.tensors, views := s.views, free := s.free } f 0 (leBytes 4 y.id ++ leBytes 4 (v.gen.toNat * 2 ^ 20 + h))
        ∧ HeadOnly s t f ∧ (∃ y', t.tensor y.id = some y' ∧ { y' with tiles := y.tiles, locked := y.locked } = y ∧ (y.covered = false → y'.tiles = [])
          ∧ (y.tiled = false → stage2On y.part = true → ∀ i, y.tbase % 2 ^ 36 / frameBytes y.fsz ≤ i → i ≤ (y.tbase % 2 ^ 36 + y.windowBytes - 1) / frameBytes y.fsz →
              get {} y'.locked (s2Key y.part y.fsz i) = get {} s.stage2 (s2Key y.part y.fsz i))
          ∧ (∀ n, y.covered = true → n < y.tileCount → y'.tile n = { cov := 1 })) ∧ (∀ i, i ≠ y.id → t.tensor i = s.tensor i) ∧ get {} t.views h = v ∧ (∀ i, i ≠ h → get {} t.views i = get {} s.views i)
        ∧ v = { used := true, retired := false, gen := nextGen (get {} s.views h : View).gen, part := y.part, tid := y.id, box := { lo := [0, 0, 0, 0, 0, 0], hi := y.ext }
                r := true, w := !y.ro, holder := .persistent }))
  ∧ (∀ (f : Nat) (y : Tensor) (s : State) (op : Nat) (i : Instr),
    (i = .freeTensor f ∧ op = 0x12 ∨ (∃ lo n, i = .invalidate f lo n) ∧ op = 0x13 ∨ (∃ n a b, i = .moveTile f n a b) ∧ op = 0x14 ∨ i = .destroyCrossing f ∧ op = 0x16) →
    Ready s f op →
    (s.tensor (headCmd s f).target = none → ∃ t, exec i s = .next t ∧ Denied s t f 0x0502)
    ∧ (s.tensor (headCmd s f).target = some y → y.part ≠ s.fnPart f → ∃ t, exec i s = .next t ∧ Denied s t f 0x0508))
  ∧ (∀ (f : Nat) (y : Tensor) (s : State), Ready s f 0x12 → s.tensor (headCmd s f).target = some y → y.part = s.fnPart f → y.id = (headCmd s f).target →
    (y.version.isSome = true ∨ (s.slotOf y.id 0).isSome = true → ∃ t, exec (.freeTensor f) s = .next t ∧ Denied s t f 0x0508)
    ∧ (y.version = none → s.slotOf y.id 0 = none →
      ∃ t, exec (.freeTensor f) s = .next t ∧ Ended s t f 0 [] ∧ (∀ h, (get {} s.views h : View).used = true → (get {} s.views h : View).tid = y.id → (get {} t.views h : View).used = false)
        ∧ t.tensor y.id = (if y.covered then some y else if s.tensorBusy y.id then some { y with freed := true } else none) ∧ ∀ i, i ≠ y.id → t.tensor i = s.tensor i))
  ∧ (∀ (f lo n : Nat) (y : Tensor) (s : State), Ready s f 0x13 → s.tensor (headCmd s f).target = some y → y.part = s.fnPart f →
    ∃ t, exec (.invalidate f lo n) s = .next t ∧ Done s t { t with units := s.units } f 0 [] ∧ HeadOnly s t f
      ∧ ∀ u, { t.core u with ttb := (s.core u).ttb } = s.core u ∧ ∀ x, x ∈ (t.core u).ttb ↔ x ∈ (s.core u).ttb ∧ ¬ (x.tid = y.id ∧ lo ≤ x.tile ∧ x.tile < lo + n))
  ∧ (∀ (f n tier stack : Nat) (y : Tensor) (s : State), Ready s f 0x14 → s.tensor (headCmd s f).target = some y → y.part = s.fnPart f →
    (tier < 3 → stack < (if tier = 0 then 8 else 24) → y.tiled = true → n < y.tileCount →
      ∃ t, exec (.moveTile f n tier stack) s = .next t ∧ Done s t { t with dies := s.dies } f 0 [] ∧ HeadOnly s t f
        ∧ ∃ x ∈ t.moves_, x.tid = y.id ∧ x.tile = n ∧ x.tier = tier ∧ x.stack = stack)
    ∧ (3 ≤ tier ∨ (if tier = 0 then 8 else 24) ≤ stack ∨ y.tiled = false ∨ y.tileCount ≤ n → ∃ t, exec (.moveTile f n tier stack) s = .next t ∧ Denied s t f 0x0502))
  ∧ (∀ (f : Nat) (s : State), Ready s f 0x15 →
    let p := s.fnPart f
    (s.crossingOf p (s.hostGet (headCmd s f).arg 32) = none → ∃ t, exec (.createCrossing f) s = .next t ∧ Denied s t f 0x0401)
    ∧ (∀ c y, s.crossingOf p (s.hostGet (headCmd s f).arg 32) = some (c, y) →
      let taken := get none (s.core c.scoreU).sends c.sid ≠ none ∨ get none (s.core c.rcoreU).recvs c.rid ≠ none
      (taken → ∃ t, exec (.createCrossing f) s = .next t ∧ Denied s t f 0x0402)
      ∧ (∀ st, ¬ taken → s.placeFault y = some st → ∃ t, exec (.createCrossing f) s = .next t ∧ Denied s t f st)
      ∧ (¬ taken → s.placeFault y = none → s.slotViews p y.id (rowElems y.fmt) c.rows 0 c.nslots = none → ∃ t, exec (.createCrossing f) s = .next t ∧ Denied s t f 0x0205)
      ∧ (∀ s1 hs, ¬ taken → s.placeFault y = none → s.slotViews p y.id (rowElems y.fmt) c.rows 0 c.nslots = some (s1, hs) →
        s1.slotFrames p (nearStack y.home) y.fsz c.nslots = none → ∃ t, exec (.createCrossing f) s = .next t ∧ Denied s t f 0x0206)
      ∧ (∀ s1 hs s2 fs, get none (s.core c.scoreU).sends c.sid = none → get none (s.core c.rcoreU).recvs c.rid = none → s.placeFault y = none →
        s.slotViews p y.id (rowElems y.fmt) c.rows 0 c.nslots = some (s1, hs) → s1.slotFrames p (nearStack y.home) y.fsz c.nslots = some (s2, fs) →
        (∀ q w k, s.part p = some q → q.dirty = some (w, k) → q.dlTail + q.dlPend.length + 4 ≤ 2 ^ k + q.dlHead) →
        ∃ t x c' y', exec (.createCrossing f) s = .next t ∧ (t.func f).head = (s.func f).head + 1 ∧ get none (t.core c.scoreU).sends c.sid = some x
          ∧ get none (t.core c.rcoreU).recvs c.rid = some x ∧ get none s.crossings x = none ∧ get none t.crossings x = some c' ∧ { c' with slots := c.slots } = c
          ∧ (∀ i, i < c.nslots → (c'.slot i).st = .free ∧ (c'.slot i).frame = none ∧ ∃ h, hs[i]? = some h ∧ (c'.slot i).form = s2.formOf h)
          ∧ t.tensor y.id = some y' ∧ { y' with tiles := y.tiles } = y ∧ ∀ i, i < c.nslots → (y'.tile i).v = true ∧ (y'.tile i).tier = 2 ∧ (y'.tile i).cov = 1)))
  ∧ (∀ (f x : Nat) (c : Crossing) (y : Tensor) (s : State), Ready s f 0x16 → s.tensor (headCmd s f).target = some y → y.part = s.fnPart f →
    s.slotOf y.id 0 = some (x, 0) → get none s.crossings x = some c →
    (s.sending x = true → ∃ t, exec (.destroyCrossing f) s = .next t ∧ { t with crossings := s.crossings, power := s.power } = s ∧ get none t.crossings x = some { c with dying := true })
    ∧ (s.sending x = false → ∃ t, exec (.destroyCrossing f) s = .next t ∧ Ended s t f 0 [] ∧ get none t.crossings x = none ∧ t.tensor c.tid = none
        ∧ get none (t.core c.scoreU).sends c.sid = none ∧ get none (t.core c.rcoreU).recvs c.rid = none
        ∧ ∀ h, (get {} s.views h : View).used = true → (get {} s.views h : View).tid = c.tid → (get {} t.views h : View).used = false))
  ∧ (∀ (f u b : Nat) (k : FaultInfo) (j : Job) (x : Part) (s : State),
    let i := (headCmd s f).target
    s.frameJob (s.fnPart f) i = some (u, b) → b < 2 → (s.bank u b).fault = some k → k.slot = some i → (s.bank u b).job = some j → s.part (s.fnPart f) = some x → j.part = s.fnPart f →
    (Ready s f 0x17 → x.state = .running → leAt (s.hostGet (x.slotAddr i) 1024) 28 4 = 0 →
      ∃ t x', exec (.jobRestart f) s = .next t ∧ Ended s t f 0 [] ∧ (t.bank u b).fault = none ∧ (t.bank u b).job = some { j with status := .ready }
        ∧ t.part (s.fnPart f) = some x' ∧ get false x'.slots i = false)
    ∧ (Ready s f 0x17 → x.state ≠ .running → ∃ t, exec (.jobRestart f) s = .next t ∧ { t with power := s.power } = s)
    ∧ (Ready s f 0x18 → ∃ t x', exec (.jobDiscard f) s = .next t ∧ Ended s t f 0 [] ∧ t.bank u b = {} ∧ t.part (s.fnPart f) = some x' ∧ get false x'.slots i = false))
  ∧ (∀ (f k c : Nat) (s : State), Ready s f 0x19 →
    let o := ((s.bunit k).ctx c).owner
    (o = none → ∃ t, exec (.releaseContext f k c) s = .next t ∧ Denied s t f 0x0502)
    ∧ (∀ p, o = some p → p ≠ s.fnPart f → ∃ t, exec (.releaseContext f k c) s = .next t ∧ Denied s t f 0x0508)
    ∧ (o = some (s.fnPart f) → (s.bunit k).usesCtx c = true → ∃ t, exec (.releaseContext f k c) s = .next t ∧ { t with power := s.power } = s)
    ∧ (o = some (s.fnPart f) → (s.bunit k).usesCtx c = false → ∃ t, exec (.releaseContext f k c) s = .next t ∧ Done s t { t with bunits := s.bunits } f 0 [] ∧ HeadOnly s t f
        ∧ (t.bunit k).ctx c = { (s.bunit k).ctx c with owner := none } ∧ ∀ d, d ≠ c → (t.bunit k).ctx d = (s.bunit k).ctx d))

namespace Sys2Proof.Spec

/-! ### Partitions (22 R430 to R435, R437) -/

/-- Nothing of partition `p` runs, waits or is held any more, and its queues are as never created, but for what the other members of a fabric have sent or still send (R432, R445). -/
def PartCleared (s t : State) (p : Nat) : Prop :=
  (∀ u b j, b < 2 → (s.bank u b).job = some j → j.part = p → t.bank u b = {})
    ∧ (∀ q ∈ s.partQueues p, t.queue q = { digests := (s.queue q).digests, owed := (s.queue q).owed }) ∧ (∀ x ∈ somes t.packets, x.2.part ≠ p) ∧ (∀ x ∈ t.versions, x.1 / 65536 ≠ p)
    ∧ (∀ v ∈ t.views, v.2.part = p → v.2.used = false) ∧ (∀ x ∈ somes t.tensors, x.2.part = p → x.2.covered = false)
    ∧ (∀ g ∈ t.frames, g.part ≠ p) ∧ (∀ n i, ((t.bunit n).ctx i).owner ≠ some p) ∧ (∀ d, get [] (t.die d).hist p = [])
    ∧ (∀ f c, (s.func f).part = some p → (get {} (t.func f).cqs c : Cq).pend = []) ∧ (∀ n ∈ t.early, n.1 / 2 ^ 16 % 2 ^ 20 ≠ s.fabricScope p)
    ∧ ∀ x, s.part p = some x → ∃ st, t.part p = some { x with state := st, saved := [], slots := [], wanted := none, loads := [], peers := [] }
        ∧ (st = .running ∨ st = .waiting) ∧ (x.cfg.sliceGroup = 0 → st = .running)

/-- The streams of partition `p` have stopped for a reset, and no queue of it is read (R432). -/
def Frozen (s t : State) (p : Nat) (tdisp : Bool) : Prop :=
  (∀ x, s.part p = some x → t.part p = some { x with state := .resetting tdisp }) ∧ (∀ q ∈ s.partQueues p, (t.queue q).reading = none)
    ∧ ∀ u b j, b < 2 → (s.bank u b).job = some j → j.part = p → (s.bank u b).fault = none →
        ∃ f, (t.bank u b).job = some { j with status := .stopped } ∧ (t.bank u b).fault = some f ∧ f.code = 0x0017 ∧ f.eng = 0 ∧ f.precise = false

/-- Partition `p` has been pre-empted (R433, R394): its queues are PAUSED, its jobs are to be saved at their next clause boundary. -/
def Preempted (s t : State) (p : Nat) (st : PState) : Prop :=
  (∃ x, t.part p = some x ∧ x.state = st) ∧ (∀ q ∈ s.partQueues p, (t.queue q).state = if (s.queue q).state = .running then .paused else (s.queue q).state)
    ∧ ((∀ x ∈ s.placedJobs, x.2.2.part = p → x.2.2.started = true ∨ x.2.2.status = .stopped) → SameMem s t
      ∧ ∀ u b j, b < 2 → (s.bank u b).job = some j → j.part = p → j.status ≠ .stopped →
        (t.bank u b).job = some { j with preempt := if j.preempt = some true then some true else some false, preCyc := if j.preempt.isNone then 0 else j.preCyc })

end Sys2Proof.Spec

/-- R430 to R435, R437: partitions. -/
def Obligations.PartitionCommandsAndMoves : Prop :=
  (∀ (r : PartRecord) (s : State), Ready s 0 0x20 →
    let bound := ∃ f, (f ∈ r.fns ∨ ∃ x, s.part r.pid = some x ∧ f ∈ x.cfg.fns) ∧ (s.func f).tdisp ≠ .unlocked
    (r.pid ≠ (headCmd s 0).target → ∃ t, exec (.configurePartition 0 r) s = .next t ∧ Denied s t 0 0x0502)
    ∧ (r.pid = (headCmd s 0).target → s.resets r.pid = false → bound →
      ∃ t, exec (.configurePartition 0 r) s = .next t ∧ Denied s t 0 0x0508)
    ∧ (r.pid = (headCmd s 0).target → s.resets r.pid = false → ¬ bound →
      (s.badPartition r = true ∨ s.partBusy r.pid = true → ∃ t, exec (.configurePartition 0 r) s = .next t ∧ Denied s t 0 0x0602)
      ∧ (s.badPartition r = false → s.partBusy r.pid = false →
        ∃ t x, exec (.configurePartition 0 r) s = .next t ∧ Ended s t 0 0 [] ∧ t.part r.pid = some x ∧ x.cfg = r ∧ x.slice = s.now ∧ (x.state = .running ∨ x.state = .waiting)
          ∧ (r.sliceGroup = 0 → x.state = .running) ∧ (∀ p, p ≠ r.pid → t.part p = s.part p)
          ∧ (∀ f ∈ r.fns, (t.func f).part = some r.pid ∧ ∀ q ∈ r.queues, q.fn = f → (∀ z ∈ r.queues, z.fn = f → z.loc = q.loc → z = q) → t.globalQ f q.loc = some q.glob)
          ∧ (∀ e ∈ r.calendar, (∀ z ∈ r.calendar, 32 * z.tier + z.stack = 32 * e.tier + e.stack → z.slot = e.slot → z = e) →
              get 0 (t.calOf e.tier e.stack) e.slot = BitVec.ofNat 16 (2 ^ 15 + if e.core < 192 then e.core % 24 else (e.core - 192) % 32))
          ∧ (∀ w ∈ r.accWins, (∀ z ∈ r.accWins, z.unit = w.unit → z = w) → get none (t.cluster (w.unit / 4)).win (w.unit % 4) = some (w.first, w.rows))
          ∧ (∀ u ∈ r.units, u < 448 → (∀ w ∈ r.accWins, w.unit ≠ u) → get none (t.cluster (u / 4)).win (u % 4) = none)
          ∧ (∀ d, get [] (t.die d).hist r.pid = []) ∧ t.limit r.pid = r.preLimit)))
  ∧ (∀ (s : State) (x : Part),
    let m := headCmd s 0
    let p := m.target
    s.part p = some x →
    (Ready s 0 0x21 → s.resets p = false → ∃ t, exec (.resetPartition 0) s = .next t ∧ Frozen s t p false ∧ SameMem s t ∧ (t.func 0).head = (s.func 0).head)
    ∧ (s.lenfy.boot = .running → (s.func 0).state = .running → (s.func 0).tail ≠ (s.func 0).head → m.op = 0x21 → x.state = .resetting false →
      (s.frozen p = false → exec (.resetPartition 0) s = .next s)
      ∧ (s.frozen p = true → (∀ i j, i < (s.dump p false).length → (j < 64 → x.cfg.dumpBase + i ≠ (s.func 0).ringAt + j) ∧ (j < 32 → x.cfg.dumpBase + i ≠ m.res + j)) →
        ∃ t, exec (.resetPartition 0) s = .next t ∧ PartCleared s t p ∧ (t.func 0).head = (s.func 0).head + 1
          ∧ leNat (rdBytes t.mem (hostAddr x.cfg.dumpBase) 4) = 0x44554D50
          ∧ leNat (rdBytes t.mem (hostAddr x.cfg.dumpBase + 4) 4) = (s.placedJobs.filter (fun y => decide (y.2.2.part = p))).length % 2 ^ 32
          ∧ (∀ i q, (s.partQueues p)[i]? = some q →
              leNat (rdBytes t.mem (hostAddr x.cfg.dumpBase + 64 + 16 * i) 8) = (s.queue q).head.toNat * 2 ^ 32 + (s.queue q).err.toNat * 2 ^ 16 + (s.queue q).state.code
              ∧ leNat (rdBytes t.mem (hostAddr x.cfg.dumpBase + 64 + 16 * i + 8) 4) = (s.queue q).done.toNat)
          ∧ rdBytes t.mem (hostAddr m.res) 4 = leBytes 2 m.stamp ++ leBytes 2 0)))
  ∧ (∀ (s : State) (x : Part), Ready s 0 0x22 → s.part (headCmd s 0).target = some x →
    (x.state = .running ∨ x.state = .waiting ∨ x.state = .sliced → ∃ t, exec (.preempt 0) s = .next t ∧ Preempted s { t with mem := s.mem } (headCmd s 0).target .preempting ∧ (t.func 0).head = (s.func 0).head + 1)
    ∧ (x.state = .preempting → ∃ t, exec (.preempt 0) s = .next t ∧ Denied s t 0 0x0502))
  ∧ (∀ (s : State) (x : Part), Ready s 0 0x23 → s.part (headCmd s 0).target = some x →
    let p := (headCmd s 0).target
    let other := (somes s.parts).any (fun y => decide (x.cfg.sliceGroup ≠ 0) && decide (y.2.cfg.sliceGroup = x.cfg.sliceGroup) && decide (y.1 ≠ p) && (decide (y.2.state = .running) || !s.preDone y.1))
    let code := if x.saved.any (fun v => !imageOk (s.hostGet (x.cfg.saveBase + 70656 * v.slot) 70656)) then 0x0601 else 0
    (x.wanted = some true → ∃ t, exec (.resume 0) s = .next t ∧ Ended s t 0 code [] ∧ t.part p = some { x with wanted := none }) ∧ (x.wanted ≠ some true →
    (x.state = .running ∨ x.state = .waiting → ∃ t, exec (.resume 0) s = .next t ∧ Denied s t 0 0x0502)
    ∧ (x.state = .preempting ∨ x.state = .sliced →
      (s.preDone p = false → ∃ t, exec (.resume 0) s = .next t ∧ { t with power := s.power } = s)
      ∧ (s.preDone p = true → other = true → ∃ t, exec (.resume 0) s = .next t ∧ { t with power := s.power, parts := s.parts } = s
          ∧ t.part p = some { x with wanted := some false } ∧ ∀ y, y ≠ p → t.part y = s.part y)
      ∧ (s.preDone p = true → other = false →
        ∃ t, exec (.resume 0) s = .next t ∧ Ended s t 0 code []
          ∧ t.part p = some { x with state := .running, slice := s.now, wanted := none }
          ∧ ∀ q ∈ s.partQueues p, (t.queue q).state = if (s.queue q).state = .paused then .running else (s.queue q).state))))
  ∧ (∀ (g : Nat) (s : State), g ≠ 0 → (∀ y ∈ somes s.parts, s.part y.1 = some y.2) →
    let xs := (somes s.parts).filter (fun y => decide (y.2.cfg.sliceGroup = g))
    let due := fun (y : Nat × Part) => y.2.wanted = some false ∨ ((y.2.state = .waiting ∨ y.2.state = .sliced) ∧ s.hasPacket y.1 = true)
    (∀ p x, xs.find? (fun y => decide (y.2.state = .running)) = some (p, x) →
      (x.slice + x.cfg.sliceLen ≤ s.now → (∃ y ∈ xs, y.1 ≠ p ∧ due y) →
        ∃ t, exec (.sliceExpiry g) s = .next t ∧ Preempted s t p .sliced)
      ∧ (s.now < x.slice + x.cfg.sliceLen ∨ (∀ y ∈ xs, y.1 ≠ p → ¬ due y) → exec (.sliceExpiry g) s = .next s))
    ∧ (∀ p x, (∀ y ∈ xs, y.2.state ≠ .running ∧ (y.2.state = .waiting ∨ s.preDone y.1 = true)) → (p, x) ∈ xs → (∀ y ∈ xs, y.1 ≠ p → y.2.slice < x.slice) →
      ((∀ y ∈ xs, y.1 ≠ p → ¬ due y) → x.state = .preempting → exec (.sliceExpiry g) s = .next s) ∧ ((∃ y ∈ xs, y.1 ≠ p ∧ due y) →
      ∃ t q z, exec (.sliceExpiry g) s = .next t ∧ q ≠ p ∧ (∃ y ∈ xs, y.1 = q ∧ due y) ∧ t.part q = some z ∧ z.state = .running ∧ z.slice = s.now ∧ SameMem s t)))
  ∧ (∀ (u b : Nat) (s : State) (j : Job), (s.bank u b).job = some j → j.status ≠ .stopped →
    let n := get 1700000 s.limits j.part
    (j.preempt ≠ none → n ≤ j.preCyc → (s.bank u b).fault = none →
      ∃ t f, exec (.preemptionLimitExpiry u b) s = .next t ∧ OnlyUnit s t u ∧ SameMem s t ∧ (t.bank u b).fault = some f ∧ f.code = 0x0018 ∧ f.eng = 0 ∧ f.precise = false
        ∧ f.da = BitVec.ofNat 64 n ∧ f.db = j.ord ∧ (t.bank u b).job = some { j with status := .stopped })
    ∧ (j.preempt = none ∨ j.preCyc < n → exec (.preemptionLimitExpiry u b) s = .next s))
  ∧ (∀ (s : State) (x : Part), Ready s 0 0x24 → s.part (headCmd s 0).target = some x →
    let p := (headCmd s 0).target
    (x.state = .preempting ∨ x.state = .sliced → s.preDone p = true →
      ∃ t g, exec (.migrateSave 0) s = .next t ∧ Done s t { t with migs := s.migs } 0 0 [] ∧ HeadOnly s t 0 ∧ t.migs = s.migs ++ [g] ∧ g.cfg = x.cfg
        ∧ (∀ y, y ∈ g.tensors ↔ y ∈ somes s.tensors ∧ y.2.part = p) ∧ (∀ y, y ∈ g.images ↔ y ∈ somes s.images ∧ y.2.part = p)
        ∧ (∀ v, v ∈ g.views ↔ v ∈ s.views ∧ v.2.used = true ∧ v.2.part = p) ∧ (∀ y, y ∈ g.packets ↔ y ∈ somes s.packets ∧ y.2.part = p)
        ∧ (∀ y, y ∈ g.crossings ↔ y ∈ somes s.crossings ∧ y.2.part = p) ∧ g.queues = (s.partQueues p).map (fun q => (q, s.queue q)) ∧ (∀ y, y ∈ g.frames ↔ y ∈ s.frames ∧ y.part = p)
        ∧ g.saved = x.saved.map (fun v => (v, s.hostGet (x.cfg.saveBase + 70656 * v.slot) 70656)))
    ∧ ((x.state = .running ∨ x.state = .waiting) ∨ ((x.state = .preempting ∨ x.state = .sliced) ∧ s.preDone p = false) → ∃ t, exec (.migrateSave 0) s = .next t ∧ Denied s t 0 0x0502))
  ∧ (∀ (img : Nat) (s : State) (x : Part) (g : Mig), Ready s 0 0x25 → s.resets (headCmd s 0).target = false → s.part (headCmd s 0).target = some x → s.migs[img]? = some g →
    let p := (headCmd s 0).target
    (x.cfg.quotas ≠ g.cfg.quotas ∨ x.cfg.handleQuota ≠ g.cfg.handleQuota ∨ s.partBusy p = true ∨ g.beyond = true ∨ g.lacksQueue x.cfg = true → ∃ t, exec (.migrateRestore 0 img) s = .next t ∧ Denied s t 0 0x0602)
    ∧ (x.cfg.quotas = g.cfg.quotas → x.cfg.handleQuota = g.cfg.handleQuota → s.partBusy p = false → g.beyond = false → g.lacksQueue x.cfg = false →
      ((∃ y ∈ g.images, get none s.images y.1 ≠ none) → s.conflict p g = true)
      ∧ (s.conflict p g = true → ∃ t, exec (.migrateRestore 0 img) s = .next t ∧ Denied s t 0 0x0603)
      ∧ (s.conflict p g = false → (g.tensors.map Prod.fst).Nodup → (g.views.map Prod.fst).Nodup → (g.images.map Prod.fst).Nodup → ((g.placed x.cfg).queues.map Prod.fst).Nodup → (g.runs.map Prod.fst).Nodup →
        let r := (g.placed x.cfg).renumbered s.pids s.jids
        ∃ t, exec (.migrateRestore 0 img) s = .next t ∧ (t.func 0).head = (s.func 0).head + 1
          ∧ (∀ y ∈ r.tensors, ∃ z, t.tensor y.1 = some z ∧ { z with locked := y.2.locked } = { y.2.onStamps (s.rescopeStamp p) with part := p } ∧ (y.2.tiled = true → z.locked = y.2.locked))
          ∧ (∀ k ∈ g.runs, (s.bunit k.1).cmd = none → (t.bunit k.1).run = k.2) ∧ (∀ v ∈ r.views, get {} t.views v.1 = { v.2 with part := p })
          ∧ (∀ y ∈ g.images, get none t.images y.1 = some { y.2 with part := p }) ∧ (∀ q ∈ g.queues, ∀ n f, g.queueOn x.cfg q.1 = some n → g.fnOn x.cfg q.2.fn = some f → t.queue n = { q.2 with fn := f })
          ∧ t.pids = s.pids + g.lastPacket ∧ t.jids = s.jids + g.lastJob
          ∧ ((g.packets.map Prod.fst).Nodup → ∀ y ∈ r.packets, get none t.packets y.1 = some { y.2 with part := p })
          ∧ ∃ x', t.part p = some x' ∧ x'.state = .preempting ∧ x'.cfg = x.cfg ∧ x'.saved.length = g.saved.length)))
  ∧ (∀ (f : Nat) (s : State),
    (f ≠ 0 → f ≤ 96 → (s.func f).tdisp = .unlocked →
      ∃ t, exec (.tdispConfigLocked f) s = .next t ∧ { t with funcs := s.funcs } = s ∧ FuncIs s t f { s.func f with tdisp := .locked })
    ∧ ((s.func f).tdisp ≠ .unlocked → exec (.tdispConfigLocked f) s = .next s)
    ∧ (∀ x, (s.func f).tdisp = .locked → s.part (s.fnPart f) = some x →
      ∃ t ks, exec (.tdispEnterRun f) s = .next t ∧ { t with funcs := s.funcs, free := s.free } = s ∧ FuncIs s t f { s.func f with tdisp := .run, keys := ks }
        ∧ (ks.map Prod.fst).Nodup ∧ ∀ k, k ∈ ks.map Prod.fst ↔ ∃ q ∈ x.cfg.quotas, q.frames ≠ 0 ∧ 32 * q.tier + q.stack = k)
    ∧ ((s.func f).tdisp ≠ .locked → exec (.tdispEnterRun f) s = .next s)
    ∧ ((s.func f).tdisp = .run → ∃ t, exec (.tdispExitRun f) s = .next t ∧ (t.func f).tdisp = .unlocked ∧ (t.func f).keys = [] ∧ Frozen s t (s.fnPart f) true ∧ SameMem s t)
    ∧ (∀ x, (s.func f).tdisp ≠ .run → s.part (s.fnPart f) = some x → x.state = .resetting true → s.frozen (s.fnPart f) = true →
      ∃ t, exec (.tdispExitRun f) s = .next t ∧ PartCleared s t (s.fnPart f) ∧ OnlyBytes s t (hostAddr x.cfg.dumpBase) 64
        ∧ leNat (rdBytes t.mem (hostAddr x.cfg.dumpBase) 4) = 0x44554D50 ∧ ∀ i, 12 ≤ i → i < 64 → rdByte t.mem (hostAddr x.cfg.dumpBase + i) = 0))

/-- 23 R447 to R453: weight images and versions. -/
def Obligations.WeightVersionsLoadAndRetire : Prop :=
  (∀ (f : Nat) (s : State), Ready s f 0x30 →
    let p := s.fnPart f
    let m := headCmd s f
    let bs := s.hostGet m.arg 64
    let v := leAt bs 0 2
    let n := (s.members p).1
    let free := ∀ x, s.part p = some x → x.loads = [] ∧ x.peers = []
    let others := ∀ x, s.part p = some x → x.peers = []
    let used := fun (x : Version) => x.state ≠ .retired ∧ (x.state ≠ .loading ∨ x.fn ≠ f ∨ x.stamp ≠ BitVec.ofNat 32 m.stamp)
    let new : Version := { fn := f, views := BitVec.ofNat 64 (leAt bs 24 8), result := BitVec.ofNat 64 m.res, stamp := BitVec.ofNat 32 m.stamp
                           reader := decide (leAt bs 2 1 = 1), tgt := leAt bs 4 4, offset := leAt bs 8 8, len := leAt bs 16 8 }
    (s.badLoad p bs = true ∨ (∃ x, s.version p v = some x ∧ used x) →
      (n = 1 → free → ∃ t, exec (.loadWeights f) s = .next t ∧ Done s t { t with parts := s.parts } f 0x0502 [] ∧ HeadOnly s t f ∧ ∀ q, t.part q = s.part q)
      ∧ (2 ≤ n → others → ∃ t, exec (.loadWeights f) s = .next t ∧ Ended s t f 0x0502 [] ∧ Sent.load p bs ∈ t.sent ∧ t.versions = s.versions
          ∧ ∀ x, s.part p = some x → t.part p = some { x with loads := x.loads ++ [(0, bs)] }))
    ∧ (s.badLoad p bs = false →
      (∀ x, s.version p v = some x → x.state = .loading → x.fn = f → x.stamp = BitVec.ofNat 32 m.stamp → ∃ t, exec (.loadWeights f) s = .next t ∧ { t with power := s.power } = s)
      ∧ ((∀ x, s.version p v = some x → x.state = .retired) →
        (n = 1 → free → leAt bs 2 1 = 0 → ∃ t y, exec (.loadWeights f) s = .next t ∧ Ended s t f 0x0701 (leBytes 2 v ++ leBytes 2 0 ++ leBytes 4 0 ++ leBytes 4 0)
          ∧ t.version p v = some y ∧ y.state = .failed)
        ∧ (n = 1 → free → leAt bs 2 1 = 1 → ∃ t, exec (.loadWeights f) s = .next t ∧ { t with versions := s.versions, parts := s.parts, sent := s.sent, power := s.power } = s
          ∧ t.version p v = some { new with agreed := true } ∧ (∀ q, t.part q = s.part q) ∧ t.sent = s.sent ++ [Sent.nvme p v (leAt bs 4 4) (leAt bs 8 8) (leAt bs 16 8)])
        ∧ (2 ≤ n → others → ∃ t, exec (.loadWeights f) s = .next t ∧ { t with versions := s.versions, parts := s.parts, sent := s.sent, power := s.power } = s
          ∧ t.version p v = some new ∧ t.sent = s.sent ++ [Sent.load p bs] ∧ ∀ x, s.part p = some x → t.part p = some { x with loads := x.loads ++ [(v, bs)] }))))
  ∧ (∀ (f : Nat) (s : State), Ready s f 0x31 →
    let p := s.fnPart f
    let v := (headCmd s f).target
    (∀ x, v < 65536 → s.version p v = some x → x.state = .ready →
      ∃ t, exec (.setCurrent f) s = .next t ∧ Done s t { t with versions := s.versions } f 0 [] ∧ HeadOnly s t f
        ∧ (∀ w, w < 65536 → t.version p w = (s.version p w).map (fun z => { z with cur := decide (w = v) })) ∧ ∀ r w, r ≠ p → w < 65536 → t.version r w = s.version r w)
    ∧ ((∀ x, v < 65536 → s.version p v = some x → x.state ≠ .ready) → ∃ t, exec (.setCurrent f) s = .next t ∧ Denied s t f 0x0705))
  ∧ (∀ (p v : Nat) (m : List Byte) (s : State) (x : Version), s.version p v = some x → x.state = .loading → x.verified = false →
    (x.agreed = false → exec (.weightManifestArrival p v m) s = .next s) ∧ (x.agreed = true →
    let key := get [] s.lenfy.keys (leAt m 6 1)
    let signed := manifestOk m = true ∧ key ≠ [] ∧ Config.falconVerify key (m.drop (m.length - 1280)) (m.take (m.length - 1280)) = true
    let recs := (List.range (leAt m 8 4)).map (fun i => (m.drop (64 + 128 * i)).take 128)
    let failed := fun (t : State) (st : Nat) => (∃ y, t.version p v = some y ∧ y.state = .failed) ∧ Ended s t x.fn st (leBytes 2 v ++ leBytes 2 0 ++ leBytes 4 0 ++ leBytes 4 0)
    (¬ signed → ∃ t, exec (.weightManifestArrival p v m) s = .next t ∧ failed t 0x0703)
    ∧ (∀ st, signed → s.imageTensors p v recs = .error st → ∃ t, exec (.weightManifestArrival p v m) s = .next t ∧ failed t st)
    ∧ (∀ s1 l, signed → s.imageTensors p v recs = .ok (s1, l) → ((l.map (fun z => z.1.tileCount)).sum = leAt m 12 4) →
      ∃ t y, exec (.weightManifestArrival p v m) s = .next t ∧ SameMem s t ∧ t.version p v = some y ∧ y.state = .loading ∧ y.verified = true ∧ y.roots = l.map Prod.snd ∧ y.data = leAt m 16 8
        ∧ y.tids = l.map (fun z => z.1.id) ∧ y.hashes.length = leAt m 12 4 ∧ (∀ i h, y.hashes[i]? = some h → h.idx = i ∧ h.hash = leAt m (64 + 128 * leAt m 8 4 + 32 * i) 32)
        ∧ ∀ z ∈ l, ∃ z', t.tensor z.1.id = some z' ∧ z'.version = some v ∧ ∀ n, n < z.1.tileCount → (z'.tile n).pend = true ∧ (z'.tile n).v = false)))
  ∧ (∀ (p v i : Nat) (data : List Byte) (s s1 : State) (x : Version) (h : HashEnt) (y : Tensor) (f : Frame),
    s.version p v = some x → x.state = .loading → x.hashes.find? (fun h => decide (h.idx = i)) = some h → s.tensor h.tid = some y → y.id = h.tid →
    data.length = frameBytes y.fsz → (∀ q w k, s.part p = some q → q.dirty = some (w, k) → q.dlTail + q.dlPend.length < 2 ^ k + q.dlHead) →
    (x.len < x.data + h.off + frameBytes y.fsz → ∃ t, exec (.weightTileArrival p v i data) s = .next t ∧ { t with sent := s.sent } = s) ∧ (x.data + h.off + frameBytes y.fsz ≤ x.len → s.storeFrame p y.fsz = some (f, s1) →
    (s1.machineBase f = none → ∃ t, exec (.weightTileArrival p v i data) s = .next t ∧ { t with sent := s.sent } = s) ∧ ∀ nb, s1.machineBase f = some nb →
    let tid := h.tid
    let n := h.tile
    let a := physAddr f.tier f.stack nb
    let rest := x.hashes.filter (fun h => !(decide (h.tid = tid) && decide (h.tile = n)))
    (Config.shake256 data = h.hash → x.waits = [] → rest ≠ [] →
      ∃ t y', exec (.weightTileArrival p v i data) s = .next t ∧ OnlyBytes s t a data.length ∧ rdBytes t.mem a data.length = data
        ∧ t.version p v = some { x with hashes := rest, waits := [] }
        ∧ t.tensor tid = some y' ∧ (y'.tile n).v = true ∧ (y'.tile n).tier = 0 ∧ (y'.tile n).pend = false ∧ (y'.tile n).stack = BitVec.ofNat 5 f.stack ∧ (y'.tile n).fbase = BitVec.ofNat 41 f.base)
    ∧ (Config.shake256 data = h.hash → x.waits = [] → rest = [] →
      ∃ t, exec (.weightTileArrival p v i data) s = .next t ∧ t.version p v = some { x with hashes := [], waits := [], state := .ready } ∧ (t.func x.fn).head = (s.func x.fn).head + 1)
    ∧ (Config.shake256 data ≠ h.hash → i ∉ x.resent →
      ∃ t, exec (.weightTileArrival p v i data) s = .next t ∧ t.version p v = some { x with resent := x.resent ++ [i] } ∧ Sent.resend p v i ∈ t.sent
        ∧ t.tensors = s.tensors ∧ ∀ o, o < data.length → rdByte t.mem (a + o) = 0)
    ∧ (Config.shake256 data ≠ h.hash → i ∈ x.resent →
      ∃ t z, exec (.weightTileArrival p v i data) s = .next t ∧ t.version p v = some z ∧ z.state = .failed ∧ (t.func x.fn).head = (s.func x.fn).head + 1
        ∧ (a + data.length ≤ hostAddr 0 → rdBytes t.mem (hostAddr (headCmd s x.fn).res) 4 = leBytes 2 (headCmd s x.fn).stamp ++ leBytes 2 0x0704
          ∧ leNat (rdBytes t.mem (hostAddr (headCmd s x.fn).res + 12) 4) = i % 2 ^ 32))))
  ∧ (∀ (p v i : Nat) (data : List Byte) (s : State) (x : Version), s.version p v = some x → x.hashes = [] →
    let tree := x.reader = true ∧ x.agreed = true ∧ (s.members p).1 ≠ 1
    (¬ tree → exec (.weightTileArrival p v i data) s = .next s)
    ∧ (tree → ∃ t, exec (.weightTileArrival p v i data) s = .next t ∧ { t with sent := s.sent } = s ∧ t.sent = s.sent ++ [Sent.weights p v data]))
  ∧ (∀ (p v i r : Nat) (s : State) (x : Version), s.version p v = some x → x.reader = true → r < (s.members p).1 →
    ∃ t, exec (.tileResendRequest p v i r) s = .next t ∧ { t with sent := s.sent } = s ∧ t.sent = s.sent ++ [Sent.tile p v i r])
  ∧ (∀ (p v : Nat) (s : State) (x : Version), s.version p v = some x →
    (x.cur = false → x.bound = 0 → x.state = .ready ∨ x.state = .failed →
      ∃ t, exec (.versionRetire p v) s = .next t ∧ t.version p v = some { x with state := .retired } ∧ SameMem s t
        ∧ (∀ w ∈ x.roots, s.viewOf p w ≠ none → (get {} t.views (formHandle w) : View).used = false)
        ∧ ∀ h, (∀ w ∈ x.roots, s.viewOf p w ≠ none → formHandle w ≠ h) → get {} t.views h = get {} s.views h)
    ∧ (x.cur = true ∨ x.bound ≠ 0 ∨ x.state = .loading ∨ x.state = .retired → exec (.versionRetire p v) s = .next s))
  ∧ (∀ (k : Nat) (key : List Byte) (s : State), s.lenfy.boot = .running → k < 8 →
    ∃ t, exec (.publisherKeyProvision k key) s = .next t ∧ { t with lenfy := s.lenfy } = s ∧ { t.lenfy with keys := s.lenfy.keys } = s.lenfy
      ∧ get [] t.lenfy.keys k = key ∧ ∀ j, j ≠ k → get [] t.lenfy.keys j = get [] s.lenfy.keys j)

/-- 21 R412, R413; 05 R126; 22 R440; 23 R454, R455: clock, alerts, power, boot, attestation. -/
def Obligations.ClockAlertsPowerAndBoot : Prop :=
  (∀ s : State,
    let n := (s.bunits.filter (fun x => x.2.busy)).length
    let want := if n ≤ 192 then 17 else if n ≤ 384 then 16 else if n ≤ 576 then 15 else if n ≤ 768 then 14 else if n ≤ 1152 then 13 else 12
    (s.governed + 4096 ≤ s.now → ∃ t, exec .governorTick s = .next t ∧ { t with governed := s.governed, clock := s.clock } = s ∧ t.governed = s.governed + 4096
        ∧ (s.clock < want → t.clock = s.clock + 1) ∧ (want < s.clock → t.clock = s.clock - 1) ∧ (s.clock = want → t.clock = s.clock))
    ∧ (s.now < s.governed + 4096 → exec .governorTick s = .next s))
  ∧ (∀ (tier stack : Nat) (kind : AlertKind) (unit : Byte) (bank : BitVec 16) (row : Word) (hit : List Nat) (s : State),
    let k := 32 * tier + stack
    let x : Stack := get {} s.stackSt k
    let code := match kind with | .dramUncorrectable => 1 | .microcodeParity => 2 | .bankMachineCheck => 3 | .thermal => 4 | .onChip _ _ _ => 0
    (tier = 1 ∨ tier = 2) → stack < 24 → unit.toNat < 32 → code ≠ 0 →
    ∃ t a, exec (.stackAlertEvent tier stack kind unit bank row hit) s = .next t ∧ (get {} t.stackSt k : Stack).alert = true ∧ (get {} t.stackSt k : Stack).ring.getLast? = some a
      ∧ (x.ring.length < 32 → (get {} t.stackSt k : Stack).ring = x.ring ++ [a]) ∧ (x.ring.length = 32 → (get {} t.stackSt k : Stack).ring = x.ring.tail ++ [a])
      ∧ a.kind = code ∧ a.unit = unit ∧ a.bank = bank ∧ a.row = row ∧ a.seq = x.aseq ∧ a.seen = false ∧ (get {} t.stackSt k : Stack).aseq = x.aseq + 1
      ∧ ((∀ z ∈ x.ring, ¬ (z.kind = code ∧ z.unit = unit ∧ z.bank = bank ∧ z.row = row)) → a.cnt = 1) ∧ SameMem s t
      ∧ (∀ g, get false t.poison g = (get false s.poison g || (decide (code = 1 ∨ code = 3) && hit.any (fun h => decide (16 * h < stackBytes tier ∧ physAddr tier stack 0 / 16 + h = g)))))
      ∧ ∀ n, (t.bunit n).parity = (s.bunit n).parity ++ (if code = 2 ∧ n = (if tier = 2 then 0 else 768) + 32 * stack + unit.toNat then hit else []))
  ∧ (∀ (tier stack n : Nat) (kind : AlertKind) (unit : Byte) (bank : BitVec 16) (row : Word) (hit : List Nat) (s : State), tier = 0 ∨ 3 ≤ tier ∨ 24 ≤ stack →
    exec (.alertLogRead tier stack n) s = .next s
    ∧ ((∀ u b x, kind ≠ .onChip u b x) → (tier = 0 → stack < 8 → kind ≠ .dramUncorrectable) → exec (.stackAlertEvent tier stack kind unit bank row hit) s = .next s))
  ∧ (∀ (stack : Nat) (unit : Byte) (bank : BitVec 16) (row : Word) (hit : List Nat) (s : State), stack < 8 →
    ∃ t, exec (.stackAlertEvent 0 stack .dramUncorrectable unit bank row hit) s = .next t ∧ { t with poison := s.poison } = s
      ∧ ∀ g, get false t.poison g = (get false s.poison g || hit.any (fun h => decide (16 * h < stackBytes 0 ∧ physAddr 0 stack 0 / 16 + h = g))))
  ∧ (∀ (tier stack u b : Nat) (unit : Byte) (bank : BitVec 16) (row : Word) (hit : List Nat) (s : State), u < 528 → b < 2 →
    let poisoned := fun (x y : Row) => y.data = x.data ∧ ∀ g, g < 32 → y.poison.getLsbD g = (x.poison.getLsbD g || decide (g ∈ hit))
    (∀ r, r < (s.bank u b).rows →
      ∃ t, exec (.stackAlertEvent tier stack (.onChip u b (.pad r)) unit bank row hit) s = .next t ∧ { t with units := s.units } = s ∧ OnlyUnit s t u
        ∧ { t.core u with pad := (s.core u).pad } = s.core u ∧ poisoned (s.row u b r) (t.row u b r) ∧ ∀ q, q ≠ r → t.row u b q = s.row u b q)
    ∧ (∀ r, r < 32 →
      ∃ t, exec (.stackAlertEvent tier stack (.onChip u b (.vector r)) unit bank row hit) s = .next t ∧ { t with units := s.units } = s ∧ OnlyUnit s t u
        ∧ { t.bank u b with v := (s.bank u b).v } = s.bank u b ∧ poisoned (get {} (s.bank u b).v r) (get {} (t.bank u b).v r)
        ∧ ∀ q, q ≠ r → get {} (t.bank u b).v q = get {} (s.bank u b).v q)
    ∧ (∀ f i x, f < 4 → ((s.bank u b).dfifo f).rows[i]? = some x →
      ∃ t y, exec (.stackAlertEvent tier stack (.onChip u b (.fifo f i)) unit bank row hit) s = .next t ∧ { t with units := s.units } = s ∧ OnlyUnit s t u
        ∧ { t.bank u b with fifo := (s.bank u b).fifo } = s.bank u b ∧ ((t.bank u b).dfifo f).rows = ((s.bank u b).dfifo f).rows.set i y
        ∧ { y with row := x.row } = x ∧ poisoned x.row y.row ∧ ∀ q, q ≠ f → (t.bank u b).dfifo q = (s.bank u b).dfifo q)
    ∧ (∀ r, r < 2048 →
      ∃ t, exec (.stackAlertEvent tier stack (.onChip u b (.acc r)) unit bank row hit) s = .next t ∧ OnlyCluster s t (clusterOf u b) ∧ t.units = s.units
        ∧ (let x : AccRow := get {} (s.cluster (clusterOf u b)).acc r
           let y : AccRow := get {} (t.cluster (clusterOf u b)).acc r
           { y with poison := x.poison } = x ∧ ∀ g, g < 64 → y.poison.getLsbD g = (x.poison.getLsbD g || decide (g ∈ hit)))
        ∧ ∀ q, q ≠ r → get {} (t.cluster (clusterOf u b)).acc q = get {} (s.cluster (clusterOf u b)).acc q))
  ∧ (∀ (tier stack n : Nat) (s : State) (a : Alert),
    let k := 32 * tier + stack
    let x : Stack := get {} s.stackSt k
    (tier = 1 ∨ tier = 2) → stack < 24 → x.ring[n]? = some a →
    ∃ t bs, exec (.alertLogRead tier stack n) s = .next t ∧ { t with stackSt := s.stackSt, sent := s.sent } = s ∧ t.sent = s.sent ++ [Sent.answer bs] ∧ bs.length = 16
      ∧ leAt bs 0 1 = a.kind % 256 ∧ leAt bs 1 1 = a.unit.toNat ∧ leAt bs 2 2 = a.bank.toNat ∧ leAt bs 4 4 = a.row.toNat ∧ leAt bs 8 4 = a.cnt.toNat ∧ leAt bs 12 4 = a.seq.toNat
      ∧ (get {} t.stackSt k : Stack).ring = x.ring.set n { a with seen := true }
      ∧ ((∀ i z, i ≠ n → x.ring[i]? = some z → z.seen = true) → (get {} t.stackSt k : Stack).alert = false)
      ∧ ((∃ i z, i ≠ n ∧ x.ring[i]? = some z ∧ z.seen = false) → (get {} t.stackSt k : Stack).alert = x.alert))
  ∧ (∀ s : State,
    let latency := fun (l : Nat) => [0, 2, 20, 200, 2000, 20000].getD l 0
    let busy := s.lenfy.boot ≠ .running ∨ s.placedJobs ≠ [] ∨ ∃ q ∈ s.queues, q.2.tail ≠ q.2.head
    (busy → exec .powerLevelEnter s = .next s)
    ∧ (¬ busy → ∃ t, exec .powerLevelEnter s = .next t ∧ { t with power := s.power, units := s.units } = s ∧ t.power ≤ 5 ∧ latency t.power ≤ s.tolerance
        ∧ (∀ l, l ≤ 5 → latency l ≤ s.tolerance → l ≤ t.power) ∧ (t.power < 4 → t.units = s.units)
        ∧ (4 ≤ t.power → ∀ u b, t.bank u b = {} ∧ (t.core u).pad = [] ∧ (t.core u).tags = []))
    ∧ ∃ t, exec .wake s = .next t ∧ { t with power := s.power } = s ∧ t.power = 0)
  ∧ (∀ (h : Nat) (fw : Firmware) (s : State), h < 2 → s.lenfy.boot = .booting → h ∉ s.lenfy.booted →
    let key := Config.shake256 fw.pubKey = Config.fusedKeyHash h
    let sig := Config.falconVerify fw.pubKey fw.sig (Firmware.message fw) = true
    let least := Config.fusedSvn h % 65
    let fail := fun (n : Nat) => ∃ t, exec (.powerOnBoot h fw) s = .next t ∧ { t with lenfy := s.lenfy } = s ∧ t.lenfy = { s.lenfy with boot := .fail, step := n }
    (¬ key → fail 1) ∧ (key → ¬ sig → fail 2) ∧ (key → sig → fw.svn < least → fail 3)
    ∧ (key → sig → least ≤ fw.svn → ∃ t, exec (.powerOnBoot h fw) s = .next t ∧ { t with lenfy := s.lenfy } = s
        ∧ t.lenfy.booted = s.lenfy.booted ++ [h] ∧ t.lenfy.boot = (if 1 - h ∈ s.lenfy.booted then .running else .booting) ∧ t.lenfy.keys = s.lenfy.keys
        ∧ get [] t.lenfy.logs h = fw.images.map Config.shake256 ∧ (∀ i, i ≠ h → get [] t.lenfy.logs i = get [] s.lenfy.logs i)
        ∧ t.lenfy.svn = (if h = 0 then BitVec.ofNat 32 fw.svn else s.lenfy.svn)))
  ∧ (∀ (nonce : Nat) (s : State),
    let log := get [] s.lenfy.logs 0 ++ get [] s.lenfy.logs 1
    s.lenfy.boot ≠ .fail → 0 ∈ s.lenfy.booted →
    ∃ t b, exec (.getMeasurements nonce) s = .next t ∧ { t with sent := s.sent } = s ∧ t.sent = s.sent ++ [Sent.answer (b ++ Config.ecdsaSign (leBytes 32 nonce ++ b))]
      ∧ (∀ i, i < 8 → leAt b (32 * i) 32 = log.getD i 0 % 2 ^ 256)
      ∧ (b.drop 256) = (List.range 8).flatMap (fun i => get [] s.lenfy.keys i) ++ (somes s.lenfy.fabric).flatMap (fun x =>
          leBytes 4 x.1 ++ leBytes 1 x.2.size ++ leBytes 1 x.2.own ++ x.2.tree.flatMap (fun e => leBytes 1 e.1 ++ leBytes 1 e.2)))

namespace Sys2Proof.Spec

/-! ### Words, steps, reset, memory (02 R30 to R61; 21 R399; 10 R240) -/

/-- Words written out bit by bit from the encodings of 02, and the instructions that they stand for: one of each engine and class. -/
def tableWords : List (Nat × Nat × (Instr → Prop)) :=
  [(32, 0b011_111_00110_1_0000000111_0000000101, fun i => i = .loop 3 1 7 5),
   (32, 0b000_000_00000_00011_01100_10101_110_000, fun i => i = .add 3 12 21 6),
   (32, 0b000_001_0000_10011_00110_111111111011, fun i => i = .addi 19 6 (-5)),
   (64, 0x9ABCDEF0 * 2 ^ 32 + 0b000_010_01_10011_0000000000000000000, fun i => i = .movl 19 0x9ABCDEF0),
   (32, 0b000_011_0110_00111_10110_111111110111, fun i => i = .ldd 7 22 (-9)),
   (32, 0b000_100_00000_00111_00010_00000000000, fun i => i = .csrr 7 2),
   (32, 0b001_000_000000_10001_10010_10011_101_01, fun i => i = .vadd 17 18 19 5 1),
   (32, 0b001_001_000_10001_10010_10011_10100_01_0, fun i => i = .vfma 17 18 19 20 1),
   (32, 0b001_010_001_10001_10010_11001000_01_101, fun i => i = .vaddk 17 18 200 1 5),
   (32, 0b001_011_0_10001_01001100000000000000, fun i => i = .vmovf 17 0x4C000),
   (32, 0b001_100_0000_10001_011_11111111111100, fun i => i = .vld 17 3 (-4)),
   (32, 0b001_101_01000_10001_10010_10011_101_010, fun i => i = .vpack 17 18 19 5 2),
   (32, 0b010_000_0100_1001011000_0001000001_00, fun i => i = .mma 600 65),
   (32, 0b100_010_0000_1011_1100_10011100001111, fun i => i = .cpy 4 11 12 9999),
   (32, 0b101_000_0011_001_010_011_1001_1_00000000, fun i => i = .atom 1 2 3 9 1)]

end Sys2Proof.Spec

/-- 01 R14, R15; 03 R85 to R92; 12 R292; 21 R412; 22 R414, R416, R417; 23 R454: the machine after reset, in the values that the spec gives. -/
def Obligations.ResetLeavesTheSpecsValues : Prop :=
  let s := State.reset
  s.agenda = [] ∧ s.now = 0 ∧ s.lenfy.boot = .booting ∧ s.lenfy.step = 0 ∧ s.power = 0 ∧ s.clock = 17 ∧ s.mem = [] ∧ Memory.wf s.mem
  ∧ (∀ u b, (s.bank u b).job = none ∧ (s.bank u b).fault = none ∧ (s.bank u b).ready = false
      ∧ (s.bank u b).csr.th = false ∧ (s.bank u b).csr.tie = false ∧ (s.bank u b).csr.frz = 0 ∧ (s.bank u b).csr.causeCode = 0 ∧ (s.bank u b).csr.causeKind = 0
      ∧ (s.bank u b).csr.fframe = 0 ∧ (s.bank u b).csr.dmrLevel = 0 ∧ (s.bank u b).csr.dmrId = 0 ∧ (s.bank u b).csr.ftbase = 0 ∧ (s.bank u b).csr.fctl = 0
      ∧ (s.bank u b).csr.aborts = 0 ∧ (s.bank u b).csr.climbs = 0 ∧ (s.bank u b).csr.last = 0 ∧ (s.bank u b).csr.waitlim = 0x4000000
      ∧ (s.bank u b).csr.tickcmp = 0xFFFFFFFFFFFFFFFF ∧ (s.bank u b).csr.viewst = 0 ∧ (s.bank u b).rdS 0 = 0 ∧ (s.bank u b).rdP 0 = true
      ∧ (s.bank u b).rdM 0 = BitVec.allOnes 128)
  ∧ (∀ q, (s.queue q).state = .disabled ∧ (s.queue q).tail = 0 ∧ (s.queue q).head = 0 ∧ (s.queue q).err = 0 ∧ (s.queue q).done = 0)
  ∧ (∀ f, (s.func f).tail = 0 ∧ (s.func f).head = 0 ∧ (s.func f).base = 0 ∧ (s.func f).err = 0 ∧ (∀ c, get 0 (s.func f).cqh c = 0) ∧ ∀ l, s.globalQ f l = none)
  ∧ (s.func 0).part = some 0 ∧ (∀ f, f ≠ 0 → (s.func f).part = none) ∧ (∀ p, s.part p = none) ∧ (∀ i, s.tensor i = none)
  ∧ ∀ i, (get {} s.remap i : Remap).v = false ∧ (get {} s.remap i : Remap).m = false

/-- 02 R30 to R61: words written out from the encodings decode to what they stand for. -/
def Obligations.WrittenOutWordsDecode : Prop :=
  ∀ p ∈ tableWords, ∃ i, decodeTableWord p.1 p.2.1 = some i ∧ p.2.2 i

/-- 02 R30 to R61: decoding and encoding agree, for every instruction that a stream may hold, at every operand value that its encoding admits. -/
def Obligations.DecodeAndEncodeAgree : Prop :=
  (∀ (i : Instr) (rest : List Byte), i.engine.isSome = true → i.wellFormed = true → decodeBytes (encode i ++ rest) = .ok (i, rest))
  ∧ (∀ (w : Nat) (l : Word) (i : Instr), w < 2 ^ 32 → decode w l = .ok i →
      encodeWord i = w ∧ i.engine = some (w / 2 ^ 29) ∧ i.wellFormed = true ∧ i.literal.isSome = takesLiteral w ∧ ∀ x, i.literal = some x → x = l)

/-- 21 R399: microcode words and their instructions agree. -/
def Sys2Proof.Spec.MicrocodeWordsRoundTrip : Prop :=
  (∀ (k w : Nat) (i : Instr), w < 2 ^ 64 → decodeMicro k w = some i → encodeMicro i = some w)
  ∧ (∀ (k : Nat) (m : Micro), ∀ f ∈ [Instr.bankUnitNop, .bankUnitAct, .bankUnitRd, .bankUnitWr, .bankUnitMac, .bankUnitAdda, .bankUnitRed, .bankUnitMova, .bankUnitCtx, .bankUnitEnd],
      ∃ w, encodeMicro (f k m) = some w ∧ w < 2 ^ 64 ∧ decodeMicro k w = some (f k m))
  ∧ ∀ k w, 10 ≤ w / 2 ^ 60 % 16 → decodeMicro k w = none

/-- R399 to R402, R405, R408. -/
def Obligations.MicrocodeAndItsEncoding : Prop :=
  Sys2Proof.Spec.MicrocodeWordsTakeEffect ∧ Sys2Proof.Spec.MicrocodeWordsRoundTrip

/-- 01 R22; 02 R32 to R39; 08 R202: a step runs the instruction that the bytes at the issue point decode to. -/
def Obligations.AStepRunsTheDecodedInstruction : Prop :=
  (∀ (u e : Nat) (i : Instr) (rest : List Move) (s : State),
    let r : State := { s with agenda := rest }
    let q := r.settle u
    let b := (q.core u).kbank
    let k := q.bank u b
    let x := (k.stream e).q0.addr
    let w := get 0 k.imem (8192 * e + x.toNat)
    let before := ((List.range 6).map (fun n => ((r.core u).lastE + 1 + n) % 6)).takeWhile (fun g => decide (g ≠ e))
    s.agenda = .issue u e :: rest → q.canIssue u e = true → (e = 0 → q.tickDue u = false) → (k.stream e).q0.null = false →
    (w.getLsbD 32 = false → decode (w.toNat % 2 ^ 32) (BitVec.ofNat 32 (get 0 k.imem (8192 * e + (x.toNat + 1) % 2 ^ addrWidth e)).toNat) = .ok i → i.engine = some e →
      (e = 0 → k.awaitsLoad i = false) → (e = 5 → k.awaitsAtom i = false) →
      (u < 448 → step s = exec i (q.atIssue u) ∧ (q.atIssue u).cur = u ∧ (q.atIssue u).me = k.onJob (fun j => { j with started := true }) ∧ SameMem s (q.atIssue u))
      ∧ (448 ≤ u → (∃ g ∈ before, r.issues u g = true) → step s = .next r)
      ∧ (448 ≤ u → (∀ g ∈ before, r.issues u g = false) →
          let r' := if r.issues u e then r.setCore u { r.core u with lastE := e } else r
          let a := (r'.settle u).atIssue u
          step s = exec i a ∧ a.cur = u ∧ a.me = k.onJob (fun j => { j with started := true }) ∧ SameMem s a))
    ∧ (u < 448 → w.getLsbD 32 = true → k.fault = none → ∃ t f, step s = .next t ∧ (t.bank u b).fault = some f ∧ f.code = 0x0002 ∧ f.eng = e ∧ f.da = x.setWidth 64
        ∧ (t.bank u b).csr = { k.csr with epcqA := (k.stream e).q0 }))
  ∧ (∀ (k : Nat) (i : Instr) (c : BCmd) (rest : List Move) (s : State), s.agenda = .micro k :: rest → (s.bunit k).cmd = some c →
    decodeMicro k (get 0 (s.bunit k).ucode ((s.bunit k).ctx c.ctx).upc.toNat).toNat = some i → step s = exec i { s with agenda := rest })
  ∧ (∀ (i : Instr) (rest : List Move) (s : State), s.agenda = .event i :: rest → i.engine = none → encodeMicro i = none → step s = exec i { s with agenda := rest })
  ∧ (∀ s, s.agenda = [] → step s = step { s with agenda := [Config.nextMove s.moves], moves := s.moves + 1 })

/-- The canonical form of memory is kept by every step, from every state that has it (log entry 3: an unlisted byte reads 0). -/
def Obligations.EveryStepKeepsMemoryCanonical : Prop :=
  ∀ s t : State, Memory.wf s.mem → step s = .next t → Memory.wf t.mem
end

