-- ==== Sys2Proof/Laws/Bits.lean ====
section
/-!
SUPPORT. Elements of rows: what a row built element by element reads as.
-/

namespace Sys2Proof.Machine

theorem gatherN_lt (w : Nat) (f : Nat → Nat) (i n : Nat) : gatherN w f i n < 2 ^ (w * n) := by
  induction n generalizing i with
  | zero => simp [gatherN]
  | succ n ih =>
    have h1 : f i % 2 ^ w < 2 ^ w := Nat.mod_lt _ (Nat.two_pow_pos w)
    have h2 := ih (i + 1)
    rw [gatherN, Nat.mul_succ, Nat.pow_add, Nat.mul_comm (2 ^ (w * n))]
    calc f i % 2 ^ w + 2 ^ w * gatherN w f (i + 1) n < 2 ^ w + 2 ^ w * gatherN w f (i + 1) n := by omega
      _ = 2 ^ w * (gatherN w f (i + 1) n + 1) := by rw [Nat.mul_add, Nat.mul_one, Nat.add_comm]
      _ ≤ 2 ^ w * 2 ^ (w * n) := Nat.mul_le_mul_left _ h2

/-- Element `j` of a gathered number. -/
theorem gatherN_elem (w : Nat) (f : Nat → Nat) (i n j : Nat) (h : j < n) :
    gatherN w f i n / 2 ^ (w * j) % 2 ^ w = f (i + j) % 2 ^ w := by
  induction n generalizing i j with
  | zero => omega
  | succ n ih =>
    have hw : 0 < 2 ^ w := Nat.two_pow_pos w
    cases j with
    | zero => simp [gatherN, Nat.add_mul_mod_self_left]
    | succ j =>
      have : gatherN w f i (n + 1) / 2 ^ (w * (j + 1)) = gatherN w f (i + 1) n / 2 ^ (w * j) := by
        rw [Nat.mul_succ, Nat.pow_add, Nat.mul_comm (2 ^ (w * j)), ← Nat.div_div_eq_div_mul, gatherN,
          Nat.add_mul_div_left _ _ hw, Nat.div_eq_of_lt (Nat.mod_lt _ hw), Nat.zero_add]
      rw [this, ih (i + 1) j (by omega)]
      congr 2; omega

/-- Element `j` of a number of `w * n` bits that a wider bit vector holds. -/
theorem elem_ofNat_gatherN (w n m : Nat) (f : Nat → Nat) (j : Nat) (h : j < n) (hm : w * n ≤ m) :
    (BitVec.ofNat m (gatherN w f 0 n)).toNat / 2 ^ (w * j) % 2 ^ w = f j % 2 ^ w := by
  have hlt := gatherN_lt w f 0 n
  rw [BitVec.toNat_ofNat, Nat.mod_eq_of_lt (Nat.lt_of_lt_of_le hlt (Nat.pow_le_pow_right (by omega) hm)), gatherN_elem w f 0 n j h, Nat.zero_add]

/-- Element `j` of a written register: the value where it is governed, what it was elsewhere. -/
theorem el_write (old : Row) (w : Nat) (gov : Nat → Bool) (f : Nat → Nat) (bad : Nat → Bool) (j : Nat) (h : j < 4096 / w) :
    (old.write w gov f bad).el w j = if gov j then f j % 2 ^ w else old.el w j := by
  unfold Row.write Row.el
  simp only
  rw [elem_ofNat_gatherN w (4096 / w) 4096 _ j h (Nat.mul_div_le 4096 w)]
  split
  · rfl
  · exact Nat.mod_mod _ _

theorem getLsbD_ofNat_gatherN (n m : Nat) (f : Nat → Bool) (g : Nat) (h : g < n) (hm : n ≤ m) :
    (BitVec.ofNat m (gatherN 1 (fun i => (f i).toNat) 0 n)).getLsbD g = f g := by
  have h1 := elem_ofNat_gatherN 1 n m (fun i => (f i).toNat) g h (by omega)
  rw [Nat.one_mul] at h1
  have : (BitVec.ofNat m (gatherN 1 (fun i => (f i).toNat) 0 n)).getLsbD g
      = decide ((BitVec.ofNat m (gatherN 1 (fun i => (f i).toNat) 0 n)).toNat / 2 ^ g % 2 = 1) := by
    rw [BitVec.getLsbD, Nat.testBit_eq_decide_div_mod_eq]
  rw [this]
  rw [show (2 : Nat) ^ 1 = 2 from rfl] at h1
  rw [h1]
  cases f g <;> rfl

/-- Bit `g` of a set of granules. -/
theorem getLsbD_ofGran (f : Nat → Bool) (g : Nat) (h : g < 32) : (ofGran f).getLsbD g = f g :=
  getLsbD_ofNat_gatherN 32 32 f g h (by omega)

/-- Bit `i` of a mask. -/
theorem getLsbD_ofMask (f : Nat → Bool) (i : Nat) (h : i < 128) : (ofMask f).getLsbD i = f i :=
  getLsbD_ofNat_gatherN 128 128 f i h (by omega)

/-- The poison of granule `g` of a written register. -/
theorem poison_write (old : Row) (w : Nat) (gov : Nat → Bool) (f : Nat → Nat) (bad : Nat → Bool) (g : Nat) (h : g < 32) :
    (old.write w gov f bad).poison.getLsbD g =
      anyBelow (128 / w) (fun i => if gov (128 / w * g + i) then bad (128 / w * g + i) else old.poison.getLsbD g) := by
  unfold Row.write; simp only; rw [getLsbD_ofGran _ _ h]

/-- Element `j` of a row built of elements. -/
theorem elem_ofElems (w : Nat) (f : Nat → BitVec w) (j : Nat) (h : j < 4096 / w) : elem w (ofElems w f) j = f j := by
  unfold elem ofElems
  apply BitVec.eq_of_toNat_eq
  rw [BitVec.toNat_ofNat, elem_ofNat_gatherN w (4096 / w) 4096 _ j h (Nat.mul_div_le 4096 w)]
  exact Nat.mod_eq_of_lt (f j).isLt

/-- Lane `j` of a row built of lanes. -/
theorem lane_ofLanes (f : Nat → Word) (j : Nat) (h : j < 128) : lane (ofLanes f) j = f j :=
  elem_ofElems 32 f j (by omega)

/-- Byte `i` of a row whose bytes have been moved. -/
theorem byte_moveBytes (f : Nat → Option (Row × Nat)) (i : Nat) (h : i < 512) :
    elem 8 (moveBytes f).data i = match f i with | some (r, j) => elem 8 r.data j | none => 0 :=
  elem_ofElems 8 _ i (by omega)

/-- An element read through `Row.el` is the element of the data. -/
theorem el_eq_elem (r : Row) (w j : Nat) : r.el w j = (elem w r.data j).toNat := by
  unfold Row.el elem; rw [BitVec.toNat_ofNat]

end Sys2Proof.Machine
end

