-- ==== Sys2Proof/Laws/Dispatch.lean ====
section
/-!
SUPPORT. The dispatch, one equation for each constructor: `exec` calls the meaning.
-/

namespace Sys2Proof.Machine

theorem exec_nop (e : BitVec 3) (st : State) : exec (.nop e) st = execNop e st := rfl
theorem exec_join (e : BitVec 3) (st : State) : exec (.join e) st = execJoin e st := rfl
theorem exec_clause (e : BitVec 3) (n : BitVec 16) (st : State) : exec (.clause e n) st = execClause e n st := rfl
theorem exec_waitk (e : BitVec 3) (f : BitVec 4) (n : BitVec 3) (st : State) : exec (.waitk e f n) st = execWaitk e f n st := rfl
theorem exec_sigk (e : BitVec 3) (f : BitVec 4) (n : BitVec 3) (st : State) : exec (.sigk e f n) st = execSigk e f n st := rfl
theorem exec_waitaw (e : BitVec 3) (x : BitVec 5) (y : BitVec 5) (st : State) : exec (.waitaw e x y) st = execWaitaw e x y st := rfl
theorem exec_loop (e : BitVec 3) (l : BitVec 1) (n : BitVec 10) (o : BitVec 10) (st : State) : exec (.loop e l n o) st = execLoop e l n o st := rfl
theorem exec_loopr (e : BitVec 3) (l : BitVec 1) (x : BitVec 5) (o : BitVec 10) (st : State) : exec (.loopr e l x o) st = execLoopr e l x o st := rfl
theorem exec_pbr (e : BitVec 3) (n : BitVec 3) (o : BitVec 18) (st : State) : exec (.pbr e n o) st = execPbr e n o st := rfl
theorem exec_pbrr (e : BitVec 3) (n : BitVec 3) (x : BitVec 5) (st : State) : exec (.pbrr e n x) st = execPbrr e n x st := rfl
theorem exec_br (e : BitVec 3) (n : BitVec 3) (k : BitVec 3) (p : BitVec 1) (u : BitVec 2) (l : BitVec 1) (st : State) : exec (.br e n k p u l) st = execBr e n k p u l st := rfl
theorem exec_brq (e : BitVec 3) (n : BitVec 3) (q : BitVec 4) (c : BitVec 3) (u : BitVec 2) (st : State) : exec (.brq e n q c u) st = execBrq e n q c u st := rfl
theorem exec_trap (e : BitVec 3) (c : BitVec 16) (st : State) : exec (.trap e c) st = execTrap e c st := rfl
theorem exec_tret  (st : State) : exec (.tret) st = execTret st := rfl
theorem exec_add (d : BitVec 5) (a : BitVec 5) (b : BitVec 5) (g : BitVec 3) (st : State) : exec (.add d a b g) st = execAdd d a b g st := rfl
theorem exec_sub (d : BitVec 5) (a : BitVec 5) (b : BitVec 5) (g : BitVec 3) (st : State) : exec (.sub d a b g) st = execSub d a b g st := rfl
theorem exec_mul (d : BitVec 5) (a : BitVec 5) (b : BitVec 5) (g : BitVec 3) (st : State) : exec (.mul d a b g) st = execMul d a b g st := rfl
theorem exec_mulh (d : BitVec 5) (a : BitVec 5) (b : BitVec 5) (g : BitVec 3) (st : State) : exec (.mulh d a b g) st = execMulh d a b g st := rfl
theorem exec_mulhu (d : BitVec 5) (a : BitVec 5) (b : BitVec 5) (g : BitVec 3) (st : State) : exec (.mulhu d a b g) st = execMulhu d a b g st := rfl
theorem exec_div (d : BitVec 5) (a : BitVec 5) (b : BitVec 5) (g : BitVec 3) (st : State) : exec (.div d a b g) st = execDiv d a b g st := rfl
theorem exec_divu (d : BitVec 5) (a : BitVec 5) (b : BitVec 5) (g : BitVec 3) (st : State) : exec (.divu d a b g) st = execDivu d a b g st := rfl
theorem exec_rem (d : BitVec 5) (a : BitVec 5) (b : BitVec 5) (g : BitVec 3) (st : State) : exec (.rem d a b g) st = execRem d a b g st := rfl
theorem exec_remu (d : BitVec 5) (a : BitVec 5) (b : BitVec 5) (g : BitVec 3) (st : State) : exec (.remu d a b g) st = execRemu d a b g st := rfl
theorem exec_and (d : BitVec 5) (a : BitVec 5) (b : BitVec 5) (g : BitVec 3) (st : State) : exec (.and d a b g) st = execAnd d a b g st := rfl
theorem exec_or (d : BitVec 5) (a : BitVec 5) (b : BitVec 5) (g : BitVec 3) (st : State) : exec (.or d a b g) st = execOr d a b g st := rfl
theorem exec_xor (d : BitVec 5) (a : BitVec 5) (b : BitVec 5) (g : BitVec 3) (st : State) : exec (.xor d a b g) st = execXor d a b g st := rfl
theorem exec_andn (d : BitVec 5) (a : BitVec 5) (b : BitVec 5) (g : BitVec 3) (st : State) : exec (.andn d a b g) st = execAndn d a b g st := rfl
theorem exec_shl (d : BitVec 5) (a : BitVec 5) (b : BitVec 5) (g : BitVec 3) (st : State) : exec (.shl d a b g) st = execShl d a b g st := rfl
theorem exec_shr (d : BitVec 5) (a : BitVec 5) (b : BitVec 5) (g : BitVec 3) (st : State) : exec (.shr d a b g) st = execShr d a b g st := rfl
theorem exec_sra (d : BitVec 5) (a : BitVec 5) (b : BitVec 5) (g : BitVec 3) (st : State) : exec (.sra d a b g) st = execSra d a b g st := rfl
theorem exec_min (d : BitVec 5) (a : BitVec 5) (b : BitVec 5) (g : BitVec 3) (st : State) : exec (.min d a b g) st = execMin d a b g st := rfl
theorem exec_max (d : BitVec 5) (a : BitVec 5) (b : BitVec 5) (g : BitVec 3) (st : State) : exec (.max d a b g) st = execMax d a b g st := rfl
theorem exec_minu (d : BitVec 5) (a : BitVec 5) (b : BitVec 5) (g : BitVec 3) (st : State) : exec (.minu d a b g) st = execMinu d a b g st := rfl
theorem exec_maxu (d : BitVec 5) (a : BitVec 5) (b : BitVec 5) (g : BitVec 3) (st : State) : exec (.maxu d a b g) st = execMaxu d a b g st := rfl
theorem exec_cmp (p : BitVec 3) (a : BitVec 5) (b : BitVec 5) (g : BitVec 3) (x : BitVec 3) (st : State) : exec (.cmp p a b g x) st = execCmp p a b g x st := rfl
theorem exec_sel (d : BitVec 5) (a : BitVec 5) (b : BitVec 5) (p : BitVec 3) (st : State) : exec (.sel d a b p) st = execSel d a b p st := rfl
theorem exec_clz (d : BitVec 5) (a : BitVec 5) (g : BitVec 3) (st : State) : exec (.clz d a g) st = execClz d a g st := rfl
theorem exec_popc (d : BitVec 5) (a : BitVec 5) (g : BitVec 3) (st : State) : exec (.popc d a g) st = execPopc d a g st := rfl
theorem exec_bfx (d : BitVec 5) (a : BitVec 5) (b : BitVec 5) (g : BitVec 3) (st : State) : exec (.bfx d a b g) st = execBfx d a b g st := rfl
theorem exec_bfi (d : BitVec 5) (a : BitVec 5) (b : BitVec 5) (g : BitVec 3) (st : State) : exec (.bfi d a b g) st = execBfi d a b g st := rfl
theorem exec_pand (d : BitVec 3) (a : BitVec 3) (b : BitVec 3) (g : BitVec 3) (st : State) : exec (.pand d a b g) st = execPand d a b g st := rfl
theorem exec_por (d : BitVec 3) (a : BitVec 3) (b : BitVec 3) (g : BitVec 3) (st : State) : exec (.por d a b g) st = execPor d a b g st := rfl
theorem exec_pxor (d : BitVec 3) (a : BitVec 3) (b : BitVec 3) (g : BitVec 3) (st : State) : exec (.pxor d a b g) st = execPxor d a b g st := rfl
theorem exec_movp (d : BitVec 3) (a : BitVec 5) (g : BitVec 3) (st : State) : exec (.movp d a g) st = execMovp d a g st := rfl
theorem exec_addi (d : BitVec 5) (a : BitVec 5) (i : BitVec 12) (st : State) : exec (.addi d a i) st = execAddi d a i st := rfl
theorem exec_andi (d : BitVec 5) (a : BitVec 5) (i : BitVec 12) (st : State) : exec (.andi d a i) st = execAndi d a i st := rfl
theorem exec_ori (d : BitVec 5) (a : BitVec 5) (i : BitVec 12) (st : State) : exec (.ori d a i) st = execOri d a i st := rfl
theorem exec_xori (d : BitVec 5) (a : BitVec 5) (i : BitVec 12) (st : State) : exec (.xori d a i) st = execXori d a i st := rfl
theorem exec_shli (d : BitVec 5) (a : BitVec 5) (i : BitVec 6) (st : State) : exec (.shli d a i) st = execShli d a i st := rfl
theorem exec_shri (d : BitVec 5) (a : BitVec 5) (i : BitVec 6) (st : State) : exec (.shri d a i) st = execShri d a i st := rfl
theorem exec_srai (d : BitVec 5) (a : BitVec 5) (i : BitVec 6) (st : State) : exec (.srai d a i) st = execSrai d a i st := rfl
theorem exec_muli (d : BitVec 5) (a : BitVec 5) (i : BitVec 12) (st : State) : exec (.muli d a i) st = execMuli d a i st := rfl
theorem exec_cmpeqi (p : BitVec 3) (a : BitVec 5) (i : BitVec 12) (st : State) : exec (.cmpeqi p a i) st = execCmpeqi p a i st := rfl
theorem exec_cmplti (p : BitVec 3) (a : BitVec 5) (i : BitVec 12) (st : State) : exec (.cmplti p a i) st = execCmplti p a i st := rfl
theorem exec_cmpltui (p : BitVec 3) (a : BitVec 5) (i : BitVec 12) (st : State) : exec (.cmpltui p a i) st = execCmpltui p a i st := rfl
theorem exec_mini (d : BitVec 5) (a : BitVec 5) (i : BitVec 12) (st : State) : exec (.mini d a i) st = execMini d a i st := rfl
theorem exec_maxi (d : BitVec 5) (a : BitVec 5) (i : BitVec 12) (st : State) : exec (.maxi d a i) st = execMaxi d a i st := rfl
theorem exec_movi (d : BitVec 5) (i : BitVec 19) (st : State) : exec (.movi d i) st = execMovi d i st := rfl
theorem exec_movl (d : BitVec 5) (lit : Word) (st : State) : exec (.movl d lit) st = execMovl d lit st := rfl
theorem exec_movlh (d : BitVec 5) (lit : Word) (st : State) : exec (.movlh d lit) st = execMovlh d lit st := rfl
theorem exec_ldb (d : BitVec 5) (a : BitVec 5) (o : BitVec 12) (st : State) : exec (.ldb d a o) st = execLdb d a o st := rfl
theorem exec_ldbu (d : BitVec 5) (a : BitVec 5) (o : BitVec 12) (st : State) : exec (.ldbu d a o) st = execLdbu d a o st := rfl
theorem exec_ldh (d : BitVec 5) (a : BitVec 5) (o : BitVec 12) (st : State) : exec (.ldh d a o) st = execLdh d a o st := rfl
theorem exec_ldhu (d : BitVec 5) (a : BitVec 5) (o : BitVec 12) (st : State) : exec (.ldhu d a o) st = execLdhu d a o st := rfl
theorem exec_ldw (d : BitVec 5) (a : BitVec 5) (o : BitVec 12) (st : State) : exec (.ldw d a o) st = execLdw d a o st := rfl
theorem exec_ldwu (d : BitVec 5) (a : BitVec 5) (o : BitVec 12) (st : State) : exec (.ldwu d a o) st = execLdwu d a o st := rfl
theorem exec_ldd (d : BitVec 5) (a : BitVec 5) (o : BitVec 12) (st : State) : exec (.ldd d a o) st = execLdd d a o st := rfl
theorem exec_stb (s : BitVec 5) (a : BitVec 5) (o : BitVec 12) (st : State) : exec (.stb s a o) st = execStb s a o st := rfl
theorem exec_sth (s : BitVec 5) (a : BitVec 5) (o : BitVec 12) (st : State) : exec (.sth s a o) st = execSth s a o st := rfl
theorem exec_stw (s : BitVec 5) (a : BitVec 5) (o : BitVec 12) (st : State) : exec (.stw s a o) st = execStw s a o st := rfl
theorem exec_std (s : BitVec 5) (a : BitVec 5) (o : BitVec 12) (st : State) : exec (.std s a o) st = execStd s a o st := rfl
theorem exec_ldg (d : BitVec 5) (a : BitVec 5) (o : BitVec 12) (st : State) : exec (.ldg d a o) st = execLdg d a o st := rfl
theorem exec_stg (s : BitVec 5) (a : BitVec 5) (o : BitVec 12) (st : State) : exec (.stg s a o) st = execStg s a o st := rfl
theorem exec_csrr (d : BitVec 5) (n : BitVec 5) (st : State) : exec (.csrr d n) st = execCsrr d n st := rfl
theorem exec_csrw (a : BitVec 5) (n : BitVec 5) (st : State) : exec (.csrw a n) st = execCsrw a n st := rfl
theorem exec_dsync  (st : State) : exec (.dsync) st = execDsync st := rfl
theorem exec_dmrset (l : BitVec 3) (i : BitVec 16) (st : State) : exec (.dmrset l i) st = execDmrset l i st := rfl
theorem exec_vderive (d : BitVec 5) (a : BitVec 5) (b : BitVec 5) (w : BitVec 1) (r : BitVec 1) (st : State) : exec (.vderive d a b w r) st = execVderive d a b w r st := rfl
theorem exec_vnarrow (a : BitVec 5) (b : BitVec 5) (st : State) : exec (.vnarrow a b) st = execVnarrow a b st := rfl
theorem exec_vdrop (a : BitVec 5) (st : State) : exec (.vdrop a) st = execVdrop a st := rfl
theorem exec_vquery (a : BitVec 5) (b : BitVec 5) (st : State) : exec (.vquery a b) st = execVquery a b st := rfl
theorem exec_fmtset (q : BitVec 4) (a : BitVec 5) (st : State) : exec (.fmtset q a) st = execFmtset q a st := rfl
theorem exec_hist (a : BitVec 5) (b : BitVec 5) (st : State) : exec (.hist a b) st = execHist a b st := rfl
theorem exec_hlatch (a : BitVec 5) (st : State) : exec (.hlatch a) st = execHlatch a st := rfl
theorem exec_climb  (st : State) : exec (.climb) st = execClimb st := rfl
theorem exec_climbFar  (st : State) : exec (.climbFar) st = execClimbFar st := rfl
theorem exec_climbNear  (st : State) : exec (.climbNear) st = execClimbNear st := rfl
theorem exec_setleave  (st : State) : exec (.setleave) st = execSetleave st := rfl
theorem exec_arwinit (a : BitVec 5) (b : BitVec 5) (st : State) : exec (.arwinit a b) st = execArwinit a b st := rfl
theorem exec_vadd (d : BitVec 5) (a : BitVec 5) (b : BitVec 5) (m : BitVec 3) (t : BitVec 2) (st : State) : exec (.vadd d a b m t) st = execVadd d a b m t st := rfl
theorem exec_vsub (d : BitVec 5) (a : BitVec 5) (b : BitVec 5) (m : BitVec 3) (t : BitVec 2) (st : State) : exec (.vsub d a b m t) st = execVsub d a b m t st := rfl
theorem exec_vmul (d : BitVec 5) (a : BitVec 5) (b : BitVec 5) (m : BitVec 3) (t : BitVec 2) (st : State) : exec (.vmul d a b m t) st = execVmul d a b m t st := rfl
theorem exec_vdiv (d : BitVec 5) (a : BitVec 5) (b : BitVec 5) (m : BitVec 3) (t : BitVec 2) (st : State) : exec (.vdiv d a b m t) st = execVdiv d a b m t st := rfl
theorem exec_vmin (d : BitVec 5) (a : BitVec 5) (b : BitVec 5) (m : BitVec 3) (t : BitVec 2) (st : State) : exec (.vmin d a b m t) st = execVmin d a b m t st := rfl
theorem exec_vmax (d : BitVec 5) (a : BitVec 5) (b : BitVec 5) (m : BitVec 3) (t : BitVec 2) (st : State) : exec (.vmax d a b m t) st = execVmax d a b m t st := rfl
theorem exec_vabs (d : BitVec 5) (a : BitVec 5) (m : BitVec 3) (t : BitVec 2) (st : State) : exec (.vabs d a m t) st = execVabs d a m t st := rfl
theorem exec_vneg (d : BitVec 5) (a : BitVec 5) (m : BitVec 3) (t : BitVec 2) (st : State) : exec (.vneg d a m t) st = execVneg d a m t st := rfl
theorem exec_vsqrt (d : BitVec 5) (a : BitVec 5) (m : BitVec 3) (t : BitVec 2) (st : State) : exec (.vsqrt d a m t) st = execVsqrt d a m t st := rfl
theorem exec_vrcp (d : BitVec 5) (a : BitVec 5) (m : BitVec 3) (t : BitVec 2) (st : State) : exec (.vrcp d a m t) st = execVrcp d a m t st := rfl
theorem exec_vrsq (d : BitVec 5) (a : BitVec 5) (m : BitVec 3) (t : BitVec 2) (st : State) : exec (.vrsq d a m t) st = execVrsq d a m t st := rfl
theorem exec_vexp2 (d : BitVec 5) (a : BitVec 5) (m : BitVec 3) (t : BitVec 2) (st : State) : exec (.vexp2 d a m t) st = execVexp2 d a m t st := rfl
theorem exec_vlog2 (d : BitVec 5) (a : BitVec 5) (m : BitVec 3) (t : BitVec 2) (st : State) : exec (.vlog2 d a m t) st = execVlog2 d a m t st := rfl
theorem exec_vcmpeq (d : BitVec 3) (a : BitVec 5) (b : BitVec 5) (m : BitVec 3) (t : BitVec 2) (st : State) : exec (.vcmpeq d a b m t) st = execVcmpeq d a b m t st := rfl
theorem exec_vcmplt (d : BitVec 3) (a : BitVec 5) (b : BitVec 5) (m : BitVec 3) (t : BitVec 2) (st : State) : exec (.vcmplt d a b m t) st = execVcmplt d a b m t st := rfl
theorem exec_vcmple (d : BitVec 3) (a : BitVec 5) (b : BitVec 5) (m : BitVec 3) (t : BitVec 2) (st : State) : exec (.vcmple d a b m t) st = execVcmple d a b m t st := rfl
theorem exec_vand (d : BitVec 5) (a : BitVec 5) (b : BitVec 5) (m : MaskType) (st : State) : exec (.vand d a b m) st = execVand d a b m st := rfl
theorem exec_vor (d : BitVec 5) (a : BitVec 5) (b : BitVec 5) (m : MaskType) (st : State) : exec (.vor d a b m) st = execVor d a b m st := rfl
theorem exec_vxor (d : BitVec 5) (a : BitVec 5) (b : BitVec 5) (m : MaskType) (st : State) : exec (.vxor d a b m) st = execVxor d a b m st := rfl
theorem exec_vnot (d : BitVec 5) (a : BitVec 5) (m : MaskType) (st : State) : exec (.vnot d a m) st = execVnot d a m st := rfl
theorem exec_vshl (d : BitVec 5) (a : BitVec 5) (b : BitVec 5) (m : MaskType) (st : State) : exec (.vshl d a b m) st = execVshl d a b m st := rfl
theorem exec_vshr (d : BitVec 5) (a : BitVec 5) (b : BitVec 5) (m : MaskType) (st : State) : exec (.vshr d a b m) st = execVshr d a b m st := rfl
theorem exec_vsra (d : BitVec 5) (a : BitVec 5) (b : BitVec 5) (m : MaskType) (st : State) : exec (.vsra d a b m) st = execVsra d a b m st := rfl
theorem exec_vmov (d : BitVec 5) (a : BitVec 5) (m : MaskType) (st : State) : exec (.vmov d a m) st = execVmov d a m st := rfl
theorem exec_vselm (d : BitVec 5) (a : BitVec 5) (b : BitVec 5) (m : MaskType) (st : State) : exec (.vselm d a b m) st = execVselm d a b m st := rfl
theorem exec_vcvt (d : BitVec 5) (a : BitVec 5) (s : BitVec 2) (m : BitVec 3) (t : BitVec 2) (st : State) : exec (.vcvt d a s m t) st = execVcvt d a s m t st := rfl
theorem exec_vmulhi (d : BitVec 5) (a : BitVec 5) (b : BitVec 5) (m : MaskType) (st : State) : exec (.vmulhi d a b m) st = execVmulhi d a b m st := rfl
theorem exec_vfma (d : BitVec 5) (a : BitVec 5) (b : BitVec 5) (c : BitVec 5) (t : BitVec 2) (st : State) : exec (.vfma d a b c t) st = execVfma d a b c t st := rfl
theorem exec_vfms (d : BitVec 5) (a : BitVec 5) (b : BitVec 5) (c : BitVec 5) (t : BitVec 2) (st : State) : exec (.vfms d a b c t) st = execVfms d a b c t st := rfl
theorem exec_vnfma (d : BitVec 5) (a : BitVec 5) (b : BitVec 5) (c : BitVec 5) (t : BitVec 2) (st : State) : exec (.vnfma d a b c t) st = execVnfma d a b c t st := rfl
theorem exec_vnfms (d : BitVec 5) (a : BitVec 5) (b : BitVec 5) (c : BitVec 5) (t : BitVec 2) (st : State) : exec (.vnfms d a b c t) st = execVnfms d a b c t st := rfl
theorem exec_vfmak (d : BitVec 5) (a : BitVec 5) (k : BitVec 8) (t : BitVec 2) (m : BitVec 3) (st : State) : exec (.vfmak d a k t m) st = execVfmak d a k t m st := rfl
theorem exec_vaddk (d : BitVec 5) (a : BitVec 5) (k : BitVec 8) (t : BitVec 2) (m : BitVec 3) (st : State) : exec (.vaddk d a k t m) st = execVaddk d a k t m st := rfl
theorem exec_vmulk (d : BitVec 5) (a : BitVec 5) (k : BitVec 8) (t : BitVec 2) (m : BitVec 3) (st : State) : exec (.vmulk d a k t m) st = execVmulk d a k t m st := rfl
theorem exec_vmovk (d : BitVec 5) (k : BitVec 8) (t : BitVec 2) (m : BitVec 3) (st : State) : exec (.vmovk d k t m) st = execVmovk d k t m st := rfl
theorem exec_vfmal (d : BitVec 5) (a : BitVec 5) (t : BitVec 2) (m : BitVec 3) (lit : Word) (st : State) : exec (.vfmal d a t m lit) st = execVfmal d a t m lit st := rfl
theorem exec_vaddl (d : BitVec 5) (a : BitVec 5) (t : BitVec 2) (m : BitVec 3) (lit : Word) (st : State) : exec (.vaddl d a t m lit) st = execVaddl d a t m lit st := rfl
theorem exec_vmull (d : BitVec 5) (a : BitVec 5) (t : BitVec 2) (m : BitVec 3) (lit : Word) (st : State) : exec (.vmull d a t m lit) st = execVmull d a t m lit st := rfl
theorem exec_vmovl (d : BitVec 5) (t : BitVec 2) (m : BitVec 3) (lit : Word) (st : State) : exec (.vmovl d t m lit) st = execVmovl d t m lit st := rfl
theorem exec_vmovf (d : BitVec 5) (i : BitVec 20) (st : State) : exec (.vmovf d i) st = execVmovf d i st := rfl
theorem exec_vmovn (d : BitVec 5) (i : BitVec 20) (st : State) : exec (.vmovn d i) st = execVmovn d i st := rfl
theorem exec_vld (v : BitVec 5) (a : BitVec 3) (i : BitVec 14) (st : State) : exec (.vld v a i) st = execVld v a i st := rfl
theorem exec_vst (v : BitVec 5) (a : BitVec 3) (i : BitVec 14) (st : State) : exec (.vst v a i) st = execVst v a i st := rfl
theorem exec_vldp (v : BitVec 5) (a : BitVec 3) (i : BitVec 14) (st : State) : exec (.vldp v a i) st = execVldp v a i st := rfl
theorem exec_vstp (v : BitVec 5) (a : BitVec 3) (i : BitVec 14) (st : State) : exec (.vstp v a i) st = execVstp v a i st := rfl
theorem exec_vrotm (v : BitVec 5) (a : BitVec 3) (s : BitVec 5) (st : State) : exec (.vrotm v a s) st = execVrotm v a s st := rfl
theorem exec_vpop (v : BitVec 5) (st : State) : exec (.vpop v) st = execVpop v st := rfl
theorem exec_vpush (v : BitVec 5) (st : State) : exec (.vpush v) st = execVpush v st := rfl
theorem exec_vldkb (a : BitVec 3) (i : BitVec 14) (st : State) : exec (.vldkb a i) st = execVldkb a i st := rfl
theorem exec_amovi (a : BitVec 3) (i : BitVec 14) (st : State) : exec (.amovi a i) st = execAmovi a i st := rfl
theorem exec_aadd (b : BitVec 3) (a : BitVec 3) (st : State) : exec (.aadd b a) st = execAadd b a st := rfl
theorem exec_aaddi (a : BitVec 3) (i : BitVec 14) (st : State) : exec (.aaddi a i) st = execAaddi a i st := rfl
theorem exec_vrsum (d : BitVec 5) (a : BitVec 5) (m : BitVec 3) (t : BitVec 2) (st : State) : exec (.vrsum d a m t) st = execVrsum d a m t st := rfl
theorem exec_vrmax (d : BitVec 5) (a : BitVec 5) (m : BitVec 3) (t : BitVec 2) (st : State) : exec (.vrmax d a m t) st = execVrmax d a m t st := rfl
theorem exec_vrmin (d : BitVec 5) (a : BitVec 5) (m : BitVec 3) (t : BitVec 2) (st : State) : exec (.vrmin d a m t) st = execVrmin d a m t st := rfl
theorem exec_vperm (d : BitVec 5) (a : BitVec 5) (b : BitVec 5) (m : BitVec 3) (st : State) : exec (.vperm d a b m) st = execVperm d a b m st := rfl
theorem exec_vbcast (d : BitVec 5) (a : BitVec 5) (b : BitVec 3) (m : BitVec 3) (st : State) : exec (.vbcast d a b m) st = execVbcast d a b m st := rfl
theorem exec_vlutacc (d : BitVec 5) (a : BitVec 5) (b : BitVec 5) (m : BitVec 3) (st : State) : exec (.vlutacc d a b m) st = execVlutacc d a b m st := rfl
theorem exec_vhistacc (d : BitVec 5) (a : BitVec 5) (b : BitVec 5) (m : BitVec 3) (st : State) : exec (.vhistacc d a b m) st = execVhistacc d a b m st := rfl
theorem exec_vmasklen (d : BitVec 3) (a : BitVec 3) (st : State) : exec (.vmasklen d a) st = execVmasklen d a st := rfl
theorem exec_vpack (d : BitVec 5) (a : BitVec 5) (b : BitVec 5) (m : BitVec 3) (x : BitVec 3) (st : State) : exec (.vpack d a b m x) st = execVpack d a b m x st := rfl
theorem exec_vunpack (d : BitVec 5) (a : BitVec 5) (b : BitVec 5) (m : BitVec 3) (x : BitVec 3) (st : State) : exec (.vunpack d a b m x) st = execVunpack d a b m x st := rfl
theorem exec_vscale (d : BitVec 5) (a : BitVec 5) (b : BitVec 5) (m : BitVec 3) (t : BitVec 2) (st : State) : exec (.vscale d a b m t) st = execVscale d a b m t st := rfl
theorem exec_viota (d : BitVec 5) (m : BitVec 3) (st : State) : exec (.viota d m) st = execViota d m st := rfl
theorem exec_mlease  (st : State) : exec (.mlease) st = execMlease st := rfl
theorem exec_mrel  (st : State) : exec (.mrel) st = execMrel st := rfl
theorem exec_mcfg (c : BitVec 2) (r : BitVec 10) (n : BitVec 10) (st : State) : exec (.mcfg c r n) st = execMcfg c r n st := rfl
theorem exec_mzero (r : BitVec 10) (n : BitVec 10) (st : State) : exec (.mzero r n) st = execMzero r n st := rfl
theorem exec_mma (r : BitVec 10) (n : BitVec 10) (st : State) : exec (.mma r n) st = execMma r n st := rfl
theorem exec_mmat (r : BitVec 10) (n : BitVec 10) (st : State) : exec (.mmat r n) st = execMmat r n st := rfl
theorem exec_mscale (r : BitVec 10) (n : BitVec 10) (st : State) : exec (.mscale r n) st = execMscale r n st := rfl
theorem exec_mdrain  (st : State) : exec (.mdrain) st = execMdrain st := rfl
theorem exec_accrd (g : BitVec 8) (s : BitVec 14) (st : State) : exec (.accrd g s) st = execAccrd g s st := rfl
theorem exec_accwr (g : BitVec 8) (s : BitVec 14) (st : State) : exec (.accwr g s) st = execAccwr g s st := rfl
theorem exec_cmovi (e : BitVec 3) (d : BitVec 4) (i : BitVec 16) (st : State) : exec (.cmovi e d i) st = execCmovi e d i st := rfl
theorem exec_cadd (e : BitVec 3) (d : BitVec 4) (a : BitVec 4) (b : BitVec 4) (st : State) : exec (.cadd e d a b) st = execCadd e d a b st := rfl
theorem exec_caddi (e : BitVec 3) (d : BitVec 4) (a : BitVec 4) (i : BitVec 16) (st : State) : exec (.caddi e d a i) st = execCaddi e d a i st := rfl
theorem exec_csub (e : BitVec 3) (d : BitVec 4) (a : BitVec 4) (b : BitVec 4) (st : State) : exec (.csub e d a b) st = execCsub e d a b st := rfl
theorem exec_seql (e : BitVec 3) (l : BitVec 3) (b : BitVec 4) (st : State) : exec (.seql e l b) st = execSeql e l b st := rfl
theorem exec_seqb (e : BitVec 3) (d : BitVec 3) (b : BitVec 4) (st : State) : exec (.seqb e d b) st = execSeqb e d b st := rfl
theorem exec_seqs (e : BitVec 3) (l : BitVec 3) (d : BitVec 3) (b : BitVec 4) (st : State) : exec (.seqs e l d b) st = execSeqs e l d b st := rfl
theorem exec_seqgo (e : BitVec 3) (n : BitVec 3) (st : State) : exec (.seqgo e n) st = execSeqgo e n st := rfl
theorem exec_seqstop (e : BitVec 3) (st : State) : exec (.seqstop e) st = execSeqstop e st := rfl
theorem exec_cpy (e : BitVec 3) (v : BitVec 4) (p : BitVec 4) (n : BitVec 14) (st : State) : exec (.cpy e v p n) st = execCpy e v p n st := rfl
theorem exec_gath (e : BitVec 3) (v : BitVec 4) (p : BitVec 4) (i : BitVec 4) (n : BitVec 10) (st : State) : exec (.gath e v p i n) st = execGath e v p i n st := rfl
theorem exec_scatb (v : BitVec 4) (p : BitVec 4) (i : BitVec 4) (n : BitVec 10) (st : State) : exec (.scatb v p i n) st = execScatb v p i n st := rfl
theorem exec_bincfg (e : BitVec 3) (a : BitVec 4) (st : State) : exec (.bincfg e a) st = execBincfg e a st := rfl
theorem exec_binrd (e : BitVec 3) (d : BitVec 4) (b : BitVec 8) (st : State) : exec (.binrd e d b) st = execBinrd e d b st := rfl
theorem exec_reduce (e : BitVec 3) (v : BitVec 4) (p : BitVec 4) (st : State) : exec (.reduce e v p) st = execReduce e v p st := rfl
theorem exec_pusha (p : BitVec 4) (n : BitVec 14) (st : State) : exec (.pusha p n) st = execPusha p n st := rfl
theorem exec_pushb (p : BitVec 4) (n : BitVec 14) (st : State) : exec (.pushb p n) st = execPushb p n st := rfl
theorem exec_arwset (e : BitVec 3) (a : BitVec 4) (st : State) : exec (.arwset e a) st = execArwset e a st := rfl
theorem exec_xsend (x : BitVec 3) (v : BitVec 3) (l : BitVec 3) (b : BitVec 1) (st : State) : exec (.xsend x v l b) st = execXsend x v l b st := rfl
theorem exec_xrecv (d : BitVec 3) (x : BitVec 3) (st : State) : exec (.xrecv d x) st = execXrecv d x st := rfl
theorem exec_xperm (d : BitVec 3) (x : BitVec 3) (st : State) : exec (.xperm d x) st = execXperm d x st := rfl
theorem exec_atom (d : BitVec 3) (a : BitVec 3) (b : BitVec 3) (o : BitVec 4) (w : BitVec 1) (st : State) : exec (.atom d a b o w) st = execAtom d a b o w st := rfl
theorem exec_aaddnr (a : BitVec 3) (b : BitVec 3) (t : BitVec 1) (st : State) : exec (.aaddnr a b t) st = execAaddnr a b t st := rfl
theorem exec_afence  (st : State) : exec (.afence) st = execAfence st := rfl
theorem exec_bkload (a : BitVec 3) (b : BitVec 3) (st : State) : exec (.bkload a b) st = execBkload a b st := rfl
theorem exec_bkrun (a : BitVec 3) (b : BitVec 3) (st : State) : exec (.bkrun a b) st = execBkrun a b st := rfl
theorem exec_bkctx (b : BitVec 3) (c : BitVec 2) (st : State) : exec (.bkctx b c) st = execBkctx b c st := rfl
theorem exec_bkwait (b : BitVec 3) (st : State) : exec (.bkwait b) st = execBkwait b st := rfl
theorem exec_bankUnitAct (k : Nat) (m : Micro) (st : State) : exec (.bankUnitAct k m) st = execBankUnitAct k m st := rfl
theorem exec_bankUnitRd (k : Nat) (m : Micro) (st : State) : exec (.bankUnitRd k m) st = execBankUnitRd k m st := rfl
theorem exec_bankUnitWr (k : Nat) (m : Micro) (st : State) : exec (.bankUnitWr k m) st = execBankUnitWr k m st := rfl
theorem exec_bankUnitMac (k : Nat) (m : Micro) (st : State) : exec (.bankUnitMac k m) st = execBankUnitMac k m st := rfl
theorem exec_bankUnitAdda (k : Nat) (m : Micro) (st : State) : exec (.bankUnitAdda k m) st = execBankUnitAdda k m st := rfl
theorem exec_bankUnitRed (k : Nat) (m : Micro) (st : State) : exec (.bankUnitRed k m) st = execBankUnitRed k m st := rfl
theorem exec_bankUnitMova (k : Nat) (m : Micro) (st : State) : exec (.bankUnitMova k m) st = execBankUnitMova k m st := rfl
theorem exec_bankUnitCtx (k : Nat) (m : Micro) (st : State) : exec (.bankUnitCtx k m) st = execBankUnitCtx k m st := rfl
theorem exec_bankUnitEnd (k : Nat) (m : Micro) (st : State) : exec (.bankUnitEnd k m) st = execBankUnitEnd k m st := rfl
theorem exec_bankUnitNop (k : Nat) (m : Micro) (st : State) : exec (.bankUnitNop k m) st = execBankUnitNop k m st := rfl
theorem exec_bkrunRecordStart (u b : Nat) (st : State) : exec (.bkrunRecordStart u b) st = execBkrunRecordStart u b st := rfl
theorem exec_bankUnitCommandStart (k : Nat) (st : State) : exec (.bankUnitCommandStart k) st = execBankUnitCommandStart k st := rfl
theorem exec_bkloadPerformed (u b : Nat) (st : State) : exec (.bkloadPerformed u b) st = execBkloadPerformed u b st := rfl
theorem exec_contextSwitch (k : Nat) (st : State) : exec (.contextSwitch k) st = execContextSwitch k st := rfl
theorem exec_tickInterrupt (u : Nat) (st : State) : exec (.tickInterrupt u) st = execTickInterrupt u st := rfl
theorem exec_tokenPush (u b e : Nat) (st : State) : exec (.tokenPush u b e) st = execTokenPush u b e st := rfl
theorem exec_landing (u b : Nat) (st : State) : exec (.landing u b) st = execLanding u b st := rfl
theorem exec_requestDepart (u b src row : Nat) (st : State) : exec (.requestDepart u b src row) st = execRequestDepart u b src row st := rfl
theorem exec_slotMissRetry (u b src row : Nat) (st : State) : exec (.slotMissRetry u b src row) st = execSlotMissRetry u b src row st := rfl
theorem exec_ldgReturn (u b src : Nat) (st : State) : exec (.ldgReturn u b src) st = execLdgReturn u b src st := rfl
theorem exec_stgPerformed (u b src : Nat) (st : State) : exec (.stgPerformed u b src) st = execStgPerformed u b src st := rfl
theorem exec_copyRowPerformed (u b e src row : Nat) (st : State) : exec (.copyRowPerformed u b e src row) st = execCopyRowPerformed u b e src row st := rfl
theorem exec_gathItemPerformed (u b e src item : Nat) (st : State) : exec (.gathItemPerformed u b e src item) st = execGathItemPerformed u b e src item st := rfl
theorem exec_scatbPerformed (u b : Nat) (st : State) : exec (.scatbPerformed u b) st = execScatbPerformed u b st := rfl
theorem exec_bincfgPerformed (u b e : Nat) (st : State) : exec (.bincfgPerformed u b e) st = execBincfgPerformed u b e st := rfl
theorem exec_reducePerformed (u b e src : Nat) (st : State) : exec (.reducePerformed u b e src) st = execReducePerformed u b e src st := rfl
theorem exec_reduceTilePartial (u b e src tile : Nat) (st : State) : exec (.reduceTilePartial u b e src tile) st = execReduceTilePartial u b e src tile st := rfl
theorem exec_pushRowAppend (u b src : Nat) (st : State) : exec (.pushRowAppend u b src) st = execPushRowAppend u b src st := rfl
theorem exec_nestInstanceGenerate (u b e : Nat) (st : State) : exec (.nestInstanceGenerate u b e) st = execNestInstanceGenerate u b e st := rfl
theorem exec_atomPerformed (u b : Nat) (st : State) : exec (.atomPerformed u b) st = execAtomPerformed u b st := rfl
theorem exec_aaddnrPerformed (u b src : Nat) (st : State) : exec (.aaddnrPerformed u b src) st = execAaddnrPerformed u b src st := rfl
theorem exec_histPerformed (u b : Nat) (st : State) : exec (.histPerformed u b) st = execHistPerformed u b st := rfl
theorem exec_viewMove (u b : Nat) (st : State) : exec (.viewMove u b) st = execViewMove u b st := rfl
theorem exec_viewAnswer (u b : Nat) (st : State) : exec (.viewAnswer u b) st = execViewAnswer u b st := rfl
theorem exec_elideMove (tid n : Nat) (st : State) : exec (.elideMove tid n) st = execElideMove tid n st := rfl
theorem exec_frameScrubDone (i : Nat) (st : State) : exec (.frameScrubDone i) st = execFrameScrubDone i st := rfl
theorem exec_descriptorDelete (tid : Nat) (st : State) : exec (.descriptorDelete tid) st = execDescriptorDelete tid st := rfl
theorem exec_arrayOpStart (u b : Nat) (st : State) : exec (.arrayOpStart u b) st = execArrayOpStart u b st := rfl
theorem exec_arrayOpPerformed (u b : Nat) (st : State) : exec (.arrayOpPerformed u b) st = execArrayOpPerformed u b st := rfl
theorem exec_accPortPerformed (u b : Nat) (st : State) : exec (.accPortPerformed u b) st = execAccPortPerformed u b st := rfl
theorem exec_leaseGrant (cl : Nat) (st : State) : exec (.leaseGrant cl) st = execLeaseGrant cl st := rfl
theorem exec_clauseBoundary (u b : Nat) (st : State) : exec (.clauseBoundary u b) st = execClauseBoundary u b st := rfl
theorem exec_climbFrameLoad (u b : Nat) (st : State) : exec (.climbFrameLoad u b) st = execClimbFrameLoad u b st := rfl
theorem exec_climbMonitorEval (u b : Nat) (st : State) : exec (.climbMonitorEval u b) st = execClimbMonitorEval u b st := rfl
theorem exec_jobEnd (u b : Nat) (st : State) : exec (.jobEnd u b) st = execJobEnd u b st := rfl
theorem exec_waitForever (u b : Nat) (st : State) : exec (.waitForever u b) st = execWaitForever u b st := rfl
theorem exec_waitTimeout (u b e : Nat) (st : State) : exec (.waitTimeout u b e) st = execWaitTimeout u b e st := rfl
theorem exec_permitTimeout (u b : Nat) (st : State) : exec (.permitTimeout u b) st = execPermitTimeout u b st := rfl
theorem exec_faultFrameWrite (u b : Nat) (st : State) : exec (.faultFrameWrite u b) st = execFaultFrameWrite u b st := rfl
theorem exec_correctableErrorFreeze (u : Nat) (st : State) : exec (.correctableErrorFreeze u) st = execCorrectableErrorFreeze u st := rfl
theorem exec_freezeEnd (u : Nat) (st : State) : exec (.freezeEnd u) st = execFreezeEnd u st := rfl
theorem exec_staticPauseEnd (u b : Nat) (st : State) : exec (.staticPauseEnd u b) st = execStaticPauseEnd u b st := rfl
theorem exec_domainClose (d : DomKey) (st : State) : exec (.domainClose d) st = execDomainClose d st := rfl
theorem exec_faultRangeMiss (u b e src row : Nat) (st : State) : exec (.faultRangeMiss u b e src row) st = execFaultRangeMiss u b e src row st := rfl
theorem exec_batchFullFlush (die : Nat) (st : State) : exec (.batchFullFlush die) st = execBatchFullFlush die st := rfl
theorem exec_batchTimerFlush (die : Nat) (st : State) : exec (.batchTimerFlush die) st = execBatchTimerFlush die st := rfl
theorem exec_faultRecordDeliver (die : Nat) (st : State) : exec (.faultRecordDeliver die) st = execFaultRecordDeliver die st := rfl
theorem exec_rangeReply (die : Nat) (seq : Word) (status : Byte) (st : State) : exec (.rangeReply die seq status) st = execRangeReply die seq status st := rfl
theorem exec_promotionStart (die : Nat) (st : State) : exec (.promotionStart die) st = execPromotionStart die st := rfl
theorem exec_moveFence (die : Nat) (st : State) : exec (.moveFence die) st = execMoveFence die st := rfl
theorem exec_tileSwitch (die : Nat) (st : State) : exec (.tileSwitch die) st = execTileSwitch die st := rfl
theorem exec_xsendArrival (u b src : Nat) (st : State) : exec (.xsendArrival u b src) st = execXsendArrival u b src st := rfl
theorem exec_permitReturn (x slot : Nat) (st : State) : exec (.permitReturn x slot) st = execPermitReturn x slot st := rfl
theorem exec_iterationPlace (die : Nat) (st : State) : exec (.iterationPlace die) st = execIterationPlace die st := rfl
theorem exec_tail (f q : Nat) (v : Word) (st : State) : exec (.tail f q v) st = execTail f q v st := rfl
theorem exec_adminTail (f : Nat) (v : Word) (st : State) : exec (.adminTail f v) st = execAdminTail f v st := rfl
theorem exec_adminBase (f : Nat) (v : DWord) (st : State) : exec (.adminBase f v) st = execAdminBase f v st := rfl
theorem exec_cqh (f c : Nat) (v : Word) (st : State) : exec (.cqh f c v) st = execCqh f c v st := rfl
theorem exec_registerWrite (f off : Nat) (v : DWord) (st : State) : exec (.registerWrite f off v) st = execRegisterWrite f off v st := rfl
theorem exec_packetRead (q : Nat) (st : State) : exec (.packetRead q) st = execPacketRead q st := rfl
theorem exec_stampRecheck (q : Nat) (st : State) : exec (.stampRecheck q) st = execStampRecheck q st := rfl
theorem exec_fabricDigest (q member : Nat) (d : Digest) (st : State) : exec (.fabricDigest q member d) st = execFabricDigest q member d st := rfl
theorem exec_packetComplete (q i : Nat) (st : State) : exec (.packetComplete q i) st = execPacketComplete q i st := rfl
theorem exec_cqAppend (f c : Nat) (st : State) : exec (.cqAppend f c) st = execCqAppend f c st := rfl
theorem exec_queueDrained (q : Nat) (st : State) : exec (.queueDrained q) st = execQueueDrained q st := rfl
theorem exec_hostBarRead (p va : Nat) (st : State) : exec (.hostBarRead p va) st = execHostBarRead p va st := rfl
theorem exec_hostBarWrite (p va : Nat) (data : List Byte) (st : State) : exec (.hostBarWrite p va data) st = execHostBarWrite p va data st := rfl
theorem exec_createQueue (f base k : Nat) (st : State) : exec (.createQueue f base k) st = execCreateQueue f base k st := rfl
theorem exec_destroyQueue (f : Nat) (discard : Bool) (st : State) : exec (.destroyQueue f discard) st = execDestroyQueue f discard st := rfl
theorem exec_restartQueue (f : Nat) (st : State) : exec (.restartQueue f) st = execRestartQueue f st := rfl
theorem exec_createCq (f base k : Nat) (st : State) : exec (.createCq f base k) st = execCreateCq f base k st := rfl
theorem exec_destroyCq (f : Nat) (st : State) : exec (.destroyCq f) st = execDestroyCq f st := rfl
theorem exec_loadImage (f : Nat) (st : State) : exec (.loadImage f) st = execLoadImage f st := rfl
theorem exec_allocTensor (f : Nat) (st : State) : exec (.allocTensor f) st = execAllocTensor f st := rfl
theorem exec_freeTensor (f : Nat) (st : State) : exec (.freeTensor f) st = execFreeTensor f st := rfl
theorem exec_invalidate (f lo n : Nat) (st : State) : exec (.invalidate f lo n) st = execInvalidate f lo n st := rfl
theorem exec_moveTile (f n tier stack : Nat) (st : State) : exec (.moveTile f n tier stack) st = execMoveTile f n tier stack st := rfl
theorem exec_createCrossing (f : Nat) (st : State) : exec (.createCrossing f) st = execCreateCrossing f st := rfl
theorem exec_destroyCrossing (f : Nat) (st : State) : exec (.destroyCrossing f) st = execDestroyCrossing f st := rfl
theorem exec_jobRestart (f : Nat) (st : State) : exec (.jobRestart f) st = execJobRestart f st := rfl
theorem exec_jobDiscard (f : Nat) (st : State) : exec (.jobDiscard f) st = execJobDiscard f st := rfl
theorem exec_releaseContext (f k c : Nat) (st : State) : exec (.releaseContext f k c) st = execReleaseContext f k c st := rfl
theorem exec_resync (f : Nat) (st : State) : exec (.resync f) st = execResync f st := rfl
theorem exec_configurePartition (f : Nat) (r : PartRecord) (st : State) : exec (.configurePartition f r) st = execConfigurePartition f r st := rfl
theorem exec_resetPartition (f : Nat) (st : State) : exec (.resetPartition f) st = execResetPartition f st := rfl
theorem exec_preempt (f : Nat) (st : State) : exec (.preempt f) st = execPreempt f st := rfl
theorem exec_resume (f : Nat) (st : State) : exec (.resume f) st = execResume f st := rfl
theorem exec_migrateSave (f : Nat) (st : State) : exec (.migrateSave f) st = execMigrateSave f st := rfl
theorem exec_migrateRestore (f img : Nat) (st : State) : exec (.migrateRestore f img) st = execMigrateRestore f img st := rfl
theorem exec_dirtyLog (f : Nat) (on : Bool) (base k : Nat) (st : State) : exec (.dirtyLog f on base k) st = execDirtyLog f on base k st := rfl
theorem exec_dirtyLogAppend (p : Nat) (st : State) : exec (.dirtyLogAppend p) st = execDirtyLogAppend p st := rfl
theorem exec_setTolerance (f us : Nat) (st : State) : exec (.setTolerance f us) st = execSetTolerance f us st := rfl
theorem exec_writePasid (f i : Nat) (pasid : BitVec 20) (v : Bool) (st : State) : exec (.writePasid f i pasid v) st = execWritePasid f i pasid v st := rfl
theorem exec_writeRemap (f v : Nat) (addr : DWord) (data : Word) (valid masked : Bool) (st : State) : exec (.writeRemap f v addr data valid masked) st = execWriteRemap f v addr data valid masked st := rfl
theorem exec_loadWeights (f : Nat) (st : State) : exec (.loadWeights f) st = execLoadWeights f st := rfl
theorem exec_setCurrent (f : Nat) (st : State) : exec (.setCurrent f) st = execSetCurrent f st := rfl
theorem exec_weightTileArrival (p vid i : Nat) (data : List Byte) (st : State) : exec (.weightTileArrival p vid i data) st = execWeightTileArrival p vid i data st := rfl
theorem exec_versionRetire (p vid : Nat) (st : State) : exec (.versionRetire p vid) st = execVersionRetire p vid st := rfl
theorem exec_sliceExpiry (g : Nat) (st : State) : exec (.sliceExpiry g) st = execSliceExpiry g st := rfl
theorem exec_preemptionLimitExpiry (u b : Nat) (st : State) : exec (.preemptionLimitExpiry u b) st = execPreemptionLimitExpiry u b st := rfl
theorem exec_fabricCloseMulticast (d : DomKey) (st : State) : exec (.fabricCloseMulticast d) st = execFabricCloseMulticast d st := rfl
theorem exec_governorTick  (st : State) : exec (.governorTick) st = execGovernorTick st := rfl
theorem exec_stackAlertEvent (tier stack : Nat) (kind : AlertKind) (unit : Byte) (bank : BitVec 16) (row : Word) (hit : List Nat) (st : State) : exec (.stackAlertEvent tier stack kind unit bank row hit) st = execStackAlertEvent tier stack kind unit bank row hit st := rfl
theorem exec_alertLogRead (tier stack : Nat) (n : Nat) (st : State) : exec (.alertLogRead tier stack n) st = execAlertLogRead tier stack n st := rfl
theorem exec_powerLevelEnter  (st : State) : exec (.powerLevelEnter) st = execPowerLevelEnter st := rfl
theorem exec_wake  (st : State) : exec (.wake) st = execWake st := rfl
theorem exec_powerOnBoot (h : Nat) (fw : Firmware) (st : State) : exec (.powerOnBoot h fw) st = execPowerOnBoot h fw st := rfl
theorem exec_getMeasurements (nonce : Nat) (st : State) : exec (.getMeasurements nonce) st = execGetMeasurements nonce st := rfl
theorem exec_tdispEnterRun (f : Nat) (st : State) : exec (.tdispEnterRun f) st = execTdispEnterRun f st := rfl
theorem exec_tdispExitRun (f : Nat) (st : State) : exec (.tdispExitRun f) st = execTdispExitRun f st := rfl
theorem exec_fabricDomainArrival (d : DomKey) (member : Nat) (news : FabricNews) (st : State) : exec (.fabricDomainArrival d member news) st = execFabricDomainArrival d member news st := rfl
theorem exec_weightManifestArrival (p vid : Nat) (m : List Byte) (st : State) : exec (.weightManifestArrival p vid m) st = execWeightManifestArrival p vid m st := rfl
theorem exec_tileResendRequest (p vid i member : Nat) (st : State) : exec (.tileResendRequest p vid i member) st = execTileResendRequest p vid i member st := rfl
theorem exec_publisherKeyProvision (slot : Nat) (key : List Byte) (st : State) : exec (.publisherKeyProvision slot key) st = execPublisherKeyProvision slot key st := rfl
theorem exec_tdispConfigLocked (f : Nat) (st : State) : exec (.tdispConfigLocked f) st = execTdispConfigLocked f st := rfl
theorem exec_bankUnitWritePerformed (k : Nat) (st : State) : exec (.bankUnitWritePerformed k) st = execBankUnitWritePerformed k st := rfl

end Sys2Proof.Machine
end

