-- ==== Sys2Proof/Laws/Sparse.lean ====
section
/-!
SUPPORT. The laws of numbered entries: a read after a write, and the canonical form, which every operation of memory keeps.
-/

namespace Sys2Proof.Machine

variable {α : Type}

@[simp] theorem get_nil (d : α) (k : Nat) : get d [] k = d := rfl

theorem get_put'_self (d : α) (m : Map α) (k : Nat) (v : α) : get d (put' k v m) k = v := by
  induction m with
  | nil => simp [put', get]
  | cons p m ih =>
    obtain ⟨i, w⟩ := p
    unfold put'
    split
    · have : i ≠ k := by omega
      simp [get, this, ih]
    · split <;> simp [get]

theorem get_put'_other (d : α) (m : Map α) {k j : Nat} (v : α) (h : j ≠ k) : get d (put' k v m) j = get d m j := by
  induction m with
  | nil => simp [put', get, Ne.symm h]
  | cons p m ih =>
    obtain ⟨i, w⟩ := p
    unfold put'
    split
    · simp [get, ih]
    · split
      · subst_vars; simp [get, Ne.symm h]
      · simp [get, Ne.symm h]

theorem get_drop'_self (d : α) (m : Map α) (k : Nat) : get d (drop' k m) k = d := by
  induction m with
  | nil => rfl
  | cons p m ih =>
    obtain ⟨i, w⟩ := p
    by_cases h : i = k <;> simp_all [drop', get]

theorem get_drop'_other (d : α) (m : Map α) {k j : Nat} (h : j ≠ k) : get d (drop' k m) j = get d m j := by
  induction m with
  | nil => rfl
  | cons p m ih =>
    obtain ⟨i, w⟩ := p
    by_cases hi : i = k
    · subst hi
      simp only [drop', List.filter_cons, bne_self_eq_false, Bool.false_eq_true, if_false, get, Ne.symm h] at *
      exact ih
    · have : (i != k) = true := by simpa using hi
      simp only [drop', List.filter_cons, this, if_true, get] at *
      rw [ih]

/-- A read after a write of the same entry gives the value written. -/
@[simp] theorem get_set_self [DecidableEq α] (d : α) (m : Map α) (k : Nat) (v : α) : get d (set d m k v) k = v := by
  unfold set
  split
  · rw [get_drop'_self]; exact Eq.symm ‹_›
  · exact get_put'_self d m k v

/-- A write leaves every other entry as it is. -/
theorem get_set_other [DecidableEq α] (d : α) (m : Map α) {k j : Nat} (v : α) (h : j ≠ k) :
    get d (set d m k v) j = get d m j := by
  unfold set
  split
  · exact get_drop'_other d m h
  · exact get_put'_other d m v h

theorem get_set [DecidableEq α] (d : α) (m : Map α) (k j : Nat) (v : α) :
    get d (set d m k v) j = if j = k then v else get d m j := by
  split
  · subst_vars; exact get_set_self d m _ v
  · exact get_set_other d m v ‹_›

/-! ### The canonical form -/

theorem canonFrom_weaken [DecidableEq α] (d : α) {lo hi : Nat} {m : Map α} (h : lo ≤ hi) (c : canonFrom d (some hi) m = true) :
    canonFrom d (some lo) m = true := by
  cases m with
  | nil => rfl
  | cons p m =>
    obtain ⟨i, w⟩ := p
    simp only [canonFrom, Bool.and_eq_true, decide_eq_true_eq] at *
    exact ⟨⟨by omega, c.1.2⟩, c.2⟩

theorem canonFrom_none [DecidableEq α] (d : α) {lo : Nat} {m : Map α} (c : canonFrom d (some lo) m = true) : canonFrom d none m = true := by
  cases m with
  | nil => rfl
  | cons p m =>
    obtain ⟨i, w⟩ := p
    simp only [canonFrom, Bool.and_eq_true, decide_eq_true_eq] at *
    exact ⟨⟨trivial, c.1.2⟩, c.2⟩

theorem canonFrom_filter [DecidableEq α] (d : α) (f : Nat × α → Bool) (lo : Option Nat) (m : Map α) (c : canonFrom d lo m = true) :
    canonFrom d lo (m.filter f) = true := by
  induction m generalizing lo with
  | nil => rfl
  | cons p m ih =>
    obtain ⟨i, w⟩ := p
    simp only [List.filter_cons]
    split
    · simp only [canonFrom, Bool.and_eq_true] at *
      exact ⟨c.1, ih _ c.2⟩
    · apply ih
      simp only [canonFrom, Bool.and_eq_true, decide_eq_true_eq] at c
      cases lo with
      | none => exact canonFrom_none d c.2
      | some j => exact canonFrom_weaken d (Nat.le_of_lt (by simpa using c.1.1)) c.2

theorem canonFrom_put' [DecidableEq α] (d : α) (lo : Option Nat) (m : Map α) (k : Nat) (v : α) (hv : v ≠ d)
    (hk : ∀ j, lo = some j → j < k) (c : canonFrom d lo m = true) : canonFrom d lo (put' k v m) = true := by
  induction m generalizing lo with
  | nil => cases lo <;> simp_all [put', canonFrom]
  | cons p m ih =>
    obtain ⟨i, w⟩ := p
    simp only [canonFrom, Bool.and_eq_true, decide_eq_true_eq] at c
    unfold put'
    split
    · simp only [canonFrom, Bool.and_eq_true, decide_eq_true_eq]
      exact ⟨c.1, ih _ (by simp_all) c.2⟩
    · split
      · subst_vars
        simp only [canonFrom, Bool.and_eq_true, decide_eq_true_eq]
        exact ⟨⟨c.1.1, hv⟩, c.2⟩
      · simp only [canonFrom, Bool.and_eq_true, decide_eq_true_eq]
        refine ⟨⟨?_, hv⟩, ⟨⟨by omega, c.1.2⟩, c.2⟩⟩
        cases lo with
        | none => trivial
        | some j => simpa using hk j rfl

/-- A write keeps the canonical form. -/
theorem canon_set [DecidableEq α] (d : α) (m : Map α) (k : Nat) (v : α) (c : canon d m = true) : canon d (set d m k v) = true := by
  unfold set
  split
  · exact canonFrom_filter d _ none m c
  · exact canonFrom_put' d none m k v ‹_› (by simp) c

/-- Leaving entries out keeps the canonical form. -/
theorem canon_filter [DecidableEq α] (d : α) (m : Map α) (f : Nat × α → Bool) (c : canon d m = true) : canon d (m.filter f) = true :=
  canonFrom_filter d f none m c

/-! ### Memory -/

@[simp] theorem rdByte_nil (a : Nat) : rdByte [] a = 0 := rfl

@[simp] theorem rdByte_wrByte_self (m : List Host.Cell) (a : Nat) (v : Byte) : rdByte (wrByte m a v) a = v := get_set_self _ _ _ _

theorem rdByte_wrByte_other (m : List Host.Cell) {a b : Nat} (v : Byte) (h : b ≠ a) : rdByte (wrByte m a v) b = rdByte m b :=
  get_set_other _ _ _ h

/-- A write of one byte keeps the canonical form. -/
theorem wf_wrByte {m : List Host.Cell} (a : Nat) (v : Byte) (h : Memory.wf m) : Memory.wf (wrByte m a v) := canon_set _ _ _ _ h

/-- A write of bytes keeps the canonical form. -/
theorem wf_wrBytes {m : List Host.Cell} (a : Nat) (vs : List Byte) (h : Memory.wf m) : Memory.wf (wrBytes m a vs) := by
  induction vs generalizing m a with
  | nil => exact h
  | cons v vs ih => exact ih (a + 1) (wf_wrByte a v h)

/-- Leaving bytes out keeps the canonical form. -/
theorem wf_filter {m : List Host.Cell} (f : Host.Cell → Bool) (h : Memory.wf m) : Memory.wf (m.filter f) := canon_filter _ _ f h

/-- A byte outside those written reads as before. -/
theorem rdByte_wrBytes_out (m : List Host.Cell) (a b : Nat) (vs : List Byte) (h : b < a ∨ a + vs.length ≤ b) :
    rdByte (wrBytes m a vs) b = rdByte m b := by
  induction vs generalizing m a with
  | nil => rfl
  | cons v vs ih =>
    simp only [List.length_cons] at h
    rw [wrBytes, ih _ _ (by omega), rdByte_wrByte_other _ _ (by omega)]

/-- A byte inside those written reads as written. -/
theorem rdByte_wrBytes_in (m : List Host.Cell) (a i : Nat) (vs : List Byte) (h : i < vs.length) :
    rdByte (wrBytes m a vs) (a + i) = vs[i] := by
  induction vs generalizing m a i with
  | nil => simp at h
  | cons v vs ih =>
    cases i with
    | zero => rw [wrBytes, rdByte_wrBytes_out _ _ _ _ (by omega)]; simp
    | succ i =>
      have := ih (wrByte m a v) (a + 1) i (by simpa using h)
      rw [show a + (i + 1) = a + 1 + i by omega, wrBytes, this]
      rfl

@[simp] theorem length_rdBytes (m : List Host.Cell) (a n : Nat) : (rdBytes m a n).length = n := by
  induction n generalizing a with
  | zero => rfl
  | succ n ih => simp [rdBytes, ih]

theorem rdBytes_get (m : List Host.Cell) (a n i : Nat) (h : i < n) : (rdBytes m a n)[i]? = some (rdByte m (a + i)) := by
  induction n generalizing a i with
  | zero => omega
  | succ n ih =>
    cases i with
    | zero => simp [rdBytes]
    | succ i => simp only [rdBytes, List.getElem?_cons_succ]; rw [ih _ _ (by omega)]; congr 2; omega

/-- Reading bytes outside those written gives what they were. -/
theorem rdBytes_wrBytes_out (m : List Host.Cell) (a b n : Nat) (vs : List Byte) (h : b + n ≤ a ∨ a + vs.length ≤ b) :
    rdBytes (wrBytes m a vs) b n = rdBytes m b n := by
  apply List.ext_getElem?
  intro i
  by_cases hi : i < n
  · rw [rdBytes_get _ _ _ _ hi, rdBytes_get _ _ _ _ hi, rdByte_wrBytes_out _ _ _ _ (by omega)]
  · rw [List.getElem?_eq_none (by simp; omega), List.getElem?_eq_none (by simp; omega)]

/-- Reading the bytes that have been written gives them. -/
theorem rdBytes_wrBytes_same (m : List Host.Cell) (a : Nat) (vs : List Byte) : rdBytes (wrBytes m a vs) a vs.length = vs := by
  apply List.ext_getElem?
  intro i
  by_cases hi : i < vs.length
  · rw [rdBytes_get _ _ _ _ hi, rdByte_wrBytes_in _ _ _ _ hi, List.getElem?_eq_getElem hi]
  · rw [List.getElem?_eq_none (by simp; omega), List.getElem?_eq_none (by omega)]

end Sys2Proof.Machine
end

