-- ==== Sys2Proof/Laws/Effects.lean ====
section
/-!
SUPPORT. What the shared effects of several moves can change: the dirty marks of a write, the evaluation of climbable jobs, the orders in flight on a Crossing.
-/

namespace Sys2Proof.Machine

/-- A dirty mark of a frame changes its stage-2 entry and its partition at most. -/
theorem dirtyFrame_kept (s : State) (p fsz ia : Nat) : ∃ x y, s.dirtyFrame p fsz ia = { s with stage2 := x, parts := y } := by
  unfold State.dirtyFrame; simp only; split
  · exact ⟨s.stage2, s.parts, rfl⟩
  · exact ⟨_, _, rfl⟩

/-- A dirty mark changes its tensor's tile table, a stage-2 entry and a partition at most. -/
theorem dirtyVia_kept (s : State) (t : Tensor) (n : Nat) (via : Nat × Nat) :
    ∃ w x y, s.dirtyVia t n via = { s with tensors := w, stage2 := x, parts := y } := by
  have h : ∀ s1 : State, (∃ w, s1 = { s with tensors := w }) → ∃ w x y, (if via.1 = 3 then s1 else s1.dirtyFrame t.part t.fsz via.2) = { s with tensors := w, stage2 := x, parts := y } := by
    rintro _ ⟨w, rfl⟩
    split
    · exact ⟨w, s.stage2, s.parts, rfl⟩
    · obtain ⟨x, y, e⟩ := dirtyFrame_kept { s with tensors := w } t.part t.fsz via.2
      exact ⟨w, x, y, e⟩
  unfold State.dirtyVia
  refine h _ ?_
  split
  · exact ⟨_, rfl⟩
  · exact ⟨s.tensors, rfl⟩

/-- That climb monitors are to evaluate changes the units at most. -/
theorem evalJobs_units (s : State) (f : Job → Bool) : ∃ us, s.evalJobs f = { s with units := us } := by
  have h : ∀ (l : List (Nat × Nat × Job)) (s1 : State), (∃ us, s1 = { s with units := us }) →
      ∃ us, l.foldl (fun s x => s.onBank x.1 x.2.1 (fun k => k.onJob (fun j => { j with eval := true }))) s1 = { s with units := us } := by
    intro l
    induction l with
    | nil => exact fun _ e => e
    | cons x l ih =>
      rintro _ ⟨us, rfl⟩
      exact ih _ ⟨_, rfl⟩
  exact h _ s ⟨s.units, rfl⟩

/-- Dropping the orders in flight of a bank changes the Crossings alone. -/
theorem dropFlight_crossings (s : State) (u b : Nat) : { s.dropFlight u b with crossings := s.crossings } = s := rfl

/-- A private lease that is granted is held. -/
theorem leaseOf_grantOver (x : Cluster) (r now n : Nat) : (x.grantOver r now n).leaseOf r = .held := by
  unfold Cluster.grantOver Cluster.leaseOf Cluster.setLease; simp [get_set_self]

end Sys2Proof.Machine
end

