-- ==== Sys2Proof/Laws/State.lean ====
section
/-!
SUPPORT. What the updates of a state, of a unit and of a bank leave as it was: one lemma for each field and update. Generated from the fields of State.lean.
-/

namespace Sys2Proof.Machine

@[simp] theorem State.setCore_agenda (s : State) (u : Nat) (c : Core) : (s.setCore u c).agenda = s.agenda := rfl
@[simp] theorem State.setCore_moves (s : State) (u : Nat) (c : Core) : (s.setCore u c).moves = s.moves := rfl
@[simp] theorem State.setCore_free (s : State) (u : Nat) (c : Core) : (s.setCore u c).free = s.free := rfl
@[simp] theorem State.setCore_jids (s : State) (u : Nat) (c : Core) : (s.setCore u c).jids = s.jids := rfl
@[simp] theorem State.setCore_pids (s : State) (u : Nat) (c : Core) : (s.setCore u c).pids = s.pids := rfl
@[simp] theorem State.setCore_now (s : State) (u : Nat) (c : Core) : (s.setCore u c).now = s.now := rfl
@[simp] theorem State.setCore_cur (s : State) (u : Nat) (c : Core) : (s.setCore u c).cur = s.cur := rfl
@[simp] theorem State.setCore_clusters (s : State) (u : Nat) (c : Core) : (s.setCore u c).clusters = s.clusters := rfl
@[simp] theorem State.setCore_dies (s : State) (u : Nat) (c : Core) : (s.setCore u c).dies = s.dies := rfl
@[simp] theorem State.setCore_mem (s : State) (u : Nat) (c : Core) : (s.setCore u c).mem = s.mem := rfl
@[simp] theorem State.setCore_poison (s : State) (u : Nat) (c : Core) : (s.setCore u c).poison = s.poison := rfl
@[simp] theorem State.setCore_tensors (s : State) (u : Nat) (c : Core) : (s.setCore u c).tensors = s.tensors := rfl
@[simp] theorem State.setCore_stage2 (s : State) (u : Nat) (c : Core) : (s.setCore u c).stage2 = s.stage2 := rfl
@[simp] theorem State.setCore_views (s : State) (u : Nat) (c : Core) : (s.setCore u c).views = s.views := rfl
@[simp] theorem State.setCore_uncovs (s : State) (u : Nat) (c : Core) : (s.setCore u c).uncovs = s.uncovs := rfl
@[simp] theorem State.setCore_frames (s : State) (u : Nat) (c : Core) : (s.setCore u c).frames = s.frames := rfl
@[simp] theorem State.setCore_scrubs (s : State) (u : Nat) (c : Core) : (s.setCore u c).scrubs = s.scrubs := rfl
@[simp] theorem State.setCore_parts (s : State) (u : Nat) (c : Core) : (s.setCore u c).parts = s.parts := rfl
@[simp] theorem State.setCore_limits (s : State) (u : Nat) (c : Core) : (s.setCore u c).limits = s.limits := rfl
@[simp] theorem State.setCore_funcs (s : State) (u : Nat) (c : Core) : (s.setCore u c).funcs = s.funcs := rfl
@[simp] theorem State.setCore_queues (s : State) (u : Nat) (c : Core) : (s.setCore u c).queues = s.queues := rfl
@[simp] theorem State.setCore_packets (s : State) (u : Nat) (c : Core) : (s.setCore u c).packets = s.packets := rfl
@[simp] theorem State.setCore_domains (s : State) (u : Nat) (c : Core) : (s.setCore u c).domains = s.domains := rfl
@[simp] theorem State.setCore_early (s : State) (u : Nat) (c : Core) : (s.setCore u c).early = s.early := rfl
@[simp] theorem State.setCore_crossings (s : State) (u : Nat) (c : Core) : (s.setCore u c).crossings = s.crossings := rfl
@[simp] theorem State.setCore_images (s : State) (u : Nat) (c : Core) : (s.setCore u c).images = s.images := rfl
@[simp] theorem State.setCore_versions (s : State) (u : Nat) (c : Core) : (s.setCore u c).versions = s.versions := rfl
@[simp] theorem State.setCore_bunits (s : State) (u : Nat) (c : Core) : (s.setCore u c).bunits = s.bunits := rfl
@[simp] theorem State.setCore_stackSt (s : State) (u : Nat) (c : Core) : (s.setCore u c).stackSt = s.stackSt := rfl
@[simp] theorem State.setCore_remap (s : State) (u : Nat) (c : Core) : (s.setCore u c).remap = s.remap := rfl
@[simp] theorem State.setCore_ats (s : State) (u : Nat) (c : Core) : (s.setCore u c).ats = s.ats := rfl
@[simp] theorem State.setCore_lenfy (s : State) (u : Nat) (c : Core) : (s.setCore u c).lenfy = s.lenfy := rfl
@[simp] theorem State.setCore_errs (s : State) (u : Nat) (c : Core) : (s.setCore u c).errs = s.errs := rfl
@[simp] theorem State.setCore_migs (s : State) (u : Nat) (c : Core) : (s.setCore u c).migs = s.migs := rfl
@[simp] theorem State.setCore_clock (s : State) (u : Nat) (c : Core) : (s.setCore u c).clock = s.clock := rfl
@[simp] theorem State.setCore_governed (s : State) (u : Nat) (c : Core) : (s.setCore u c).governed = s.governed := rfl
@[simp] theorem State.setCore_power (s : State) (u : Nat) (c : Core) : (s.setCore u c).power = s.power := rfl
@[simp] theorem State.setCore_sent (s : State) (u : Nat) (c : Core) : (s.setCore u c).sent = s.sent := rfl

@[simp] theorem State.setBank_agenda (s : State) (u b : Nat) (k : Bank) : (s.setBank u b k).agenda = s.agenda := rfl
@[simp] theorem State.setBank_moves (s : State) (u b : Nat) (k : Bank) : (s.setBank u b k).moves = s.moves := rfl
@[simp] theorem State.setBank_free (s : State) (u b : Nat) (k : Bank) : (s.setBank u b k).free = s.free := rfl
@[simp] theorem State.setBank_jids (s : State) (u b : Nat) (k : Bank) : (s.setBank u b k).jids = s.jids := rfl
@[simp] theorem State.setBank_pids (s : State) (u b : Nat) (k : Bank) : (s.setBank u b k).pids = s.pids := rfl
@[simp] theorem State.setBank_now (s : State) (u b : Nat) (k : Bank) : (s.setBank u b k).now = s.now := rfl
@[simp] theorem State.setBank_cur (s : State) (u b : Nat) (k : Bank) : (s.setBank u b k).cur = s.cur := rfl
@[simp] theorem State.setBank_clusters (s : State) (u b : Nat) (k : Bank) : (s.setBank u b k).clusters = s.clusters := rfl
@[simp] theorem State.setBank_dies (s : State) (u b : Nat) (k : Bank) : (s.setBank u b k).dies = s.dies := rfl
@[simp] theorem State.setBank_mem (s : State) (u b : Nat) (k : Bank) : (s.setBank u b k).mem = s.mem := rfl
@[simp] theorem State.setBank_poison (s : State) (u b : Nat) (k : Bank) : (s.setBank u b k).poison = s.poison := rfl
@[simp] theorem State.setBank_tensors (s : State) (u b : Nat) (k : Bank) : (s.setBank u b k).tensors = s.tensors := rfl
@[simp] theorem State.setBank_stage2 (s : State) (u b : Nat) (k : Bank) : (s.setBank u b k).stage2 = s.stage2 := rfl
@[simp] theorem State.setBank_views (s : State) (u b : Nat) (k : Bank) : (s.setBank u b k).views = s.views := rfl
@[simp] theorem State.setBank_uncovs (s : State) (u b : Nat) (k : Bank) : (s.setBank u b k).uncovs = s.uncovs := rfl
@[simp] theorem State.setBank_frames (s : State) (u b : Nat) (k : Bank) : (s.setBank u b k).frames = s.frames := rfl
@[simp] theorem State.setBank_scrubs (s : State) (u b : Nat) (k : Bank) : (s.setBank u b k).scrubs = s.scrubs := rfl
@[simp] theorem State.setBank_parts (s : State) (u b : Nat) (k : Bank) : (s.setBank u b k).parts = s.parts := rfl
@[simp] theorem State.setBank_limits (s : State) (u b : Nat) (k : Bank) : (s.setBank u b k).limits = s.limits := rfl
@[simp] theorem State.setBank_funcs (s : State) (u b : Nat) (k : Bank) : (s.setBank u b k).funcs = s.funcs := rfl
@[simp] theorem State.setBank_queues (s : State) (u b : Nat) (k : Bank) : (s.setBank u b k).queues = s.queues := rfl
@[simp] theorem State.setBank_packets (s : State) (u b : Nat) (k : Bank) : (s.setBank u b k).packets = s.packets := rfl
@[simp] theorem State.setBank_domains (s : State) (u b : Nat) (k : Bank) : (s.setBank u b k).domains = s.domains := rfl
@[simp] theorem State.setBank_early (s : State) (u b : Nat) (k : Bank) : (s.setBank u b k).early = s.early := rfl
@[simp] theorem State.setBank_crossings (s : State) (u b : Nat) (k : Bank) : (s.setBank u b k).crossings = s.crossings := rfl
@[simp] theorem State.setBank_images (s : State) (u b : Nat) (k : Bank) : (s.setBank u b k).images = s.images := rfl
@[simp] theorem State.setBank_versions (s : State) (u b : Nat) (k : Bank) : (s.setBank u b k).versions = s.versions := rfl
@[simp] theorem State.setBank_bunits (s : State) (u b : Nat) (k : Bank) : (s.setBank u b k).bunits = s.bunits := rfl
@[simp] theorem State.setBank_stackSt (s : State) (u b : Nat) (k : Bank) : (s.setBank u b k).stackSt = s.stackSt := rfl
@[simp] theorem State.setBank_remap (s : State) (u b : Nat) (k : Bank) : (s.setBank u b k).remap = s.remap := rfl
@[simp] theorem State.setBank_ats (s : State) (u b : Nat) (k : Bank) : (s.setBank u b k).ats = s.ats := rfl
@[simp] theorem State.setBank_lenfy (s : State) (u b : Nat) (k : Bank) : (s.setBank u b k).lenfy = s.lenfy := rfl
@[simp] theorem State.setBank_errs (s : State) (u b : Nat) (k : Bank) : (s.setBank u b k).errs = s.errs := rfl
@[simp] theorem State.setBank_migs (s : State) (u b : Nat) (k : Bank) : (s.setBank u b k).migs = s.migs := rfl
@[simp] theorem State.setBank_clock (s : State) (u b : Nat) (k : Bank) : (s.setBank u b k).clock = s.clock := rfl
@[simp] theorem State.setBank_governed (s : State) (u b : Nat) (k : Bank) : (s.setBank u b k).governed = s.governed := rfl
@[simp] theorem State.setBank_power (s : State) (u b : Nat) (k : Bank) : (s.setBank u b k).power = s.power := rfl
@[simp] theorem State.setBank_sent (s : State) (u b : Nat) (k : Bank) : (s.setBank u b k).sent = s.sent := rfl

@[simp] theorem State.onBank_agenda (s : State) (u b : Nat) (f : Bank → Bank) : (s.onBank u b f).agenda = s.agenda := rfl
@[simp] theorem State.onBank_moves (s : State) (u b : Nat) (f : Bank → Bank) : (s.onBank u b f).moves = s.moves := rfl
@[simp] theorem State.onBank_free (s : State) (u b : Nat) (f : Bank → Bank) : (s.onBank u b f).free = s.free := rfl
@[simp] theorem State.onBank_jids (s : State) (u b : Nat) (f : Bank → Bank) : (s.onBank u b f).jids = s.jids := rfl
@[simp] theorem State.onBank_pids (s : State) (u b : Nat) (f : Bank → Bank) : (s.onBank u b f).pids = s.pids := rfl
@[simp] theorem State.onBank_now (s : State) (u b : Nat) (f : Bank → Bank) : (s.onBank u b f).now = s.now := rfl
@[simp] theorem State.onBank_cur (s : State) (u b : Nat) (f : Bank → Bank) : (s.onBank u b f).cur = s.cur := rfl
@[simp] theorem State.onBank_clusters (s : State) (u b : Nat) (f : Bank → Bank) : (s.onBank u b f).clusters = s.clusters := rfl
@[simp] theorem State.onBank_dies (s : State) (u b : Nat) (f : Bank → Bank) : (s.onBank u b f).dies = s.dies := rfl
@[simp] theorem State.onBank_mem (s : State) (u b : Nat) (f : Bank → Bank) : (s.onBank u b f).mem = s.mem := rfl
@[simp] theorem State.onBank_poison (s : State) (u b : Nat) (f : Bank → Bank) : (s.onBank u b f).poison = s.poison := rfl
@[simp] theorem State.onBank_tensors (s : State) (u b : Nat) (f : Bank → Bank) : (s.onBank u b f).tensors = s.tensors := rfl
@[simp] theorem State.onBank_stage2 (s : State) (u b : Nat) (f : Bank → Bank) : (s.onBank u b f).stage2 = s.stage2 := rfl
@[simp] theorem State.onBank_views (s : State) (u b : Nat) (f : Bank → Bank) : (s.onBank u b f).views = s.views := rfl
@[simp] theorem State.onBank_uncovs (s : State) (u b : Nat) (f : Bank → Bank) : (s.onBank u b f).uncovs = s.uncovs := rfl
@[simp] theorem State.onBank_frames (s : State) (u b : Nat) (f : Bank → Bank) : (s.onBank u b f).frames = s.frames := rfl
@[simp] theorem State.onBank_scrubs (s : State) (u b : Nat) (f : Bank → Bank) : (s.onBank u b f).scrubs = s.scrubs := rfl
@[simp] theorem State.onBank_parts (s : State) (u b : Nat) (f : Bank → Bank) : (s.onBank u b f).parts = s.parts := rfl
@[simp] theorem State.onBank_limits (s : State) (u b : Nat) (f : Bank → Bank) : (s.onBank u b f).limits = s.limits := rfl
@[simp] theorem State.onBank_funcs (s : State) (u b : Nat) (f : Bank → Bank) : (s.onBank u b f).funcs = s.funcs := rfl
@[simp] theorem State.onBank_queues (s : State) (u b : Nat) (f : Bank → Bank) : (s.onBank u b f).queues = s.queues := rfl
@[simp] theorem State.onBank_packets (s : State) (u b : Nat) (f : Bank → Bank) : (s.onBank u b f).packets = s.packets := rfl
@[simp] theorem State.onBank_domains (s : State) (u b : Nat) (f : Bank → Bank) : (s.onBank u b f).domains = s.domains := rfl
@[simp] theorem State.onBank_early (s : State) (u b : Nat) (f : Bank → Bank) : (s.onBank u b f).early = s.early := rfl
@[simp] theorem State.onBank_crossings (s : State) (u b : Nat) (f : Bank → Bank) : (s.onBank u b f).crossings = s.crossings := rfl
@[simp] theorem State.onBank_images (s : State) (u b : Nat) (f : Bank → Bank) : (s.onBank u b f).images = s.images := rfl
@[simp] theorem State.onBank_versions (s : State) (u b : Nat) (f : Bank → Bank) : (s.onBank u b f).versions = s.versions := rfl
@[simp] theorem State.onBank_bunits (s : State) (u b : Nat) (f : Bank → Bank) : (s.onBank u b f).bunits = s.bunits := rfl
@[simp] theorem State.onBank_stackSt (s : State) (u b : Nat) (f : Bank → Bank) : (s.onBank u b f).stackSt = s.stackSt := rfl
@[simp] theorem State.onBank_remap (s : State) (u b : Nat) (f : Bank → Bank) : (s.onBank u b f).remap = s.remap := rfl
@[simp] theorem State.onBank_ats (s : State) (u b : Nat) (f : Bank → Bank) : (s.onBank u b f).ats = s.ats := rfl
@[simp] theorem State.onBank_lenfy (s : State) (u b : Nat) (f : Bank → Bank) : (s.onBank u b f).lenfy = s.lenfy := rfl
@[simp] theorem State.onBank_errs (s : State) (u b : Nat) (f : Bank → Bank) : (s.onBank u b f).errs = s.errs := rfl
@[simp] theorem State.onBank_migs (s : State) (u b : Nat) (f : Bank → Bank) : (s.onBank u b f).migs = s.migs := rfl
@[simp] theorem State.onBank_clock (s : State) (u b : Nat) (f : Bank → Bank) : (s.onBank u b f).clock = s.clock := rfl
@[simp] theorem State.onBank_governed (s : State) (u b : Nat) (f : Bank → Bank) : (s.onBank u b f).governed = s.governed := rfl
@[simp] theorem State.onBank_power (s : State) (u b : Nat) (f : Bank → Bank) : (s.onBank u b f).power = s.power := rfl
@[simp] theorem State.onBank_sent (s : State) (u b : Nat) (f : Bank → Bank) : (s.onBank u b f).sent = s.sent := rfl

@[simp] theorem State.onMe_agenda (s : State) (f : Bank → Bank) : (s.onMe f).agenda = s.agenda := rfl
@[simp] theorem State.onMe_moves (s : State) (f : Bank → Bank) : (s.onMe f).moves = s.moves := rfl
@[simp] theorem State.onMe_free (s : State) (f : Bank → Bank) : (s.onMe f).free = s.free := rfl
@[simp] theorem State.onMe_jids (s : State) (f : Bank → Bank) : (s.onMe f).jids = s.jids := rfl
@[simp] theorem State.onMe_pids (s : State) (f : Bank → Bank) : (s.onMe f).pids = s.pids := rfl
@[simp] theorem State.onMe_now (s : State) (f : Bank → Bank) : (s.onMe f).now = s.now := rfl
@[simp] theorem State.onMe_cur (s : State) (f : Bank → Bank) : (s.onMe f).cur = s.cur := rfl
@[simp] theorem State.onMe_clusters (s : State) (f : Bank → Bank) : (s.onMe f).clusters = s.clusters := rfl
@[simp] theorem State.onMe_dies (s : State) (f : Bank → Bank) : (s.onMe f).dies = s.dies := rfl
@[simp] theorem State.onMe_mem (s : State) (f : Bank → Bank) : (s.onMe f).mem = s.mem := rfl
@[simp] theorem State.onMe_poison (s : State) (f : Bank → Bank) : (s.onMe f).poison = s.poison := rfl
@[simp] theorem State.onMe_tensors (s : State) (f : Bank → Bank) : (s.onMe f).tensors = s.tensors := rfl
@[simp] theorem State.onMe_stage2 (s : State) (f : Bank → Bank) : (s.onMe f).stage2 = s.stage2 := rfl
@[simp] theorem State.onMe_views (s : State) (f : Bank → Bank) : (s.onMe f).views = s.views := rfl
@[simp] theorem State.onMe_uncovs (s : State) (f : Bank → Bank) : (s.onMe f).uncovs = s.uncovs := rfl
@[simp] theorem State.onMe_frames (s : State) (f : Bank → Bank) : (s.onMe f).frames = s.frames := rfl
@[simp] theorem State.onMe_scrubs (s : State) (f : Bank → Bank) : (s.onMe f).scrubs = s.scrubs := rfl
@[simp] theorem State.onMe_parts (s : State) (f : Bank → Bank) : (s.onMe f).parts = s.parts := rfl
@[simp] theorem State.onMe_limits (s : State) (f : Bank → Bank) : (s.onMe f).limits = s.limits := rfl
@[simp] theorem State.onMe_funcs (s : State) (f : Bank → Bank) : (s.onMe f).funcs = s.funcs := rfl
@[simp] theorem State.onMe_queues (s : State) (f : Bank → Bank) : (s.onMe f).queues = s.queues := rfl
@[simp] theorem State.onMe_packets (s : State) (f : Bank → Bank) : (s.onMe f).packets = s.packets := rfl
@[simp] theorem State.onMe_domains (s : State) (f : Bank → Bank) : (s.onMe f).domains = s.domains := rfl
@[simp] theorem State.onMe_early (s : State) (f : Bank → Bank) : (s.onMe f).early = s.early := rfl
@[simp] theorem State.onMe_crossings (s : State) (f : Bank → Bank) : (s.onMe f).crossings = s.crossings := rfl
@[simp] theorem State.onMe_images (s : State) (f : Bank → Bank) : (s.onMe f).images = s.images := rfl
@[simp] theorem State.onMe_versions (s : State) (f : Bank → Bank) : (s.onMe f).versions = s.versions := rfl
@[simp] theorem State.onMe_bunits (s : State) (f : Bank → Bank) : (s.onMe f).bunits = s.bunits := rfl
@[simp] theorem State.onMe_stackSt (s : State) (f : Bank → Bank) : (s.onMe f).stackSt = s.stackSt := rfl
@[simp] theorem State.onMe_remap (s : State) (f : Bank → Bank) : (s.onMe f).remap = s.remap := rfl
@[simp] theorem State.onMe_ats (s : State) (f : Bank → Bank) : (s.onMe f).ats = s.ats := rfl
@[simp] theorem State.onMe_lenfy (s : State) (f : Bank → Bank) : (s.onMe f).lenfy = s.lenfy := rfl
@[simp] theorem State.onMe_errs (s : State) (f : Bank → Bank) : (s.onMe f).errs = s.errs := rfl
@[simp] theorem State.onMe_migs (s : State) (f : Bank → Bank) : (s.onMe f).migs = s.migs := rfl
@[simp] theorem State.onMe_clock (s : State) (f : Bank → Bank) : (s.onMe f).clock = s.clock := rfl
@[simp] theorem State.onMe_governed (s : State) (f : Bank → Bank) : (s.onMe f).governed = s.governed := rfl
@[simp] theorem State.onMe_power (s : State) (f : Bank → Bank) : (s.onMe f).power = s.power := rfl
@[simp] theorem State.onMe_sent (s : State) (f : Bank → Bank) : (s.onMe f).sent = s.sent := rfl

@[simp] theorem Core.setBank_kbank (c : Core) (b : Nat) (k : Bank) : (c.setBank b k).kbank = c.kbank := by unfold Core.setBank; split <;> rfl
@[simp] theorem Core.setBank_pad (c : Core) (b : Nat) (k : Bank) : (c.setBank b k).pad = c.pad := by unfold Core.setBank; split <;> rfl
@[simp] theorem Core.setBank_tags (c : Core) (b : Nat) (k : Bank) : (c.setBank b k).tags = c.tags := by unfold Core.setBank; split <;> rfl
@[simp] theorem Core.setBank_freeze (c : Core) (b : Nat) (k : Bank) : (c.setBank b k).freeze = c.freeze := by unfold Core.setBank; split <;> rfl
@[simp] theorem Core.setBank_cycle (c : Core) (b : Nat) (k : Bank) : (c.setBank b k).cycle = c.cycle := by unfold Core.setBank; split <;> rfl
@[simp] theorem Core.setBank_tick (c : Core) (b : Nat) (k : Bank) : (c.setBank b k).tick = c.tick := by unfold Core.setBank; split <;> rfl
@[simp] theorem Core.setBank_placed (c : Core) (b : Nat) (k : Bank) : (c.setBank b k).placed = c.placed := by unfold Core.setBank; split <;> rfl
@[simp] theorem Core.setBank_lastE (c : Core) (b : Nat) (k : Bank) : (c.setBank b k).lastE = c.lastE := by unfold Core.setBank; split <;> rfl
@[simp] theorem Core.setBank_ttb (c : Core) (b : Nat) (k : Bank) : (c.setBank b k).ttb = c.ttb := by unfold Core.setBank; split <;> rfl
@[simp] theorem Core.setBank_sends (c : Core) (b : Nat) (k : Bank) : (c.setBank b k).sends = c.sends := by unfold Core.setBank; split <;> rfl
@[simp] theorem Core.setBank_recvs (c : Core) (b : Nat) (k : Bank) : (c.setBank b k).recvs = c.recvs := by unfold Core.setBank; split <;> rfl

@[simp] theorem Bank.setStream_job (k : Bank) (e : Nat) (t : Stream) : (k.setStream e t).job = k.job := rfl
@[simp] theorem Bank.setStream_imem (k : Bank) (e : Nat) (t : Stream) : (k.setStream e t).imem = k.imem := rfl
@[simp] theorem Bank.setStream_s (k : Bank) (e : Nat) (t : Stream) : (k.setStream e t).s = k.s := rfl
@[simp] theorem Bank.setStream_p (k : Bank) (e : Nat) (t : Stream) : (k.setStream e t).p = k.p := rfl
@[simp] theorem Bank.setStream_v (k : Bank) (e : Nat) (t : Stream) : (k.setStream e t).v = k.v := rfl
@[simp] theorem Bank.setStream_m (k : Bank) (e : Nat) (t : Stream) : (k.setStream e t).m = k.m := rfl
@[simp] theorem Bank.setStream_a (k : Bank) (e : Nat) (t : Stream) : (k.setStream e t).a = k.a := rfl
@[simp] theorem Bank.setStream_k (k : Bank) (e : Nat) (t : Stream) : (k.setStream e t).k = k.k := rfl
@[simp] theorem Bank.setStream_c (k : Bank) (e : Nat) (t : Stream) : (k.setStream e t).c = k.c := rfl
@[simp] theorem Bank.setStream_e (k : Bank) (e : Nat) (t : Stream) : (k.setStream e t).e = k.e := rfl
@[simp] theorem Bank.setStream_csr (k : Bank) (e : Nat) (t : Stream) : (k.setStream e t).csr = k.csr := rfl
@[simp] theorem Bank.setStream_sdm (k : Bank) (e : Nat) (t : Stream) : (k.setStream e t).sdm = k.sdm := rfl
@[simp] theorem Bank.setStream_fmt (k : Bank) (e : Nat) (t : Stream) : (k.setStream e t).fmt = k.fmt := rfl
@[simp] theorem Bank.setStream_tok (k : Bank) (e : Nat) (t : Stream) : (k.setStream e t).tok = k.tok := rfl
@[simp] theorem Bank.setStream_fifo (k : Bank) (e : Nat) (t : Stream) : (k.setStream e t).fifo = k.fifo := rfl
@[simp] theorem Bank.setStream_seqr (k : Bank) (e : Nat) (t : Stream) : (k.setStream e t).seqr = k.seqr := rfl
@[simp] theorem Bank.setStream_nests (k : Bank) (e : Nat) (t : Stream) : (k.setStream e t).nests = k.nests := rfl
@[simp] theorem Bank.setStream_cmds (k : Bank) (e : Nat) (t : Stream) : (k.setStream e t).cmds = k.cmds := rfl
@[simp] theorem Bank.setStream_seq (k : Bank) (e : Nat) (t : Stream) : (k.setStream e t).seq = k.seq := rfl
@[simp] theorem Bank.setStream_backs (k : Bank) (e : Nat) (t : Stream) : (k.setStream e t).backs = k.backs := rfl
@[simp] theorem Bank.setStream_arr (k : Bank) (e : Nat) (t : Stream) : (k.setStream e t).arr = k.arr := rfl
@[simp] theorem Bank.setStream_run (k : Bank) (e : Nat) (t : Stream) : (k.setStream e t).run = k.run := rfl
@[simp] theorem Bank.setStream_view (k : Bank) (e : Nat) (t : Stream) : (k.setStream e t).view = k.view := rfl
@[simp] theorem Bank.setStream_landings (k : Bank) (e : Nat) (t : Stream) : (k.setStream e t).landings = k.landings := rfl
@[simp] theorem Bank.setStream_departed (k : Bank) (e : Nat) (t : Stream) : (k.setStream e t).departed = k.departed := rfl
@[simp] theorem Bank.setStream_missed (k : Bank) (e : Nat) (t : Stream) : (k.setStream e t).missed = k.missed := rfl
@[simp] theorem Bank.setStream_ttags (k : Bank) (e : Nat) (t : Stream) : (k.setStream e t).ttags = k.ttags := rfl
@[simp] theorem Bank.setStream_fault (k : Bank) (e : Nat) (t : Stream) : (k.setStream e t).fault = k.fault := rfl

@[simp] theorem Bank.onStream_job (k : Bank) (e : Nat) (f : Stream → Stream) : (k.onStream e f).job = k.job := rfl
@[simp] theorem Bank.onStream_imem (k : Bank) (e : Nat) (f : Stream → Stream) : (k.onStream e f).imem = k.imem := rfl
@[simp] theorem Bank.onStream_s (k : Bank) (e : Nat) (f : Stream → Stream) : (k.onStream e f).s = k.s := rfl
@[simp] theorem Bank.onStream_p (k : Bank) (e : Nat) (f : Stream → Stream) : (k.onStream e f).p = k.p := rfl
@[simp] theorem Bank.onStream_v (k : Bank) (e : Nat) (f : Stream → Stream) : (k.onStream e f).v = k.v := rfl
@[simp] theorem Bank.onStream_m (k : Bank) (e : Nat) (f : Stream → Stream) : (k.onStream e f).m = k.m := rfl
@[simp] theorem Bank.onStream_a (k : Bank) (e : Nat) (f : Stream → Stream) : (k.onStream e f).a = k.a := rfl
@[simp] theorem Bank.onStream_k (k : Bank) (e : Nat) (f : Stream → Stream) : (k.onStream e f).k = k.k := rfl
@[simp] theorem Bank.onStream_c (k : Bank) (e : Nat) (f : Stream → Stream) : (k.onStream e f).c = k.c := rfl
@[simp] theorem Bank.onStream_e (k : Bank) (e : Nat) (f : Stream → Stream) : (k.onStream e f).e = k.e := rfl
@[simp] theorem Bank.onStream_csr (k : Bank) (e : Nat) (f : Stream → Stream) : (k.onStream e f).csr = k.csr := rfl
@[simp] theorem Bank.onStream_sdm (k : Bank) (e : Nat) (f : Stream → Stream) : (k.onStream e f).sdm = k.sdm := rfl
@[simp] theorem Bank.onStream_fmt (k : Bank) (e : Nat) (f : Stream → Stream) : (k.onStream e f).fmt = k.fmt := rfl
@[simp] theorem Bank.onStream_tok (k : Bank) (e : Nat) (f : Stream → Stream) : (k.onStream e f).tok = k.tok := rfl
@[simp] theorem Bank.onStream_fifo (k : Bank) (e : Nat) (f : Stream → Stream) : (k.onStream e f).fifo = k.fifo := rfl
@[simp] theorem Bank.onStream_seqr (k : Bank) (e : Nat) (f : Stream → Stream) : (k.onStream e f).seqr = k.seqr := rfl
@[simp] theorem Bank.onStream_nests (k : Bank) (e : Nat) (f : Stream → Stream) : (k.onStream e f).nests = k.nests := rfl
@[simp] theorem Bank.onStream_cmds (k : Bank) (e : Nat) (f : Stream → Stream) : (k.onStream e f).cmds = k.cmds := rfl
@[simp] theorem Bank.onStream_seq (k : Bank) (e : Nat) (f : Stream → Stream) : (k.onStream e f).seq = k.seq := rfl
@[simp] theorem Bank.onStream_backs (k : Bank) (e : Nat) (f : Stream → Stream) : (k.onStream e f).backs = k.backs := rfl
@[simp] theorem Bank.onStream_arr (k : Bank) (e : Nat) (f : Stream → Stream) : (k.onStream e f).arr = k.arr := rfl
@[simp] theorem Bank.onStream_run (k : Bank) (e : Nat) (f : Stream → Stream) : (k.onStream e f).run = k.run := rfl
@[simp] theorem Bank.onStream_view (k : Bank) (e : Nat) (f : Stream → Stream) : (k.onStream e f).view = k.view := rfl
@[simp] theorem Bank.onStream_landings (k : Bank) (e : Nat) (f : Stream → Stream) : (k.onStream e f).landings = k.landings := rfl
@[simp] theorem Bank.onStream_departed (k : Bank) (e : Nat) (f : Stream → Stream) : (k.onStream e f).departed = k.departed := rfl
@[simp] theorem Bank.onStream_missed (k : Bank) (e : Nat) (f : Stream → Stream) : (k.onStream e f).missed = k.missed := rfl
@[simp] theorem Bank.onStream_ttags (k : Bank) (e : Nat) (f : Stream → Stream) : (k.onStream e f).ttags = k.ttags := rfl
@[simp] theorem Bank.onStream_fault (k : Bank) (e : Nat) (f : Stream → Stream) : (k.onStream e f).fault = k.fault := rfl

@[simp] theorem Bank.advance_job (k : Bank) (e : Nat) (x : Option (BitVec 13)) : (k.advance e x).job = k.job := rfl
@[simp] theorem Bank.advance_imem (k : Bank) (e : Nat) (x : Option (BitVec 13)) : (k.advance e x).imem = k.imem := rfl
@[simp] theorem Bank.advance_s (k : Bank) (e : Nat) (x : Option (BitVec 13)) : (k.advance e x).s = k.s := rfl
@[simp] theorem Bank.advance_p (k : Bank) (e : Nat) (x : Option (BitVec 13)) : (k.advance e x).p = k.p := rfl
@[simp] theorem Bank.advance_v (k : Bank) (e : Nat) (x : Option (BitVec 13)) : (k.advance e x).v = k.v := rfl
@[simp] theorem Bank.advance_m (k : Bank) (e : Nat) (x : Option (BitVec 13)) : (k.advance e x).m = k.m := rfl
@[simp] theorem Bank.advance_a (k : Bank) (e : Nat) (x : Option (BitVec 13)) : (k.advance e x).a = k.a := rfl
@[simp] theorem Bank.advance_k (k : Bank) (e : Nat) (x : Option (BitVec 13)) : (k.advance e x).k = k.k := rfl
@[simp] theorem Bank.advance_c (k : Bank) (e : Nat) (x : Option (BitVec 13)) : (k.advance e x).c = k.c := rfl
@[simp] theorem Bank.advance_e (k : Bank) (e : Nat) (x : Option (BitVec 13)) : (k.advance e x).e = k.e := rfl
@[simp] theorem Bank.advance_csr (k : Bank) (e : Nat) (x : Option (BitVec 13)) : (k.advance e x).csr = k.csr := rfl
@[simp] theorem Bank.advance_sdm (k : Bank) (e : Nat) (x : Option (BitVec 13)) : (k.advance e x).sdm = k.sdm := rfl
@[simp] theorem Bank.advance_fmt (k : Bank) (e : Nat) (x : Option (BitVec 13)) : (k.advance e x).fmt = k.fmt := rfl
@[simp] theorem Bank.advance_tok (k : Bank) (e : Nat) (x : Option (BitVec 13)) : (k.advance e x).tok = k.tok := rfl
@[simp] theorem Bank.advance_fifo (k : Bank) (e : Nat) (x : Option (BitVec 13)) : (k.advance e x).fifo = k.fifo := rfl
@[simp] theorem Bank.advance_seqr (k : Bank) (e : Nat) (x : Option (BitVec 13)) : (k.advance e x).seqr = k.seqr := rfl
@[simp] theorem Bank.advance_nests (k : Bank) (e : Nat) (x : Option (BitVec 13)) : (k.advance e x).nests = k.nests := rfl
@[simp] theorem Bank.advance_cmds (k : Bank) (e : Nat) (x : Option (BitVec 13)) : (k.advance e x).cmds = k.cmds := rfl
@[simp] theorem Bank.advance_seq (k : Bank) (e : Nat) (x : Option (BitVec 13)) : (k.advance e x).seq = k.seq := rfl
@[simp] theorem Bank.advance_backs (k : Bank) (e : Nat) (x : Option (BitVec 13)) : (k.advance e x).backs = k.backs := rfl
@[simp] theorem Bank.advance_arr (k : Bank) (e : Nat) (x : Option (BitVec 13)) : (k.advance e x).arr = k.arr := rfl
@[simp] theorem Bank.advance_run (k : Bank) (e : Nat) (x : Option (BitVec 13)) : (k.advance e x).run = k.run := rfl
@[simp] theorem Bank.advance_view (k : Bank) (e : Nat) (x : Option (BitVec 13)) : (k.advance e x).view = k.view := rfl
@[simp] theorem Bank.advance_landings (k : Bank) (e : Nat) (x : Option (BitVec 13)) : (k.advance e x).landings = k.landings := rfl
@[simp] theorem Bank.advance_departed (k : Bank) (e : Nat) (x : Option (BitVec 13)) : (k.advance e x).departed = k.departed := rfl
@[simp] theorem Bank.advance_missed (k : Bank) (e : Nat) (x : Option (BitVec 13)) : (k.advance e x).missed = k.missed := rfl
@[simp] theorem Bank.advance_ttags (k : Bank) (e : Nat) (x : Option (BitVec 13)) : (k.advance e x).ttags = k.ttags := rfl
@[simp] theorem Bank.advance_fault (k : Bank) (e : Nat) (x : Option (BitVec 13)) : (k.advance e x).fault = k.fault := rfl

@[simp] theorem Bank.learn_job (k : Bank) (e f : Nat) (p : BitVec 13) : (k.learn e f p).job = k.job := rfl
@[simp] theorem Bank.learn_imem (k : Bank) (e f : Nat) (p : BitVec 13) : (k.learn e f p).imem = k.imem := rfl
@[simp] theorem Bank.learn_s (k : Bank) (e f : Nat) (p : BitVec 13) : (k.learn e f p).s = k.s := rfl
@[simp] theorem Bank.learn_p (k : Bank) (e f : Nat) (p : BitVec 13) : (k.learn e f p).p = k.p := rfl
@[simp] theorem Bank.learn_v (k : Bank) (e f : Nat) (p : BitVec 13) : (k.learn e f p).v = k.v := rfl
@[simp] theorem Bank.learn_m (k : Bank) (e f : Nat) (p : BitVec 13) : (k.learn e f p).m = k.m := rfl
@[simp] theorem Bank.learn_a (k : Bank) (e f : Nat) (p : BitVec 13) : (k.learn e f p).a = k.a := rfl
@[simp] theorem Bank.learn_k (k : Bank) (e f : Nat) (p : BitVec 13) : (k.learn e f p).k = k.k := rfl
@[simp] theorem Bank.learn_c (k : Bank) (e f : Nat) (p : BitVec 13) : (k.learn e f p).c = k.c := rfl
@[simp] theorem Bank.learn_e (k : Bank) (e f : Nat) (p : BitVec 13) : (k.learn e f p).e = k.e := rfl
@[simp] theorem Bank.learn_csr (k : Bank) (e f : Nat) (p : BitVec 13) : (k.learn e f p).csr = k.csr := rfl
@[simp] theorem Bank.learn_sdm (k : Bank) (e f : Nat) (p : BitVec 13) : (k.learn e f p).sdm = k.sdm := rfl
@[simp] theorem Bank.learn_fmt (k : Bank) (e f : Nat) (p : BitVec 13) : (k.learn e f p).fmt = k.fmt := rfl
@[simp] theorem Bank.learn_tok (k : Bank) (e f : Nat) (p : BitVec 13) : (k.learn e f p).tok = k.tok := rfl
@[simp] theorem Bank.learn_fifo (k : Bank) (e f : Nat) (p : BitVec 13) : (k.learn e f p).fifo = k.fifo := rfl
@[simp] theorem Bank.learn_seqr (k : Bank) (e f : Nat) (p : BitVec 13) : (k.learn e f p).seqr = k.seqr := rfl
@[simp] theorem Bank.learn_nests (k : Bank) (e f : Nat) (p : BitVec 13) : (k.learn e f p).nests = k.nests := rfl
@[simp] theorem Bank.learn_cmds (k : Bank) (e f : Nat) (p : BitVec 13) : (k.learn e f p).cmds = k.cmds := rfl
@[simp] theorem Bank.learn_seq (k : Bank) (e f : Nat) (p : BitVec 13) : (k.learn e f p).seq = k.seq := rfl
@[simp] theorem Bank.learn_backs (k : Bank) (e f : Nat) (p : BitVec 13) : (k.learn e f p).backs = k.backs := rfl
@[simp] theorem Bank.learn_arr (k : Bank) (e f : Nat) (p : BitVec 13) : (k.learn e f p).arr = k.arr := rfl
@[simp] theorem Bank.learn_run (k : Bank) (e f : Nat) (p : BitVec 13) : (k.learn e f p).run = k.run := rfl
@[simp] theorem Bank.learn_view (k : Bank) (e f : Nat) (p : BitVec 13) : (k.learn e f p).view = k.view := rfl
@[simp] theorem Bank.learn_landings (k : Bank) (e f : Nat) (p : BitVec 13) : (k.learn e f p).landings = k.landings := rfl
@[simp] theorem Bank.learn_departed (k : Bank) (e f : Nat) (p : BitVec 13) : (k.learn e f p).departed = k.departed := rfl
@[simp] theorem Bank.learn_missed (k : Bank) (e f : Nat) (p : BitVec 13) : (k.learn e f p).missed = k.missed := rfl
@[simp] theorem Bank.learn_ttags (k : Bank) (e f : Nat) (p : BitVec 13) : (k.learn e f p).ttags = k.ttags := rfl
@[simp] theorem Bank.learn_fault (k : Bank) (e f : Nat) (p : BitVec 13) : (k.learn e f p).fault = k.fault := rfl

@[simp] theorem Bank.setQueue_job (k : Bank) (e : Nat) (q : List Cmd) : (k.setQueue e q).job = k.job := rfl
@[simp] theorem Bank.setQueue_streams (k : Bank) (e : Nat) (q : List Cmd) : (k.setQueue e q).streams = k.streams := rfl
@[simp] theorem Bank.setQueue_imem (k : Bank) (e : Nat) (q : List Cmd) : (k.setQueue e q).imem = k.imem := rfl
@[simp] theorem Bank.setQueue_s (k : Bank) (e : Nat) (q : List Cmd) : (k.setQueue e q).s = k.s := rfl
@[simp] theorem Bank.setQueue_p (k : Bank) (e : Nat) (q : List Cmd) : (k.setQueue e q).p = k.p := rfl
@[simp] theorem Bank.setQueue_v (k : Bank) (e : Nat) (q : List Cmd) : (k.setQueue e q).v = k.v := rfl
@[simp] theorem Bank.setQueue_m (k : Bank) (e : Nat) (q : List Cmd) : (k.setQueue e q).m = k.m := rfl
@[simp] theorem Bank.setQueue_a (k : Bank) (e : Nat) (q : List Cmd) : (k.setQueue e q).a = k.a := rfl
@[simp] theorem Bank.setQueue_k (k : Bank) (e : Nat) (q : List Cmd) : (k.setQueue e q).k = k.k := rfl
@[simp] theorem Bank.setQueue_c (k : Bank) (e : Nat) (q : List Cmd) : (k.setQueue e q).c = k.c := rfl
@[simp] theorem Bank.setQueue_e (k : Bank) (e : Nat) (q : List Cmd) : (k.setQueue e q).e = k.e := rfl
@[simp] theorem Bank.setQueue_csr (k : Bank) (e : Nat) (q : List Cmd) : (k.setQueue e q).csr = k.csr := rfl
@[simp] theorem Bank.setQueue_sdm (k : Bank) (e : Nat) (q : List Cmd) : (k.setQueue e q).sdm = k.sdm := rfl
@[simp] theorem Bank.setQueue_fmt (k : Bank) (e : Nat) (q : List Cmd) : (k.setQueue e q).fmt = k.fmt := rfl
@[simp] theorem Bank.setQueue_tok (k : Bank) (e : Nat) (q : List Cmd) : (k.setQueue e q).tok = k.tok := rfl
@[simp] theorem Bank.setQueue_fifo (k : Bank) (e : Nat) (q : List Cmd) : (k.setQueue e q).fifo = k.fifo := rfl
@[simp] theorem Bank.setQueue_seqr (k : Bank) (e : Nat) (q : List Cmd) : (k.setQueue e q).seqr = k.seqr := rfl
@[simp] theorem Bank.setQueue_nests (k : Bank) (e : Nat) (q : List Cmd) : (k.setQueue e q).nests = k.nests := rfl
@[simp] theorem Bank.setQueue_seq (k : Bank) (e : Nat) (q : List Cmd) : (k.setQueue e q).seq = k.seq := rfl
@[simp] theorem Bank.setQueue_backs (k : Bank) (e : Nat) (q : List Cmd) : (k.setQueue e q).backs = k.backs := rfl
@[simp] theorem Bank.setQueue_arr (k : Bank) (e : Nat) (q : List Cmd) : (k.setQueue e q).arr = k.arr := rfl
@[simp] theorem Bank.setQueue_run (k : Bank) (e : Nat) (q : List Cmd) : (k.setQueue e q).run = k.run := rfl
@[simp] theorem Bank.setQueue_view (k : Bank) (e : Nat) (q : List Cmd) : (k.setQueue e q).view = k.view := rfl
@[simp] theorem Bank.setQueue_landings (k : Bank) (e : Nat) (q : List Cmd) : (k.setQueue e q).landings = k.landings := rfl
@[simp] theorem Bank.setQueue_departed (k : Bank) (e : Nat) (q : List Cmd) : (k.setQueue e q).departed = k.departed := rfl
@[simp] theorem Bank.setQueue_missed (k : Bank) (e : Nat) (q : List Cmd) : (k.setQueue e q).missed = k.missed := rfl
@[simp] theorem Bank.setQueue_ttags (k : Bank) (e : Nat) (q : List Cmd) : (k.setQueue e q).ttags = k.ttags := rfl
@[simp] theorem Bank.setQueue_fault (k : Bank) (e : Nat) (q : List Cmd) : (k.setQueue e q).fault = k.fault := rfl

@[simp] theorem Bank.issueCmd_job (k : Bank) (e : Nat) (x : CmdOp) : (k.issueCmd e x).job = k.job := rfl
@[simp] theorem Bank.issueCmd_streams (k : Bank) (e : Nat) (x : CmdOp) : (k.issueCmd e x).streams = k.streams := rfl
@[simp] theorem Bank.issueCmd_imem (k : Bank) (e : Nat) (x : CmdOp) : (k.issueCmd e x).imem = k.imem := rfl
@[simp] theorem Bank.issueCmd_s (k : Bank) (e : Nat) (x : CmdOp) : (k.issueCmd e x).s = k.s := rfl
@[simp] theorem Bank.issueCmd_p (k : Bank) (e : Nat) (x : CmdOp) : (k.issueCmd e x).p = k.p := rfl
@[simp] theorem Bank.issueCmd_v (k : Bank) (e : Nat) (x : CmdOp) : (k.issueCmd e x).v = k.v := rfl
@[simp] theorem Bank.issueCmd_m (k : Bank) (e : Nat) (x : CmdOp) : (k.issueCmd e x).m = k.m := rfl
@[simp] theorem Bank.issueCmd_a (k : Bank) (e : Nat) (x : CmdOp) : (k.issueCmd e x).a = k.a := rfl
@[simp] theorem Bank.issueCmd_k (k : Bank) (e : Nat) (x : CmdOp) : (k.issueCmd e x).k = k.k := rfl
@[simp] theorem Bank.issueCmd_c (k : Bank) (e : Nat) (x : CmdOp) : (k.issueCmd e x).c = k.c := rfl
@[simp] theorem Bank.issueCmd_e (k : Bank) (e : Nat) (x : CmdOp) : (k.issueCmd e x).e = k.e := rfl
@[simp] theorem Bank.issueCmd_csr (k : Bank) (e : Nat) (x : CmdOp) : (k.issueCmd e x).csr = k.csr := rfl
@[simp] theorem Bank.issueCmd_sdm (k : Bank) (e : Nat) (x : CmdOp) : (k.issueCmd e x).sdm = k.sdm := rfl
@[simp] theorem Bank.issueCmd_fmt (k : Bank) (e : Nat) (x : CmdOp) : (k.issueCmd e x).fmt = k.fmt := rfl
@[simp] theorem Bank.issueCmd_tok (k : Bank) (e : Nat) (x : CmdOp) : (k.issueCmd e x).tok = k.tok := rfl
@[simp] theorem Bank.issueCmd_fifo (k : Bank) (e : Nat) (x : CmdOp) : (k.issueCmd e x).fifo = k.fifo := rfl
@[simp] theorem Bank.issueCmd_seqr (k : Bank) (e : Nat) (x : CmdOp) : (k.issueCmd e x).seqr = k.seqr := rfl
@[simp] theorem Bank.issueCmd_nests (k : Bank) (e : Nat) (x : CmdOp) : (k.issueCmd e x).nests = k.nests := rfl
@[simp] theorem Bank.issueCmd_backs (k : Bank) (e : Nat) (x : CmdOp) : (k.issueCmd e x).backs = k.backs := rfl
@[simp] theorem Bank.issueCmd_arr (k : Bank) (e : Nat) (x : CmdOp) : (k.issueCmd e x).arr = k.arr := rfl
@[simp] theorem Bank.issueCmd_run (k : Bank) (e : Nat) (x : CmdOp) : (k.issueCmd e x).run = k.run := rfl
@[simp] theorem Bank.issueCmd_view (k : Bank) (e : Nat) (x : CmdOp) : (k.issueCmd e x).view = k.view := rfl
@[simp] theorem Bank.issueCmd_landings (k : Bank) (e : Nat) (x : CmdOp) : (k.issueCmd e x).landings = k.landings := rfl
@[simp] theorem Bank.issueCmd_departed (k : Bank) (e : Nat) (x : CmdOp) : (k.issueCmd e x).departed = k.departed := rfl
@[simp] theorem Bank.issueCmd_missed (k : Bank) (e : Nat) (x : CmdOp) : (k.issueCmd e x).missed = k.missed := rfl
@[simp] theorem Bank.issueCmd_ttags (k : Bank) (e : Nat) (x : CmdOp) : (k.issueCmd e x).ttags = k.ttags := rfl
@[simp] theorem Bank.issueCmd_fault (k : Bank) (e : Nat) (x : CmdOp) : (k.issueCmd e x).fault = k.fault := rfl

@[simp] theorem Bank.setTok_job (k : Bank) (f : Nat) (x : TokFifo) : (k.setTok f x).job = k.job := rfl
@[simp] theorem Bank.setTok_streams (k : Bank) (f : Nat) (x : TokFifo) : (k.setTok f x).streams = k.streams := rfl
@[simp] theorem Bank.setTok_imem (k : Bank) (f : Nat) (x : TokFifo) : (k.setTok f x).imem = k.imem := rfl
@[simp] theorem Bank.setTok_s (k : Bank) (f : Nat) (x : TokFifo) : (k.setTok f x).s = k.s := rfl
@[simp] theorem Bank.setTok_p (k : Bank) (f : Nat) (x : TokFifo) : (k.setTok f x).p = k.p := rfl
@[simp] theorem Bank.setTok_v (k : Bank) (f : Nat) (x : TokFifo) : (k.setTok f x).v = k.v := rfl
@[simp] theorem Bank.setTok_m (k : Bank) (f : Nat) (x : TokFifo) : (k.setTok f x).m = k.m := rfl
@[simp] theorem Bank.setTok_a (k : Bank) (f : Nat) (x : TokFifo) : (k.setTok f x).a = k.a := rfl
@[simp] theorem Bank.setTok_k (k : Bank) (f : Nat) (x : TokFifo) : (k.setTok f x).k = k.k := rfl
@[simp] theorem Bank.setTok_c (k : Bank) (f : Nat) (x : TokFifo) : (k.setTok f x).c = k.c := rfl
@[simp] theorem Bank.setTok_e (k : Bank) (f : Nat) (x : TokFifo) : (k.setTok f x).e = k.e := rfl
@[simp] theorem Bank.setTok_csr (k : Bank) (f : Nat) (x : TokFifo) : (k.setTok f x).csr = k.csr := rfl
@[simp] theorem Bank.setTok_sdm (k : Bank) (f : Nat) (x : TokFifo) : (k.setTok f x).sdm = k.sdm := rfl
@[simp] theorem Bank.setTok_fmt (k : Bank) (f : Nat) (x : TokFifo) : (k.setTok f x).fmt = k.fmt := rfl
@[simp] theorem Bank.setTok_fifo (k : Bank) (f : Nat) (x : TokFifo) : (k.setTok f x).fifo = k.fifo := rfl
@[simp] theorem Bank.setTok_seqr (k : Bank) (f : Nat) (x : TokFifo) : (k.setTok f x).seqr = k.seqr := rfl
@[simp] theorem Bank.setTok_nests (k : Bank) (f : Nat) (x : TokFifo) : (k.setTok f x).nests = k.nests := rfl
@[simp] theorem Bank.setTok_cmds (k : Bank) (f : Nat) (x : TokFifo) : (k.setTok f x).cmds = k.cmds := rfl
@[simp] theorem Bank.setTok_seq (k : Bank) (f : Nat) (x : TokFifo) : (k.setTok f x).seq = k.seq := rfl
@[simp] theorem Bank.setTok_backs (k : Bank) (f : Nat) (x : TokFifo) : (k.setTok f x).backs = k.backs := rfl
@[simp] theorem Bank.setTok_arr (k : Bank) (f : Nat) (x : TokFifo) : (k.setTok f x).arr = k.arr := rfl
@[simp] theorem Bank.setTok_run (k : Bank) (f : Nat) (x : TokFifo) : (k.setTok f x).run = k.run := rfl
@[simp] theorem Bank.setTok_view (k : Bank) (f : Nat) (x : TokFifo) : (k.setTok f x).view = k.view := rfl
@[simp] theorem Bank.setTok_landings (k : Bank) (f : Nat) (x : TokFifo) : (k.setTok f x).landings = k.landings := rfl
@[simp] theorem Bank.setTok_departed (k : Bank) (f : Nat) (x : TokFifo) : (k.setTok f x).departed = k.departed := rfl
@[simp] theorem Bank.setTok_missed (k : Bank) (f : Nat) (x : TokFifo) : (k.setTok f x).missed = k.missed := rfl
@[simp] theorem Bank.setTok_ttags (k : Bank) (f : Nat) (x : TokFifo) : (k.setTok f x).ttags = k.ttags := rfl
@[simp] theorem Bank.setTok_fault (k : Bank) (f : Nat) (x : TokFifo) : (k.setTok f x).fault = k.fault := rfl

@[simp] theorem Bank.setFifo_job (k : Bank) (f : Nat) (x : DFifo) : (k.setFifo f x).job = k.job := rfl
@[simp] theorem Bank.setFifo_streams (k : Bank) (f : Nat) (x : DFifo) : (k.setFifo f x).streams = k.streams := rfl
@[simp] theorem Bank.setFifo_imem (k : Bank) (f : Nat) (x : DFifo) : (k.setFifo f x).imem = k.imem := rfl
@[simp] theorem Bank.setFifo_s (k : Bank) (f : Nat) (x : DFifo) : (k.setFifo f x).s = k.s := rfl
@[simp] theorem Bank.setFifo_p (k : Bank) (f : Nat) (x : DFifo) : (k.setFifo f x).p = k.p := rfl
@[simp] theorem Bank.setFifo_v (k : Bank) (f : Nat) (x : DFifo) : (k.setFifo f x).v = k.v := rfl
@[simp] theorem Bank.setFifo_m (k : Bank) (f : Nat) (x : DFifo) : (k.setFifo f x).m = k.m := rfl
@[simp] theorem Bank.setFifo_a (k : Bank) (f : Nat) (x : DFifo) : (k.setFifo f x).a = k.a := rfl
@[simp] theorem Bank.setFifo_k (k : Bank) (f : Nat) (x : DFifo) : (k.setFifo f x).k = k.k := rfl
@[simp] theorem Bank.setFifo_c (k : Bank) (f : Nat) (x : DFifo) : (k.setFifo f x).c = k.c := rfl
@[simp] theorem Bank.setFifo_e (k : Bank) (f : Nat) (x : DFifo) : (k.setFifo f x).e = k.e := rfl
@[simp] theorem Bank.setFifo_csr (k : Bank) (f : Nat) (x : DFifo) : (k.setFifo f x).csr = k.csr := rfl
@[simp] theorem Bank.setFifo_sdm (k : Bank) (f : Nat) (x : DFifo) : (k.setFifo f x).sdm = k.sdm := rfl
@[simp] theorem Bank.setFifo_fmt (k : Bank) (f : Nat) (x : DFifo) : (k.setFifo f x).fmt = k.fmt := rfl
@[simp] theorem Bank.setFifo_tok (k : Bank) (f : Nat) (x : DFifo) : (k.setFifo f x).tok = k.tok := rfl
@[simp] theorem Bank.setFifo_seqr (k : Bank) (f : Nat) (x : DFifo) : (k.setFifo f x).seqr = k.seqr := rfl
@[simp] theorem Bank.setFifo_nests (k : Bank) (f : Nat) (x : DFifo) : (k.setFifo f x).nests = k.nests := rfl
@[simp] theorem Bank.setFifo_cmds (k : Bank) (f : Nat) (x : DFifo) : (k.setFifo f x).cmds = k.cmds := rfl
@[simp] theorem Bank.setFifo_seq (k : Bank) (f : Nat) (x : DFifo) : (k.setFifo f x).seq = k.seq := rfl
@[simp] theorem Bank.setFifo_backs (k : Bank) (f : Nat) (x : DFifo) : (k.setFifo f x).backs = k.backs := rfl
@[simp] theorem Bank.setFifo_arr (k : Bank) (f : Nat) (x : DFifo) : (k.setFifo f x).arr = k.arr := rfl
@[simp] theorem Bank.setFifo_run (k : Bank) (f : Nat) (x : DFifo) : (k.setFifo f x).run = k.run := rfl
@[simp] theorem Bank.setFifo_view (k : Bank) (f : Nat) (x : DFifo) : (k.setFifo f x).view = k.view := rfl
@[simp] theorem Bank.setFifo_landings (k : Bank) (f : Nat) (x : DFifo) : (k.setFifo f x).landings = k.landings := rfl
@[simp] theorem Bank.setFifo_departed (k : Bank) (f : Nat) (x : DFifo) : (k.setFifo f x).departed = k.departed := rfl
@[simp] theorem Bank.setFifo_missed (k : Bank) (f : Nat) (x : DFifo) : (k.setFifo f x).missed = k.missed := rfl
@[simp] theorem Bank.setFifo_ttags (k : Bank) (f : Nat) (x : DFifo) : (k.setFifo f x).ttags = k.ttags := rfl
@[simp] theorem Bank.setFifo_fault (k : Bank) (f : Nat) (x : DFifo) : (k.setFifo f x).fault = k.fault := rfl

@[simp] theorem Bank.append_job (k : Bank) (f : Nat) (x : FRow) : (k.append f x).job = k.job := rfl
@[simp] theorem Bank.append_streams (k : Bank) (f : Nat) (x : FRow) : (k.append f x).streams = k.streams := rfl
@[simp] theorem Bank.append_imem (k : Bank) (f : Nat) (x : FRow) : (k.append f x).imem = k.imem := rfl
@[simp] theorem Bank.append_s (k : Bank) (f : Nat) (x : FRow) : (k.append f x).s = k.s := rfl
@[simp] theorem Bank.append_p (k : Bank) (f : Nat) (x : FRow) : (k.append f x).p = k.p := rfl
@[simp] theorem Bank.append_v (k : Bank) (f : Nat) (x : FRow) : (k.append f x).v = k.v := rfl
@[simp] theorem Bank.append_m (k : Bank) (f : Nat) (x : FRow) : (k.append f x).m = k.m := rfl
@[simp] theorem Bank.append_a (k : Bank) (f : Nat) (x : FRow) : (k.append f x).a = k.a := rfl
@[simp] theorem Bank.append_k (k : Bank) (f : Nat) (x : FRow) : (k.append f x).k = k.k := rfl
@[simp] theorem Bank.append_c (k : Bank) (f : Nat) (x : FRow) : (k.append f x).c = k.c := rfl
@[simp] theorem Bank.append_e (k : Bank) (f : Nat) (x : FRow) : (k.append f x).e = k.e := rfl
@[simp] theorem Bank.append_csr (k : Bank) (f : Nat) (x : FRow) : (k.append f x).csr = k.csr := rfl
@[simp] theorem Bank.append_sdm (k : Bank) (f : Nat) (x : FRow) : (k.append f x).sdm = k.sdm := rfl
@[simp] theorem Bank.append_fmt (k : Bank) (f : Nat) (x : FRow) : (k.append f x).fmt = k.fmt := rfl
@[simp] theorem Bank.append_tok (k : Bank) (f : Nat) (x : FRow) : (k.append f x).tok = k.tok := rfl
@[simp] theorem Bank.append_seqr (k : Bank) (f : Nat) (x : FRow) : (k.append f x).seqr = k.seqr := rfl
@[simp] theorem Bank.append_nests (k : Bank) (f : Nat) (x : FRow) : (k.append f x).nests = k.nests := rfl
@[simp] theorem Bank.append_cmds (k : Bank) (f : Nat) (x : FRow) : (k.append f x).cmds = k.cmds := rfl
@[simp] theorem Bank.append_seq (k : Bank) (f : Nat) (x : FRow) : (k.append f x).seq = k.seq := rfl
@[simp] theorem Bank.append_backs (k : Bank) (f : Nat) (x : FRow) : (k.append f x).backs = k.backs := rfl
@[simp] theorem Bank.append_arr (k : Bank) (f : Nat) (x : FRow) : (k.append f x).arr = k.arr := rfl
@[simp] theorem Bank.append_run (k : Bank) (f : Nat) (x : FRow) : (k.append f x).run = k.run := rfl
@[simp] theorem Bank.append_view (k : Bank) (f : Nat) (x : FRow) : (k.append f x).view = k.view := rfl
@[simp] theorem Bank.append_landings (k : Bank) (f : Nat) (x : FRow) : (k.append f x).landings = k.landings := rfl
@[simp] theorem Bank.append_departed (k : Bank) (f : Nat) (x : FRow) : (k.append f x).departed = k.departed := rfl
@[simp] theorem Bank.append_missed (k : Bank) (f : Nat) (x : FRow) : (k.append f x).missed = k.missed := rfl
@[simp] theorem Bank.append_ttags (k : Bank) (f : Nat) (x : FRow) : (k.append f x).ttags = k.ttags := rfl
@[simp] theorem Bank.append_fault (k : Bank) (f : Nat) (x : FRow) : (k.append f x).fault = k.fault := rfl

@[simp] theorem Bank.setArrVec_job (k : Bank) (i : Nat) (x : ArrVec) : (k.setArrVec i x).job = k.job := rfl
@[simp] theorem Bank.setArrVec_streams (k : Bank) (i : Nat) (x : ArrVec) : (k.setArrVec i x).streams = k.streams := rfl
@[simp] theorem Bank.setArrVec_imem (k : Bank) (i : Nat) (x : ArrVec) : (k.setArrVec i x).imem = k.imem := rfl
@[simp] theorem Bank.setArrVec_s (k : Bank) (i : Nat) (x : ArrVec) : (k.setArrVec i x).s = k.s := rfl
@[simp] theorem Bank.setArrVec_p (k : Bank) (i : Nat) (x : ArrVec) : (k.setArrVec i x).p = k.p := rfl
@[simp] theorem Bank.setArrVec_v (k : Bank) (i : Nat) (x : ArrVec) : (k.setArrVec i x).v = k.v := rfl
@[simp] theorem Bank.setArrVec_m (k : Bank) (i : Nat) (x : ArrVec) : (k.setArrVec i x).m = k.m := rfl
@[simp] theorem Bank.setArrVec_a (k : Bank) (i : Nat) (x : ArrVec) : (k.setArrVec i x).a = k.a := rfl
@[simp] theorem Bank.setArrVec_k (k : Bank) (i : Nat) (x : ArrVec) : (k.setArrVec i x).k = k.k := rfl
@[simp] theorem Bank.setArrVec_c (k : Bank) (i : Nat) (x : ArrVec) : (k.setArrVec i x).c = k.c := rfl
@[simp] theorem Bank.setArrVec_e (k : Bank) (i : Nat) (x : ArrVec) : (k.setArrVec i x).e = k.e := rfl
@[simp] theorem Bank.setArrVec_csr (k : Bank) (i : Nat) (x : ArrVec) : (k.setArrVec i x).csr = k.csr := rfl
@[simp] theorem Bank.setArrVec_sdm (k : Bank) (i : Nat) (x : ArrVec) : (k.setArrVec i x).sdm = k.sdm := rfl
@[simp] theorem Bank.setArrVec_fmt (k : Bank) (i : Nat) (x : ArrVec) : (k.setArrVec i x).fmt = k.fmt := rfl
@[simp] theorem Bank.setArrVec_tok (k : Bank) (i : Nat) (x : ArrVec) : (k.setArrVec i x).tok = k.tok := rfl
@[simp] theorem Bank.setArrVec_fifo (k : Bank) (i : Nat) (x : ArrVec) : (k.setArrVec i x).fifo = k.fifo := rfl
@[simp] theorem Bank.setArrVec_seqr (k : Bank) (i : Nat) (x : ArrVec) : (k.setArrVec i x).seqr = k.seqr := rfl
@[simp] theorem Bank.setArrVec_nests (k : Bank) (i : Nat) (x : ArrVec) : (k.setArrVec i x).nests = k.nests := rfl
@[simp] theorem Bank.setArrVec_cmds (k : Bank) (i : Nat) (x : ArrVec) : (k.setArrVec i x).cmds = k.cmds := rfl
@[simp] theorem Bank.setArrVec_seq (k : Bank) (i : Nat) (x : ArrVec) : (k.setArrVec i x).seq = k.seq := rfl
@[simp] theorem Bank.setArrVec_backs (k : Bank) (i : Nat) (x : ArrVec) : (k.setArrVec i x).backs = k.backs := rfl
@[simp] theorem Bank.setArrVec_run (k : Bank) (i : Nat) (x : ArrVec) : (k.setArrVec i x).run = k.run := rfl
@[simp] theorem Bank.setArrVec_view (k : Bank) (i : Nat) (x : ArrVec) : (k.setArrVec i x).view = k.view := rfl
@[simp] theorem Bank.setArrVec_landings (k : Bank) (i : Nat) (x : ArrVec) : (k.setArrVec i x).landings = k.landings := rfl
@[simp] theorem Bank.setArrVec_departed (k : Bank) (i : Nat) (x : ArrVec) : (k.setArrVec i x).departed = k.departed := rfl
@[simp] theorem Bank.setArrVec_missed (k : Bank) (i : Nat) (x : ArrVec) : (k.setArrVec i x).missed = k.missed := rfl
@[simp] theorem Bank.setArrVec_ttags (k : Bank) (i : Nat) (x : ArrVec) : (k.setArrVec i x).ttags = k.ttags := rfl
@[simp] theorem Bank.setArrVec_fault (k : Bank) (i : Nat) (x : ArrVec) : (k.setArrVec i x).fault = k.fault := rfl

@[simp] theorem Bank.wrS_job (k : Bank) (r : BitVec 5) (v : DWord) : (k.wrS r v).job = k.job := by unfold Bank.wrS; split <;> rfl
@[simp] theorem Bank.wrS_streams (k : Bank) (r : BitVec 5) (v : DWord) : (k.wrS r v).streams = k.streams := by unfold Bank.wrS; split <;> rfl
@[simp] theorem Bank.wrS_imem (k : Bank) (r : BitVec 5) (v : DWord) : (k.wrS r v).imem = k.imem := by unfold Bank.wrS; split <;> rfl
@[simp] theorem Bank.wrS_p (k : Bank) (r : BitVec 5) (v : DWord) : (k.wrS r v).p = k.p := by unfold Bank.wrS; split <;> rfl
@[simp] theorem Bank.wrS_v (k : Bank) (r : BitVec 5) (v : DWord) : (k.wrS r v).v = k.v := by unfold Bank.wrS; split <;> rfl
@[simp] theorem Bank.wrS_m (k : Bank) (r : BitVec 5) (v : DWord) : (k.wrS r v).m = k.m := by unfold Bank.wrS; split <;> rfl
@[simp] theorem Bank.wrS_a (k : Bank) (r : BitVec 5) (v : DWord) : (k.wrS r v).a = k.a := by unfold Bank.wrS; split <;> rfl
@[simp] theorem Bank.wrS_k (k : Bank) (r : BitVec 5) (v : DWord) : (k.wrS r v).k = k.k := by unfold Bank.wrS; split <;> rfl
@[simp] theorem Bank.wrS_c (k : Bank) (r : BitVec 5) (v : DWord) : (k.wrS r v).c = k.c := by unfold Bank.wrS; split <;> rfl
@[simp] theorem Bank.wrS_e (k : Bank) (r : BitVec 5) (v : DWord) : (k.wrS r v).e = k.e := by unfold Bank.wrS; split <;> rfl
@[simp] theorem Bank.wrS_csr (k : Bank) (r : BitVec 5) (v : DWord) : (k.wrS r v).csr = k.csr := by unfold Bank.wrS; split <;> rfl
@[simp] theorem Bank.wrS_sdm (k : Bank) (r : BitVec 5) (v : DWord) : (k.wrS r v).sdm = k.sdm := by unfold Bank.wrS; split <;> rfl
@[simp] theorem Bank.wrS_fmt (k : Bank) (r : BitVec 5) (v : DWord) : (k.wrS r v).fmt = k.fmt := by unfold Bank.wrS; split <;> rfl
@[simp] theorem Bank.wrS_tok (k : Bank) (r : BitVec 5) (v : DWord) : (k.wrS r v).tok = k.tok := by unfold Bank.wrS; split <;> rfl
@[simp] theorem Bank.wrS_fifo (k : Bank) (r : BitVec 5) (v : DWord) : (k.wrS r v).fifo = k.fifo := by unfold Bank.wrS; split <;> rfl
@[simp] theorem Bank.wrS_seqr (k : Bank) (r : BitVec 5) (v : DWord) : (k.wrS r v).seqr = k.seqr := by unfold Bank.wrS; split <;> rfl
@[simp] theorem Bank.wrS_nests (k : Bank) (r : BitVec 5) (v : DWord) : (k.wrS r v).nests = k.nests := by unfold Bank.wrS; split <;> rfl
@[simp] theorem Bank.wrS_cmds (k : Bank) (r : BitVec 5) (v : DWord) : (k.wrS r v).cmds = k.cmds := by unfold Bank.wrS; split <;> rfl
@[simp] theorem Bank.wrS_seq (k : Bank) (r : BitVec 5) (v : DWord) : (k.wrS r v).seq = k.seq := by unfold Bank.wrS; split <;> rfl
@[simp] theorem Bank.wrS_backs (k : Bank) (r : BitVec 5) (v : DWord) : (k.wrS r v).backs = k.backs := by unfold Bank.wrS; split <;> rfl
@[simp] theorem Bank.wrS_arr (k : Bank) (r : BitVec 5) (v : DWord) : (k.wrS r v).arr = k.arr := by unfold Bank.wrS; split <;> rfl
@[simp] theorem Bank.wrS_run (k : Bank) (r : BitVec 5) (v : DWord) : (k.wrS r v).run = k.run := by unfold Bank.wrS; split <;> rfl
@[simp] theorem Bank.wrS_view (k : Bank) (r : BitVec 5) (v : DWord) : (k.wrS r v).view = k.view := by unfold Bank.wrS; split <;> rfl
@[simp] theorem Bank.wrS_landings (k : Bank) (r : BitVec 5) (v : DWord) : (k.wrS r v).landings = k.landings := by unfold Bank.wrS; split <;> rfl
@[simp] theorem Bank.wrS_departed (k : Bank) (r : BitVec 5) (v : DWord) : (k.wrS r v).departed = k.departed := by unfold Bank.wrS; split <;> rfl
@[simp] theorem Bank.wrS_missed (k : Bank) (r : BitVec 5) (v : DWord) : (k.wrS r v).missed = k.missed := by unfold Bank.wrS; split <;> rfl
@[simp] theorem Bank.wrS_ttags (k : Bank) (r : BitVec 5) (v : DWord) : (k.wrS r v).ttags = k.ttags := by unfold Bank.wrS; split <;> rfl
@[simp] theorem Bank.wrS_fault (k : Bank) (r : BitVec 5) (v : DWord) : (k.wrS r v).fault = k.fault := by unfold Bank.wrS; split <;> rfl

@[simp] theorem Bank.wrP_job (k : Bank) (r : BitVec 3) (v : Bool) : (k.wrP r v).job = k.job := by unfold Bank.wrP; split <;> rfl
@[simp] theorem Bank.wrP_streams (k : Bank) (r : BitVec 3) (v : Bool) : (k.wrP r v).streams = k.streams := by unfold Bank.wrP; split <;> rfl
@[simp] theorem Bank.wrP_imem (k : Bank) (r : BitVec 3) (v : Bool) : (k.wrP r v).imem = k.imem := by unfold Bank.wrP; split <;> rfl
@[simp] theorem Bank.wrP_s (k : Bank) (r : BitVec 3) (v : Bool) : (k.wrP r v).s = k.s := by unfold Bank.wrP; split <;> rfl
@[simp] theorem Bank.wrP_v (k : Bank) (r : BitVec 3) (v : Bool) : (k.wrP r v).v = k.v := by unfold Bank.wrP; split <;> rfl
@[simp] theorem Bank.wrP_m (k : Bank) (r : BitVec 3) (v : Bool) : (k.wrP r v).m = k.m := by unfold Bank.wrP; split <;> rfl
@[simp] theorem Bank.wrP_a (k : Bank) (r : BitVec 3) (v : Bool) : (k.wrP r v).a = k.a := by unfold Bank.wrP; split <;> rfl
@[simp] theorem Bank.wrP_k (k : Bank) (r : BitVec 3) (v : Bool) : (k.wrP r v).k = k.k := by unfold Bank.wrP; split <;> rfl
@[simp] theorem Bank.wrP_c (k : Bank) (r : BitVec 3) (v : Bool) : (k.wrP r v).c = k.c := by unfold Bank.wrP; split <;> rfl
@[simp] theorem Bank.wrP_e (k : Bank) (r : BitVec 3) (v : Bool) : (k.wrP r v).e = k.e := by unfold Bank.wrP; split <;> rfl
@[simp] theorem Bank.wrP_csr (k : Bank) (r : BitVec 3) (v : Bool) : (k.wrP r v).csr = k.csr := by unfold Bank.wrP; split <;> rfl
@[simp] theorem Bank.wrP_sdm (k : Bank) (r : BitVec 3) (v : Bool) : (k.wrP r v).sdm = k.sdm := by unfold Bank.wrP; split <;> rfl
@[simp] theorem Bank.wrP_fmt (k : Bank) (r : BitVec 3) (v : Bool) : (k.wrP r v).fmt = k.fmt := by unfold Bank.wrP; split <;> rfl
@[simp] theorem Bank.wrP_tok (k : Bank) (r : BitVec 3) (v : Bool) : (k.wrP r v).tok = k.tok := by unfold Bank.wrP; split <;> rfl
@[simp] theorem Bank.wrP_fifo (k : Bank) (r : BitVec 3) (v : Bool) : (k.wrP r v).fifo = k.fifo := by unfold Bank.wrP; split <;> rfl
@[simp] theorem Bank.wrP_seqr (k : Bank) (r : BitVec 3) (v : Bool) : (k.wrP r v).seqr = k.seqr := by unfold Bank.wrP; split <;> rfl
@[simp] theorem Bank.wrP_nests (k : Bank) (r : BitVec 3) (v : Bool) : (k.wrP r v).nests = k.nests := by unfold Bank.wrP; split <;> rfl
@[simp] theorem Bank.wrP_cmds (k : Bank) (r : BitVec 3) (v : Bool) : (k.wrP r v).cmds = k.cmds := by unfold Bank.wrP; split <;> rfl
@[simp] theorem Bank.wrP_seq (k : Bank) (r : BitVec 3) (v : Bool) : (k.wrP r v).seq = k.seq := by unfold Bank.wrP; split <;> rfl
@[simp] theorem Bank.wrP_backs (k : Bank) (r : BitVec 3) (v : Bool) : (k.wrP r v).backs = k.backs := by unfold Bank.wrP; split <;> rfl
@[simp] theorem Bank.wrP_arr (k : Bank) (r : BitVec 3) (v : Bool) : (k.wrP r v).arr = k.arr := by unfold Bank.wrP; split <;> rfl
@[simp] theorem Bank.wrP_run (k : Bank) (r : BitVec 3) (v : Bool) : (k.wrP r v).run = k.run := by unfold Bank.wrP; split <;> rfl
@[simp] theorem Bank.wrP_view (k : Bank) (r : BitVec 3) (v : Bool) : (k.wrP r v).view = k.view := by unfold Bank.wrP; split <;> rfl
@[simp] theorem Bank.wrP_landings (k : Bank) (r : BitVec 3) (v : Bool) : (k.wrP r v).landings = k.landings := by unfold Bank.wrP; split <;> rfl
@[simp] theorem Bank.wrP_departed (k : Bank) (r : BitVec 3) (v : Bool) : (k.wrP r v).departed = k.departed := by unfold Bank.wrP; split <;> rfl
@[simp] theorem Bank.wrP_missed (k : Bank) (r : BitVec 3) (v : Bool) : (k.wrP r v).missed = k.missed := by unfold Bank.wrP; split <;> rfl
@[simp] theorem Bank.wrP_ttags (k : Bank) (r : BitVec 3) (v : Bool) : (k.wrP r v).ttags = k.ttags := by unfold Bank.wrP; split <;> rfl
@[simp] theorem Bank.wrP_fault (k : Bank) (r : BitVec 3) (v : Bool) : (k.wrP r v).fault = k.fault := by unfold Bank.wrP; split <;> rfl

@[simp] theorem Bank.wrV_job (k : Bank) (r : BitVec 5) (v : Row) : (k.wrV r v).job = k.job := rfl
@[simp] theorem Bank.wrV_streams (k : Bank) (r : BitVec 5) (v : Row) : (k.wrV r v).streams = k.streams := rfl
@[simp] theorem Bank.wrV_imem (k : Bank) (r : BitVec 5) (v : Row) : (k.wrV r v).imem = k.imem := rfl
@[simp] theorem Bank.wrV_s (k : Bank) (r : BitVec 5) (v : Row) : (k.wrV r v).s = k.s := rfl
@[simp] theorem Bank.wrV_p (k : Bank) (r : BitVec 5) (v : Row) : (k.wrV r v).p = k.p := rfl
@[simp] theorem Bank.wrV_m (k : Bank) (r : BitVec 5) (v : Row) : (k.wrV r v).m = k.m := rfl
@[simp] theorem Bank.wrV_a (k : Bank) (r : BitVec 5) (v : Row) : (k.wrV r v).a = k.a := rfl
@[simp] theorem Bank.wrV_k (k : Bank) (r : BitVec 5) (v : Row) : (k.wrV r v).k = k.k := rfl
@[simp] theorem Bank.wrV_c (k : Bank) (r : BitVec 5) (v : Row) : (k.wrV r v).c = k.c := rfl
@[simp] theorem Bank.wrV_e (k : Bank) (r : BitVec 5) (v : Row) : (k.wrV r v).e = k.e := rfl
@[simp] theorem Bank.wrV_csr (k : Bank) (r : BitVec 5) (v : Row) : (k.wrV r v).csr = k.csr := rfl
@[simp] theorem Bank.wrV_sdm (k : Bank) (r : BitVec 5) (v : Row) : (k.wrV r v).sdm = k.sdm := rfl
@[simp] theorem Bank.wrV_fmt (k : Bank) (r : BitVec 5) (v : Row) : (k.wrV r v).fmt = k.fmt := rfl
@[simp] theorem Bank.wrV_tok (k : Bank) (r : BitVec 5) (v : Row) : (k.wrV r v).tok = k.tok := rfl
@[simp] theorem Bank.wrV_fifo (k : Bank) (r : BitVec 5) (v : Row) : (k.wrV r v).fifo = k.fifo := rfl
@[simp] theorem Bank.wrV_seqr (k : Bank) (r : BitVec 5) (v : Row) : (k.wrV r v).seqr = k.seqr := rfl
@[simp] theorem Bank.wrV_nests (k : Bank) (r : BitVec 5) (v : Row) : (k.wrV r v).nests = k.nests := rfl
@[simp] theorem Bank.wrV_cmds (k : Bank) (r : BitVec 5) (v : Row) : (k.wrV r v).cmds = k.cmds := rfl
@[simp] theorem Bank.wrV_seq (k : Bank) (r : BitVec 5) (v : Row) : (k.wrV r v).seq = k.seq := rfl
@[simp] theorem Bank.wrV_backs (k : Bank) (r : BitVec 5) (v : Row) : (k.wrV r v).backs = k.backs := rfl
@[simp] theorem Bank.wrV_arr (k : Bank) (r : BitVec 5) (v : Row) : (k.wrV r v).arr = k.arr := rfl
@[simp] theorem Bank.wrV_run (k : Bank) (r : BitVec 5) (v : Row) : (k.wrV r v).run = k.run := rfl
@[simp] theorem Bank.wrV_view (k : Bank) (r : BitVec 5) (v : Row) : (k.wrV r v).view = k.view := rfl
@[simp] theorem Bank.wrV_landings (k : Bank) (r : BitVec 5) (v : Row) : (k.wrV r v).landings = k.landings := rfl
@[simp] theorem Bank.wrV_departed (k : Bank) (r : BitVec 5) (v : Row) : (k.wrV r v).departed = k.departed := rfl
@[simp] theorem Bank.wrV_missed (k : Bank) (r : BitVec 5) (v : Row) : (k.wrV r v).missed = k.missed := rfl
@[simp] theorem Bank.wrV_ttags (k : Bank) (r : BitVec 5) (v : Row) : (k.wrV r v).ttags = k.ttags := rfl
@[simp] theorem Bank.wrV_fault (k : Bank) (r : BitVec 5) (v : Row) : (k.wrV r v).fault = k.fault := rfl

@[simp] theorem Bank.wrM_job (k : Bank) (r : BitVec 3) (v : BitVec 128) : (k.wrM r v).job = k.job := by unfold Bank.wrM; split <;> rfl
@[simp] theorem Bank.wrM_streams (k : Bank) (r : BitVec 3) (v : BitVec 128) : (k.wrM r v).streams = k.streams := by unfold Bank.wrM; split <;> rfl
@[simp] theorem Bank.wrM_imem (k : Bank) (r : BitVec 3) (v : BitVec 128) : (k.wrM r v).imem = k.imem := by unfold Bank.wrM; split <;> rfl
@[simp] theorem Bank.wrM_s (k : Bank) (r : BitVec 3) (v : BitVec 128) : (k.wrM r v).s = k.s := by unfold Bank.wrM; split <;> rfl
@[simp] theorem Bank.wrM_p (k : Bank) (r : BitVec 3) (v : BitVec 128) : (k.wrM r v).p = k.p := by unfold Bank.wrM; split <;> rfl
@[simp] theorem Bank.wrM_v (k : Bank) (r : BitVec 3) (v : BitVec 128) : (k.wrM r v).v = k.v := by unfold Bank.wrM; split <;> rfl
@[simp] theorem Bank.wrM_a (k : Bank) (r : BitVec 3) (v : BitVec 128) : (k.wrM r v).a = k.a := by unfold Bank.wrM; split <;> rfl
@[simp] theorem Bank.wrM_k (k : Bank) (r : BitVec 3) (v : BitVec 128) : (k.wrM r v).k = k.k := by unfold Bank.wrM; split <;> rfl
@[simp] theorem Bank.wrM_c (k : Bank) (r : BitVec 3) (v : BitVec 128) : (k.wrM r v).c = k.c := by unfold Bank.wrM; split <;> rfl
@[simp] theorem Bank.wrM_e (k : Bank) (r : BitVec 3) (v : BitVec 128) : (k.wrM r v).e = k.e := by unfold Bank.wrM; split <;> rfl
@[simp] theorem Bank.wrM_csr (k : Bank) (r : BitVec 3) (v : BitVec 128) : (k.wrM r v).csr = k.csr := by unfold Bank.wrM; split <;> rfl
@[simp] theorem Bank.wrM_sdm (k : Bank) (r : BitVec 3) (v : BitVec 128) : (k.wrM r v).sdm = k.sdm := by unfold Bank.wrM; split <;> rfl
@[simp] theorem Bank.wrM_fmt (k : Bank) (r : BitVec 3) (v : BitVec 128) : (k.wrM r v).fmt = k.fmt := by unfold Bank.wrM; split <;> rfl
@[simp] theorem Bank.wrM_tok (k : Bank) (r : BitVec 3) (v : BitVec 128) : (k.wrM r v).tok = k.tok := by unfold Bank.wrM; split <;> rfl
@[simp] theorem Bank.wrM_fifo (k : Bank) (r : BitVec 3) (v : BitVec 128) : (k.wrM r v).fifo = k.fifo := by unfold Bank.wrM; split <;> rfl
@[simp] theorem Bank.wrM_seqr (k : Bank) (r : BitVec 3) (v : BitVec 128) : (k.wrM r v).seqr = k.seqr := by unfold Bank.wrM; split <;> rfl
@[simp] theorem Bank.wrM_nests (k : Bank) (r : BitVec 3) (v : BitVec 128) : (k.wrM r v).nests = k.nests := by unfold Bank.wrM; split <;> rfl
@[simp] theorem Bank.wrM_cmds (k : Bank) (r : BitVec 3) (v : BitVec 128) : (k.wrM r v).cmds = k.cmds := by unfold Bank.wrM; split <;> rfl
@[simp] theorem Bank.wrM_seq (k : Bank) (r : BitVec 3) (v : BitVec 128) : (k.wrM r v).seq = k.seq := by unfold Bank.wrM; split <;> rfl
@[simp] theorem Bank.wrM_backs (k : Bank) (r : BitVec 3) (v : BitVec 128) : (k.wrM r v).backs = k.backs := by unfold Bank.wrM; split <;> rfl
@[simp] theorem Bank.wrM_arr (k : Bank) (r : BitVec 3) (v : BitVec 128) : (k.wrM r v).arr = k.arr := by unfold Bank.wrM; split <;> rfl
@[simp] theorem Bank.wrM_run (k : Bank) (r : BitVec 3) (v : BitVec 128) : (k.wrM r v).run = k.run := by unfold Bank.wrM; split <;> rfl
@[simp] theorem Bank.wrM_view (k : Bank) (r : BitVec 3) (v : BitVec 128) : (k.wrM r v).view = k.view := by unfold Bank.wrM; split <;> rfl
@[simp] theorem Bank.wrM_landings (k : Bank) (r : BitVec 3) (v : BitVec 128) : (k.wrM r v).landings = k.landings := by unfold Bank.wrM; split <;> rfl
@[simp] theorem Bank.wrM_departed (k : Bank) (r : BitVec 3) (v : BitVec 128) : (k.wrM r v).departed = k.departed := by unfold Bank.wrM; split <;> rfl
@[simp] theorem Bank.wrM_missed (k : Bank) (r : BitVec 3) (v : BitVec 128) : (k.wrM r v).missed = k.missed := by unfold Bank.wrM; split <;> rfl
@[simp] theorem Bank.wrM_ttags (k : Bank) (r : BitVec 3) (v : BitVec 128) : (k.wrM r v).ttags = k.ttags := by unfold Bank.wrM; split <;> rfl
@[simp] theorem Bank.wrM_fault (k : Bank) (r : BitVec 3) (v : BitVec 128) : (k.wrM r v).fault = k.fault := by unfold Bank.wrM; split <;> rfl

@[simp] theorem Bank.wrA_job (k : Bank) (r : BitVec 3) (v : Word) : (k.wrA r v).job = k.job := by unfold Bank.wrA; split <;> rfl
@[simp] theorem Bank.wrA_streams (k : Bank) (r : BitVec 3) (v : Word) : (k.wrA r v).streams = k.streams := by unfold Bank.wrA; split <;> rfl
@[simp] theorem Bank.wrA_imem (k : Bank) (r : BitVec 3) (v : Word) : (k.wrA r v).imem = k.imem := by unfold Bank.wrA; split <;> rfl
@[simp] theorem Bank.wrA_s (k : Bank) (r : BitVec 3) (v : Word) : (k.wrA r v).s = k.s := by unfold Bank.wrA; split <;> rfl
@[simp] theorem Bank.wrA_p (k : Bank) (r : BitVec 3) (v : Word) : (k.wrA r v).p = k.p := by unfold Bank.wrA; split <;> rfl
@[simp] theorem Bank.wrA_v (k : Bank) (r : BitVec 3) (v : Word) : (k.wrA r v).v = k.v := by unfold Bank.wrA; split <;> rfl
@[simp] theorem Bank.wrA_m (k : Bank) (r : BitVec 3) (v : Word) : (k.wrA r v).m = k.m := by unfold Bank.wrA; split <;> rfl
@[simp] theorem Bank.wrA_k (k : Bank) (r : BitVec 3) (v : Word) : (k.wrA r v).k = k.k := by unfold Bank.wrA; split <;> rfl
@[simp] theorem Bank.wrA_c (k : Bank) (r : BitVec 3) (v : Word) : (k.wrA r v).c = k.c := by unfold Bank.wrA; split <;> rfl
@[simp] theorem Bank.wrA_e (k : Bank) (r : BitVec 3) (v : Word) : (k.wrA r v).e = k.e := by unfold Bank.wrA; split <;> rfl
@[simp] theorem Bank.wrA_csr (k : Bank) (r : BitVec 3) (v : Word) : (k.wrA r v).csr = k.csr := by unfold Bank.wrA; split <;> rfl
@[simp] theorem Bank.wrA_sdm (k : Bank) (r : BitVec 3) (v : Word) : (k.wrA r v).sdm = k.sdm := by unfold Bank.wrA; split <;> rfl
@[simp] theorem Bank.wrA_fmt (k : Bank) (r : BitVec 3) (v : Word) : (k.wrA r v).fmt = k.fmt := by unfold Bank.wrA; split <;> rfl
@[simp] theorem Bank.wrA_tok (k : Bank) (r : BitVec 3) (v : Word) : (k.wrA r v).tok = k.tok := by unfold Bank.wrA; split <;> rfl
@[simp] theorem Bank.wrA_fifo (k : Bank) (r : BitVec 3) (v : Word) : (k.wrA r v).fifo = k.fifo := by unfold Bank.wrA; split <;> rfl
@[simp] theorem Bank.wrA_seqr (k : Bank) (r : BitVec 3) (v : Word) : (k.wrA r v).seqr = k.seqr := by unfold Bank.wrA; split <;> rfl
@[simp] theorem Bank.wrA_nests (k : Bank) (r : BitVec 3) (v : Word) : (k.wrA r v).nests = k.nests := by unfold Bank.wrA; split <;> rfl
@[simp] theorem Bank.wrA_cmds (k : Bank) (r : BitVec 3) (v : Word) : (k.wrA r v).cmds = k.cmds := by unfold Bank.wrA; split <;> rfl
@[simp] theorem Bank.wrA_seq (k : Bank) (r : BitVec 3) (v : Word) : (k.wrA r v).seq = k.seq := by unfold Bank.wrA; split <;> rfl
@[simp] theorem Bank.wrA_backs (k : Bank) (r : BitVec 3) (v : Word) : (k.wrA r v).backs = k.backs := by unfold Bank.wrA; split <;> rfl
@[simp] theorem Bank.wrA_arr (k : Bank) (r : BitVec 3) (v : Word) : (k.wrA r v).arr = k.arr := by unfold Bank.wrA; split <;> rfl
@[simp] theorem Bank.wrA_run (k : Bank) (r : BitVec 3) (v : Word) : (k.wrA r v).run = k.run := by unfold Bank.wrA; split <;> rfl
@[simp] theorem Bank.wrA_view (k : Bank) (r : BitVec 3) (v : Word) : (k.wrA r v).view = k.view := by unfold Bank.wrA; split <;> rfl
@[simp] theorem Bank.wrA_landings (k : Bank) (r : BitVec 3) (v : Word) : (k.wrA r v).landings = k.landings := by unfold Bank.wrA; split <;> rfl
@[simp] theorem Bank.wrA_departed (k : Bank) (r : BitVec 3) (v : Word) : (k.wrA r v).departed = k.departed := by unfold Bank.wrA; split <;> rfl
@[simp] theorem Bank.wrA_missed (k : Bank) (r : BitVec 3) (v : Word) : (k.wrA r v).missed = k.missed := by unfold Bank.wrA; split <;> rfl
@[simp] theorem Bank.wrA_ttags (k : Bank) (r : BitVec 3) (v : Word) : (k.wrA r v).ttags = k.ttags := by unfold Bank.wrA; split <;> rfl
@[simp] theorem Bank.wrA_fault (k : Bank) (r : BitVec 3) (v : Word) : (k.wrA r v).fault = k.fault := by unfold Bank.wrA; split <;> rfl

@[simp] theorem Bank.wrC_job (k : Bank) (e : Nat) (r : BitVec 4) (v : Word) : (k.wrC e r v).job = k.job := by unfold Bank.wrC; split <;> rfl
@[simp] theorem Bank.wrC_streams (k : Bank) (e : Nat) (r : BitVec 4) (v : Word) : (k.wrC e r v).streams = k.streams := by unfold Bank.wrC; split <;> rfl
@[simp] theorem Bank.wrC_imem (k : Bank) (e : Nat) (r : BitVec 4) (v : Word) : (k.wrC e r v).imem = k.imem := by unfold Bank.wrC; split <;> rfl
@[simp] theorem Bank.wrC_s (k : Bank) (e : Nat) (r : BitVec 4) (v : Word) : (k.wrC e r v).s = k.s := by unfold Bank.wrC; split <;> rfl
@[simp] theorem Bank.wrC_p (k : Bank) (e : Nat) (r : BitVec 4) (v : Word) : (k.wrC e r v).p = k.p := by unfold Bank.wrC; split <;> rfl
@[simp] theorem Bank.wrC_v (k : Bank) (e : Nat) (r : BitVec 4) (v : Word) : (k.wrC e r v).v = k.v := by unfold Bank.wrC; split <;> rfl
@[simp] theorem Bank.wrC_m (k : Bank) (e : Nat) (r : BitVec 4) (v : Word) : (k.wrC e r v).m = k.m := by unfold Bank.wrC; split <;> rfl
@[simp] theorem Bank.wrC_a (k : Bank) (e : Nat) (r : BitVec 4) (v : Word) : (k.wrC e r v).a = k.a := by unfold Bank.wrC; split <;> rfl
@[simp] theorem Bank.wrC_k (k : Bank) (e : Nat) (r : BitVec 4) (v : Word) : (k.wrC e r v).k = k.k := by unfold Bank.wrC; split <;> rfl
@[simp] theorem Bank.wrC_e (k : Bank) (e : Nat) (r : BitVec 4) (v : Word) : (k.wrC e r v).e = k.e := by unfold Bank.wrC; split <;> rfl
@[simp] theorem Bank.wrC_csr (k : Bank) (e : Nat) (r : BitVec 4) (v : Word) : (k.wrC e r v).csr = k.csr := by unfold Bank.wrC; split <;> rfl
@[simp] theorem Bank.wrC_sdm (k : Bank) (e : Nat) (r : BitVec 4) (v : Word) : (k.wrC e r v).sdm = k.sdm := by unfold Bank.wrC; split <;> rfl
@[simp] theorem Bank.wrC_fmt (k : Bank) (e : Nat) (r : BitVec 4) (v : Word) : (k.wrC e r v).fmt = k.fmt := by unfold Bank.wrC; split <;> rfl
@[simp] theorem Bank.wrC_tok (k : Bank) (e : Nat) (r : BitVec 4) (v : Word) : (k.wrC e r v).tok = k.tok := by unfold Bank.wrC; split <;> rfl
@[simp] theorem Bank.wrC_fifo (k : Bank) (e : Nat) (r : BitVec 4) (v : Word) : (k.wrC e r v).fifo = k.fifo := by unfold Bank.wrC; split <;> rfl
@[simp] theorem Bank.wrC_seqr (k : Bank) (e : Nat) (r : BitVec 4) (v : Word) : (k.wrC e r v).seqr = k.seqr := by unfold Bank.wrC; split <;> rfl
@[simp] theorem Bank.wrC_nests (k : Bank) (e : Nat) (r : BitVec 4) (v : Word) : (k.wrC e r v).nests = k.nests := by unfold Bank.wrC; split <;> rfl
@[simp] theorem Bank.wrC_cmds (k : Bank) (e : Nat) (r : BitVec 4) (v : Word) : (k.wrC e r v).cmds = k.cmds := by unfold Bank.wrC; split <;> rfl
@[simp] theorem Bank.wrC_seq (k : Bank) (e : Nat) (r : BitVec 4) (v : Word) : (k.wrC e r v).seq = k.seq := by unfold Bank.wrC; split <;> rfl
@[simp] theorem Bank.wrC_backs (k : Bank) (e : Nat) (r : BitVec 4) (v : Word) : (k.wrC e r v).backs = k.backs := by unfold Bank.wrC; split <;> rfl
@[simp] theorem Bank.wrC_arr (k : Bank) (e : Nat) (r : BitVec 4) (v : Word) : (k.wrC e r v).arr = k.arr := by unfold Bank.wrC; split <;> rfl
@[simp] theorem Bank.wrC_run (k : Bank) (e : Nat) (r : BitVec 4) (v : Word) : (k.wrC e r v).run = k.run := by unfold Bank.wrC; split <;> rfl
@[simp] theorem Bank.wrC_view (k : Bank) (e : Nat) (r : BitVec 4) (v : Word) : (k.wrC e r v).view = k.view := by unfold Bank.wrC; split <;> rfl
@[simp] theorem Bank.wrC_landings (k : Bank) (e : Nat) (r : BitVec 4) (v : Word) : (k.wrC e r v).landings = k.landings := by unfold Bank.wrC; split <;> rfl
@[simp] theorem Bank.wrC_departed (k : Bank) (e : Nat) (r : BitVec 4) (v : Word) : (k.wrC e r v).departed = k.departed := by unfold Bank.wrC; split <;> rfl
@[simp] theorem Bank.wrC_missed (k : Bank) (e : Nat) (r : BitVec 4) (v : Word) : (k.wrC e r v).missed = k.missed := by unfold Bank.wrC; split <;> rfl
@[simp] theorem Bank.wrC_ttags (k : Bank) (e : Nat) (r : BitVec 4) (v : Word) : (k.wrC e r v).ttags = k.ttags := by unfold Bank.wrC; split <;> rfl
@[simp] theorem Bank.wrC_fault (k : Bank) (e : Nat) (r : BitVec 4) (v : Word) : (k.wrC e r v).fault = k.fault := by unfold Bank.wrC; split <;> rfl

@[simp] theorem Bank.wrE_job (k : Bank) (r : BitVec 3) (v : DWord) : (k.wrE r v).job = k.job := rfl
@[simp] theorem Bank.wrE_streams (k : Bank) (r : BitVec 3) (v : DWord) : (k.wrE r v).streams = k.streams := rfl
@[simp] theorem Bank.wrE_imem (k : Bank) (r : BitVec 3) (v : DWord) : (k.wrE r v).imem = k.imem := rfl
@[simp] theorem Bank.wrE_s (k : Bank) (r : BitVec 3) (v : DWord) : (k.wrE r v).s = k.s := rfl
@[simp] theorem Bank.wrE_p (k : Bank) (r : BitVec 3) (v : DWord) : (k.wrE r v).p = k.p := rfl
@[simp] theorem Bank.wrE_v (k : Bank) (r : BitVec 3) (v : DWord) : (k.wrE r v).v = k.v := rfl
@[simp] theorem Bank.wrE_m (k : Bank) (r : BitVec 3) (v : DWord) : (k.wrE r v).m = k.m := rfl
@[simp] theorem Bank.wrE_a (k : Bank) (r : BitVec 3) (v : DWord) : (k.wrE r v).a = k.a := rfl
@[simp] theorem Bank.wrE_k (k : Bank) (r : BitVec 3) (v : DWord) : (k.wrE r v).k = k.k := rfl
@[simp] theorem Bank.wrE_c (k : Bank) (r : BitVec 3) (v : DWord) : (k.wrE r v).c = k.c := rfl
@[simp] theorem Bank.wrE_csr (k : Bank) (r : BitVec 3) (v : DWord) : (k.wrE r v).csr = k.csr := rfl
@[simp] theorem Bank.wrE_sdm (k : Bank) (r : BitVec 3) (v : DWord) : (k.wrE r v).sdm = k.sdm := rfl
@[simp] theorem Bank.wrE_fmt (k : Bank) (r : BitVec 3) (v : DWord) : (k.wrE r v).fmt = k.fmt := rfl
@[simp] theorem Bank.wrE_tok (k : Bank) (r : BitVec 3) (v : DWord) : (k.wrE r v).tok = k.tok := rfl
@[simp] theorem Bank.wrE_fifo (k : Bank) (r : BitVec 3) (v : DWord) : (k.wrE r v).fifo = k.fifo := rfl
@[simp] theorem Bank.wrE_seqr (k : Bank) (r : BitVec 3) (v : DWord) : (k.wrE r v).seqr = k.seqr := rfl
@[simp] theorem Bank.wrE_nests (k : Bank) (r : BitVec 3) (v : DWord) : (k.wrE r v).nests = k.nests := rfl
@[simp] theorem Bank.wrE_cmds (k : Bank) (r : BitVec 3) (v : DWord) : (k.wrE r v).cmds = k.cmds := rfl
@[simp] theorem Bank.wrE_seq (k : Bank) (r : BitVec 3) (v : DWord) : (k.wrE r v).seq = k.seq := rfl
@[simp] theorem Bank.wrE_backs (k : Bank) (r : BitVec 3) (v : DWord) : (k.wrE r v).backs = k.backs := rfl
@[simp] theorem Bank.wrE_arr (k : Bank) (r : BitVec 3) (v : DWord) : (k.wrE r v).arr = k.arr := rfl
@[simp] theorem Bank.wrE_run (k : Bank) (r : BitVec 3) (v : DWord) : (k.wrE r v).run = k.run := rfl
@[simp] theorem Bank.wrE_view (k : Bank) (r : BitVec 3) (v : DWord) : (k.wrE r v).view = k.view := rfl
@[simp] theorem Bank.wrE_landings (k : Bank) (r : BitVec 3) (v : DWord) : (k.wrE r v).landings = k.landings := rfl
@[simp] theorem Bank.wrE_departed (k : Bank) (r : BitVec 3) (v : DWord) : (k.wrE r v).departed = k.departed := rfl
@[simp] theorem Bank.wrE_missed (k : Bank) (r : BitVec 3) (v : DWord) : (k.wrE r v).missed = k.missed := rfl
@[simp] theorem Bank.wrE_ttags (k : Bank) (r : BitVec 3) (v : DWord) : (k.wrE r v).ttags = k.ttags := rfl
@[simp] theorem Bank.wrE_fault (k : Bank) (r : BitVec 3) (v : DWord) : (k.wrE r v).fault = k.fault := rfl

@[simp] theorem Bank.wrB_job (k : Bank) (e : Nat) (r : BitVec 3) (v : Nat) : (k.wrB e r v).job = k.job := rfl
@[simp] theorem Bank.wrB_imem (k : Bank) (e : Nat) (r : BitVec 3) (v : Nat) : (k.wrB e r v).imem = k.imem := rfl
@[simp] theorem Bank.wrB_s (k : Bank) (e : Nat) (r : BitVec 3) (v : Nat) : (k.wrB e r v).s = k.s := rfl
@[simp] theorem Bank.wrB_p (k : Bank) (e : Nat) (r : BitVec 3) (v : Nat) : (k.wrB e r v).p = k.p := rfl
@[simp] theorem Bank.wrB_v (k : Bank) (e : Nat) (r : BitVec 3) (v : Nat) : (k.wrB e r v).v = k.v := rfl
@[simp] theorem Bank.wrB_m (k : Bank) (e : Nat) (r : BitVec 3) (v : Nat) : (k.wrB e r v).m = k.m := rfl
@[simp] theorem Bank.wrB_a (k : Bank) (e : Nat) (r : BitVec 3) (v : Nat) : (k.wrB e r v).a = k.a := rfl
@[simp] theorem Bank.wrB_k (k : Bank) (e : Nat) (r : BitVec 3) (v : Nat) : (k.wrB e r v).k = k.k := rfl
@[simp] theorem Bank.wrB_c (k : Bank) (e : Nat) (r : BitVec 3) (v : Nat) : (k.wrB e r v).c = k.c := rfl
@[simp] theorem Bank.wrB_e (k : Bank) (e : Nat) (r : BitVec 3) (v : Nat) : (k.wrB e r v).e = k.e := rfl
@[simp] theorem Bank.wrB_csr (k : Bank) (e : Nat) (r : BitVec 3) (v : Nat) : (k.wrB e r v).csr = k.csr := rfl
@[simp] theorem Bank.wrB_sdm (k : Bank) (e : Nat) (r : BitVec 3) (v : Nat) : (k.wrB e r v).sdm = k.sdm := rfl
@[simp] theorem Bank.wrB_fmt (k : Bank) (e : Nat) (r : BitVec 3) (v : Nat) : (k.wrB e r v).fmt = k.fmt := rfl
@[simp] theorem Bank.wrB_tok (k : Bank) (e : Nat) (r : BitVec 3) (v : Nat) : (k.wrB e r v).tok = k.tok := rfl
@[simp] theorem Bank.wrB_fifo (k : Bank) (e : Nat) (r : BitVec 3) (v : Nat) : (k.wrB e r v).fifo = k.fifo := rfl
@[simp] theorem Bank.wrB_seqr (k : Bank) (e : Nat) (r : BitVec 3) (v : Nat) : (k.wrB e r v).seqr = k.seqr := rfl
@[simp] theorem Bank.wrB_nests (k : Bank) (e : Nat) (r : BitVec 3) (v : Nat) : (k.wrB e r v).nests = k.nests := rfl
@[simp] theorem Bank.wrB_cmds (k : Bank) (e : Nat) (r : BitVec 3) (v : Nat) : (k.wrB e r v).cmds = k.cmds := rfl
@[simp] theorem Bank.wrB_seq (k : Bank) (e : Nat) (r : BitVec 3) (v : Nat) : (k.wrB e r v).seq = k.seq := rfl
@[simp] theorem Bank.wrB_backs (k : Bank) (e : Nat) (r : BitVec 3) (v : Nat) : (k.wrB e r v).backs = k.backs := rfl
@[simp] theorem Bank.wrB_arr (k : Bank) (e : Nat) (r : BitVec 3) (v : Nat) : (k.wrB e r v).arr = k.arr := rfl
@[simp] theorem Bank.wrB_run (k : Bank) (e : Nat) (r : BitVec 3) (v : Nat) : (k.wrB e r v).run = k.run := rfl
@[simp] theorem Bank.wrB_view (k : Bank) (e : Nat) (r : BitVec 3) (v : Nat) : (k.wrB e r v).view = k.view := rfl
@[simp] theorem Bank.wrB_landings (k : Bank) (e : Nat) (r : BitVec 3) (v : Nat) : (k.wrB e r v).landings = k.landings := rfl
@[simp] theorem Bank.wrB_departed (k : Bank) (e : Nat) (r : BitVec 3) (v : Nat) : (k.wrB e r v).departed = k.departed := rfl
@[simp] theorem Bank.wrB_missed (k : Bank) (e : Nat) (r : BitVec 3) (v : Nat) : (k.wrB e r v).missed = k.missed := rfl
@[simp] theorem Bank.wrB_ttags (k : Bank) (e : Nat) (r : BitVec 3) (v : Nat) : (k.wrB e r v).ttags = k.ttags := rfl
@[simp] theorem Bank.wrB_fault (k : Bank) (e : Nat) (r : BitVec 3) (v : Nat) : (k.wrB e r v).fault = k.fault := rfl

@[simp] theorem Bank.sdmWrite_job (k : Bank) (a : Nat) (bs : List Byte) : (k.sdmWrite a bs).job = k.job := rfl
@[simp] theorem Bank.sdmWrite_streams (k : Bank) (a : Nat) (bs : List Byte) : (k.sdmWrite a bs).streams = k.streams := rfl
@[simp] theorem Bank.sdmWrite_imem (k : Bank) (a : Nat) (bs : List Byte) : (k.sdmWrite a bs).imem = k.imem := rfl
@[simp] theorem Bank.sdmWrite_s (k : Bank) (a : Nat) (bs : List Byte) : (k.sdmWrite a bs).s = k.s := rfl
@[simp] theorem Bank.sdmWrite_p (k : Bank) (a : Nat) (bs : List Byte) : (k.sdmWrite a bs).p = k.p := rfl
@[simp] theorem Bank.sdmWrite_v (k : Bank) (a : Nat) (bs : List Byte) : (k.sdmWrite a bs).v = k.v := rfl
@[simp] theorem Bank.sdmWrite_m (k : Bank) (a : Nat) (bs : List Byte) : (k.sdmWrite a bs).m = k.m := rfl
@[simp] theorem Bank.sdmWrite_a (k : Bank) (a : Nat) (bs : List Byte) : (k.sdmWrite a bs).a = k.a := rfl
@[simp] theorem Bank.sdmWrite_k (k : Bank) (a : Nat) (bs : List Byte) : (k.sdmWrite a bs).k = k.k := rfl
@[simp] theorem Bank.sdmWrite_c (k : Bank) (a : Nat) (bs : List Byte) : (k.sdmWrite a bs).c = k.c := rfl
@[simp] theorem Bank.sdmWrite_e (k : Bank) (a : Nat) (bs : List Byte) : (k.sdmWrite a bs).e = k.e := rfl
@[simp] theorem Bank.sdmWrite_csr (k : Bank) (a : Nat) (bs : List Byte) : (k.sdmWrite a bs).csr = k.csr := rfl
@[simp] theorem Bank.sdmWrite_fmt (k : Bank) (a : Nat) (bs : List Byte) : (k.sdmWrite a bs).fmt = k.fmt := rfl
@[simp] theorem Bank.sdmWrite_tok (k : Bank) (a : Nat) (bs : List Byte) : (k.sdmWrite a bs).tok = k.tok := rfl
@[simp] theorem Bank.sdmWrite_fifo (k : Bank) (a : Nat) (bs : List Byte) : (k.sdmWrite a bs).fifo = k.fifo := rfl
@[simp] theorem Bank.sdmWrite_seqr (k : Bank) (a : Nat) (bs : List Byte) : (k.sdmWrite a bs).seqr = k.seqr := rfl
@[simp] theorem Bank.sdmWrite_nests (k : Bank) (a : Nat) (bs : List Byte) : (k.sdmWrite a bs).nests = k.nests := rfl
@[simp] theorem Bank.sdmWrite_cmds (k : Bank) (a : Nat) (bs : List Byte) : (k.sdmWrite a bs).cmds = k.cmds := rfl
@[simp] theorem Bank.sdmWrite_seq (k : Bank) (a : Nat) (bs : List Byte) : (k.sdmWrite a bs).seq = k.seq := rfl
@[simp] theorem Bank.sdmWrite_backs (k : Bank) (a : Nat) (bs : List Byte) : (k.sdmWrite a bs).backs = k.backs := rfl
@[simp] theorem Bank.sdmWrite_arr (k : Bank) (a : Nat) (bs : List Byte) : (k.sdmWrite a bs).arr = k.arr := rfl
@[simp] theorem Bank.sdmWrite_run (k : Bank) (a : Nat) (bs : List Byte) : (k.sdmWrite a bs).run = k.run := rfl
@[simp] theorem Bank.sdmWrite_view (k : Bank) (a : Nat) (bs : List Byte) : (k.sdmWrite a bs).view = k.view := rfl
@[simp] theorem Bank.sdmWrite_landings (k : Bank) (a : Nat) (bs : List Byte) : (k.sdmWrite a bs).landings = k.landings := rfl
@[simp] theorem Bank.sdmWrite_departed (k : Bank) (a : Nat) (bs : List Byte) : (k.sdmWrite a bs).departed = k.departed := rfl
@[simp] theorem Bank.sdmWrite_missed (k : Bank) (a : Nat) (bs : List Byte) : (k.sdmWrite a bs).missed = k.missed := rfl
@[simp] theorem Bank.sdmWrite_ttags (k : Bank) (a : Nat) (bs : List Byte) : (k.sdmWrite a bs).ttags = k.ttags := rfl
@[simp] theorem Bank.sdmWrite_fault (k : Bank) (a : Nat) (bs : List Byte) : (k.sdmWrite a bs).fault = k.fault := rfl

end Sys2Proof.Machine
end

