-- ==== Sys2Proof/Laws/Ops.lean ====
section
/-!
SUPPORT. What the shared operations of units, banks, streams and registers do: the reads after the writes.
-/

namespace Sys2Proof.Machine

/-! ### Units and banks -/

@[simp] theorem core_setCore_self (s : State) (u : Nat) (c : Core) : (s.setCore u c).core u = c := get_set_self _ _ _ _

theorem core_setCore_other (s : State) {u v : Nat} (c : Core) (h : v ≠ u) : (s.setCore u c).core v = s.core v := get_set_other _ _ _ h

@[simp] theorem Core.bank_setBank_self (c : Core) (b : Nat) (k : Bank) : (c.setBank b k).bank b = k := by
  unfold Core.bank Core.setBank; split <;> simp_all

theorem Core.bank_setBank_other (c : Core) {b d : Nat} (k : Bank) (h : ¬ (b = 0 ↔ d = 0)) : (c.setBank b k).bank d = c.bank d := by
  unfold Core.bank Core.setBank; split <;> split <;> simp_all

@[simp] theorem bank_setBank_self (s : State) (u b : Nat) (k : Bank) : (s.setBank u b k).bank u b = k := by
  simp [State.bank, State.setBank]

@[simp] theorem bank_onBank_self (s : State) (u b : Nat) (f : Bank → Bank) : (s.onBank u b f).bank u b = f (s.bank u b) := by
  simp [State.onBank]

theorem core_setBank_other (s : State) {u v : Nat} (b : Nat) (k : Bank) (h : v ≠ u) : (s.setBank u b k).core v = s.core v :=
  core_setCore_other s _ h

theorem core_onBank_other (s : State) {u v : Nat} (b : Nat) (f : Bank → Bank) (h : v ≠ u) : (s.onBank u b f).core v = s.core v :=
  core_setCore_other s _ h

theorem core_onBank_self (s : State) (u b : Nat) (f : Bank → Bank) : (s.onBank u b f).core u = (s.core u).setBank b (f (s.bank u b)) :=
  core_setCore_self s u _

theorem core_onMe_other (s : State) {v : Nat} (f : Bank → Bank) (h : v ≠ s.cur) : (s.onMe f).core v = s.core v :=
  core_onBank_other s _ f h

theorem core_onMe_self (s : State) (f : Bank → Bank) : (s.onMe f).core s.cur = (s.core s.cur).setBank s.curB (f s.me) :=
  core_onBank_self s _ _ f

@[simp] theorem curB_onMe (s : State) (f : Bank → Bank) : (s.onMe f).curB = s.curB := by
  unfold State.curB; rw [State.onMe_cur, core_onMe_self]; simp

/-- The executing bank after a change of it. -/
@[simp] theorem me_onMe (s : State) (f : Bank → Bank) : (s.onMe f).me = f s.me := by
  unfold State.me State.bank; rw [curB_onMe, State.onMe_cur, core_onMe_self]; simp [State.me, State.bank]

/-! ### Streams -/

@[simp] theorem stream_setStream_self (k : Bank) (e : Nat) (t : Stream) : (k.setStream e t).stream e = t := get_set_self _ _ _ _

theorem stream_setStream_other (k : Bank) {e f : Nat} (t : Stream) (h : f ≠ e) : (k.setStream e t).stream f = k.stream f :=
  get_set_other _ _ _ h

@[simp] theorem stream_onStream_self (k : Bank) (e : Nat) (f : Stream → Stream) : (k.onStream e f).stream e = f (k.stream e) :=
  stream_setStream_self k e _

theorem stream_onStream_other (k : Bank) {e g : Nat} (f : Stream → Stream) (h : g ≠ e) : (k.onStream e f).stream g = k.stream g :=
  stream_setStream_other k _ h

@[simp] theorem stream_advance_self (k : Bank) (e : Nat) (x : Option (BitVec 13)) : (k.advance e x).stream e = k.advanced e x :=
  stream_setStream_self k e _

theorem stream_advance_other (k : Bank) {e f : Nat} (x : Option (BitVec 13)) (h : f ≠ e) : (k.advance e x).stream f = k.stream f :=
  stream_setStream_other k _ h

/-- The issue of an entry depends on the streams and the instruction memories only. -/
theorem advanced_congr {k k' : Bank} (e : Nat) (x : Option (BitVec 13)) (hs : k'.stream e = k.stream e) (hi : k'.imem = k.imem) :
    k'.advanced e x = k.advanced e x := by
  unfold Bank.advanced Bank.refill Bank.fill Bank.succ Bank.tagged Bank.word
  rw [hs, hi]

/-- The issue of an entry changes neither the branch targets nor the epoch nor what the stream knows. -/
theorem advanced_kept (k : Bank) (e : Nat) (x : Option (BitVec 13)) :
    (k.advanced e x).b = (k.stream e).b ∧ (k.advanced e x).epoch = (k.stream e).epoch ∧ (k.advanced e x).know = (k.stream e).know
      ∧ (k.advanced e x).phase = (k.stream e).phase := by
  have hl : ∀ (t : Stream) (l : Nat) (p : Loop), (t.setLp l p).b = t.b ∧ (t.setLp l p).epoch = t.epoch ∧ (t.setLp l p).know = t.know
      ∧ (t.setLp l p).phase = t.phase := by
    intro t l p; unfold Stream.setLp; split <;> simp
  have hn : ∀ t : Stream, t.noLevel.b = t.b ∧ t.noLevel.epoch = t.epoch ∧ t.noLevel.know = t.know ∧ t.noLevel.phase = t.phase := by
    intro t; unfold Stream.noLevel; split <;> simp
  have hle : ∀ (t : Stream) (y : BitVec 13), (t.loopEnd y).b = t.b ∧ (t.loopEnd y).epoch = t.epoch ∧ (t.loopEnd y).know = t.know
      ∧ (t.loopEnd y).phase = t.phase := by
    intro t y
    unfold Stream.loopEnd
    simp only [hn]
    split <;> split <;> simp [hl]
  unfold Bank.advanced
  simp only
  split <;> simp [Bank.refill, hle]

/-! ### Registers -/

theorem rdS_wrS (k : Bank) (d r : BitVec 5) (v : DWord) :
    (k.wrS d v).rdS r = if r = d ∧ d ≠ 0 ∧ d ≠ 30 ∧ d ≠ 31 then v else k.rdS r := by
  have hi : (k.wrS d v).i0 0 = k.i0 0 ∧ (k.wrS d v).i1 0 = k.i1 0 := by
    unfold Bank.i0 Bank.i1 Bank.stream; simp
  unfold Bank.rdS
  rw [hi.1, hi.2]
  by_cases h0 : r = 0
  · subst h0; simp; intro h; simp [← h]
  by_cases h1 : r = 30
  · subst h1; simp; intro h; simp [← h]
  by_cases h2 : r = 31
  · subst h2; simp; intro h; simp [← h]
  simp only [h0, h1, h2, if_false]
  unfold Bank.wrS
  split
  · rename_i h
    rw [if_neg]
    rintro ⟨_, a0, a1, a2⟩
    exact h.elim a0 (fun x => x.elim a1 a2)
  · rename_i h
    by_cases hd : r = d
    · subst hd; rw [if_pos ⟨rfl, h0, h1, h2⟩, get_set_self]
    · have : r.toNat ≠ d.toNat := fun e => hd (BitVec.eq_of_toNat_eq e)
      rw [if_neg (fun x => hd (by simpa using x.1)), get_set_other _ _ _ this]

theorem rdS_advance (k : Bank) (x : Option (BitVec 13)) (e : Nat) (r : BitVec 5) (h : r ≠ 30) (h' : r ≠ 31) :
    (k.advance e x).rdS r = k.rdS r := by
  unfold Bank.rdS; simp only [if_neg h, if_neg h', Bank.advance_s]

theorem rdP_wrP (k : Bank) (d r : BitVec 3) (v : Bool) : (k.wrP d v).rdP r = if r = d ∧ d ≠ 0 then v else k.rdP r := by
  unfold Bank.rdP
  by_cases h0 : r = 0
  · subst h0; rw [if_pos rfl, if_pos rfl, if_neg (fun x => x.2 x.1.symm)]
  rw [if_neg h0, if_neg h0]
  unfold Bank.wrP
  split
  · rw [if_neg (fun x => x.2 ‹_›)]
  · by_cases hd : r = d
    · subst hd; rw [if_pos ⟨rfl, h0⟩, get_set_self]
    · have : r.toNat ≠ d.toNat := fun e => hd (BitVec.eq_of_toNat_eq e)
      rw [if_neg (fun x => hd (by simpa using x.1)), get_set_other _ _ _ this]

@[simp] theorem rdP_advance (k : Bank) (e : Nat) (x : Option (BitVec 13)) (r : BitVec 3) : (k.advance e x).rdP r = k.rdP r := rfl

theorem rdV_wrV (k : Bank) (d r : BitVec 5) (v : Row) : (k.wrV d v).rdV r = if r = d then v else k.rdV r := by
  unfold Bank.rdV Bank.wrV
  by_cases hd : r = d
  · subst hd; simp
  · have : r.toNat ≠ d.toNat := fun e => hd (BitVec.eq_of_toNat_eq e)
    rw [if_neg hd, get_set_other _ _ _ this]

@[simp] theorem rdV_advance (k : Bank) (e : Nat) (x : Option (BitVec 13)) (r : BitVec 5) : (k.advance e x).rdV r = k.rdV r := rfl

theorem rdM_wrM (k : Bank) (d r : BitVec 3) (v : BitVec 128) : (k.wrM d v).rdM r = if r = d ∧ d ≠ 0 then v else k.rdM r := by
  unfold Bank.rdM
  by_cases h0 : r = 0
  · subst h0; rw [if_pos rfl, if_pos rfl, if_neg (fun x => x.2 x.1.symm)]
  rw [if_neg h0, if_neg h0]
  unfold Bank.wrM
  split
  · rw [if_neg (fun x => x.2 ‹_›)]
  · by_cases hd : r = d
    · subst hd; rw [if_pos ⟨rfl, h0⟩, get_set_self]
    · have : r.toNat ≠ d.toNat := fun e => hd (BitVec.eq_of_toNat_eq e)
      rw [if_neg (fun x => hd (by simpa using x.1)), get_set_other _ _ _ this]

@[simp] theorem rdM_advance (k : Bank) (e : Nat) (x : Option (BitVec 13)) (r : BitVec 3) : (k.advance e x).rdM r = k.rdM r := rfl

theorem rdA_wrA (k : Bank) (d r : BitVec 3) (v : Word) :
    (k.wrA d v).rdA r = if r = d ∧ d ≠ 6 ∧ d ≠ 7 then v else k.rdA r := by
  have hi : (k.wrA d v).i0 1 = k.i0 1 ∧ (k.wrA d v).i1 1 = k.i1 1 := by
    unfold Bank.i0 Bank.i1 Bank.stream; simp
  unfold Bank.rdA
  rw [hi.1, hi.2]
  by_cases h1 : r = 6
  · subst h1; simp; intro h; simp [← h]
  by_cases h2 : r = 7
  · subst h2; simp; intro h; simp [← h]
  simp only [h1, h2, if_false]
  unfold Bank.wrA
  split
  · rename_i h
    rw [if_neg]
    rintro ⟨_, a1, a2⟩
    exact h.elim a1 a2
  · by_cases hd : r = d
    · subst hd; rw [if_pos ⟨rfl, h1, h2⟩, get_set_self]
    · have : r.toNat ≠ d.toNat := fun e => hd (BitVec.eq_of_toNat_eq e)
      rw [if_neg (fun x => hd (by simpa using x.1)), get_set_other _ _ _ this]

theorem rdA_advance (k : Bank) (x : Option (BitVec 13)) (e : Nat) (r : BitVec 3) (h : r ≠ 6) (h' : r ≠ 7) :
    (k.advance e x).rdA r = k.rdA r := by
  unfold Bank.rdA; simp only [if_neg h, if_neg h', Bank.advance_a]

theorem rdC_wrC (k : Bank) (e : Nat) (d r : BitVec 4) (v : Word) :
    (k.wrC e d v).rdC e r = if r = d ∧ d ≠ 0 ∧ d ≠ 14 ∧ d ≠ 15 then v else k.rdC e r := by
  have hi : (k.wrC e d v).i0 e = k.i0 e ∧ (k.wrC e d v).i1 e = k.i1 e := by
    unfold Bank.i0 Bank.i1 Bank.stream; simp
  unfold Bank.rdC
  rw [hi.1, hi.2]
  by_cases h0 : r = 0
  · subst h0; simp; intro h; simp [← h]
  by_cases h1 : r = 14
  · subst h1; simp; intro h; simp [← h]
  by_cases h2 : r = 15
  · subst h2; simp; intro h; simp [← h]
  simp only [h0, h1, h2, if_false]
  unfold Bank.wrC
  split
  · rename_i h
    rw [if_neg]
    rintro ⟨_, a0, a1, a2⟩
    exact h.elim a0 (fun x => x.elim a1 a2)
  · by_cases hd : r = d
    · subst hd; rw [if_pos ⟨rfl, h0, h1, h2⟩, get_set_self]
    · have : 16 * e + r.toNat ≠ 16 * e + d.toNat := fun x => hd (BitVec.eq_of_toNat_eq (by omega))
      rw [if_neg (fun x => hd (by simpa using x.1)), get_set_other _ _ _ this]

/-- A write of a copy register leaves the other engine's registers as they are. -/
theorem rdC_wrC_other (k : Bank) {e f : Nat} (d r : BitVec 4) (v : Word) (h : f ≠ e) : (k.wrC e d v).rdC f r = k.rdC f r := by
  have hi : (k.wrC e d v).i0 f = k.i0 f ∧ (k.wrC e d v).i1 f = k.i1 f := by
    unfold Bank.i0 Bank.i1 Bank.stream; simp
  unfold Bank.rdC
  rw [hi.1, hi.2]
  have hc : get 0 (k.wrC e d v).c (16 * f + r.toNat) = get 0 k.c (16 * f + r.toNat) := by
    unfold Bank.wrC
    split
    · rfl
    · exact get_set_other _ _ _ (by omega)
  rw [hc]

theorem rdC_advance (k : Bank) (x : Option (BitVec 13)) (e f : Nat) (r : BitVec 4) (h : r ≠ 14) (h' : r ≠ 15) :
    (k.advance e x).rdC f r = k.rdC f r := by
  unfold Bank.rdC; simp only [if_neg h, if_neg h', Bank.advance_c]

theorem rdE_wrE (k : Bank) (d r : BitVec 3) (v : DWord) : (k.wrE d v).rdE r = if r = d then v else k.rdE r := by
  unfold Bank.rdE Bank.wrE
  by_cases hd : r = d
  · subst hd; simp
  · have : r.toNat ≠ d.toNat := fun e => hd (BitVec.eq_of_toNat_eq e)
    rw [if_neg hd, get_set_other _ _ _ this]

@[simp] theorem rdE_advance (k : Bank) (e : Nat) (x : Option (BitVec 13)) (r : BitVec 3) : (k.advance e x).rdE r = k.rdE r := rfl

@[simp] theorem rdK_advance (k : Bank) (e : Nat) (x : Option (BitVec 13)) (r : BitVec 8) : (k.advance e x).rdK r = k.rdK r := rfl

/-! ### Commands -/

@[simp] theorem queue_setQueue_self (k : Bank) (e : Nat) (q : List Cmd) : (k.setQueue e q).queue e = q := get_set_self _ _ _ _

theorem queue_setQueue_other (k : Bank) {e f : Nat} (q : List Cmd) (h : f ≠ e) : (k.setQueue e q).queue f = k.queue f :=
  get_set_other _ _ _ h

/-- A command that has been issued stands behind the earlier ones of its engine. -/
theorem queue_issueCmd_self (k : Bank) (e : Nat) (x : CmdOp) :
    (k.issueCmd e x).queue e = k.queue e ++ [{ seq := k.seq, pc := (k.stream e).q0.addr, epoch := (k.stream e).epoch, op := x }] :=
  get_set_self _ _ _ _

theorem queue_issueCmd_other (k : Bank) {e f : Nat} (x : CmdOp) (h : f ≠ e) : (k.issueCmd e x).queue f = k.queue f :=
  get_set_other _ _ _ h

@[simp] theorem seq_issueCmd (k : Bank) (e : Nat) (x : CmdOp) : (k.issueCmd e x).seq = k.seq + 1 := rfl

@[simp] theorem tokF_setTok_self (k : Bank) (f : Nat) (x : TokFifo) : (k.setTok f x).tokF f = x := get_set_self _ _ _ _

theorem tokF_setTok_other (k : Bank) {f g : Nat} (x : TokFifo) (h : g ≠ f) : (k.setTok f x).tokF g = k.tokF g := get_set_other _ _ _ h

@[simp] theorem dfifo_setFifo_self (k : Bank) (f : Nat) (x : DFifo) : (k.setFifo f x).dfifo f = x := get_set_self _ _ _ _

theorem dfifo_setFifo_other (k : Bank) {f g : Nat} (x : DFifo) (h : g ≠ f) : (k.setFifo f x).dfifo g = k.dfifo g := get_set_other _ _ _ h

end Sys2Proof.Machine
end

