-- ==== Sys2Proof/Laws/Frame.lean ====
section
/-!
SUPPORT. The frames: what a change of the executing bank, an issue and a fault leave as they were.
-/

namespace Sys2Proof.Machine

open Sys2Proof.Safety

/-- A change of the executing bank changes nothing else. -/
theorem onlyBank_onMe (s : State) (f : Bank → Bank) : OnlyBank s (s.onMe f) where
  rest := rfl
  others u h := core_onMe_other s f h
  own := by rw [core_onMe_self, me_onMe]
  mem _ := rfl

/-- An instruction that changes its bank by `f` and issues: the outcome, with the stream standing as `f` leaves it. -/
theorem issued_advance {k k' : Bank} (e : Nat) (hs : ∀ f, k'.stream f = k.stream f) (hi : k'.imem = k.imem) : Issued e k (k'.advance e) where
  own := by rw [stream_advance_self]; exact advanced_congr e none (hs e) hi
  others f h := by rw [stream_advance_other _ _ h]; exact hs f

@[simp] theorem stream_wrS (k : Bank) (r : BitVec 5) (v : DWord) (f : Nat) : (k.wrS r v).stream f = k.stream f := by simp [Bank.stream]
@[simp] theorem stream_wrP (k : Bank) (r : BitVec 3) (v : Bool) (f : Nat) : (k.wrP r v).stream f = k.stream f := by simp [Bank.stream]
@[simp] theorem stream_wrV (k : Bank) (r : BitVec 5) (v : Row) (f : Nat) : (k.wrV r v).stream f = k.stream f := rfl
@[simp] theorem stream_wrM (k : Bank) (r : BitVec 3) (v : BitVec 128) (f : Nat) : (k.wrM r v).stream f = k.stream f := by simp [Bank.stream]
@[simp] theorem stream_wrA (k : Bank) (r : BitVec 3) (v : Word) (f : Nat) : (k.wrA r v).stream f = k.stream f := by simp [Bank.stream]
@[simp] theorem stream_wrC (k : Bank) (e : Nat) (r : BitVec 4) (v : Word) (f : Nat) : (k.wrC e r v).stream f = k.stream f := by simp [Bank.stream]
@[simp] theorem stream_wrE (k : Bank) (r : BitVec 3) (v : DWord) (f : Nat) : (k.wrE r v).stream f = k.stream f := rfl
@[simp] theorem stream_sdmWrite (k : Bank) (a : Nat) (bs : List Byte) (f : Nat) : (k.sdmWrite a bs).stream f = k.stream f := rfl
@[simp] theorem stream_setQueue (k : Bank) (e : Nat) (q : List Cmd) (f : Nat) : (k.setQueue e q).stream f = k.stream f := rfl
@[simp] theorem stream_issueCmd (k : Bank) (e : Nat) (x : CmdOp) (f : Nat) : (k.issueCmd e x).stream f = k.stream f := rfl
@[simp] theorem stream_setTok (k : Bank) (x : Nat) (v : TokFifo) (f : Nat) : (k.setTok x v).stream f = k.stream f := rfl
@[simp] theorem stream_setFifo (k : Bank) (x : Nat) (v : DFifo) (f : Nat) : (k.setFifo x v).stream f = k.stream f := rfl
@[simp] theorem stream_append (k : Bank) (x : Nat) (v : FRow) (f : Nat) : (k.append x v).stream f = k.stream f := rfl

/-- What a write of a control register and an issue leave of the bank. -/
theorem kept_wrS (k : Bank) (e : Nat) (r : BitVec 5) (v : DWord) : { (k.wrS r v).advance e with s := k.s, streams := k.streams } = k := by
  unfold Bank.wrS; split <;> rfl

theorem kept_wrP (k : Bank) (e : Nat) (r : BitVec 3) (v : Bool) : { (k.wrP r v).advance e with p := k.p, streams := k.streams } = k := by
  unfold Bank.wrP; split <;> rfl

theorem kept_wrM (k : Bank) (e : Nat) (r : BitVec 3) (v : BitVec 128) : { (k.wrM r v).advance e with m := k.m, streams := k.streams } = k := by
  unfold Bank.wrM; split <;> rfl

theorem kept_wrA (k : Bank) (e : Nat) (r : BitVec 3) (v : Word) : { (k.wrA r v).advance e with a := k.a, streams := k.streams } = k := by
  unfold Bank.wrA; split <;> rfl

theorem kept_wrC (k : Bank) (e f : Nat) (r : BitVec 4) (v : Word) : { (k.wrC e r v).advance f with c := k.c, streams := k.streams } = k := by
  unfold Bank.wrC; split <;> rfl

theorem yieldBank_units (s : State) (u b : Nat) : ∃ us, s.yieldBank u b = { s with units := us } := by
  unfold State.yieldBank; simp only; split
  · exact ⟨_, rfl⟩
  · exact ⟨s.units, rfl⟩

/-- A fault changes nothing but the units. -/
theorem stopJob_units (s : State) (u b : Nat) (f : FaultInfo) : ∃ us, s.stopJob u b f = { s with units := us } := by
  unfold State.stopJob
  obtain ⟨us, h⟩ := yieldBank_units (s.onBank u b (Bank.stopped { f with cyc := s.cycleOf u })) u b
  exact ⟨us, h⟩

theorem core_yieldBank_other (s : State) {u v : Nat} (b : Nat) (h : v ≠ u) : (s.yieldBank u b).core v = s.core v := by
  unfold State.yieldBank; simp only; split
  · exact core_setCore_other s _ h
  · rfl

/-- A unit that yields changes its executing bank at most. -/
theorem core_yieldBank_self (s : State) (u b : Nat) : ∃ n, (s.yieldBank u b).core u = { s.core u with kbank := n } := by
  unfold State.yieldBank; simp only; split
  · exact ⟨_, core_setCore_self s u _⟩
  · exact ⟨(s.core u).kbank, rfl⟩

@[simp] theorem bank_yieldBank (s : State) (u b v d : Nat) : (s.yieldBank u b).bank v d = s.bank v d := by
  unfold State.bank
  by_cases h : v = u
  · subst h
    obtain ⟨n, hn⟩ := core_yieldBank_self s v b
    rw [hn]; rfl
  · rw [core_yieldBank_other s b h]

/-- A precise fault at issue stops the job and changes nothing else. -/
theorem stoppedBy_fault (s : State) (e code : Nat) (da db : DWord) (dc : Word) (h : s.me.fault = none) :
    ∃ t, s.fault e code da db dc = .next t ∧ StoppedBy s t s.cur s.curB e code da db dc := by
  refine ⟨_, rfl, ?_⟩
  have hb : (s.bank s.cur s.curB).fault = none := h
  generalize hf : ({ code := code, eng := e, precise := true, da := da, db := db, dc := dc } : FaultInfo) = f
  have hbank : (s.stopJob s.cur s.curB f).bank s.cur s.curB = Bank.stopped { f with cyc := s.cycleOf s.cur } (s.bank s.cur s.curB) := by
    unfold State.stopJob; rw [bank_yieldBank, bank_onBank_self]
  constructor
  · refine ⟨s.cycleOf s.cur, ?_⟩
    rw [hbank]; subst hf; simp [Bank.stopped, hb]
  · intro j hj
    rw [hbank] at hj
    simp only [Bank.stopped, hb] at hj
    cases hk : (s.bank s.cur s.curB).job <;> simp [hk] at hj
    subst hj; rfl
  · rw [hbank]; simp only [Bank.stopped, hb]; rw [← hb]
  · obtain ⟨us, h⟩ := stopJob_units s s.cur s.curB f
    rw [h]
  · intro v hv
    unfold State.stopJob
    rw [core_yieldBank_other _ _ hv, core_onBank_other _ _ _ hv]
  · unfold State.stopJob
    obtain ⟨n, hn⟩ := core_yieldBank_self (s.onBank s.cur s.curB (Bank.stopped { f with cyc := s.cycleOf s.cur })) s.cur s.curB
    rw [hn, core_onBank_self]; simp
  · intro a
    obtain ⟨us, h⟩ := stopJob_units s s.cur s.curB f
    rw [h]

end Sys2Proof.Machine
end

