-- ==== Sys2Proof/Tests/Slice0.lean ====
section
/-!
SUPPORT. Tests: words written out from the encodings of 02 and 21, ill-formed terms that `wellFormed` refuses, and for each statement with hypotheses a state and operands that meet them. Every expected value comes from the spec's own tables or is a hypothesis of the statement.
-/

namespace Sys2Proof.Tests

open Sys2Proof Sys2Proof.Machine Sys2Proof.Safety Sys2Proof.Spec

set_option Elab.async false

/-! ### Decoding (02 R41 to R60; 21 R399) -/

/-- Each word decodes to the instruction beside it, with the literal 0x9ABCDEF0 behind it. -/
abbrev reads (l : List (Nat × Instr)) : Prop := ∀ p ∈ l, decode p.1 0x9ABCDEF0 = .ok p.2

/-- Common stream words (R41). -/
theorem test_decode_common_1 : reads
    [(0b000_111_00000_000000000000000000000, .nop 0),
     (0b100_111_00001_000000000000000000000, .join 4),
     (0b001_111_00010_00000_1001110001000000, .clause 1 0x9C40),
     (0b011_111_00011_1001_101_00000000000000, .waitk 3 9 5),
     (0b010_111_00100_1110_011_00000000000000, .sigk 2 14 3),
     (0b000_111_00101_10001_00110_00000000000, .waitaw 0 17 6),
     (0b011_111_00110_1_0000000111_0000000101, .loop 3 1 7 5),
     (0b001_111_00111_0_00101_00000_1000000001, .loopr 1 0 5 513),
     (0b101_111_01000_110_111111111111111101, .pbr 5 6 (-3)),
     (0b100_111_01001_010_01011_0000000000000, .pbrr 4 2 11),
     (0b000_111_01010_101_011_1_10_1_00000000000, .br 0 5 3 1 2 1),
     (0b001_111_01011_100_1101_011_01_000000000, .brq 1 4 13 3 1)] := by decide

/-- Common stream words (R41). -/
theorem test_decode_common_2 : reads
    [(0b000_111_01100_00000_1011111011101111, .trap 0 0xBEEF),
     (0b000_111_01101_000000000000000000000, .tret)] := by decide

/-- Control engine, class CR (R44). -/
theorem test_decode_cr_1 : reads
    [(0b000_000_00000_00011_01100_10101_110_000, .add 3 12 21 6),
     (0b000_000_00001_00100_01100_10101_110_000, .sub 4 12 21 6),
     (0b000_000_00010_00101_01100_10101_110_000, .mul 5 12 21 6),
     (0b000_000_00011_00110_01100_10101_110_000, .mulh 6 12 21 6),
     (0b000_000_00100_00111_01100_10101_110_000, .mulhu 7 12 21 6),
     (0b000_000_00101_01000_01100_10101_110_000, .div 8 12 21 6),
     (0b000_000_00110_01001_01100_10101_110_000, .divu 9 12 21 6),
     (0b000_000_00111_00011_01100_10101_110_000, .rem 3 12 21 6),
     (0b000_000_01000_00100_01100_10101_110_000, .remu 4 12 21 6),
     (0b000_000_01001_00101_01100_10101_110_000, .and 5 12 21 6),
     (0b000_000_01010_00110_01100_10101_110_000, .or 6 12 21 6),
     (0b000_000_01011_00111_01100_10101_110_000, .xor 7 12 21 6)] := by decide

/-- Control engine, class CR (R44). -/
theorem test_decode_cr_2 : reads
    [(0b000_000_01100_01000_01100_10101_110_000, .andn 8 12 21 6),
     (0b000_000_01101_01001_01100_10101_110_000, .shl 9 12 21 6),
     (0b000_000_01110_00011_01100_10101_110_000, .shr 3 12 21 6),
     (0b000_000_01111_00100_01100_10101_110_000, .sra 4 12 21 6),
     (0b000_000_10000_00101_01100_10101_110_000, .min 5 12 21 6),
     (0b000_000_10001_00110_01100_10101_110_000, .max 6 12 21 6),
     (0b000_000_10010_00111_01100_10101_110_000, .minu 7 12 21 6),
     (0b000_000_10011_01000_01100_10101_110_000, .maxu 8 12 21 6),
     (0b000_000_10100_00101_01100_10101_110_100, .cmp 5 12 21 6 4),
     (0b000_000_10101_01001_01100_10101_110_000, .sel 9 12 21 6),
     (0b000_000_10110_01001_01100_00000_110_000, .clz 9 12 6),
     (0b000_000_10111_01001_01100_00000_110_000, .popc 9 12 6)] := by decide

/-- Control engine, class CR (R44). -/
theorem test_decode_cr_3 : reads
    [(0b000_000_11000_01001_01100_10101_110_000, .bfx 9 12 21 6),
     (0b000_000_11001_01001_01100_10101_110_000, .bfi 9 12 21 6),
     (0b000_000_11010_00001_00100_00111_110_000, .pand 1 4 7 6),
     (0b000_000_11011_00001_00100_00111_110_000, .por 1 4 7 6),
     (0b000_000_11100_00001_00100_00111_110_000, .pxor 1 4 7 6),
     (0b000_000_11101_00101_01100_00000_110_000, .movp 5 12 6)] := by decide

/-- Control engine, class CI (R45). -/
theorem test_decode_ci_1 : reads
    [(0b000_001_0000_10011_00110_111111111011, .addi 19 6 (-5)),
     (0b000_001_0001_10011_00110_111111111011, .andi 19 6 (-5)),
     (0b000_001_0010_10011_00110_111111111011, .ori 19 6 (-5)),
     (0b000_001_0011_10011_00110_111111111011, .xori 19 6 (-5)),
     (0b000_001_0100_10011_00110_000000101101, .shli 19 6 45),
     (0b000_001_0101_10011_00110_000000101101, .shri 19 6 45),
     (0b000_001_0110_10011_00110_000000101101, .srai 19 6 45),
     (0b000_001_0111_10011_00110_111111111011, .muli 19 6 (-5)),
     (0b000_001_1000_00011_00110_111111111011, .cmpeqi 3 6 (-5)),
     (0b000_001_1001_00011_00110_111111111011, .cmplti 3 6 (-5)),
     (0b000_001_1010_00011_00110_111111111011, .cmpltui 3 6 (-5)),
     (0b000_001_1011_10011_00110_011111010000, .mini 19 6 2000)] := by decide

/-- Control engine, class CI (R45). -/
theorem test_decode_ci_2 : reads
    [(0b000_001_1100_10011_00110_011111010000, .maxi 19 6 2000)] := by decide

/-- Control engine, class CM (R46). -/
theorem test_decode_cm : reads
    [(0b000_010_00_10011_1111111111111111110, .movi 19 (-2)),
     (0b000_010_01_10011_0000000000000000000, .movl 19 0x9ABCDEF0),
     (0b000_010_10_10011_0000000000000000000, .movlh 19 0x9ABCDEF0)] := by decide

/-- Control engine, class CD (R47). -/
theorem test_decode_cd_1 : reads
    [(0b000_011_0000_00111_10110_111111110111, .ldb 7 22 (-9)),
     (0b000_011_0001_00111_10110_111111110111, .ldbu 7 22 (-9)),
     (0b000_011_0010_00111_10110_111111110111, .ldh 7 22 (-9)),
     (0b000_011_0011_00111_10110_111111110111, .ldhu 7 22 (-9)),
     (0b000_011_0100_00111_10110_111111110111, .ldw 7 22 (-9)),
     (0b000_011_0101_00111_10110_111111110111, .ldwu 7 22 (-9)),
     (0b000_011_0110_00111_10110_111111110111, .ldd 7 22 (-9)),
     (0b000_011_0111_00111_10110_111111110111, .stb 7 22 (-9)),
     (0b000_011_1000_00111_10110_111111110111, .sth 7 22 (-9)),
     (0b000_011_1001_00111_10110_111111110111, .stw 7 22 (-9)),
     (0b000_011_1010_00111_10110_111111110111, .std 7 22 (-9)),
     (0b000_011_1011_00111_10110_111111110111, .ldg 7 22 (-9))] := by decide

/-- Control engine, class CD (R47). -/
theorem test_decode_cd_2 : reads
    [(0b000_011_1100_00111_10110_111111110111, .stg 7 22 (-9))] := by decide

/-- Control engine, class CS (R48). -/
theorem test_decode_cs_1 : reads
    [(0b000_100_00000_00111_00010_00000000000, .csrr 7 2),
     (0b000_100_00001_00111_00010_00000000000, .csrw 7 2),
     (0b000_100_00010_000000000000000000000, .dsync),
     (0b000_100_00011_011_1010101111001101_00, .dmrset 3 0xABCD),
     (0b000_100_00100_00111_01000_01001_10_0000, .vderive 7 8 9 1 0),
     (0b000_100_00101_01000_01001_00000000000, .vnarrow 8 9),
     (0b000_100_00110_01000_0000000000000000, .vdrop 8),
     (0b000_100_00111_01000_01001_00000000000, .vquery 8 9),
     (0b000_100_01000_1011_01000_000000000000, .fmtset 11 8),
     (0b000_100_01001_01000_01001_00000000000, .hist 8 9),
     (0b000_100_01010_01000_0000000000000000, .hlatch 8),
     (0b000_100_01011_00_0000000000000000000, .climb)] := by decide

/-- Control engine, class CS (R48). -/
theorem test_decode_cs_2 : reads
    [(0b000_100_01011_01_0000000000000000000, .climbFar),
     (0b000_100_01011_10_0000000000000000000, .climbNear),
     (0b000_100_01100_000000000000000000000, .setleave),
     (0b000_100_01101_01000_01001_00000000000, .arwinit 8 9)] := by decide

/-- Vector engine, class VR (R50). -/
theorem test_decode_vr_1 : reads
    [(0b001_000_000000_10001_10010_10011_101_01, .vadd 17 18 19 5 1),
     (0b001_000_000001_10001_10010_10011_101_01, .vsub 17 18 19 5 1),
     (0b001_000_000010_10001_10010_10011_101_01, .vmul 17 18 19 5 1),
     (0b001_000_000011_10001_10010_10011_101_01, .vdiv 17 18 19 5 1),
     (0b001_000_000100_10001_10010_10011_101_01, .vmin 17 18 19 5 1),
     (0b001_000_000101_10001_10010_10011_101_01, .vmax 17 18 19 5 1),
     (0b001_000_000110_10001_10010_00000_101_11, .vabs 17 18 5 3),
     (0b001_000_000111_10001_10010_00000_101_11, .vneg 17 18 5 3),
     (0b001_000_001000_10001_10010_00000_101_01, .vsqrt 17 18 5 1),
     (0b001_000_001001_10001_10010_00000_101_01, .vrcp 17 18 5 1),
     (0b001_000_001010_10001_10010_00000_101_01, .vrsq 17 18 5 1),
     (0b001_000_001011_10001_10010_00000_101_01, .vexp2 17 18 5 1)] := by decide

/-- Vector engine, class VR (R50). -/
theorem test_decode_vr_2 : reads
    [(0b001_000_001100_10001_10010_00000_101_01, .vlog2 17 18 5 1),
     (0b001_000_001101_00110_10010_10011_101_10, .vcmpeq 6 18 19 5 2),
     (0b001_000_001110_00110_10010_10011_101_10, .vcmplt 6 18 19 5 2),
     (0b001_000_001111_00110_10010_10011_101_10, .vcmple 6 18 19 5 2),
     (0b001_000_010000_10001_10010_10011_101_10, .vand 17 18 19 ⟨5, 2⟩),
     (0b001_000_010001_10001_10010_10011_101_10, .vor 17 18 19 ⟨5, 2⟩),
     (0b001_000_010010_10001_10010_10011_101_10, .vxor 17 18 19 ⟨5, 2⟩),
     (0b001_000_010011_10001_10010_00000_101_10, .vnot 17 18 ⟨5, 2⟩),
     (0b001_000_010100_10001_10010_10011_101_10, .vshl 17 18 19 ⟨5, 2⟩),
     (0b001_000_010101_10001_10010_10011_101_10, .vshr 17 18 19 ⟨5, 2⟩),
     (0b001_000_010110_10001_10010_10011_101_10, .vsra 17 18 19 ⟨5, 2⟩),
     (0b001_000_010111_10001_10010_00000_101_10, .vmov 17 18 ⟨5, 2⟩)] := by decide

/-- Vector engine, class VR (R50). -/
theorem test_decode_vr_3 : reads
    [(0b001_000_011000_10001_10010_10011_101_10, .vselm 17 18 19 ⟨5, 2⟩),
     (0b001_000_011001_10001_10010_00001_101_10, .vcvt 17 18 1 5 2),
     (0b001_000_011010_10001_10010_10011_101_10, .vmulhi 17 18 19 ⟨5, 2⟩)] := by decide

/-- Vector engine, class V4 (R51). -/
theorem test_decode_v4 : reads
    [(0b001_001_000_10001_10010_10011_10100_01_0, .vfma 17 18 19 20 1),
     (0b001_001_001_10001_10010_10011_10100_01_0, .vfms 17 18 19 20 1),
     (0b001_001_010_10001_10010_10011_10100_01_0, .vnfma 17 18 19 20 1),
     (0b001_001_011_10001_10010_10011_10100_01_0, .vnfms 17 18 19 20 1)] := by decide

/-- Vector engine, class VK (R52). -/
theorem test_decode_vk : reads
    [(0b001_010_000_10001_10010_11001000_01_101, .vfmak 17 18 200 1 5),
     (0b001_010_001_10001_10010_11001000_01_101, .vaddk 17 18 200 1 5),
     (0b001_010_010_10001_10010_11001000_01_101, .vmulk 17 18 200 1 5),
     (0b001_010_011_10001_00000_11001000_01_101, .vmovk 17 200 1 5),
     (0b001_010_100_10001_10010_00000000_01_101, .vfmal 17 18 1 5 0x9ABCDEF0),
     (0b001_010_101_10001_10010_00000000_01_101, .vaddl 17 18 1 5 0x9ABCDEF0),
     (0b001_010_110_10001_10010_00000000_01_101, .vmull 17 18 1 5 0x9ABCDEF0),
     (0b001_010_111_10001_00000_00000000_01_101, .vmovl 17 1 5 0x9ABCDEF0)] := by decide

/-- Vector engine, class VI (R53). -/
theorem test_decode_vi : reads
    [(0b001_011_0_10001_01001100000000000000, .vmovf 17 0x4C000),
     (0b001_011_1_10001_11111111111111111001, .vmovn 17 (-7))] := by decide

/-- Vector engine, class VM (R54). -/
theorem test_decode_vm : reads
    [(0b001_100_0000_10001_011_11111111111100, .vld 17 3 (-4)),
     (0b001_100_0001_10001_011_11111111111100, .vst 17 3 (-4)),
     (0b001_100_0010_10001_011_11111111111100, .vldp 17 3 (-4)),
     (0b001_100_0011_10001_011_11111111111100, .vstp 17 3 (-4)),
     (0b001_100_0100_10001_011_00000000010101, .vrotm 17 3 21),
     (0b001_100_0101_10001_000_00000000000010, .vpop 17),
     (0b001_100_0110_10001_000_00000000000011, .vpush 17),
     (0b001_100_0111_00000_011_11111111111100, .vldkb 3 (-4)),
     (0b001_100_1000_00000_011_11111111111100, .amovi 3 (-4)),
     (0b001_100_1001_00101_011_00000000000000, .aadd 5 3),
     (0b001_100_1010_00000_011_11111111111100, .aaddi 3 (-4))] := by decide

/-- Vector engine, class VX (R55). -/
theorem test_decode_vx : reads
    [(0b001_101_00000_10001_10010_00000_101_001, .vrsum 17 18 5 1),
     (0b001_101_00001_10001_10010_00000_101_001, .vrmax 17 18 5 1),
     (0b001_101_00010_10001_10010_00000_101_001, .vrmin 17 18 5 1),
     (0b001_101_00011_10001_10010_10011_101_000, .vperm 17 18 19 5),
     (0b001_101_00100_10001_10010_00011_101_000, .vbcast 17 18 3 5),
     (0b001_101_00101_10001_10000_01001_101_000, .vlutacc 17 16 9 5),
     (0b001_101_00110_10000_01000_01001_101_000, .vhistacc 16 8 9 5),
     (0b001_101_00111_00110_00011_00000_000_000, .vmasklen 6 3),
     (0b001_101_01000_10001_10010_10011_101_010, .vpack 17 18 19 5 2),
     (0b001_101_01001_10001_10010_10011_101_010, .vunpack 17 18 19 5 2),
     (0b001_101_01010_10001_10010_10011_101_001, .vscale 17 18 19 5 1),
     (0b001_101_01011_10001_00000_00000_101_000, .viota 17 5)] := by decide

/-- Matrix engine (R56). -/
theorem test_decode_mx : reads
    [(0b010_000_0000_0000000000000000000000, .mlease),
     (0b010_000_0001_0000000000000000000000, .mrel),
     (0b010_000_0010_11_1001011000_0001000001, .mcfg 3 600 65),
     (0b010_000_0011_1001011000_0001000001_00, .mzero 600 65),
     (0b010_000_0100_1001011000_0001000001_00, .mma 600 65),
     (0b010_000_0101_1001011000_0001000001_00, .mmat 600 65),
     (0b010_000_0110_1001011000_0001000001_00, .mscale 600 65),
     (0b010_000_0111_0000000000000000000000, .mdrain),
     (0b010_000_1000_11001000_10001100101000, .accrd 200 9000),
     (0b010_000_1001_11001000_10001100101000, .accwr 200 9000)] := by decide

/-- Copy engines (R57 to R59). -/
theorem test_decode_cp_1 : reads
    [(0b011_000_00_1011_0000_1111111111111010, .cmovi 3 11 (-6)),
     (0b011_000_01_1011_1100_0000000000001101, .cadd 3 11 12 13),
     (0b011_000_10_1011_1100_1111111111111010, .caddi 3 11 12 (-6)),
     (0b011_000_11_1011_1100_0000000000001101, .csub 3 11 12 13),
     (0b100_001_000_101_1101_0000000000000000, .seql 4 5 13),
     (0b100_001_001_101_1101_0000000000000000, .seqb 4 5 13),
     (0b100_001_010_101_010_1101_0000000000000, .seqs 4 5 2 13),
     (0b100_001_011_110_00000000000000000000, .seqgo 4 6),
     (0b100_001_100_00000000000000000000000, .seqstop 4),
     (0b100_010_0000_1011_1100_10011100001111, .cpy 4 11 12 9999),
     (0b011_010_0001_1011_1100_1101_1111100111, .gath 3 11 12 13 999),
     (0b100_010_0010_1011_1100_1101_1111100111, .scatb 11 12 13 999)] := by decide

/-- Copy engines (R57 to R59). -/
theorem test_decode_cp_2 : reads
    [(0b011_010_0011_1011_000000000000000000, .bincfg 3 11),
     (0b100_010_0100_1011_11001000_0000000000, .binrd 4 11 200),
     (0b011_010_0101_1011_1100_00000000000000, .reduce 3 11 12),
     (0b011_010_0110_1011_10011100001111_0000, .pusha 11 9999),
     (0b011_010_0111_1011_10011100001111_0000, .pushb 11 9999),
     (0b100_010_1000_1011_000000000000000000, .arwset 4 11)] := by decide

/-- Exchange engine (R60). -/
theorem test_decode_ex : reads
    [(0b101_000_0000_001_010_011_1_000000000000, .xsend 1 2 3 1),
     (0b101_000_0001_001_010_0000000000000000, .xrecv 1 2),
     (0b101_000_0010_001_010_0000000000000000, .xperm 1 2),
     (0b101_000_0011_001_010_011_1001_1_00000000, .atom 1 2 3 9 1),
     (0b101_000_0100_001_010_1_000000000000000, .aaddnr 1 2 1),
     (0b101_000_0101_0000000000000000000000, .afence),
     (0b101_000_0110_001_010_0000000000000000, .bkload 1 2),
     (0b101_000_0111_001_010_0000000000000000, .bkrun 1 2),
     (0b101_000_1000_010_11_00000000000000000, .bkctx 2 3),
     (0b101_000_1001_010_0000000000000000000, .bkwait 2)] := by decide

/-- Microcode words (21 R399). -/
theorem test_decode_microcode :
    ∀ p ∈ [(0b0010_01_10100101_000011_10_01_11111111111111111011_00000000000000000000, some (Instr.bankUnitRd 7 ⟨1, 165, 3, 2, 1, 0xFFFFB, 0⟩)),
      (0b1001_11_00000000_000000_01_00_00000000000000000000_00000000000000000000, some (.bankUnitEnd 7 ⟨3, 0, 0, 1, 0, 0, 0⟩)),
      (0b1010_00_00000000_000000_00_00_00000000000000000000_00000000000000000000, none)], decodeMicro 7 p.1 = p.2 := by decide

/-- A reserved class, an engine 6 or 7, a non-zero unused field and an unused function are refused (02 R61). -/
theorem test_decode_refuses :
    ∀ w ∈ [0b110_111_00000_000000000000000000000, 0b000_101_00000_00000_00000_00000_000_000, 0b000_111_00000_000000000000000000001,
      0b000_111_01110_000000000000000000000, 0b010_000_1111_0000000000_0000000000_00], (decode w 0).toOption = none := by decide

/-! ### Well-formedness (02 R61) -/

/-- One ill-formed term for each check on the common words: the engine, the scalar-class registers, the predicate of another engine's branch, NUL, the FIFO of a data condition. -/
theorem test_ill_formed_common : ∀ i ∈ [Instr.nop 6, .join 7, .clause 6 0, .waitk 7 0 0, .sigk 6 0 0, .waitaw 2 0 0, .waitaw 1 8 0, .waitaw 3 0 16, .loop 6 0 0 0,
    .loopr 5 0 8 0, .pbr 7 0 0, .pbrr 2 0 0, .br 0 0 0 0 3 0, .br 1 0 1 0 0 0, .br 2 0 0 1 0 0, .brq 1 0 0 0 3, .brq 1 0 4 4 0, .trap 6 0],
    i.wellFormed = false := by decide

/-- The same for the control and vector engines: conditions, CSR numbers, levels, types, m0 as a destination, register groups, overlaps, MX formats. -/
theorem test_ill_formed_control_and_vector : ∀ i ∈ [Instr.cmp 1 0 0 0 6, .csrr 1 19, .csrw 1 31, .dmrset 5 1, .vdiv 0 0 0 0 2, .vsqrt 0 0 0 2, .vrcp 0 0 0 2, .vrsq 0 0 0 2,
    .vexp2 0 0 0 2, .vlog2 0 0 0 2, .vcmpeq 0 1 1 0 0, .vcmplt 0 1 1 0 0, .vcmple 0 1 1 0 0, .vfma 0 0 0 0 2, .vfms 0 0 0 0 2, .vnfma 0 0 0 0 2, .vnfms 0 0 0 0 2,
    .vlutacc 0 4 9 0, .vhistacc 4 16 17 0, .vhistacc 8 9 16 0, .vhistacc 8 16 15 0, .vmasklen 0 1, .vpack 1 2 3 0 3, .vpack 1 2 1 0 0, .vunpack 1 2 3 0 4,
    .vunpack 1 1 2 0 0, .vunpack 1 2 1 0 0, .vunpack 1 2 2 0 0, .vscale 0 0 0 0 2,
    .vand 0 0 0 ⟨0, 0⟩, .vor 0 0 0 ⟨0, 1⟩, .vxor 0 0 0 ⟨0, 0⟩, .vnot 0 0 ⟨0, 1⟩, .vshl 0 0 0 ⟨0, 0⟩, .vshr 0 0 0 ⟨0, 1⟩, .vsra 0 0 0 ⟨0, 0⟩, .vmov 0 0 ⟨0, 1⟩, .vselm 0 0 0 ⟨0, 0⟩, .vmulhi 0 0 0 ⟨0, 1⟩], i.wellFormed = false := by decide

/-- The same for the copy and exchange engines: the engine, levels and dimensions, nest sizes, the pair of forms, the operation. -/
theorem test_ill_formed_copy_and_exchange : ∀ i ∈ [Instr.cmovi 2 1 0, .cadd 5 1 0 0, .caddi 2 1 0 0, .csub 5 1 0 0, .seql 3 6 0, .seqb 4 6 0, .seqs 3 6 0 0, .seqs 3 0 6 0,
    .seqgo 3 0, .seqgo 4 7, .seqstop 2, .cpy 2 0 0 0, .gath 5 0 0 0 0, .bincfg 2 0, .binrd 5 0 0, .reduce 3 15 0, .arwset 2 0, .atom 0 0 0 10 0],
    i.wellFormed = false := by decide

/-- 06 R138: a form for INT32 alone takes its type from the format entry too (t = 11), and no other type (t = 00). -/
theorem test_decode_integer_forms : (decode 0b001_000_010000_10001_10010_10011_101_11 0).toOption = some (.vand 17 18 19 ⟨5, 3⟩)
    ∧ (decode 0b001_000_010000_10001_10010_10011_101_00 0).toOption = none := by decide

/-! ### Witnesses: concrete states and operands that meet the hypotheses of the statements -/

/-- A state that runs a job in bank 0 of unit 0, with all six streams at addresses 0, 1, 2, changed by `f`. -/
def running (f : Bank → Bank) : State :=
  let s := State.reset.withFetchWord 32 0
  s.onBank 0 0 f

/-- The same with this much of scalar register 1. -/
def withS1 (v : DWord) : State := running (fun k => { k with s := [(1, v)] })

/-- Decisions by evaluation over a few operands. -/
abbrev allOf (l : List Prop) : Prop := ∀ p ∈ l, p

theorem witness_ScalarMemoryAccesses :
    (ea (withS1 0xFFF8).me 1 0 8 + 8 ≤ 0x10000 ∧ ea (withS1 0xFFF8).me 1 0 8 % 8 = 0)
    ∧ ((withS1 0xFFF9).me.fault = none ∧ 0x10000 < ea (withS1 0xFFF9).me 1 0 8 + 8)
    ∧ (ea (withS1 0xFFF1).me 1 0 8 + 8 ≤ 0x10000 ∧ ea (withS1 0xFFF1).me 1 0 8 % 8 ≠ 0) := by decide

theorem witness_BranchesAndTheirTargets :
    (∀ c ∈ queueConds (running id).me 3, c.1.toNat < 4 ∨ (3 : BitVec 4).toNat < 4)
    ∧ queueConds (running id).me 3 ≠ [] := by decide

/-- Streams 1 with a level 0 that ends at Q0, with this count and these pending exits; level 1 idle. -/
def looping (c : BitVec 33) (n : Nat) : State :=
  running (fun k => k.onStream 1 (fun t => { t with lp0 := { start := 0, stop := 0, cnt := c, idx := 0, act := true }, exits := n }))

theorem witness_NopAndLoops :
    (((running id).me.stream 1).lp0.act = false ∧ ((running id).me.stream 1).lp1.act = false)
    ∧ (((looping 1 0).me.stream 1).lp 0).act = true ∧ (((looping 1 0).me.stream 1).lp 0).stop = ((looping 1 0).me.stream 1).q0.addr
      ∧ ((looping 1 0).me.stream 1).exits = 0 ∧ 0 < ((looping 2 1).me.stream 1).exits ∧ (((looping 2 1).me.stream 1).lp 0).act = true
    ∧ (let s := running (fun k => k.onStream 1 (fun t => { t with lp0 := { start := 0, stop := 5, cnt := 2, idx := 0, act := true }, lp1 := { start := 0, stop := 0, cnt := 2, idx := 0, act := true }, exits := 1 }))
       ((s.me.stream 1).lp 1).act = true ∧ ((s.me.stream 1).lp 1).stop = (s.me.stream 1).q0.addr ∧ (s.me.stream 1).lp0.act = true)
    ∧ (let s := running (fun k => k.onStream 1 (fun t => { t with lp1 := { start := 0, stop := 0, cnt := 2, idx := 0, act := true }, exits := 1 }))
       ((s.me.stream 1).lp 1).act = true ∧ ((s.me.stream 1).lp 1).stop = (s.me.stream 1).q0.addr ∧ (s.me.stream 1).lp0.act = false ∧ 0 < (s.me.stream 1).exits)
    ∧ (let t0 := (running id).me.stream 1
       t0.q1 = { addr := (running id).me.succ 1 t0.q0.addr, null := false } ∧ t0.q2 = { addr := (running id).me.succ 1 t0.q1.addr, null := false }
        ∧ (t0.lp 1).act = false ∧ wrapAddr 1 (t0.q0.addr.toNat + 5) ≠ t0.q0.addr)
    ∧ (let s := running (fun k => k.onStream 1 (fun t => { t with q1 := { addr := 9, null := false } }))
       s.me.fault = none ∧ (s.me.stream 1).q1 ≠ { addr := s.me.succ 1 (s.me.stream 1).q0.addr, null := false }) := by decide

theorem witness_TrapEntrySavesAndTretRestores :
    (running id).me.csr.th = false ∧ (running (fun k => { k with csr := { k.csr with th := true } })).me.csr.th = true
    ∧ ((running id).me.stream 0).lp0.act = false ∧ ((running id).me.stream 0).lp1.act = false := by decide

/-- Stream 2 stands at `CLAUSE 5`. -/
def atClause : State := running (fun k => k.onStream 2 (fun t => { t with phase := .clause 5 }))

theorem witness_FaultsJoinClauseAndSetleave :
    ((running id).me.fault = none ∧ (running id).me.csr.th = false)
    ∧ ((running (fun k => { k with csr := { k.csr with th := true } })).me.csr.th = true ∧ (running (fun k => { k with csr := { k.csr with th := true } })).me.fault = none)
    ∧ (atClause.me.fault = none ∧ atClause.me.csr.th = false ∧ (atClause.me.stream 2).phase = .clause 5
      ∧ ∀ f, f < 6 → f ≠ 1 → f = 2 ∨ (atClause.me.stream f).phase = .running)
    ∧ (let s := running (fun k => k.onStream 2 (fun t => { t with phase := .joined }))
       s.me.fault = none ∧ (s.me.stream 2).phase = .joined ∧ ∀ f, f < 6 → f = 2 ∨ (s.me.stream f).phase = .running)
    ∧ ((running id).me.histPending = false ∧ ∀ f, f < 6 → ((running id).me.stream f).phase = .running) := by decide

/-- Token FIFO 9 bound from engine 3 to engine 1, with these tokens, and this epoch of stream 3. -/
def withTokens (l : List (BitVec 13)) (ep : BitVec 13) : State :=
  running (fun k => ({ k with tok := [(9, { bound := true, prod := 3, cons := 1, toks := l })] }).onStream 3 (fun t => { t with epoch := ep }))

/-- A row whose word 0 is an arrival word that is valid, of generation 7. -/
def arrivalRow : Row := { data := BitVec.ofNat 4096 (7 * 2 ^ 64 + 2 ^ 16 * 2 ^ 96) }

/-- The running job with scratchpad rows from row 0 on, and scalar register 1. -/
def withPad (m : Map Row) (v : DWord) : State :=
  let s := withS1 v
  s.setCore 0 { s.core 0 with pad := m }

theorem witness_TokensAndArrivalWaits :
    (let q := (withTokens [] 0).me.tokF 9
     q.bound = true ∧ q.prod = 3 ∧ (withTokens [] 0).me.pushRoom 3 = true ∧ ((withTokens [] 0).me.stream 3).epoch ≠ 8191)
    ∧ ((withTokens [] 8191).me.stream 3).epoch = 8191 ∧ (withTokens [] 8191).me.pushRoom 3 = true
    ∧ (let q := (withTokens [1, 2, 3, 4, 5, 6, 7, 8] 0).me.tokF 9
       q.bound = true ∧ q.cons = 1 ∧ 8 ≤ q.toks.length)
    ∧ ((running id).me.fault = none ∧ ((running id).me.tokF 9).bound = false)
    ∧ (let s := (withPad [(0, arrivalRow)] 0).onMe (fun k => { k with arr := [(0, { live := true })] })
       let r := s.row s.cur s.curB 0
       0 < s.me.rows ∧ s.armed s.cur s.curB 0 = true ∧ arrField r 0 2 = 7 ∧ (arrField r 0 2 - 7).toNat < 2 ^ 31 ∧ s.me.isStatic = false)
    ∧ (let s := withS1 0x2000
       s.me.fault = none ∧ ((s.me.scal 0 1).setWidth 32 : Word).toNat / 512 = s.me.rows)
    ∧ (let s := withS1 0
       s.me.fault = none ∧ 0 < s.me.rows ∧ s.armed s.cur s.curB 0 = false)
    ∧ (let s := withPad [(0, arrivalRow)] 0
       let s1 := s.onMe (fun k => { k with arr := [] })
       s1.armed s1.cur s1.curB 0 = false) := by decide +kernel

theorem witness_CsrwToDmrActsAsDmrset :
    (running id).me.fault = none ∧ 4 < (5 : BitVec 3).toNat ∧ 32767 < (32768 : BitVec 16).toNat
    ∧ (let s := running (fun k => k.onJob (fun j => { j with climb := true }))
       s.me.fault = none ∧ s.me.job.any (fun j => j.climb) = true) := by decide

/-- The running job beside domain 7 of level `l`, of quota 2 and with this many members joined; DMR holds level `l` and id `i`. -/
def inDomain (l : BitVec 3) (i : BitVec 16) (n : Nat) : State :=
  { running (fun k => { k.onJob (fun j => { j with dscope := State.reset.joinScope 0 j l.toNat }) with csr := { k.csr with dmrLevel := l, dmrId := i } }) with
    domains := [(domKey l.toNat (State.reset.joinScope 0 probeJob l.toNat) 7, some { quota := 2, joined := n })] }

theorem witness_DomainInstructions :
    (let s := inDomain 3 0 1
     s.me.job.map (fun j => (j.static, j.climb, s.joinScope s.cur j 3)) = some (false, false, State.reset.joinScope 0 probeJob 3) ∧ s.undone s.cur s.curB = false ∧ s.me.csr.dmrId = 0
      ∧ s.domain (domKey 3 (State.reset.joinScope 0 probeJob 3) 7) = some { quota := 2, joined := 1 })
    ∧ (let s := inDomain 0 0 1
       s.otherMember s.cur s.curB (domKey 0 (State.reset.joinScope 0 probeJob 0) 7) = false)
    ∧ (let s := inDomain 3 7 1
       s.dmrKey s.cur s.curB = some (domKey 3 (State.reset.joinScope 0 probeJob 3) 7) ∧ s.me.csr.dmrLevel = 3 ∧ probeJob.arrived = false)
    ∧ ((inDomain 3 0 2).me.fault = none ∧ (inDomain 3 0 2).domain (domKey 3 (State.reset.joinScope 0 probeJob 3) 7) = some { quota := 2, joined := 2 })
    ∧ ((running id).me.fault = none ∧ (running id).me.csr.dmrLevel ≠ 3) := by decide

theorem witness_ArwinitAndFmtset :
    (let s := withPad [] 0x1F0
     0x1F0 / 512 < s.me.rows ∧ ((2 ^ 33 : DWord).getLsbD 33 = true) ∧ ((5 : DWord).getLsbD 33 = false)
      ∧ (s.me.arr.filter (fun p => p.2.live)).length < 32 ∧ s.me.tagBusy (0x1F0 / 16) = false ∧ s.me.fault = none)
    ∧ (running id).me.rows ≤ 0x2000 / 512
    ∧ (let s := running (fun k => { k with arr := (List.range 32).map (fun i => (i, { live := true })) })
       s.me.fault = none ∧ (s.me.arrVec 40).live = false ∧ 32 ≤ (s.me.arr.filter (fun p => p.2.live)).length) := by decide

/-- A tensor of 2,048 FP32 elements in two tiles of one 4-KiB frame each, on near-memory stacks 0 and 1. -/
def tens : Tensor :=
  { id := 5, part := 0, home := 0, tiled := true, covered := false, ro := false, scale := false, fmt := 0, ndim := 1, fsz := 0, order := [0, 0, 0, 0, 0, 0]
    ext := [2048, 1, 1, 1, 1, 1], tsh := [1024, 1, 1, 1, 1, 1], wbase := 0x10000, tbase := 0, stride := [], scid := 0
    tiles := [(0, { v := true, tier := 2, stack := 0, fbase := 8 }), (1, { v := true, tier := 2, stack := 1, fbase := 8 })] }

/-- A view of all of it, on handle 3, generation 1, and its form. -/
def wholeBox : Box := { lo := [0, 0, 0, 0, 0, 0], hi := [2048, 1, 1, 1, 1, 1] }
def wholeView : View := { used := true, gen := 1, part := 0, tid := 5, box := wholeBox, r := true, w := true }
def wholeForm : Word := 0x100003

/-- State `s` with that tensor and that view. -/
def withTens (s : State) : State := { s with tensors := [(5, some tens)], views := [(3, wholeView)] }

theorem witness_LdgStgHistIssueCommands :
    (let s := withTens (withS1 0x10FF8)
     s.me.job = some probeJob ∧ (s.flatAt probeJob s.cur 8 (s.me.rdS 1 + (0 : BitVec 12).signExtend 64 * 8)).toOption = some tens)
    ∧ (let s := withTens (withS1 0x12000)
       (s.flatAt probeJob s.cur 8 0x12000).toOption = none ∧ (s.flatAt probeJob s.cur 8 0x10004).toOption = none ∧ s.me.fault = none)
    ∧ (let s := withTens (withS1 0x100003)
       s.me.histPending = false ∧ (s.checkView probeJob s.cur ((s.me.rdS 1).setWidth 32) true false).toOption = some (wholeView, tens)
        ∧ s.viewOf probeJob.part wholeForm = some wholeView ∧ s.tensor 5 = some tens ∧ wholeView.box.runFlt wholeForm wholeView.box.lo 2048 = none ∧ tens.fmt ≠ 4 ∧ tens.fmt ≠ 2 ∧ s.me.fault = none
        ∧ ({ s with tensors := [(5, some { tens with fmt := 2 })] }.checkView probeJob s.cur wholeForm true false).toOption = some (wholeView, { tens with fmt := 2 })) := by
  decide +kernel

theorem witness_ViewInstructionsRequestAndWait :
    (((withS1 0xFFC0).me.rdS 1).toNat ≤ 0xFFC0 ∧ ((withS1 0xFFC0).me.rdS 1).toNat % 8 = 0 ∧ (rdByte (withS1 0xFFC0).me.sdm (0xFFC0 + 48)).toNat < 2)
    ∧ (0xFFC0 < ((withS1 0xFFC8).me.rdS 1).toNat ∧ (withS1 0xFFC8).me.fault = none)
    ∧ (((withS1 0xFFBC).me.rdS 1).toNat ≤ 0xFFC0 ∧ ((withS1 0xFFBC).me.rdS 1).toNat % 8 ≠ 0)
    ∧ (let s := running (fun k => { k with s := [(1, 0x40)], sdm := [(0x70, 4)] })
       (s.me.rdS 1).toNat % 8 = 0 ∧ 2 ≤ (rdByte s.me.sdm ((s.me.rdS 1).toNat + 48)).toNat) := by decide +kernel

theorem witness_VectorArithmeticWritesGovernedElements :
    (running id).me.vtype 0 = some .f32 ∧ (running id).me.vtype 2 = some .i32 ∧ (running id).me.fault = none
    ∧ (running (fun k => { k with fmt := [(0, 0xF0000000)] })).me.vtype 3 = none := by decide +kernel

theorem witness_LanesAndComparisons : (running id).me.vtype 0 = some .f32 ∧ cmpForms (running id).me .f32 ≠ [] := by
  constructor
  · decide +kernel
  · simp [cmpForms]

theorem witness_FusedConvertedAndConstantForms :
    (running id).me.vtype 0 = some .f32 ∧ VT.fmt .f32 = some fp32 ∧ (running id).me.vtype 2 = some .i32 ∧ (running id).me.fault = none := by decide +kernel

/-- Rows 14 and 15 of the job's window carry these race tags; row 0 holds a live arrival word. -/
def tagged (t : Tag) : State :=
  let s := running (fun k => { k with a := [(1, 0x1C00)], arr := [(0, { live := true })] })
  s.setCore 0 { s.core 0 with tags := [(14, t)] }

theorem witness_VectorMemoryAndFifos :
    (let s := tagged {}
     (rowAt s.me 1 1).toNat / 512 = 15 ∧ 15 < s.me.rows ∧ (rowAt s.me 1 2).toNat / 512 = s.me.rows ∧ s.me.fault = none ∧ s.me.arrRow 15 = false
      ∧ (s.rowTag s.cur s.curB 15).race (s.me.stream 1).know 1 false = none ∧ (s.rowTag s.cur s.curB 15).race (s.me.stream 1).know 1 true = none)
    ∧ (let s := tagged { wr := 3, we := 9 }
       (rowAt s.me 1 0).toNat / 512 = 14 ∧ (s.rowTag s.cur s.curB 14).race (s.me.stream 1).know 1 false = some 3
        ∧ (s.rowTag s.cur s.curB 14).race (s.me.stream 1).know 1 true = some 3)
    ∧ ((tagged {}).me.arrRow 0 = true ∧ 0 < (tagged {}).me.rows)
    ∧ ((running (fun k => { k with fifo := [(2, { rows := [{ row := {}, eng := 2, epoch := 4 }] })] })).me.dfifo 2).rows = [{ row := {}, eng := 2, epoch := 4 }]
    ∧ ((running id).me.dfifo 3).rows.length < 16
    ∧ (let s := tagged {}
       14 + 1 < s.me.rows ∧ (s.row s.cur s.curB 14).poison = 0 ∧ (s.rowTag s.cur s.curB 14).race (s.me.stream 1).know 1 false = none)
    ∧ (let s := tagged {}
       let s1 := s.setCore 0 { s.core 0 with pad := [(15, { poison := 1 })] }
       (s1.row s1.cur s1.curB 15).poison ≠ 0 ∧ s1.me.fault = none) := by decide +kernel

theorem witness_VectorMovesReductionsAndTables : (running id).me.vtype 0 = some .f32 ∧ (running id).me.vtype 2 = some .i32 ∧ (24 : BitVec 5).toNat ≤ 24 := by
  decide +kernel

theorem witness_MxPackAndUnpack : (2 : BitVec 3).toNat < 3 ∧ (1 : BitVec 5) ≠ 3 ∧ (1 : BitVec 5) ≠ 2 ∧ (2 : BitVec 5) ≠ 3 := by decide

/-- Partition 0 configured with units 0 to 3 and this much more. -/
def withPart (x : PartRecord → PartRecord) (s : State) : State := { s with parts := [(0, some { cfg := x { (default : PartRecord) with units := [0, 1, 2, 3] } })] }

/-- The cluster of unit 0 with these leases; requester 0 is bank 0 of unit 0. -/
def leased (l : Map Lease) (f : Bank → Bank) : State := { running f with clusters := [(0, { lease := l })] }

theorem witness_MatrixLeaseAndWindows :
    ((running id).leaseOf (running id).cur (running id).curB = .none ∧ (running id).cur < 448)
    ∧ (let s := { State.reset with cur := 448 }
       448 ≤ s.cur ∧ s.curB < 2 ∧ s.leaseOf s.cur s.curB = .none ∧ ∀ q, q < 8 → q ≠ requester s.cur s.curB → (s.cluster (clusterOf s.cur s.curB)).leaseOf q ≠ .waiting)
    ∧ ((leased [(0, .waiting)] id).leaseOf 0 0 ≠ .none)
    ∧ (∀ c ∈ (running id).me.queue 2, c.isArray = false ∧ c.isAcc = false)
    ∧ (let s := leased [(3, .waiting)] id
       let x := s.cluster 0
       (∀ r, r < 8 → x.leaseOf r ≠ .held) ∧ (∀ p ∈ banksOf 0, (s.bank p.1 p.2).arrayBusy = false) ∧ x.leaseOf ((x.last + 1 + 2) % 8) = .waiting
        ∧ ∀ n, n < 2 → x.leaseOf ((x.last + 1 + n) % 8) ≠ .waiting)
    ∧ (let s := withPart id (running id)
       s.cur < 448 ∧ s.me.job = some probeJob ∧ (192 : BitVec 10).toNat + cnt10 64 ≤ storeRows s.cur ∧ s.windowClash s.cur 0 192 64 = false
        ∧ s.partOf (s.cur / 4 * 4 + 0) = some probeJob.part ∧ s.partHas probeJob.part (s.cur / 4 * 4 + 0) = true ∧ (running id).partOf 0 = none)
    ∧ (let s := withPart id (running id)
       storeRows s.cur < (1000 : BitVec 10).toNat + cnt10 0 ∧ s.windowClash s.cur 0 0 1024 = true ∧ s.me.fault = none)
    ∧ (let s := { running id with parts := [(0, some { cfg := { (default : PartRecord) with units := [0] } }), (1, some { cfg := { (default : PartRecord) with units := [1] } })] }
       s.partOf (s.cur / 4 * 4 + 1) ≠ none ∧ s.partHas probeJob.part (s.cur / 4 * 4 + 1) = false ∧ s.windowClash s.cur 1 300 10 = false
        ∧ (300 : BitVec 10).toNat + cnt10 10 ≤ storeRows s.cur)
    ∧ (let s := { State.reset with cur := 448 }
       448 ≤ s.cur ∧ (0 : BitVec 10).toNat + cnt10 0 ≤ storeRows s.cur) := by decide +kernel

theorem witness_MatrixOperationsIssueCommands :
    (let s := leased [(0, .held)] id
     s.leaseOf s.cur s.curB = .held ∧ s.leaseBound s.cur s.curB = false ∧ ((s.me.queue 2).filter Cmd.isArray).length < 8
      ∧ (60 : BitVec 10).toNat + cnt10 4 ≤ s.me.accRows ∧ entOk (s.me.fmtEnt 2) = true ∧ entAF (s.me.fmtEnt 2) ≠ 4
      ∧ s.me.busyGroup true (60 / 4) ((60 + cnt10 4 - 1) / 4) = none)
    ∧ (let s := { leased [(0, .held)] id with clusters := [(0, { lease := [(0, .held)], tile := some { code := 0, kp := 32, els := [] } })] }
       s.tileCode s.cur s.curB = some (entBF (s.me.fmtEnt 2)) ∧ s.leaseOf s.cur s.curB = .held)
    ∧ ((running id).leaseOf 0 0 = .none ∧ (running id).me.fault = none)
    ∧ (let s := running id
       (15 : BitVec 8).toNat < s.me.accRows / 4 ∧ entOF (s.me.fmtEnt 2) ≠ 5 ∧ (8 : BitVec 14).toNat + accRdRows (arrW (s.narrow s.cur s.curB)) (entOF (s.me.fmtEnt 2)) ≤ s.me.rows
        ∧ (8 : BitVec 14).toNat + 4 * arrW (s.narrow s.cur s.curB) / 128 ≤ s.me.rows ∧ s.me.busyGroup false 15 15 = none) := by decide +kernel

/-- An array operation at the head of engine 2 of bank 0 of unit 0, of format 0; with fb holding a row. -/
def arrayState (op : ArrOp) (l : List FRow) (r : Option ArrRun) : State :=
  running (fun k => { k with cmds := [(2, [{ seq := 4, pc := 0, epoch := 0, op := .array op 0 1 0 }])], fifo := [(0, { rows := l }), (1, { rows := l })], run := r })

/-- An accumulator access of group 0 at scratchpad row 0. -/
def accState (rd : Bool) : State :=
  running (fun k => { k with cmds := [(2, [{ seq := 4, pc := 0, epoch := 0, op := .acc rd 0 0 0 }])] })

theorem witness_MatrixOperationsPerform :
    (let s := arrayState .mma [{ row := {}, eng := 3, epoch := 0 }] none
     (s.core 0).freeze = 0 ∧ (∃ c ∈ (s.bank 0 0).firstArray, s.arrNext 0 0 c ≠ none ∧ ((s.bank 0 0).dfifo 1).piece 0 1024 ≠ none)
      ∧ (s.bank 0 0).firstArray.map (fun c => (s.arrNext 0 0 c).map (fun x => x.1)) = some (some 1)
      ∧ ∀ c ∈ (s.bank 0 0).firstArray, ClearTo (s.bank 0 0) c (fun p => p.isAcc = false))
    ∧ (let s := arrayState .mzero [] (some { seq := 4 })
       (s.bank 0 0).run = some { seq := 4 } ∧ (s.bank 0 0).firstArray.map (fun c => (c.seq, s.arrNext 0 0 c)) = some (4, none)
      ∧ ∀ c ∈ (s.bank 0 0).firstArray, ClearTo (s.bank 0 0) c (fun p => p.isAcc = false))
    ∧ (let s := accState true
       (s.core 0).freeze = 0 ∧ (((s.bank 0 0).queue 2).find? Cmd.isAcc).map (fun c => c.op) = some (.acc true 0 0 0)
        ∧ (∀ c ∈ ((s.bank 0 0).queue 2).find? Cmd.isAcc, ClearTo (s.bank 0 0) c (fun p => s.arrNext 0 0 p = none))
        ∧ (s.writeRows 0 0 2 0 0 (accRdOut (s.cluster 0) (arrW (s.narrow 0 0)) 0 0)).toOption.isSome = true)
    ∧ (let s := accState false
       (((s.bank 0 0).queue 2).find? Cmd.isAcc).map (fun c => c.op) = some (.acc false 0 0 0)
        ∧ (s.readRows 0 0 2 0 0 (4 * arrW (s.narrow 0 0) / 128)).toOption.isSome = true) := by unfold ClearTo; decide +kernel

/-- The running job with that tensor and view, the form in copy registers 1 (and 2, 3) of engines 3 and 4, and row address 512 in register 5. -/
def copying (s : State) : State :=
  withTens (s.onBank 0 0 (fun k => { k with c := [(49, wholeForm), (53, 512), (65, wholeForm), (69, 512)] }))

theorem witness_CopyCommandsIssueWithTheirChecks :
    (let s := copying (running id)
     s.me.job = some probeJob ∧ s.me.places 3 < 8 ∧ s.me.places 4 < 8 ∧ (s.me.rdC 3 5).toNat / 512 + cnt14 15 ≤ s.me.rows
      ∧ (s.checkRun probeJob s.cur (s.me.rdC 3 1) true false (captured s.me 3 .cpy 1 5 15).point (cnt14 15)).toOption.isSome = true
      ∧ (s.checkRun probeJob s.cur (s.me.rdC 4 1) false true (captured s.me 4 .cpy 1 5 15).point (cnt14 15)).toOption.isSome = true
      ∧ 1 + (cnt10 8 - 1) / 128 < s.me.rows ∧ (s.checkView probeJob s.cur (s.me.rdC 3 1) true false).toOption = some (wholeView, tens)
      ∧ (∀ c ∈ s.me.queue 4, c.isBincfg = false) ∧ (s.checkView probeJob s.cur (s.me.rdC 4 1) false true).toOption = some (wholeView, tens)
      ∧ 1 + 5 ≤ s.me.rows ∧ s.me.rdC 3 2 = 0 ∧ tens.fmt ≠ 2 ∧ tens.fmt ≠ 3 ∧ tens.fmt ≠ 4 ∧ s.me.fault = none ∧ s.me.rows < 1 + cnt14 16)
    ∧ (let s := { copying (running id) with views := [(3, { wholeView with box := { lo := [0, 0, 0, 0, 0, 0], hi := [512, 1, 1, 1, 1, 1] } })] }
       s.me.fault = none ∧ (s.checkRun probeJob s.cur (s.me.rdC 3 1) true false (captured s.me 3 .cpy 1 5 5).point (cnt14 5)).toOption = none)
    ∧ (let s := { copying (running id) with views := [(3, { wholeView with w := false })] }
       (s.checkView probeJob s.cur (s.me.rdC 4 1) false true).toOption = none)
    ∧ (let s := { copying (running (fun k => k.onSq 4 (fun r => { r with nb := 2, sp := 1, cap := [(0, 1), (1, 1)] }))) with
          tensors := [(5, some { tens with ndim := 2, ext := [1024, 2, 1, 1, 1, 1], tsh := [1024, 1, 1, 1, 1, 1], order := [0, 1, 0, 0, 0, 0] })]
          views := [(3, { wholeView with box := { lo := [0, 0, 0, 0, 0, 0], hi := [1024, 2, 1, 1, 1, 1] } })] }
       ∀ x ∈ (s.checkView probeJob s.cur (s.me.rdC 4 1) false true).toOption, (s.me.sq 4).binFlt x.2 x.1.box (captured s.me 4 .scatb 1 5 8) = none) := by
  decide +kernel

theorem witness_ReductionsOfOneAndTwoViews :
    (let s := withTens ((running id).onBank 0 0 (fun k => { k with c := [(49, wholeForm), (50, wholeForm), (53, 512)] }))
     s.me.rdC 3 2 ≠ 0 ∧ tens.fmt ∉ [2, 3, 4] ∧ (wholeView.box.region (captured s.me 3 .reduce 1 5 0).point).firstOut wholeView.box = none
      ∧ (s.checkView probeJob s.cur (s.me.rdC 3 2) true false).toOption = some (wholeView, tens))
    ∧ (let s := { withTens (running (fun k => { k with c := [(49, wholeForm)] })) with tensors := [(5, some { tens with fmt := 3 })] }
       s.viewOf 0 (s.me.rdC 3 1) = some wholeView ∧ (s.tensor 5).map (fun t => t.fmt) = some 3 ∧ s.me.fault = none ∧ 3 ∈ [2, 3, 4]) := by decide +kernel

theorem witness_CopyRegistersAndSeqgo :
    (5 : BitVec 3).toNat < 6 ∧ (∀ c ∈ (running id).me.queue 3, c.isBincfg = false ∧ c.isScatb = false)
    ∧ (let s := running (fun k => { k with imem := [(8192 * 3 + 1, BitVec.ofNat 33 0b011_010_0000_0001_0101_00000000000001)] })
       s.me.templateAt 3 ≠ none ∧ s.me.generating 3 = false ∧ s.me.places 3 < 8 ∧ (s.me.stream 3).lp0.act = false ∧ (s.me.stream 3).lp1.act = false)
    ∧ ((running id).me.templateAt 3 = none ∧ (running id).me.fault = none) := by decide +kernel

/-- A Crossing of one slot of two rows between banks of unit 0, its slot tensor 5 on handle 3, in this state. -/
def crossing (cnt : Nat) (st : SlotSt) (aw : Word) (arr : List (Nat × Bool × BitVec 15 × Nat)) : Crossing :=
  { part := 0, scoreU := 0, sid := 1, rcoreU := 0, rid := 2, rbank := 0, nslots := 1, fmt := 0, rows := 2, aw := aw, tid := 5, cnt := cnt
    slots := [(0, { st := st, form := wholeForm })], arr := arr }

/-- The running job with that Crossing as its send id 1 and receive id 2, ids and form in the exchange registers. -/
def withCrossing (c : Crossing) : State :=
  let s := withTens (running (fun k => { k with e := [(1, 1), (2, 2), (3, 0x100003)] }))
  { s.setCore 0 { s.core 0 with sends := [(1, some 9)], recvs := [(2, some 9)] } with crossings := [(9, some c)]
                                                                                      views := [(3, { wholeView with box := { lo := [0, 0, 0, 0, 0, 0], hi := [256, 1, 1, 1, 1, 1] } })] }

theorem witness_CrossingInstructionsTakeSlots :
    (let c := crossing 1 .free 0xFFFFFFFF []
     let s := withCrossing c
     s.sendEntry s.cur ((s.me.rdE 1).toNat % 8) = some (9, c) ∧ s.me.job = some probeJob
      ∧ (∀ x ∈ (s.checkView probeJob s.cur ((s.me.rdE 3).setWidth 32) true false).toOption, x.2.fmt = c.fmt ∧ x.1.box.empty = false
        ∧ x.1.box.runFlt wholeForm (startPoint x.2.fmt x.1.box.lo) x.1.box.volume = none ∧ x.1.box.volume % rowElems x.2.fmt = 0 ∧ x.1.box.volume / rowElems x.2.fmt ≤ c.rows)
      ∧ (s.checkView probeJob s.cur ((s.me.rdE 3).setWidth 32) true false).toOption.isSome = true ∧ s.me.places 5 < 8 ∧ c.cnt ≠ 0 ∧ (c.slot c.freeSlot).st = .free)
    ∧ ((crossing 0 .held 0xFFFFFFFF []).cnt = 0)
    ∧ (let c := crossing 0 .arrived 0xFFFFFFFF [(0, true, 5, 2)]
       (withCrossing c).recvEntry 0 (((withCrossing c).me.rdE 2).toNat % 8) = some (9, c) ∧ c.arr = (0, true, 5, 2) :: [] ∧ (withCrossing c).me.isStatic = false)
    ∧ (let c := crossing 0 .arrived 0xFFFFFFFF [(0, true, 5, 2)]
       let s := (withCrossing c).onMe (fun k => k.onJob (fun j => { j with static := true }))
       s.me.isStatic = true ∧ s.me.job.bind (fun j => j.passed) ≠ some 5 ∧ s.recvEntry 0 ((s.me.rdE 2).toNat % 8) ≠ none
        ∧ (s.onMe (fun k => k.onJob (fun j => { j with passed := some 5 }))).me.job.bind (fun j => j.passed) = some 5)
    ∧ (let s := { withCrossing (crossing 1 .free 0xFFFFFFFF []) with
          tensors := [(5, some { tens with fmt := 5 })]
          views := [(3, { wholeView with box := { lo := [1, 0, 0, 0, 0, 0], hi := [257, 1, 1, 1, 1, 1] } })] }
       ∀ x ∈ (s.checkView probeJob s.cur ((s.me.rdE 3).setWidth 32) true false).toOption,
        x.1.box.empty = false ∧ x.1.box.runFlt wholeForm (startPoint x.2.fmt x.1.box.lo) x.1.box.volume ≠ none)
    ∧ ((running id).me.fault = none ∧ (running id).sendEntry 0 0 = none ∧ (running id).recvEntry 0 0 = none) := by decide +kernel

/-- The running job with bank unit 40 (selector 2^5 + 8) in its partition, and exchange registers 1 and 2. -/
def exchanging (x y : DWord) (f : Bank → Bank) : State :=
  withTens (withPart (fun p => { p with bankUnits := [40] }) (running (fun k => f { k with e := [(1, x), (2, y)] })))

theorem witness_AtomicsAndBankUnitCommandsIssue :
    (let s := exchanging 0x10FF8 64 id
     s.me.job = some probeJob ∧ s.me.places 5 < 8 ∧ (s.flatAt probeJob s.cur 8 (s.me.rdE 1)).toOption = some tens
      ∧ (s.flatAt probeJob s.cur 4 (s.me.rdE 1)).toOption = some tens ∧ 1 ≤ (s.me.rdE 2).toNat ∧ (s.me.rdE 2).toNat ≤ 64
      ∧ ((exchanging 0x10FE0 64 id).me.rdE 1).toNat % 32 = 0 ∧ s.me.fault = none ∧ 64 < (65 : DWord).toNat ∧ (s.me.rdE 1).toNat % 32 ≠ 0)
    ∧ (let sel : DWord := 2 ^ 19 * 256 + 0
       sel.toNat < 2 ^ 28 ∧ sel.toNat / 32 % 32 < 24 ∧ sel.toNat / 2 ^ 19 % 512 = 256 ∧ sel.toNat / 2 ^ 11 % 256 = 0 ∧ 256 < (sel + 2 ^ 11).toNat / 2 ^ 11 % 256 + (sel + 2 ^ 11).toNat / 2 ^ 19 % 512
        ∧ (0 : DWord).toNat / 2 ^ 19 % 512 = 0 ∧ (0 : DWord).toNat / 32 % 32 < 24
        ∧ (withPart (fun p => { p with bankUnits := [selUnit sel] }) (running id)).parts.any (fun p => p.2.any (fun x => x.cfg.bankUnits.contains (selUnit sel))) = true)
    ∧ ((exchanging 0 0 id).me.isStatic = false ∧ ∀ q ∈ (exchanging 0 0 id).me.queue 5, q.isAaddnr = false ∧ q.holdsWait 0 = false)
    ∧ (let s := exchanging 0 0 (fun k => k.onJob (fun j => { j with static := true, passed := some 5 }))
       s.me.job.any (fun j => j.static && decide (j.passed = some 5)) = true)
    ∧ ((exchanging 0x12000 0 id).flatAt probeJob 0 4 0x12000).toOption = none ∧ ¬ ((2 ^ 28 : DWord).toNat < 2 ^ 28)
    ∧ 8 ≤ (exchanging 0 0 (fun k => { k with cmds := [(5, (List.range 8).map (fun n => { seq := n, pc := 0, epoch := 0, op := .bkctx 0 0 }))] })).me.places 5 := by decide +kernel

/-- A command with number 4 of engine `e` of bank 0 of unit 0, that has departed for row 0 of tile 0 of the tensor if `dep`, in the running job changed by `f`. -/
def commanded (e : Nat) (op : CmdOp) (dep : Bool) (f : Bank → Bank) : State :=
  withTens (running (fun k => f { k with
    cmds := [(e, [{ seq := 4, pc := 0, epoch := 0, op := op, fresh := false }])]
    departed := if dep then [{ src := 4, row := 0, x := { tid := 5, tile := 0, tier := 2, stack := 0, base := 0x8000, w := true }, due := some 0 }] else [] }))

/-- The state with that translation of tile 0 in the buffer of unit 0. -/
def buffered (s : State) : State := s.setCore 0 { s.core 0 with ttb := [{ tid := 5, tile := 0, tier := 2, stack := 0, base := 0x8000, w := true }] }

theorem witness_TokensLandingsAndDepartures :
    (let s := commanded 3 (.push 9 3) false (fun k => { k with tok := [(9, { bound := true, prod := 3, cons := 1, toks := [1, 2, 3, 4, 5] })] })
     (((s.bank 0 0).queue 3).find? Cmd.isPush).map (fun c => c.op) = some (.push 9 3) ∧ (s.bank 0 0).before 3 4 = [] ∧ ((s.bank 0 0).tokF 9).toks.length + 3 ≤ 8
      ∧ s.mayPush 0 0 3 = true)
    ∧ (let l : Landing := { addr := 0, n := 2 ^ 32 - 1, eng := some 5, epoch := 8191 }
       let s := withPad [(0, arrivalRow)] 0
       let s1 := s.onBank 0 0 (fun k => { k with landings := [l], arr := [(0, { live := true })] })
       (s1.bank 0 0).landings = l :: [] ∧ (s1.core 0).freeze = 0 ∧ (s1.bank 0 0).inTransit = false ∧ 0 < (s1.bank 0 0).rows ∧ s1.armed 0 0 0 = true
        ∧ s.armed 0 0 0 = false ∧ s1.armed 0 0 32 = false)
    ∧ (let s := buffered (commanded 0 (.ldg 3 0x10008) false id)
       ((s.bank 0 0).findCmd 4).map Prod.fst = some 0 ∧ (∀ x ∈ (s.bank 0 0).findCmd 4, x.2.fresh = false ∧ s.mayPerform 0 0 0 x.2 = true ∧ s.undeparted 0 0 0 x.2 0 = [(tens, 0, [8], false)])
        ∧ s.ownsSlot 0 2 0 = false ∧ s.departFrame 0 tens 0 (s.bank 0 0).pasid [8] ≠ none)
    ∧ (let s := commanded 0 (.ldg 3 0x10008) false id
       s.departFrame 0 tens 0 (s.bank 0 0).pasid [8] = none ∧ tens.tiled = true ∧ (tens.tile 0).tier ≠ 3 ∧ s.look 0 5 0 = none ∧ s.translate tens 0 Pasid.none false = .frame 2 0 0x8000) := by
  decide +kernel

/-- The running job with a load of tile 0 to issue, in a core that owns slot 3 of near-memory stack 0. -/
def slotted : State := { buffered (commanded 0 (.ldg 3 0x10008) false id) with stackSt := [(64, { cal := [(3, 0x8000)] })] }

theorem witness_DeparturesInSlots :
    (let s := slotted
       let m : Missed := { src := 4, row := 0, tile := 0, tier := 2, stack := 0, slot := 3, at_ := 0 }
       let s1 := { s.onBank 0 0 (fun k => { k with missed := [m] }) with now := 64 }
       s.ownsSlot 0 2 0 = true ∧ s.freeSlotAt 0 2 0 s.now = some 3 ∧ (s.bank 0 0).missedOf 4 0 0 = none
        ∧ (∀ c ∈ (s.bank 0 0).cmd 0 4, s.earlierLeaves 0 0 0 c 0 (2, 0) = false) ∧ s.departFrame 0 tens 0 (s.bank 0 0).pasid [8] ≠ none
        ∧ { s with now := 1 }.freeSlotAt 0 2 0 1 = none
        ∧ (s1.bank 0 0).missedOf 4 0 0 = some m ∧ m.at_ < s1.now ∧ m.slot ∈ slotsAt 2 s1.now ∧ m.slot ∉ slotsAt 2 63
        ∧ (s.setCore 0 { s.core 0 with ttb := [] }).departFrame 0 tens 0 (s.bank 0 0).pasid [8] = none) := by
  decide +kernel

/-- What a flat access by command 4 of engine `e` to address `a` needs, whether it reads or changes it. -/
def flatReady (s : State) (e : Nat) (c : Cmd) (a : DWord) (kind : AccKind) (n : Nat) : Prop :=
  (s.bank 0 0).cmd e 4 = some c ∧ s.window (s.bank 0 0).part a.toNat = some tens ∧ s.mayPerform 0 0 e c = true ∧ s.arrived 0 0 e c 0 = true ∧ (s.bank 0 0).wrote 4 0 = false
    ∧ (∀ j ∈ (s.bank 0 0).job, j.reaches tens (dieOf 0) = true) ∧ s.flatFlt tens a (decide (kind ≠ .read)) = none ∧ tens.pad (tens.ofFlat a.toNat).2 = false
    ∧ ((s.lend 0 0 4 0).reach 0 0 e c.epoch tens (tens.ofFlat a.toNat).1 kind [(tens.ofFlat a.toNat).2]).toOption.map Prod.fst = some (physAddr 2 0 0x8000)
    ∧ s.poisoned (physAddr 2 0 0x8000 + (tens.ofFlat a.toNat).2) n = false

theorem witness_FlatAccessesPerform :
    flatReady (commanded 0 (.ldg 3 0x10FF8) true id) 0 { seq := 4, pc := 0, epoch := 0, op := .ldg 3 0x10FF8, fresh := false } 0x10FF8 .read 8
    ∧ flatReady (commanded 0 (.stg 0x10FF8 7) true id) 0 { seq := 4, pc := 0, epoch := 0, op := .stg 0x10FF8 7, fresh := false } 0x10FF8 .write 8
    ∧ (let s := commanded 5 (.atom 9 1 3 0x10FF8 7 0) true id
       let c : Cmd := { seq := 4, pc := 0, epoch := 0, op := .atom 9 1 3 0x10FF8 7 0, fresh := false }
       flatReady s 5 c 0x10FF8 .atomic 8 ∧ ((s.bank 0 0).queue 5).find? Cmd.isAtom = some c ∧ ∃ q ∈ atomOps 8 0 7 0, q.1 = 9)
    ∧ flatReady (commanded 5 (.aaddnr false 0x10FF8 7) true id) 5 { seq := 4, pc := 0, epoch := 0, op := .aaddnr false 0x10FF8 7, fresh := false } 0x10FF8 .atomic 4
    ∧ (let c : Cmd := { seq := 4, pc := 0, epoch := 0, op := .hist 2 { form := wholeForm, tid := 5, box := wholeBox } 0, fresh := false }
       let s := commanded 0 c.op false id
       ((s.bank 0 0).queue 0).find? (fun c => match c.op with | .hist _ _ _ => true | _ => false) = some c ∧ (s.bank 0 0).job = some probeJob ∧ s.tensor 5 = some tens
        ∧ s.mayPerform 0 0 0 c = true ∧ s.allArrived 0 0 0 c = true ∧ (s.histRead 0 0 0 { tens with fmt := 2 } wholeBox 0 2).toOption.isSome = true) := by
  unfold flatReady; decide +kernel

/-- A copy of one row between that tensor and scratchpad row 1, with command number 4. -/
def copyOf (kind : CopyKind) : CopyCmd :=
  { kind := kind, form := wholeForm, pad := 512, idx := 0, n := 1, coord := [0, 0, 0, 0, 0, 0], chk := some { form := wholeForm, tid := 5, box := wholeBox } }

theorem witness_GlobalRowsAndCopyRows :
    (let s := buffered (withTens (running id))
     let cs := rowCoords 0 wholeBox [0, 0, 0, 0, 0, 0] 0
     cs.length = rowElems tens.fmt ∧ (s.readRun 0 0 3 0 tens cs).toOption.isSome = true ∧ (s.writeRun 0 0 4 0 tens cs {}).toOption.isSome = true)
    ∧ (let s := commanded 3 (.copy (copyOf .cpy)) true id
       ((s.bank 0 0).cmd 3 4).map (fun c => c.op) = some (.copy (copyOf .cpy)) ∧ (∀ c ∈ (s.bank 0 0).cmd 3 4, s.mayPerform 0 0 3 c = true) ∧ s.tensor 5 = some tens
        ∧ (∀ c ∈ (s.bank 0 0).cmd 3 4, s.arrived 0 0 3 c 0 = true) ∧ (s.bank 0 0).wrote 4 0 = false ∧ ((s.lend 0 0 4 0).readRun 0 0 3 0 tens (rowCoords 0 wholeBox (startPoint 0 (copyOf .cpy).point) 0)).toOption.isSome = true ∧ ∀ x ∈ ((s.lend 0 0 4 0).readRun 0 0 3 0 tens (rowCoords 0 wholeBox (startPoint 0 (copyOf .cpy).point) 0)).toOption,
            (x.2.writeRow 0 0 3 0 1 x.1).toOption.isSome = true)
    ∧ (let s := commanded 4 (.copy (copyOf .cpy)) true id
       ((s.bank 0 0).cmd 4 4).map (fun c => c.op) = some (.copy (copyOf .cpy)) ∧ ((s.lend 0 0 4 0).readRow 0 0 4 0 1).toOption.isSome = true ∧ (∀ x ∈ ((s.lend 0 0 4 0).readRow 0 0 4 0 1).toOption,
          (x.2.writeRun 0 0 4 0 tens (rowCoords 0 wholeBox (startPoint 0 (copyOf .cpy).point) 0) x.1).toOption.isSome = true))
    ∧ (let s := commanded 3 (.copy (copyOf .gath)) true id
       s.gathBehind 0 0 3 (copyOf .gath) tens wholeBox 0 = false ∧ (∀ c ∈ (s.bank 0 0).cmd 3 4, s.arrived 0 0 3 c 0 = true) ∧ ((s.lend 0 0 4 0).readRow 0 0 3 0 0).toOption.isSome = true
        ∧ (s.checkRun probeJob 0 wholeForm true false ((copyOf .gath).point.take 1 ++ [0] ++ (copyOf .gath).point.drop 2) 1).toOption.isSome = true
        ∧ (∀ x ∈ ((s.lend 0 0 4 0).readRow 0 0 3 0 0).toOption,
        ∀ z ∈ (x.2.checkRun probeJob 0 wholeForm true false ((copyOf .gath).point.take 1 ++ [0] ++ (copyOf .gath).point.drop 2) 1).toOption, z.tid = 5))
    ∧ (let s := commanded 3 (.copy (copyOf .pusha)) false id
       (copyOf .pusha).done.length = 0 ∧ ((s.bank 0 0).dfifo 0).rows.length < 16 ∧ (s.readRow 0 0 3 0 1).toOption.isSome = true) := by decide +kernel

/-- The Crossing's `XSEND` of one row as command 4, with these rows sent. -/
def sendState (c : Crossing) (done : List Nat) (f : Bank → Bank) : State :=
  let s := withCrossing c
  s.onBank 0 0 (fun k => f { k with
    cmds := [(5, [{ seq := 4, pc := 0, epoch := 0, op := .xsend 9 0 true 3 { form := wholeForm, tid := 5, box := { lo := [0, 0, 0, 0, 0, 0], hi := [128, 1, 1, 1, 1, 1] } } 1 done }])]
    departed := [{ src := 4, row := 0, x := { tid := 5, tile := 0, tier := 2, stack := 0, base := 0x8000, w := true }, due := some 0 }] })

theorem witness_CrossingsDeliverAndReturnSlots :
    (let c := { crossing 1 .filling 0xFFFFFFFF [] with slots := [(0, { st := .filling, form := wholeForm, frame := some { tier := 2, stack := 0, fsz := 0, base := 24, part := 0 } })] }
     let s := sendState c [] id
     ((s.bank 0 0).cmd 5 4).isSome = true ∧ (∀ q ∈ (s.bank 0 0).cmd 5 4, s.mayPerform 0 0 5 q = true ∧ s.arrived 0 0 5 q 0 = true) ∧ (s.bank 0 0).wrote 4 0 = false ∧ get none s.crossings 9 = some c
      ∧ ((s.lend 0 0 4 0).xsendRow 0 0 0 tens { lo := [0, 0, 0, 0, 0, 0], hi := [128, 1, 1, 1, 1, 1] } c 0 0).toOption.isSome = true)
    ∧ (let c := crossing 1 .filling 0xFFFFFFFF []
       ((sendState c [0] id).bank 0 0).cmd 5 4 ≠ none ∧ (∀ q ∈ ((sendState c [0] id).bank 0 0).cmd 5 4, (sendState c [0] id).mayPerform 0 0 5 q = true) ∧ c.aw = 0xFFFFFFFF)
    ∧ (let c := crossing 1 .filling 0 []
       let s := sendState c [0] id
       c.aw ≠ 0xFFFFFFFF ∧ (s.bank c.rcoreU c.rbank).job ≠ none ∧ 0 < (s.bank c.rcoreU c.rbank).rows ∧ (s.bank 0 0).fault = none ∧ s.armed 0 0 0 = false
        ∧ (let s1 := s.setCore 0 { s.core 0 with pad := [(0, { data := BitVec.ofNat 4096 (5 * 2 ^ 16 * 2 ^ 96) })] }
           let s2 := s1.onBank 0 0 (fun k => { k with arr := [(0, { live := true })] })
           s2.armed 0 0 0 = true ∧ (arrField (s2.row 0 0 0) 0 3).getLsbD 18 = true ∧ s1.armed 0 0 0 = false))
    ∧ (let f : Frame := { tier := 2, stack := 0, fsz := 0, base := 24, part := 0 }
       let c := { crossing 0 .releasing 0xFFFFFFFF [] with slots := [(0, { st := .releasing, form := wholeForm, frame := some f })] }
       let s := withCrossing c
       get none s.crossings 9 = some c ∧ (c.slot 0).st = .releasing ∧ (c.slot 0).frame = some f ∧ s.tensor c.tid = some tens
        ∧ (get {} s.views (formHandle (c.slot 0).form) : View).retired = false ∧ (get {} s.views (formHandle (c.slot 0).form) : View).gen ≠ 4095
        ∧ ((crossing 0 .releasing 0xFFFFFFFF []).slot 0).frame = none) := by decide +kernel

/-- A nest of engine 3 at ordinal `k` with two instances of a copy of one row. -/
def nestAt (k : Nat) : Nest :=
  { seq := 3, x := [0, 0, 0, 0, 0, 0], l := [2, 1, 1, 1, 1, 1], s := [(0, 128)], n := 1, tmpl := { copyOf .cpy with chk := none }, pc := 1, epoch := 0, k := k, gen := true }

theorem witness_BinsReductionsAndNests :
    (let s := commanded 3 (.copy { kind := .bincfg, pad := 0 }) false id
     let s1 := s.setCore 0 { s.core 0 with pad := [(4, { data := 256 })] }
     (((s.bank 0 0).queue 3).find? Cmd.isBincfg).isSome = true ∧ (s.readRows 0 0 3 0 0 5).toOption.isSome = true ∧ (s1.readRows 0 0 3 0 0 5).toOption.isSome = true
      ∧ lane (s1.row 0 0 4).data 0 = 256 ∧ lane (s1.row 0 0 4).data 1 = 0 ∧ (∀ j, 2 ≤ j → j < 128 → lane (s1.row 0 0 4).data j = 0)
      ∧ lane (s.row 0 0 4).data 0 = 0 ∧ (s.bank 0 0).fault = none)
    ∧ (let x := { copyOf .scatb with n := 1 }
       let y := { tens with ndim := 2, ext := [1024, 2, 1, 1, 1, 1], tsh := [1024, 1, 1, 1, 1, 1], order := [0, 1, 0, 0, 0, 0] }
       let s := { buffered (commanded 4 (.copy x) false (fun k => k.onSq 4 (fun r => { r with nb := 2, sp := 1, cap := [(0, 1), (1, 1)] }))) with tensors := [(5, some y)] }
       (((s.bank 0 0).queue 4).find? Cmd.isScatb).map (fun c => (c.seq, c.op)) = some (4, .copy x)
        ∧ ∀ c ∈ ((s.bank 0 0).queue 4).find? Cmd.isScatb, s.mayPerform 0 0 4 c = true ∧ s.allArrived 0 0 4 c = true ∧ (s.scatRows 0 0 c x y wholeBox ((s.bank 0 0).sq 4) 0 1).toOption.isSome = true)
    ∧ (let x := { copyOf .reduce with n := 0, chk := some { form := wholeForm, tid := 5, box := { lo := [0, 0, 0, 0, 0, 0], hi := [2, 1, 1, 1, 1, 1] } } }
       let s := buffered (commanded 3 (.copy x) false id)
       (s.redViews x).isSome = true ∧ (∀ c ∈ (s.bank 0 0).cmd 3 4, s.mayPerform 0 0 3 c = true ∧ s.allArrived 0 0 3 c = true) ∧ ∀ v ∈ s.redViews x, v.1.redPoints 0 v.2.2 ≠ [] ∧ (s.products 0 0 3 0 v.1 v.2.1 (v.1.redPoints 0 v.2.2)).toOption.isSome = true ∧ ((v.2.2.map v.1.redTile).eraseDups).length = 1
        ∧ (s.writeRow 0 0 3 0 1 {}).toOption.isSome = true)
    ∧ (let s := withTens (running (fun k => { k with nests := [(3, some (nestAt 1))] }))
       (s.bank 0 0).nest 3 = some (nestAt 1) ∧ (nestAt 1).gen = true ∧ (nestAt 1).k < (nestAt 1).total ∧ (nestAt 2).total ≤ (nestAt 2).k ∧ (s.core 0).freeze = 0
        ∧ placesOf false (putBefore 3 { seq := (s.bank 0 0).seq, pc := 1, epoch := 0, op := .copy ((nestAt 1).instance_ 1) } ((s.bank 0 0).queue 3)) ≤ 8
        ∧ 512 * (512 / 512 + 1 * 1) < 2 ^ 32 ∧ 2 ^ 32 ≤ 512 * (((0xFFFFFE00 : Word).toNat) / 512 + 1 * 1) ∧ (nestAt 1).n ≤ (nestAt 1).l.length ∧ (s.copyCheck 0 0 3 ((s.bank 0 0).iword 3 1) ((nestAt 1).instance_ 1)).toOption.isSome = true
        ∧ ({ s with views := [] }.copyCheck 0 0 3 ((s.bank 0 0).iword 3 1) ((nestAt 1).instance_ 1)).toOption = none) := by decide +kernel


/-- 14 R342: a copy that has passed its check is performed, so a PLAIN tensor that it names is deleted only behind it. -/
theorem test_a_freed_tensor_waits_for_a_checked_copy :
    (let s := commanded 3 (.copy (copyOf .cpy)) true id
     (s.freeTensor tens).tensor 5 = some { tens with freed := true } ∧ (s.freeTensor tens).window 0 tens.wbase = none)
    ∧ ((withTens (running id)).freeTensor tens).tensor 5 = none := by decide +kernel
/-- A request of a view instruction that waits in the running job: operation, rights, box; made with this result where `done`. -/
def viewing (op : Nat) (rights : BitVec 2) (box : Box) (done : Bool) : State :=
  withTens (withPart (fun p => { p with handleQuota := 2 }) (running (fun k => { k with view := some { op := op, form := wholeForm, d := 4, ea := 64, box := box, pers := true, rights := rights, moved := done } })))

/-- A state with a free handle within the quota of a partition can take one, whichever the table chooses. -/
theorem takes_handle (s : State) (p : Nat) (h : ¬ s.handleQuota p ≤ s.handles p) (l : s.lowHandle.isSome = true) : ∃ n, s.takeHandle p = some n := by
  unfold State.takeHandle
  rw [if_neg h]
  split
  · exact ⟨_, rfl⟩
  · exact Option.isSome_iff_exists.mp l

/-- A state with a free frame within the quota of a partition can take one, whichever the pool chooses. -/
theorem takes_frame (s : State) (p tier stack c : Nat) (h : ¬ s.frameQuota p tier stack c ≤ s.framesHeld p tier stack c)
    (l : (s.lowFrame tier stack c).isSome = true) : ∃ f s1, s.takeFrame p tier stack c = some (f, s1) := by
  obtain ⟨a, ha⟩ := Option.isSome_iff_exists.mp l
  unfold State.takeFrame
  rw [if_neg h, ha]
  dsimp only
  by_cases hf : s.frameFree tier stack c (Config.freeFrame s.free * 4 ^ c) = true
  · rw [if_pos hf]; exact ⟨_, _, rfl⟩
  · rw [if_neg hf]; exact ⟨_, _, rfl⟩

/-- A frame taken for a partition is the partition's. -/
theorem part_of_frame {s s1 : State} {p tier stack c : Nat} {f : Frame} (h : s.takeFrame p tier stack c = some (f, s1)) : f.part = p := by
  unfold State.takeFrame at h
  split at h
  · cases h
  · dsimp only at h
    split at h
    · cases h
    · cases h; rfl

theorem witness_ViewMovesAndAnswers :
    (let s := { viewing 0 3 wholeBox false with views := [] }
     s.viewOf 0 wholeForm = none ∧ (s.bank 0 0).fault = none ∧ (s.bank 0 0).job = some probeJob)
    ∧ (let s := viewing 0 3 wholeBox false
       (s.bank 0 0).view.map (fun q => q.moved) = some false ∧ s.viewOf 0 wholeForm = some wholeView ∧ s.tensor wholeView.tid = some tens
        ∧ (∀ c ∈ (s.bank 0 0).queue 0, c.isPush = true)
        ∧ (∀ d, d < 6 → dim wholeBox.lo d ≤ dim wholeBox.lo d ∧ dim wholeBox.hi d ≤ dim wholeBox.hi d) ∧ wholeView.r = true ∧ wholeView.w = true
        ∧ (s.jobViews 0).length < 32 ∧ ({ s with parts := [] } : State).handleQuota 0 ≤ ({ s with parts := [] } : State).handles 0)
    ∧ (∃ n, (viewing 0 3 wholeBox false).takeHandle 0 = some n)
    ∧ wholeView.holder ≠ .system ∧ (⟨[0, 0, 0, 0, 0, 0], [2049, 1, 1, 1, 1, 1]⟩ : Box).empty = false ∧ dim wholeView.box.hi 0 < 2049
    ∧ ({ viewing 0 1 wholeBox false with views := [(3, { wholeView with r := false })] }.viewOf 0 wholeForm) = some { wholeView with r := false }
    ∧ (let s := viewing 3 0 wholeBox true
       (s.bank 0 0).view.map (fun q => q.moved) = some true ∧ (s.core 0).freeze = 0) := by
  refine ⟨by decide +kernel, by decide +kernel, takes_handle _ _ (by decide +kernel) (by decide +kernel), by decide +kernel, by decide +kernel, by decide +kernel, by decide +kernel, by decide +kernel⟩

theorem witness_ElisionScrubsAndDeletes :
    (let y := { tens with covered := true }
     let s : State := { State.reset with tensors := [(5, some y)] }
     s.tensor 5 = some y ∧ y.id = 5 ∧ 0 < y.tileCount ∧ (y.tile 0).cov ≠ 2 ∧ s.covCount y 0 = 0 ∧ (y.tile 0).mf = false ∧ s.tileBusy y 0 = false)
    ∧ (let f : Frame := { tier := 2, stack := 0, fsz := 0, base := 8, part := 0 }
       let s : State := { State.reset with scrubs := [{ frame := f, slot := some (9, 0) }], crossings := [(9, some (crossing 0 .releasing 0 []))] }
       s.scrubs[0]? = some { frame := f, slot := some (9, 0) } ∧ get none s.crossings 9 = some (crossing 0 .releasing 0 [])
        ∧ (let g : Frame := { f with part := 1 }
           let e : S2 := { v := true, tier := 2, mbase := 16 }
           let s1 : State := { s with scrubs := [{ frame := g }], stage2 := [(s2Key 1 0 8, e)] }
           stage2On f.part = false ∧ stage2On g.part = true ∧ g.tier ≠ 3 ∧ get {} s1.stage2 (s2Key g.part g.fsz (g.base * 4096 / (4096 * 4 ^ g.fsz))) = e ∧ e.tier.toNat = g.tier
            ∧ e.stack.toNat = g.stack ∧ stackHolds g.tier g.stack (e.mbase.toNat * 4096) 4096 = true ∧ { e with tier := 1 }.tier.toNat ≠ g.tier))
    ∧ (let y := { tens with covered := true, tiles := [(0, { cov := 2 }), (1, { cov := 2 })] }
       let s : State := { State.reset with tensors := [(5, some y)] }
       s.tensor 5 = some y ∧ y.covered = true ∧ (∀ v ∈ s.views, v.2.used = true → v.2.tid ≠ 5) ∧ (∀ n, n < y.tileCount → (y.tile n).cov = 2) ∧ s.slotOf 5 0 = none ∧ s.tensorBusy 5 = false)
    ∧ (let y := { tens with freed := true }
       let s : State := { State.reset with tensors := [(5, some y)] }
       s.tensor 5 = some y ∧ y.covered = false ∧ y.freed = true ∧ s.tensorBusy 5 = false) := by
  decide +kernel

/-- The running job with every stream joined. -/
def joined : State := running (fun k => (List.range 6).foldl (fun k e => k.onStream e (fun t => { t with phase := .joined })) k)

theorem witness_JobsEndPauseFreezeAndTick :
    ((joined.bank 0 0).job = some probeJob ∧ probeJob.status = .ready ∧ (joined.core 0).freeze = 0 ∧ (∀ e ∈ probeJob.engines, ((joined.bank 0 0).stream e).phase = .joined)
      ∧ (∀ p ∈ (joined.bank 0 0).cmds, p.2 = []) ∧ ∀ p ∈ (joined.bank 0 0).nests, p.2 = none)
    ∧ (∃ e ∈ probeJob.engines, (((running id).bank 0 0).stream e).phase ≠ .joined)
    ∧ (let s := running (fun k => k.onJob (fun j => { j with static := true, paused := true, pauseBy := some 5 }))
       (s.bank 0 0).job = some { probeJob with static := true, paused := true, pauseBy := some 5 } ∧ (s.core 0).kbank = 0 ∧ (s.core 0).freeze = 0 ∧ s.now % 64 = 0
        ∧ (∀ p ∈ (s.bank 0 0).cmds, ∀ c ∈ p.2, p.1 = 2 ∧ s.starvedCmd 0 0 = some c.seq) ∧ ((s.bank 0 0).stream 0).phase = .running ∧ s.remoteWait 0 0 5 = none)
    ∧ (let s := running (fun k => { k with csr := { k.csr with tickcmp := 0, tie := true } })
       let k := s.bank 0 0
       k.ready = true ∧ k.isStatic = false ∧ (s.core 0).freeze = 0 ∧ k.csr.tickcmp.toNat ≤ (s.tickOf 0).toNat ∧ k.csr.th = false ∧ (k.stream 0).phase = .running)
    ∧ ((running id).core 527).freeze = 0 ∧ (let s := running id
       ((s.setCore 0 { s.core 0 with freeze := 1 }).core 0).freeze = 1) := by decide +kernel

theorem witness_DomainPhasesClose :
    (let s := { inDomain 3 7 2 with domains := [(domKey 3 0 7, some { quota := 2, joined := 2, arrivals := 1, departed := 1 })] }
     s.domain ((3 * 2 ^ 20 + 0) * 2 ^ 16 + 7) = some { quota := 2, joined := 2, arrivals := 1, departed := 1 } ∧ (3 : Nat) ≠ 4)
    ∧ (let x : Domain := { quota := 2, joined := 2, arrivals := 2, latches := [(0, 0, 0, 0x10000)] }
       x.arrivals + x.departed = x.quota ∧ x.latches ≠ [])
    ∧ (let s := withPart (fun p => { p with fabric := some (3, 2, 1) }) State.reset
       (s.members 0).2 = 1 ∧ (withPart (fun p => { p with fabric := some (3, 2, 0) }) State.reset).members 0 = (2, 0))
    ∧ (let s := withPart (fun p => { p with fabric := some (3, 2, 1) }) State.reset
       s.domain ((4 * 2 ^ 20 + 3) * 2 ^ 16 + 7) = none ∧ (0 : Nat) ≠ (s.fabricOf 3).2 ∧ 0 < (s.fabricOf 3).1) := by decide +kernel

theorem witness_ViewMovesWaitAndTilesAreElidedInOrder :
    (let s := viewing 2 0 wholeBox false
     let s1 := s.onBank 0 0 (fun k => { k with cmds := [(0, [{ seq := 1, pc := 0, epoch := 0, op := .stg 0x10000 1 }])] })
     (∀ c ∈ (s.bank 0 0).queue 0, c.isPush = true) ∧ ∃ c ∈ (s1.bank 0 0).queue 0, c.isPush = false)
    ∧ (let s : State := { State.reset with uncovs := [⟨5, [0, 1]⟩, ⟨6, [0]⟩] }
       (∀ x ∈ s.uncovs, x.tid = 5 → 0 ∈ x.tiles → ∀ m ∈ x.tiles, 0 ≤ m) ∧ ¬ ∀ x ∈ s.uncovs, x.tid = 5 → 1 ∈ x.tiles → ∀ m ∈ x.tiles, 1 ≤ m)
    ∧ (let f : Frame := { tier := 2, stack := 0, fsz := 0, base := 8, part := 1 }
       let q : Part := { cfg := default, dirty := some (4096, 2), dlTail := 4 }
       let s : State := { State.reset with scrubs := [{ frame := f }], parts := [(1, some q)], stage2 := [(s2Key 1 0 8, { v := true, tier := 2, mbase := 8 })] }
       stage2On 1 = true ∧ s.part 1 = some q ∧ q.dirty = some (4096, 2) ∧ ¬ q.dlTail + q.dlPend.length < 2 ^ 2 + q.dlHead
        ∧ (get {} s.stage2 (s2Key 1 0 8) : S2).v = true ∧ (get {} s.stage2 (s2Key 1 0 8) : S2).tier.toNat = f.tier ∧ (get {} s.stage2 (s2Key 1 0 8) : S2).stack.toNat = f.stack
        ∧ stackHolds f.tier f.stack (8 * 4096) 4096 = true ∧ (get {} s.stage2 (s2Key 1 0 8) : S2).d = false ∧ ({ q with dlTail := 3 } : Part).dlTail + q.dlPend.length < 2 ^ 2 + q.dlHead
        ∧ q.dlTail + q.dlPend.length + 4 ≤ 2 ^ 2 + 4) := by decide +kernel

theorem witness_JobEndPauseAndDomainNews :
    (joined.doneMiss probeJob = none ∧ joined.part 0 = none)
    ∧ (let s := (arrayState .mma [] (some { seq := 4 })).onBank 0 0 (fun k => k.onJob (fun j => { j with static := true, paused := true, status := .ready }))
       (∀ p ∈ (s.bank 0 0).cmds, ∀ c ∈ p.2, p.1 = 2 ∧ s.starvedCmd 0 0 = some c.seq) ∧ (∃ p ∈ (s.bank 0 0).cmds, p.2 ≠ []) ∧ ((s.bank 0 0).stream 0).phase ≠ .close ∧ ((s.bank 0 0).stream 0).phase ≠ .answer)
    ∧ (let x : Domain := { quota := 2, joined := 2, arrivals := 1, departed := 1 }
       let s := { withPart (fun p => { p with fabric := some (3, 2, 1) }) State.reset with domains := [(domKey 4 3 7, some x)] }
       (s.fabricOf 3) = (2, 1) ∧ s.domain ((4 * 2 ^ 20 + 3) * 2 ^ 16 + 7) = some x ∧ x.latches.findSome? (s.latchMiss 3) = none ∧ (s.latches 3 x.latches).logOver 3 = false
        ∧ (0 : Nat) ≠ (s.fabricOf 3).2 ∧ 0 < (s.fabricOf 3).1 ∧ (s.fabricOf 3).1 ≤ 2)
    ∧ ((withPart (fun p => { p with fabric := some (3, 2, 0) }) State.reset).fabricOf 3).2 = 0 := by decide +kernel

/-- The running job at a `WAITK` of FIFO 9 in engine 1, the other streams joined. -/
def starved : State :=
  joined.onBank 0 0 (fun k => { k.onStream 1 (fun t => { t with phase := .running, wait := .token 9 }) with
    imem := [(8192, BitVec.ofNat 33 0b001_111_00011_1001_001_00000000000000)], tok := [(9, { bound := true, prod := 3, cons := 1 })] })

/-- The running job at an `XSEND` without a permit, after these cycles, with this limit. -/
def permitless (n : Nat) (lim : DWord) : State :=
  (withCrossing (crossing 0 .free 0 [])).onBank 0 0 (fun k => { k.onStream 5 (fun t => { t with waited := n, wait := .permit 1 }) with
    imem := [(8192 * 5, BitVec.ofNat 33 0b101_000_0000_001_011_001_0_000000000000)], csr := { k.csr with waitlim := lim } })

/-- The running job at a `WAITAW` of a remote arrival word in engine 1, after these cycles, with this limit. -/
def remoteBehind (n : Nat) (lim : DWord) : State :=
  let s := running (fun k => { k.onStream 1 (fun t => { t with waited := n }) with
    a := [(2, 1)], imem := [(8192, BitVec.ofNat 33 0b001_111_00101_00001_00010_00000000000)], csr := { k.csr with waitlim := lim } })
  s.setCore 0 { s.core 0 with pad := [(0, { data := BitVec.ofNat 4096 ((2 ^ 16 + 2 ^ 18) * 2 ^ 96) })] }

/-- The running job stopped at a store of the control stream that faulted, an instruction that wrote s1 and a push behind it. -/
def heldStore : State :=
  withPart (fun p => { p with frameBase := 4096, frameSlots := 2 }) (running (fun k =>
    let x : Back := { t := { k.stream 0 with q0 := { addr := 3 }, q1 := { addr := 4 }, q2 := { addr := 5 }, epoch := 2 }, s := [(1, 6)], p := k.p, sdm := k.sdm, fmt := k.fmt, csr := k.csr }
    { (k.onJob (fun j => { j with status := .stopped })).onStream 0 (fun t => { t with q0 := { addr := 9 }, epoch := 3 }) with
      s := [(1, 7)], fault := some { code := 0x0007, eng := 0, precise := true }, backs := [(4, some x)]
      cmds := [(0, [{ seq := 4, pc := 3, epoch := 2, op := .stg 0x10FF8 7, held := true, lost := true }, { seq := 5, pc := 8, epoch := 2, op := .push 2 1 }])] }))

theorem witness_WaitsFaultAndFramesAreWritten :
    ((starved.bank 0 0).job = some probeJob ∧ (starved.bank 0 0).fault = none ∧ (∀ g ∈ probeJob.engines, ((starved.bank 0 0).stream g).phase = .joined ∨ starved.localWait 0 0 g ≠ none)
      ∧ (∀ g, g < 6 → starved.onlyHeld 0 0 g = true) ∧ (∀ p ∈ (starved.bank 0 0).nests, p.2 = none) ∧ (starved.bank 0 0).landings = []
      ∧ (starved.bank 0 0).allAt = none ∧ probeJob.engines = [0] ++ 1 :: [2, 3, 4, 5] ∧ starved.localWait 0 0 0 = none ∧ starved.localWait 0 0 1 = some (1, 9))
    ∧ (let s := remoteBehind 9 9
       s.remoteWait 0 0 1 = some 0 ∧ (s.bank 0 0).csr.waitlim ≠ 0 ∧ (s.bank 0 0).csr.waitlim.toNat ≤ ((s.bank 0 0).stream 1).waited ∧ (s.bank 0 0).fault = none
        ∧ ((remoteBehind 8 9).bank 0 0).csr.waitlim.toNat = 9 ∧ ((remoteBehind 8 9).bank 0 0).stream 1 ≠ (s.bank 0 0).stream 1)
    ∧ (let s := permitless 9 9
       s.remoteWait 0 0 5 = some 1 ∧ (s.bank 0 0).permitWait = true ∧ (s.bank 0 0).fault = none)
    ∧ (let f : FaultInfo := { code := 0x0007, eng := 5, precise := true }
       let s := withPart (fun p => { p with frameBase := 4096, frameSlots := 2 }) (running (fun k => { k with fault := some f }))
       let s1 := { s with parts := s.parts.map (fun (p : Nat × Option Part) => (p.1, p.2.map (fun (x : Part) => { x with slots := [(0, true)] }))) }
       (s1.bank 0 0).fault = some f ∧ f.code ≠ 0x0017 ∧ s1.settled 0 0 = true ∧ (∀ x ∈ s1.part probeJob.part, 1 < x.cfg.frameSlots ∧ get false x.slots 1 = false ∧ get false x.slots 0 = true)
        ∧ (s1.part probeJob.part).isSome = true)
    ∧ ((heldStore.bank 0 0).job = some { probeJob with status := .stopped } ∧ heldStore.settled 0 0 = true ∧ ((heldStore.bank 0 0).fault).map (fun f => (f.code, f.slot)) = some (0x0007, none)
      ∧ ((heldStore.part probeJob.part).map (fun x => (x.cfg.frameSlots, x.slots))) = some (2, [])
      ∧ (((heldStore.bank 0 0).queue 0).find? (fun c => !c.isPush)).map (fun c => c.seq) = some 4 ∧ (get none (heldStore.bank 0 0).backs 4).isSome = true) := by decide +kernel

/-- 08 R210: after the frame s1 holds what it held as the faulting store issued, and the later push is not made. -/
theorem test_frame_puts_the_control_stream_back :
    (let t := heldStore.frameWrite 0 0
     (t.bank 0 0).rdS 1 = 6 ∧ ((t.bank 0 0).stream 0).q0.addr = 3 ∧ ((t.bank 0 0).queue 0).map (fun c => c.seq) = [4] ∧ ((t.bank 0 0).stream 0).epoch = 2) := by decide +kernel

/-- The running job with its six streams at `CLAUSE 5`, changed by `f`, in a partition with one save slot. -/
def atBoundary (f : Job → Job) : State :=
  withPart (fun p => { p with saveSlots := 1, saveBase := 8192 })
    (running (fun k => ((List.range 6).foldl (fun k e => k.onStream e (fun t => { t with phase := .clause 5 })) k).onJob f))

theorem witness_ClauseBoundariesClearAndGoOn :
    (let s := atBoundary id
     (s.bank 0 0).job = some probeJob ∧ s.boundaryForms 0 0 = true ∧ probeJob.climb = false ∧ probeJob.preempt = none ∧ probeJob.request = none)
    ∧ (let s := atBoundary (fun j => { j with preempt := some false })
       s.boundaryForms 0 0 = true ∧ (s.formBoundary 0 0).freeSave 0 = some 0 ∧ (s.part 0).isSome = true)
    ∧ (atBoundary (fun j => { j with preempt := some true })).boundaryForms 0 0 = true
    ∧ (let r : Climb := { target := 1, unit := some (448, 0), ever := true }
       let s := atBoundary (fun j => { j with request := some r })
       s.boundaryForms 0 0 = true ∧ r.image = none ∧ (((s.formBoundary 0 0).jobInputs probeJob).filter (fun x => decide (x.tier < r.target)) = []) ∧ r.taken = false)
    ∧ (atBoundary (fun j => { j with request := some { target := 1, ever := true, taken := true } })).boundaryForms 0 0 = true
    ∧ (running id).boundaryForms 0 0 = false := by decide +kernel

/-- The bytes of a task record at 0x10000 (13 R301): code 77, two iterations, order 0 to 5, die 0, and one preload of copy register 1 of engine 3 with the doubleword at 0x10200, a form. -/
def recordMem (pre : Nat) : List Host.Cell :=
  [(0, leBytes 8 77), (8, leBytes 4 2), (12, leBytes 4 1), (16, leBytes 4 1), (20, leBytes 4 1), (24, leBytes 4 1), (28, leBytes 4 1), (56, leBytes 4 181896),
   (68, leBytes 2 1), (104, leBytes 2 pre), (512, leBytes 8 0x100003)].foldl (fun m p => wrBytes m (physAddr 2 0 0x8000 + p.1) p.2) []

def task0 : Task := { addr := 0x10000, code := 77, cls := 0, dies := 1 }
def packet0 : Packet :=
  { queue := 4, idx := 0, fn := 0, part := 0, marker := false, prio := 0, fence := false, pasid := 0, tasks := [task0], wver := none, cq := 0xFFFF, vec := 0xFFFF
    recAt := 0, args := 0x10200, wq := 0xFFFFFFFF, wth := 0, tag := 0 }
def image0 : Image :=
  { part := 0, mask := 1, climb := false, static := false, bucket := 0, entry := [0, 0, 0, 0, 0, 0], trap := 0, foot := 8176, toks := [], imem := [] }

/-- An accepted packet with that task beside the state. -/
def withPacket (pre : Nat) (s : State) : State :=
  withPart id (withTens { s with packets := [(1, some packet0)], mem := recordMem pre, images := [(77, some image0)], queues := [(4, { fn := 0, k := 6, state := .running })]
                                 lenfy := { s.lenfy with boot := .running } })

/-- The running job as one of that packet that may climb, on tier `t`. -/
def climbing (t : BitVec 2) (r : Option Climb) : State :=
  withPacket 0xB080 (running (fun k => ({ k with csr := { k.csr with tier := t } }).onJob (fun j => { j with climb := true, packet := 1, task := 0x10000, request := r })))

/-- A unit runs an image that is a head of 56 bytes with MAGIC and VERSION, the CRC of the rest, and the rest. -/
theorem imageOk_of (h r : List Byte) (v : Word) (hl : h.length = 56) (h4 : leNat (h.take 4) = 0x434C4D46) (h2 : leNat ((h.drop 4).take 2) = 1)
    (hd : leNat ((h.drop 10).take 2) < 16) (hw' : leNat ((h.drop 41).take 2) % 1024 < 528) (hr : r.length = 70596) (hv : v = crc32 (h ++ r)) : imageOk (h ++ (leBytes 4 v.toNat ++ r)) = true := by
  have hc : (leBytes 4 v.toNat).length = 4 := by simp [leBytes]
  have e4 : (h ++ (leBytes 4 v.toNat ++ r)).take 4 = h.take 4 := List.take_append_of_le_length (by omega)
  have e2 : ∀ n, n ≤ 54 → ((h ++ (leBytes 4 v.toNat ++ r)).drop n).take 2 = (h.drop n).take 2 := by
    intro n hn
    rw [List.drop_append_of_le_length (by omega), List.take_append_of_le_length (by rw [List.length_drop]; omega)]
  have e56 : (h ++ (leBytes 4 v.toNat ++ r)).take 56 = h := List.take_left' hl
  have d56 : (h ++ (leBytes 4 v.toNat ++ r)).drop 56 = leBytes 4 v.toNat ++ r := List.drop_left' hl
  have d60 : (h ++ (leBytes 4 v.toNat ++ r)).drop 60 = r := by
    rw [show (60 : Nat) = 56 + 4 from rfl, ← List.drop_drop, d56]
    exact List.drop_left' hc
  have hn : (h ++ (leBytes 4 v.toNat ++ r)).length = imageBytes := by
    rw [List.length_append, List.length_append, hl, hc, hr]; rfl
  have hw : leNat (leBytes 4 v.toNat) = v.toNat := by
    have := v.isLt
    simp [leBytes, leNat]
    omega
  unfold imageOk leAt
  rw [e56, d60, d56, hn, List.drop_zero, e4, e2 4 (by omega), e2 10 (by omega), e2 41 (by omega), List.take_left' hc, hw, h4, h2, ← hv]
  simp [hd, hw']

/-- Such an image: a head and zeros. -/
def goodImage : List Byte :=
  let h := leBytes 4 0x434C4D46 ++ leBytes 2 1 ++ List.replicate 50 0
  let r := List.replicate 70596 0
  h ++ (leBytes 4 (crc32 (h ++ r)).toNat ++ r)

theorem goodImage_ok : imageOk goodImage = true :=
  imageOk_of _ _ _ (by decide) (by decide) (by decide) (by decide) (by decide) List.length_replicate rfl

theorem witness_ClimbRequestsAndHandover :
    (let s := running (fun k => k.onJob (fun j => { j with static := true }))
     s.me.fault = none ∧ s.me.job = some { probeJob with static := true })
    ∧ (probeJob.static = false ∧ probeJob.climb = false)
    ∧ (let s := climbing 2 none
       s.me.job.any (fun j => j.climb && !j.static) = true ∧ 2 ≤ s.me.csr.tier.toNat)
    ∧ (let s := climbing 0 (some { target := 2 })
       s.me.csr.tier.toNat < 2 ∧ s.me.job.any (fun j => j.request.any (fun r => decide (2 ≤ r.target))) = true)
    ∧ (let s := climbing 1 none
       s.me.csr.tier.toNat < 2 ∧ s.me.job.any (fun j => j.request.isNone) = true ∧ s.me.job.any (fun j => decide (s.climbTarget j s.me.csr.tier.toNat = some 2)) = true)
    ∧ (climbing 2 none).me.job.any (fun j => decide ((climbing 2 none).climbTarget j 2 = none)) = true
    ∧ imageOk [] = false ∧ imageOk goodImage = true ∧ (448 : Nat) ≠ 0 :=
  ⟨by decide +kernel, by decide +kernel, by decide +kernel, by decide +kernel, by decide +kernel, by decide +kernel, by decide +kernel, goodImage_ok, by decide⟩

/-- A move of tile 0 of the tensor at the head of die 0, with this frame. -/
def moving (f : Option Frame) (started fenced : Bool) : State :=
  withPart (fun p => { p with quotas := [{ tier := 1, stack := 0, fsz := 0, frames := 1 }] })
    (withTens { State.reset with dies := [(0, { moves := [{ tid := 5, tile := 0, tier := 1, stack := 0, part := 0, frame := f, started := started, fenced := fenced }] })] })

theorem witness_PromotionMovesTiles :
    (let s := moving none false false
     (s.die 0).moves.map (fun m => (m.started, m.frame)) = [(false, none)] ∧ (∀ x ∈ s.moves_, x.started = true → False) ∧ s.mayMove tens 0 = true ∧ s.tensor 5 = some tens)
    ∧ (∃ f s1, (moving none false false).takeFrame 0 1 0 0 = some (f, s1))
    ∧ ({ moving none false false with parts := [] } : State).takeFrame 0 1 0 0 = none
    ∧ ({ moving none false false with tensors := [] } : State).mayMove { tens with tiles := [] } 0 = false
    ∧ (let f : Frame := { tier := 1, stack := 0, fsz := 0, base := 8, part := 0 }
       let s := moving (some f) true true
       (s.die 0).moves.map (fun m => (m.started, m.fenced, m.frame)) = [(true, true, some f)] ∧ tens.id = 5 ∧ tens.tiled = true ∧ Memory.wf s.mem ∧ s.inFlight tens 0 = false
        ∧ s.translate tens 0 Pasid.none false = .frame 2 0 0x8000 ∧ s.machineBase f = some 0x8000 ∧ physAddr 1 0 0x8000 + 4096 * 4 ^ tens.fsz ≤ physAddr 2 0 0x8000
        ∧ s.machineBase { f with part := 1 } = none) := by
  refine ⟨by decide +kernel, takes_frame _ _ _ _ _ (by decide +kernel) (by decide +kernel), ?_, by decide +kernel, by decide +kernel⟩
  unfold State.takeFrame
  exact if_pos (by decide +kernel)

theorem witness_IterationsArePlaced :
    let s := withPacket 0 State.reset
    s.lenfy.boot = .running ∧ (s.choices 0).map (fun c => (c.pid, c.i, c.tsk, c.pkt)) = [(1, 0, task0, packet0)]
      ∧ ((s.walkReport 0).choices 0).map (fun c => (c.pid, c.i, c.tsk, c.pkt)) = [(1, 0, task0, packet0)] ∧ (∀ c ∈ (s.walkReport 0).choices 0, (s.walkReport 0).savedOf 0 c = [] ∧ ((s.walkReport 0).recOf 0 packet0.asid c.tsk).isSome = true ∧ ∀ r ∈ (s.walkReport 0).recOf 0 packet0.asid c.tsk, r.code = 77 ∧ r.total = 2 ∧ c.tsk.on 0 < c.tsk.share (1, 0) 0 r.total
          ∧ (s.walkReport 0).findBank 0 packet0.asid 0 8176 0 false r 0x10200 = some (0, 0, 0) ∧ ∀ x ∈ r.preload, x < 32768)
      ∧ get none s.images 77 = some image0 ∧ (s.walkReport 0).reserver 0 0 = none ∧ s.members 0 = (1, 0) := by decide +kernel

/-- The same with tile 0 of the tensor invalid, and a load that misses it. -/
def missing : State :=
  { commanded 0 (.ldg 3 0x10FF8) false id with tensors := [(5, some { tens with tiles := [] })] }

/-- A miss of tile 0 with this number of records in the batch of die 0, and the same records sent and unanswered. -/
def miss0 : Miss := { va := 0x10000, fsz := 0, read := true, write := false, host := false, stage := 1, tid := 5, part := 0, jobs := [{ u := 0, b := 0, e := 0, src := some 4, own := 0x10FF8 }] }
def batched (n : Nat) (now : Nat) : State :=
  withPart (fun p => { p with faultQSize := 4 }) { missing with dies := [(0, { batch := List.replicate n miss0, out := [miss0], unans := [{ miss0 with seq := 9 }] })], now := now }

theorem witness_MissesAreBatchedAndAnswered :
    (let s := missing
     ∀ c ∈ (s.bank 0 0).cmd 0 4, (s.bank 0 0).job = some probeJob ∧ probeJob.status ≠ .stopped ∧ s.mayPerform 0 0 0 c = true ∧ s.missOf 0 0 0 0 c = some (5, 0, 1, false, 0x10FF8) ∧ (s.die (dieOf 0)).batch.length < 64
      ∧ ∀ x ∈ (s.die 0).batch ++ (s.die 0).out ++ (s.die 0).unans, x.covers 0 5 0x10000 1 = false)
    ∧ (missing.bank 0 0).cmd 0 4 ≠ none
    ∧ (((batched 1 0).die 0).batch = [] ++ miss0 :: [] ∧ miss0.covers 0 5 0x10000 1 = true)
    ∧ 64 ≤ ((batched 64 0).die 0).batch.length ∧ ((batched 63 0).die 0).batch.length < 64
    ∧ (((batched 1 27200).die 0).batch ≠ [] ∧ ((batched 1 27200).die 0).timer + 27200 ≤ (batched 1 27200).now ∧ (batched 1 27199).now < ((batched 1 27199).die 0).timer + 27200)
    ∧ (((batched 1 0).die 0).out = miss0 :: [] ∧ (∀ x ∈ ([] : List Miss), x.stage = 2) ∧ ((batched 1 0).part (if miss0.stage = 1 then miss0.part else 0)).any (fun p => decide (p.fqTail - p.fqHead < p.cfg.faultQSize)) = true)
    ∧ (∀ m ∈ ((batched 1 0).die 0).unans, m.seq ≠ 8)
    ∧ (let s := batched 1 0
       let s1 := s.onBank 0 0 (fun k => k.onJob (fun j => { j with status := .missing }))
       ((s1.die 0).unans.find? (fun m => decide (m.seq = 9))).map (fun m => m.jobs) = some [{ u := 0, b := 0, e := 0, src := some 4, own := 0x10FF8 }] ∧ (s1.bank 0 0).job = some { probeJob with status := .missing }
        ∧ (s1.bank 0 0).fault = none ∧ s1.stillWaits 0 0 = true
        ∧ ({ s1 with dies := [] }).stillWaits 0 0 = false) := by
  refine ⟨?_, by decide +kernel, by decide +kernel, by decide +kernel, by decide +kernel, by decide +kernel, by decide +kernel, by decide +kernel, by decide +kernel⟩
  decide +kernel

/-- A command of the running job at bank unit 0, on tile 0 of the tensor, and its record in bank 0 of unit 0. -/
def bcmd : BCmd :=
  { u := 0, b := 0, seq := 4, part := 0, ctx := 1, va := 0x10000, tid := 5, tile := 0, segs := [{ first := 0, tier := 2, stack := 0, off := 0x8000, ia := 0x8000 }], entry := 3, lc := 0, step := 1, lines := 8, ep := 0 }
def atBunit (f : BUnit → BUnit) : State :=
  { commanded 5 (.bkrun 0x10000 1 0 true) false id with bunits := [(0, f { cmd := some bcmd, ctxs := [(1, { owner := some 0 })] })] }

/-- A microcode word of context 1 with LINE 7. -/
def word7 (nxt rs : BitVec 2) (line : BitVec 20) : Micro := { nxt := nxt, tgt := 0, wait := 0, cx := 1, rs := rs, line := line, rsv := 0 }

/-- That unit at its cycle 12, with page 16 open since cycle 0. -/
def pageOpen : State := { atBunit (fun x => { x with pages := [(0, some (16, 0))], cyc := 12 }) with now := 24 }

/-- The index, the word address and the answer of `breach` for a word of that command in the first cycle of its unit. -/
abbrev breaks (m : Micro) (lop : Bool) (rs : Nat) (act : Bool) : Nat := breach ((atBunit id).bunit 0) 0 0 m bcmd lop rs act

theorem witness_MicrocodeAndItsEncoding :
    (let s := atBunit id
     let x := s.bunit 0
     x.cmd = some bcmd ∧ x.ending = false ∧ x.cyc ≤ s.now / 2 ∧ (∀ w ∈ x.wr, x.cyc < w.due) ∧ s.tensor bcmd.tid = some tens
      ∧ ((x.ctx bcmd.ctx).retire x.cyc).i = 0 ∧ ((x.ctx bcmd.ctx).retire x.cyc).upc = 0 ∧ (word7 0 0 0).nxt ≠ 3 ∧ (word7 3 0 0).nxt = 3
      ∧ (s.onBunit 0 (fun z => z.onCtx 1 (fun v => v.retire x.cyc))).ctxAsked 0 = false
      ∧ ((s.bank 0 0).cmd 5 4).map (fun q => q.op) = some (.bkrun 0x10000 1 0 true) ∧ (s.bank 0 0).fault = none
      ∧ x.wr.any (fun w => decide (w.cmd.seq = 4)) = false)
    ∧ (breaks (word7 0 0 0) false 0 false = 0 ∧ breaks (word7 0 1 0) false 1 false = 0 ∧ breaks (word7 0 0 7) true 0 true = 0
      ∧ breaks { word7 0 0 0 with cx := 2 } false 0 false = 4 ∧ breaks (word7 0 0 8) true 0 true = 5 ∧ breaks (word7 0 0 0xFFFFF) true 1 false = 5
      ∧ breaks (word7 0 0 7) true 1 false = 6 ∧ breaks (word7 0 1 0) false 0 false = 7 ∧ breaks (word7 0 0 1) false 0 false = 7
      ∧ breach { (atBunit id).bunit 0 with lastAct := [(0, some 1)], cyc := 40 } 0 0 (word7 0 0 3) bcmd true 0 true = 6
      ∧ breach { (atBunit id).bunit 0 with parity := [9] } 0 9 (word7 0 0 0) bcmd false 0 false = 7)
    ∧ (let s := pageOpen
       breach (s.bunit 0) 0 0 (word7 0 1 3) bcmd true 1 false = 0 ∧ breach (s.bunit 0) 0 0 (word7 0 0 3) bcmd true 0 false = 0 ∧ (s.bunit 0).cyc ≤ s.now / 2
        ∧ (s.raceTile 0 0 5 0 tens 0 .read).toOption.isSome = true
        ∧ (let y : Tensor := { tens with tiles := [(0, { v := true, tier := 2, stack := 0, fbase := 8, stamp := probeJob.privateStamp })] }
           let s1 := s.onBank 0 0 (fun k => { k with ttags := [(tagKey 5 0, { wr := 3, we := 1 })] })
           (s1.raceTile 0 0 5 0 y 0 .read).toOption = none))
    ∧ (let s := { commanded 5 (.bkctx 0 2) false id with bunits := [(0, { cmd := some bcmd, ctxs := [(1, { owner := some 0 }), (2, { owner := some 0 })] })] }
       s.ctxAsked 0 = true ∧ (s.bunit 0).cmd = some bcmd)
    ∧ (let s := atBunit (fun x => { x with wr := [{ due := 9, line := 0, row := {}, cmd := bcmd }] })
       (s.bunit 0).wr.any (fun w => decide (w.cmd.seq = bcmd.seq) && decide (w.cmd.u = bcmd.u) && decide (w.cmd.b = bcmd.b)) = true)
    ∧ (∃ i, decodeMicro 0 0 = some i) ∧ 10 ≤ 0xA000000000000000 / 2 ^ 60 % 16 := by
  exact ⟨by decide +kernel, by decide +kernel, by decide +kernel, by decide +kernel, by decide +kernel, ⟨_, rfl⟩, by decide +kernel⟩

theorem witness_BankUnitCommandsProceed :
    (let s := { commanded 5 (.bkload (2 ^ 19 * 2) 0x10000) false id with bunits := [(0, { ctxs := [(0, { owner := some 0 })] })] }
     (s.bank 0 0).xfind (fun o => match o with | .bkload _ _ => true | _ => false) ≠ none ∧ (s.bunit 0).cmd = none ∧ (∀ q ∈ (s.bunit 0).queue, q.susp = none) ∧ (s.bunit 0).wr = []
      ∧ (s.readDwords 0 0 0 0x10000 2).toOption.map Prod.fst = some [0, 0] ∧ ((s.bunit 0).ctx (0 / 2 ^ 42 % 4)).owner = some 0 ∧ (s.bank 0 0).fault = none)
    ∧ (let s := { commanded 5 (.bkload (2 ^ 19 * 2) 0x10000) false id with bunits := [] }
       ((s.bunit 0).ctx 0).owner ≠ some 0)
    ∧ (let s := commanded 5 (.bkctx 0 1) false id
       (s.ctxRequest 0 (fun _ _ => true)).map (fun x => (x.1, x.2.1, x.2.2.op)) = some (0, 0, .bkctx 0 1) ∧ ((s.bunit 0).ctx 1).owner = none ∧ (s.bunit 0).cmd = none
        ∧ ((withPart (fun p => { p with contexts := [(0, 1)] }) s).part 0).any (fun x => decide ((0, 1) ∈ x.cfg.contexts)) = true
        ∧ ((withPart (fun p => { p with contexts := [(0, 2)] }) s).part 0).any (fun x => decide ((0, 1) ∈ x.cfg.contexts)) = false)
    ∧ (let s := { commanded 5 (.bkctx 0 1) false id with bunits := [(0, { ctxs := [(1, { owner := some 3 })] })] }
       ((s.bunit 0).ctx 1).owner = some 3 ∧ (s.bank 0 0).fault = none)
    ∧ (let s := { commanded 5 (.bkrun 0x10000 1 0 false) false id with bunits := [(0, { ctxs := [(1, { owner := some 0 })] })] }
       let m := [(0, leBytes 8 0x10000), (8, leBytes 8 (3 + 256)), (16, leBytes 8 8)].foldl (fun m (p : Nat × List Byte) => wrBytes m (physAddr 2 0 0x8000 + p.1) p.2) []
       (s.nextRecord 0 0).isSome = true ∧ ({ s with mem := m }.readDwords 0 0 0 0x10000 4).toOption.map Prod.fst = some [0x10000, 0x103, 8, 0]
        ∧ (∀ c ∈ (s.bank 0 0).cmd 5 4, (s.bkCheck 0 0 c 0x10000 0 (bkRec [0x10000, 0x103, 8, 0])).toOption.isSome = true)
        ∧ (∀ c ∈ (s.bank 0 0).cmd 5 4, (s.bkCheck 0 0 c 0x10000 0 (bkRec [0, 0, 0, 0])).toOption = none))
    ∧ (let x : BUnit := { queue := [{ bcmd with ctx := 2 }, bcmd, { bcmd with seq := 5 }], run := 1 }
       x.queue = [{ bcmd with ctx := 2 }] ++ bcmd :: [{ bcmd with seq := 5 }] ∧ bcmd.ctx = x.run ∧ bcmd ∉ [{ bcmd with ctx := 2 }] ∧ (∀ q ∈ x.queue, q.ctx = x.run → q.susp = none)
        ∧ x.cmd = none ∧ ({ State.reset with bunits := [(0, x)] } : State).ctxAsked 0 = false)
    ∧ ({ bcmd with susp := some 2 }.susp = some 2 ∧ ∀ q ∈ ([] : List BCmd), q.ctx ≠ 1)
    ∧ (let w : BWrite := { due := 0, line := 0, row := {}, cmd := bcmd }
       let s := atBunit (fun x => { x with wr := [w] })
       (s.bunit 0).wr = w :: [] ∧ w.due ≤ s.now / 2 ∧ (s.bunit 0).ending = false ∧ s.tensor w.cmd.tid = some tens ∧ (s.raceTile 0 0 5 0 tens 0 .write).toOption.isSome = true
        ∧ ¬ ((s.bunit 0).cmd ≠ none ∧ (s.bunit 0).ending = false ∧ (s.bunit 0).cyc < w.due)
        ∧ (let w1 : BWrite := { w with due := 1 }
           let s1 := { atBunit (fun x => { x with wr := [w1] }) with now := 2 }
           ¬ s1.now / 2 < w1.due ∧ (s1.bunit 0).cmd ≠ none ∧ (s1.bunit 0).ending = false ∧ (s1.bunit 0).cyc < w1.due)) := by
  decide +kernel

/-- Host memory with these bytes at these addresses. -/
def hostMem (l : List (Nat × List Byte)) : List Host.Cell := l.foldl (fun m p => wrBytes m (hostAddr p.1) p.2) []

/-- A running module whose function `f` has a command of code `op` with this target at the head of its ring at host address 0, its record at 4096 and its result at 8192; beside it these bytes of host memory. -/
def commandState (f op target : Nat) (more : List (Nat × List Byte)) : State :=
  { State.reset with
    funcs := if f = 0 then [(0, { part := some 0, state := .running, tail := 1 })] else [(0, { part := some 0 }), (f, { part := some 0, state := .running, tail := 1 })]
    lenfy := { boot := .running }
    mem := hostMem ([(2, leBytes 2 op), (4, leBytes 4 target), (8, leBytes 8 4096), (16, leBytes 8 8192)] ++ more) }

/-- The conditions of a command that is carried out, as a decision. -/
abbrev mayRun (s : State) (f op : Nat) : Prop :=
  s.lenfy.boot = .running ∧ (s.func f).state = .running ∧ (s.func f).tail ≠ (s.func f).head ∧ s.ringOk (s.func f).ringAt = true
    ∧ (headCmd s f).stamp = (s.func f).head.toNat % 65536 ∧ zeroBytes (s.hostGet (s.func f).ringAt 64) 24 64 = true ∧ (headCmd s f).op = op
    ∧ (0x20 ≤ op → op < 0x30 → f = 0) ∧ s.resets (s.fnPart f) = false

theorem ready_of (s : State) (f op : Nat) (h : mayRun s f op) : Ready s f op :=
  ⟨⟨h.1, h.2.1, h.2.2.1, h.2.2.2.1, h.2.2.2.2.1⟩, h.2.2.2.2.2.1, h.2.2.2.2.2.2.1, h.2.2.2.2.2.2.2.1, h.2.2.2.2.2.2.2.2⟩

/-- Function 0 with local queue 3 mapped to queue 7 of this state. -/
def queued (q : Queue) : State :=
  { State.reset with funcs := [(0, { part := some 0, qmap := [(3, some 7)], cqs := [(5, { live := true, k := 4, tail := 16, pend := [([1, 2], 9)] })], pasid := [(0, 2 ^ 20)] })]
                     queues := [(7, q)], lenfy := { boot := .running } }

theorem witness_HostRegistersAndWindows :
    (let s := queued { k := 6, state := .running, head := 0xFFFFFFFF }
     s.exposed 0 = true ∧ s.globalQ 0 3 = some 7 ∧ (s.queue 7).state = .running ∧ ((63 : Word) - (s.queue 7).head).toNat ≤ 2 ^ (s.queue 7).k
      ∧ 2 ^ (s.queue 7).k < ((64 : Word) - (s.queue 7).head).toNat)
    ∧ (let s := queued { k := 6, state := .error }
       (s.queue 7).state ≠ .running ∧ (s.queue 7).state ≠ .paused ∧ (s.func 0).state ≠ .error ∧ ((64 : Word) - (s.func 0).head).toNat ≤ 2 ^ (s.func 0).ringK
        ∧ 2 ^ (s.func 0).ringK < ((65 : Word) - (s.func 0).head).toNat ∧ (s.func 0).tail = (s.func 0).head)
    ∧ ((commandState 0 1 0 []).func 0).tail ≠ ((commandState 0 1 0 []).func 0).head
    ∧ (let s := queued {}
       let y : Cq := get {} (s.func 0).cqs 5
       y.pend = ([1, 2], 9) :: [] ∧ 2 ^ y.k ≤ (y.tail - get 0 (s.func 0).cqh 5).toNat
        ∧ (let s1 := s.onFunc 0 (fun f => { f with cqh := [(5, 1)] })
           (y.tail - get 0 (s1.func 0).cqh 5).toNat < 2 ^ y.k ∧ (∀ z ∈ s1.part (s1.fnPart 0), ∀ n, z.state ≠ .resetting n)
            ∧ (({ s1 with parts := [(0, some { cfg := default, state := .resetting false })] } : State).part 0).any (fun z => decide (z.state = .resetting false)) = true))
    ∧ (let s := withTens State.reset
       s.barAddr 0 0x10000 false = some (physAddr 2 0 0x8000) ∧ s.barAddr 0 0x10000 true = some (physAddr 2 0 0x8000) ∧ s.window 0 0x10000 = some tens ∧ s.tensor tens.id = some tens ∧ (tens.ofFlat 0x10000).1 = 0)
    ∧ ({ State.reset with tensors := [(5, some { tens with covered := true, tiles := [(0, { cov := 2 })] })] } : State).elided 0 0x10000 = true := by decide +kernel

/-- A queue whose slot 0, at host address 4096, holds this packet. -/
def packetAt (l : List (Nat × List Byte)) (q : Queue) : State := { queued q with mem := hostMem (l.map (fun p => (4096 + p.1, p.2))) }

/-- A marker packet with stamp 0: no completion queue, no vector, no other queue to wait for. -/
def marker : List (Nat × List Byte) := [(2, [1]), (20, leBytes 2 0xFFFF), (22, leBytes 2 0xFFFF), (48, leBytes 4 0xFFFFFFFF)]

/-- The queue of it. -/
def markerQueue : Queue := { base := 4096, k := 6, tail := 1, state := .running }

theorem marker_verdict : Verdict (packetAt marker markerQueue) 0 ((packetAt marker markerQueue).hostGet 4096 64) none := by
  refine Or.inr (Or.inr ⟨?_, ?_, [], ?_, Or.inr ⟨by simp, Or.inr (Or.inr ⟨⟨none, rfl⟩, rfl⟩)⟩⟩)
  all_goals decide +kernel

theorem witness_PacketsAreReadAndCompleted :
    (let s := packetAt marker markerQueue
     s.queueReads 7 = true ∧ (s.members (s.fnPart (s.queue 7).fn)).1 = 1 ∧ (s.queue 7).reading = none ∧ s.ringOk (s.queue 7).slotAt = true
      ∧ leAt (s.hostGet (s.queue 7).slotAt 64) 0 2 = (s.queue 7).head.toNat % 65536)
    ∧ Verdict (packetAt marker markerQueue) 0 ((packetAt marker markerQueue).hostGet 4096 64) none
    ∧ Verdict (packetAt [(2, [2])] {}) 0 ((packetAt [(2, [2])] {}).hostGet 4096 64) (some (0x0502, 2))
    ∧ (let s := packetAt [(0, [1])] { base := 4096, k := 6, tail := 1, state := .paused, reading := some (.stamp 5) }
       (s.queue 7).state = .paused ∧ (s.queue 7).reading = some (.stamp 5) ∧ 5 + 1700 ≤ { s with now := 1705 }.now ∧ leAt (s.hostGet (s.queue 7).slotAt 64) 0 2 ≠ (s.queue 7).head.toNat % 65536 ∧ s.queueReads 7 = true)
    ∧ ({ queued {} with ats := [(noPasid * 2 ^ 52 + 1, true)] } : State).ringOk 4096 = false
    ∧ (let s := withPart (fun p => { p with fabric := some (3, 2, 0) }) (packetAt marker markerQueue)
       s.members 0 = (2, 0) ∧ (s.queue 7).gaveUp = false ∧ (s.queue 7).digests = [] ∧ s.queueReads 7 = true)
    ∧ (let s := withPart (fun p => { p with fabric := some (3, 2, 0) }) (queued { state := .running, reading := some (.fabric (.value 4) 0 [] [] none) })
       1 < (s.members 0).1 ∧ (1 : Nat) ≠ (s.members 0).2 ∧ (s.queue 7).reading = some (.fabric (.value 4) 0 [] [] none) ∧ (s.bind 0 (leAt [] 18 2)).toOption = some none
        ∧ (∀ i, i < 2 → i ≠ 0 → ([(1, Digest.value 4)].find? (fun z => decide (z.1 = i))).map Prod.snd = some (.value 4)) ∧ ([] : List (List Byte)).length = leAt [] 16 2
        ∧ (∀ i, i < 2 → i ≠ 0 → ([(1, Digest.refusal 2)].find? (fun z => decide (z.1 = i))).map Prod.snd = some (.refusal 2)) ∧ 1 ∉ (s.queue 7).owed
        ∧ (1 : Nat) ∈ (({ state := .error, owed := [1] } : Queue).owed))
    ∧ (let s : State := { queued { state := .draining } with packets := [(1, some { packet0 with queue := 7, idx := 3, tasks := [], marker := true })] }
       ((s.packetsOf 7).find? (fun y => decide (y.2.idx = 3))).map Prod.fst = some 1 ∧ ((s.packetsOf 7).head?.map Prod.fst) = some 1)
    ∧ (let s := { withPacket 0 State.reset with lenfy := { boot := .running } }
       s.taskDone 1 packet0 task0 = false)
    ∧ (((queued { state := .draining }).queue 7).state = .draining ∧ (queued { state := .draining }).packetsOf 7 = [])
    ∧ (let s := packetAt marker markerQueue
       HasPacket s 7 (.packetRead 7) (s.hostGet 4096 64) ∧ s.queueReads 7 = true)
    ∧ (let s := packetAt marker { markerQueue with state := .paused, reading := some (.stamp 5) }
       HasPacket { s with now := 1705 } 7 (.stampRecheck 7) (s.hostGet 4096 64) ∧ s.queueReads 7 = true)
    ∧ (let s := queued { k := 6, tail := 1, state := .paused, reading := some (.records [1]) }
       HasPacket s 7 (.packetRead 7) [1] ∧ s.queueReads 7 = true) := by
  refine ⟨by decide +kernel, marker_verdict, Or.inl ⟨2, by decide +kernel, rfl⟩, by decide +kernel, by decide +kernel, by decide +kernel,
    by decide +kernel, by decide +kernel, by decide +kernel, by decide +kernel, ⟨Or.inl ⟨Or.inl ⟨rfl, by decide +kernel, by decide +kernel⟩, by decide +kernel, rfl, by decide +kernel⟩, by decide +kernel⟩,
    ⟨Or.inl ⟨Or.inr ⟨rfl, Or.inr (by decide +kernel), 5, by decide +kernel, by decide⟩, by decide +kernel, rfl, by decide +kernel⟩, by decide +kernel⟩,
    ⟨Or.inr ⟨rfl, Or.inr (by decide +kernel), by decide +kernel⟩, by decide +kernel⟩⟩

theorem witness_CommandsFollowTheRingProtocol :
    (Instr.resync 0, 0x1A) ∈ [(Instr.loadImage 0, 0x10), (.resync 0, 0x1A)]
    ∧ mayRun (commandState 0 0x1A 0 []) 0 0x1A ∧ mayRun (commandState 0 0x20 0 []) 0 0x20
    ∧ (State.reset.lenfy.boot ≠ .running)
    ∧ ({ commandState 0 0x1A 0 [] with ats := [(noPasid * 2 ^ 52, true)] } : State).ringOk 0 = false
    ∧ (headCmd (commandState 0 0x1A 0 [(0, [1])]) 0).stamp ≠ 0
    ∧ zeroBytes ((commandState 0 0x1A 0 [(63, [1])]).hostGet 0 64) 24 64 = false ∧ (headCmd (commandState 0 0x06 0 []) 0).op ∉ codesOf
    ∧ (headCmd (commandState 3 0x20 0 []) 3).op = 0x20 ∧ ((commandState 3 0x20 0 []).func 3).state = .running
    ∧ (let s : State := { commandState 0 0x10 0 [] with parts := [(0, some { cfg := default, state := .resetting false })] }
       s.resets (s.fnPart 0) = true) := by decide +kernel

/-- A command whose function has queue 3 mapped to queue 7 of this state, completion queue 5 live, vector 1 held. -/
def tableState (op target : Nat) (st : QState) : State :=
  { commandState 0 op target [] with
    funcs := [(0, { part := some 0, state := .running, tail := 1, qmap := [(3, some 7)], cqs := [(5, { live := true, k := 4 })] })]
    queues := [(7, { k := 6, state := st })], remap := [(2048 * 2 + 1, { held := true, m := true })] }

theorem witness_QueueAndTableCommands :
    (mayRun (tableState 0x01 3 .disabled) 0 0x01 ∧ (tableState 0x01 3 .disabled).globalQ 0 (headCmd (tableState 0x01 3 .disabled) 0).target = some 7
      ∧ ((tableState 0x01 3 .disabled).queue 7).state = .disabled ∧ ((tableState 0x01 3 .running).queue 7).state ≠ .disabled)
    ∧ (mayRun (tableState 0x03 3 .error) 0 0x03 ∧ ((tableState 0x03 3 .error).queue 7).state = .error)
    ∧ (mayRun (tableState 0x02 3 .running) 0 0x02 ∧ ((tableState 0x02 3 .running).queue 7).state ≠ .draining)
    ∧ (mayRun (tableState 0x04 63 .running) 0 0x04 ∧ (headCmd (tableState 0x04 63 .running) 0).target < 64 ∧ (get {} ((tableState 0x04 63 .running).func 0).cqs 63 : Cq).live = false)
    ∧ (mayRun (tableState 0x05 5 .running) 0 0x05 ∧ (get {} ((tableState 0x05 5 .running).func 0).cqs 5 : Cq).live = true)
    ∧ (mayRun (tableState 0x27 96 .running) 0 0x27 ∧ (headCmd (tableState 0x27 96 .running) 0).target ≤ 96)
    ∧ (mayRun (tableState 0x28 96 .running) 0 0x28 ∧ ((tableState 0x28 96 .running).func 96).tdisp = .unlocked)
    ∧ (mayRun (tableState 0x29 2 .running) 0 0x29 ∧ (get {} (tableState 0x29 2 .running).remap (2048 * 2 + 1) : Remap).held = true)
    ∧ (let s : State := { tableState 0x26 1 .running with parts := [(1, some { cfg := default, dirty := some (4096, 6), dlPend := [8] })] }
       mayRun s 0 0x26 ∧ (headCmd s 0).target ≠ 0 ∧ (s.part (headCmd s 0).target).isSome = true ∧ s.resets 1 = false
        ∧ (s.part 1).any (fun x => decide (x.dlPend = 8 :: []) && decide (x.dlTail - x.dlHead < 2 ^ 6)) = true)
    ∧ mayRun (tableState 0x1A 0 .running) 0 0x1A := by
  refine ⟨?_, ?_, ?_, ?_, ?_, ?_, ?_, ?_, ?_, ?_⟩ <;> decide +kernel

/-- The header and the two words (`NOP`, `JOIN` of engine 0) of an image (02 R35), as LOAD_IMAGE reads it at 4096. -/
def imageFile : List (Nat × List Byte) :=
  [(4096, leBytes 4 0x475A4B49), (4100, leBytes 2 1), (4102, [1]), (4120, leBytes 4 16), (4124, leBytes 4 2), (4160, leBytes 4 0b000_111_00000_000000000000000000000),
   (4164, leBytes 4 0b000_111_00001_000000000000000000000)]

/-- The record of a COVERED tensor 6 of 1,024 FP32 elements in one tile (12 R280), as ALLOC_TENSOR reads it at 4096. -/
def tensorFile : List (Nat × List Byte) :=
  [(4096, leBytes 3 6), (4099, [3]), (4101, [1]), (4108, leBytes 4 1024), (4112, leBytes 4 1), (4116, leBytes 4 1), (4120, leBytes 4 1), (4124, leBytes 4 1), (4128, leBytes 4 1),
   (4132, leBytes 2 1024), (4134, leBytes 2 1), (4136, leBytes 2 1), (4138, leBytes 2 1), (4140, leBytes 2 1), (4142, leBytes 2 1), (4144, leBytes 8 0x20000)]

/-- The record of a Crossing from core 0 of die 8 to core 0 of die 0 with one slot of eight rows (17 R362), as CREATE_CROSSING reads it at 4096. -/
def crossingFile : List (Nat × List Byte) := [(4096, [8, 0, 1, 0, 0, 2, 0, 1, 0]), (4108, leBytes 4 8), (4112, leBytes 4 0xFFFFFFFF)]

/-- The conditions of a command with the tensor in the machine. -/
def tensCommand (op : Nat) : State := withTens (commandState 0 op 5 [])

theorem witness_ObjectCommands :
    (let s := commandState 0 0x10 0 imageFile
     mayRun s 0 0x10 ∧ (∀ x ∈ s.images, x.1 + 1 < 2 ^ 64)
      ∧ imageFault (s.hostGet 4096 64) (split [] none 0 ((List.range (leAt (s.hostGet 4096 64) 28 4)).map (fun i => leNat (rdBytes s.mem (hostAddr (4096 + 64) + 4 * i) 4)))) = none
      ∧ leAt (s.hostGet 4096 64) 28 4 = 2 ∧ imageFault ((commandState 0 0x10 0 []).hostGet 4096 64) [] = some (0x0101, 0xFFFFFFFF))
    ∧ (let s := withPart (fun p => { p with handleQuota := 1 }) (commandState 0 0x11 0 tensorFile)
       mayRun s 0 0x11 ∧ s.tensorFault (s.hostGet 4096 128) (tensorOf 0 (s.hostGet 4096 128)) = none
        ∧ (commandState 0 0x11 0 []).tensorFault ((commandState 0 0x11 0 []).hostGet 4096 128) (tensorOf 0 ((commandState 0 0x11 0 []).hostGet 4096 128)) = some 0x0201
        ∧ (commandState 0 0x11 0 []).handleQuota 0 ≤ (commandState 0 0x11 0 []).handles 0)
    ∧ (∃ h, (withPart (fun p => { p with handleQuota := 1 }) (commandState 0 0x11 0 tensorFile)).takeHandle 0 = some h)
    ∧ (mayRun (tensCommand 0x12) 0 0x12 ∧ (tensCommand 0x12).tensor (headCmd (tensCommand 0x12) 0).target = some tens ∧ tens.part = (tensCommand 0x12).fnPart 0 ∧ tens.version = none
        ∧ (tensCommand 0x12).slotOf 5 0 = none ∧ { tens with part := 3 }.part ≠ (tensCommand 0x12).fnPart 0 ∧ (commandState 0 0x12 9 []).tensor 9 = none)
    ∧ (mayRun (tensCommand 0x13) 0 0x13 ∧ mayRun (tensCommand 0x14) 0 0x14 ∧ tens.tiled = true ∧ 1 < tens.tileCount ∧ tens.tileCount ≤ 2)
    ∧ (let s := { withCrossing (crossing 1 .free 0 []) with funcs := (commandState 0 0x16 5 []).funcs, lenfy := (commandState 0 0x16 5 []).lenfy, mem := (commandState 0 0x16 5 []).mem }
       mayRun s 0 0x16 ∧ s.tensor (headCmd s 0).target = some tens ∧ s.slotOf 5 0 = some (9, 0) ∧ get none s.crossings 9 = some (crossing 1 .free 0 []) ∧ s.sending 9 = false)
    ∧ (sendState (crossing 1 .free 0 []) [] id).sending 9 = true := by
  refine ⟨?_, ?_, takes_handle _ _ (by decide +kernel) (by decide +kernel), ?_, ?_, ?_, ?_⟩ <;> decide +kernel

/-- The state in which a Crossing is created: the cores, a handle and a frame are there. -/
def crossingState : State :=
  withPart (fun p => { p with units := [0, 192], handleQuota := 1, quotas := [{ tier := 2, stack := 0, fsz := 0, frames := 1 }] }) (commandState 0 0x15 0 crossingFile)

/-- A state with a frame left takes the frame of one slot. -/
theorem takes_slotFrame (s : State) (p stack c : Nat) (h : ¬ s.frameQuota p 2 stack c ≤ s.framesHeld p 2 stack c) (l : (s.lowFrame 2 stack c).isSome = true) :
    ∃ s2 fs, s.slotFrames p stack c 1 = some (s2, fs) := by
  obtain ⟨f, s1, hf⟩ := takes_frame s p 2 stack c h l
  simp only [State.slotFrames, hf, Option.map_some]
  exact ⟨_, _, rfl⟩

/-- A state with a handle left takes the view of one slot, and the frames stand as before. -/
theorem takes_slotView (s : State) (p tid e rows : Nat) (h : ¬ s.handleQuota p ≤ s.handles p) (l : s.lowHandle.isSome = true) :
    ∃ s1 hs, s.slotViews p tid e rows 0 1 = some (s1, hs) ∧ s1.parts = s.parts ∧ s1.frames = s.frames ∧ s1.scrubs = s.scrubs := by
  obtain ⟨n, hn⟩ := takes_handle s p h l
  simp only [State.slotViews, hn, Option.map_some]
  exact ⟨_, _, rfl, rfl, rfl, rfl⟩

/-- Whether a frame is left rests on the partitions, the frames and the frames being scrubbed. -/
theorem frames_left (s s1 : State) (p stack c : Nat) (hp : s1.parts = s.parts) (hf : s1.frames = s.frames) (hs : s1.scrubs = s.scrubs) :
    s1.frameQuota p 2 stack c = s.frameQuota p 2 stack c ∧ s1.framesHeld p 2 stack c = s.framesHeld p 2 stack c ∧ s1.lowFrame 2 stack c = s.lowFrame 2 stack c := by
  refine ⟨?_, ?_, ?_⟩
  · simp only [State.frameQuota, State.part, hp]
  · simp only [State.framesHeld, hf, hs]
  · simp only [State.lowFrame, hf, hs]
    rw [show s1.frameFree 2 stack c = s.frameFree 2 stack c from funext (fun a => by simp only [State.frameFree, hf, hs])]

theorem witness_ObjectCommands_Crossings :
    mayRun crossingState 0 0x15 ∧ (∃ c y, crossingState.crossingOf 0 (crossingState.hostGet 4096 32) = some (c, y)
      ∧ get none (crossingState.core c.scoreU).sends c.sid = none ∧ get none (crossingState.core c.rcoreU).recvs c.rid = none ∧ crossingState.placeFault y = none
      ∧ ∃ s1 hs s2 fs, crossingState.slotViews 0 y.id (rowElems y.fmt) c.rows 0 c.nslots = some (s1, hs) ∧ s1.slotFrames 0 (nearStack y.home) y.fsz c.nslots = some (s2, fs))
    ∧ crossingState.crossingOf 0 [] = none := by
  refine ⟨by decide +kernel, ?_, by decide +kernel⟩
  obtain ⟨⟨c, y⟩, hc⟩ := Option.isSome_iff_exists.mp (show (crossingState.crossingOf 0 (crossingState.hostGet 4096 32)).isSome = true by decide +kernel)
  refine ⟨c, y, hc, ?_⟩
  have h1 : (crossingState.crossingOf 0 (crossingState.hostGet 4096 32)).map (fun p => [p.1.scoreU, p.1.sid, p.1.rcoreU, p.1.rid, p.1.nslots, p.2.fsz, p.2.home]) =
      some [192, 1, 0, 2, 1, 0, 0] := by decide +kernel
  have h2 : (crossingState.crossingOf 0 (crossingState.hostGet 4096 32)).map (fun p => crossingState.placeFault p.2) = some none := by decide +kernel
  rw [hc] at h1 h2
  simp only [Option.map_some, Option.some.injEq, List.cons.injEq, and_true] at h1 h2
  obtain ⟨e1, e2, e3, e4, e5, e6, e7⟩ := h1
  rw [e1, e2, e3, e4, e5, e6, e7]
  refine ⟨by decide +kernel, by decide +kernel, h2, ?_⟩
  obtain ⟨s1, hs, hv, a, b, d⟩ := takes_slotView crossingState 0 y.id (rowElems y.fmt) c.rows (by decide +kernel) (by decide +kernel)
  obtain ⟨q1, q2, q3⟩ := frames_left crossingState s1 0 (nearStack 0) 0 a b d
  obtain ⟨s2, fs, hf⟩ := takes_slotFrame s1 0 (nearStack 0) 0 (by rw [q1, q2]; decide +kernel) (by rw [q3]; decide +kernel)
  exact ⟨s1, hs, s2, fs, hv, hf⟩

/-- A fault frame of the running job in slot 0 of its partition's buffer, and a command of this code on it. -/
def framed (op : Nat) : State :=
  let c := commandState 0 op 0 []
  withPart (fun p => { p with frameBase := 16384, frameSlots := 1 })
    { running (fun k => { k with fault := some { code := 0x0007, eng := 0, precise := true, slot := some 0 } }) with funcs := c.funcs, lenfy := c.lenfy, mem := c.mem }

theorem witness_ObjectCommands_FramesAndContexts :
    (mayRun (framed 0x17) 0 0x17 ∧ mayRun (framed 0x18) 0 0x18 ∧ (framed 0x17).frameJob 0 0 = some (0, 0) ∧ ((framed 0x17).bank 0 0).job = some probeJob
      ∧ ((framed 0x17).part 0).any (fun x => decide (x.state = .running) && decide (leAt ((framed 0x17).hostGet (x.slotAddr 0) 1024) 28 4 = 0)) = true)
    ∧ (let s : State := { commandState 0 0x19 0 [] with bunits := [(40, { ctxs := [(2, { owner := some 0 }), (3, { owner := some 7 })] })] }
       mayRun s 0 0x19 ∧ ((s.bunit 40).ctx 2).owner = some (s.fnPart 0) ∧ (s.bunit 40).usesCtx 2 = false ∧ ((s.bunit 40).ctx 1).owner = none ∧ ((s.bunit 40).ctx 3).owner = some 7)
    ∧ (let s : State := { commandState 0 0x19 0 [] with bunits := [(40, { cmd := some { bcmd with ctx := 2 }, ctxs := [(2, { owner := some 0 })] })] }
       (s.bunit 40).usesCtx 2 = true) := by decide +kernel

/-- A partition record with partition 1, two units, a handle quota and a pre-emption limit. -/
def record1 : PartRecord := { (default : PartRecord) with pid := 1, units := [4, 5], fns := [2], handleQuota := 10, preLimit := 17000, saveSlots := 1 }

/-- A command of this code on partition 1, configured and in this run state. -/
def partCommand (op : Nat) (st : PState) : State :=
  { commandState 0 op 1 [] with parts := [(1, some { cfg := record1, state := st })] }

/-- The image of an empty partition. -/
def mig1 : Mig :=
  { cfg := record1, queues := [], packets := [], domains := [], views := [], tensors := [], images := [], versions := [], crossings := [], hist := [], ctxs := [], runs := [], frames := [], saved := [] }

theorem witness_PartitionCommandsAndMoves :
    (let s := commandState 0 0x20 1 []
     mayRun s 0 0x20 ∧ record1.pid = (headCmd s 0).target ∧ s.resets 1 = false ∧ (∀ f ∈ record1.fns, (s.func f).tdisp = .unlocked) ∧ s.badPartition record1 = false ∧ s.partBusy 1 = false
      ∧ s.badPartition { record1 with preLimit := 16999 } = true ∧ (2 : Nat) ≠ (headCmd s 0).target)
    ∧ (mayRun (partCommand 0x21 .running) 0 0x21 ∧ ((partCommand 0x21 .running).part 1).isSome = true ∧ (partCommand 0x21 .running).resets 1 = false)
    ∧ (let s := partCommand 0x21 (.resetting false)
       s.lenfy.boot = .running ∧ (s.func 0).state = .running ∧ (s.func 0).tail ≠ (s.func 0).head ∧ (headCmd s 0).op = 0x21 ∧ s.frozen 1 = true ∧ (s.dump 1 false).length = 64
        ∧ ∀ i j, i < 64 → (j < 64 → 65536 + i ≠ (s.func 0).ringAt + j) ∧ (j < 32 → 65536 + i ≠ 8192 + j))
    ∧ (mayRun (partCommand 0x22 .running) 0 0x22 ∧ mayRun (partCommand 0x22 .sliced) 0 0x22 ∧ mayRun (partCommand 0x23 .preempting) 0 0x23 ∧ (partCommand 0x23 .preempting).preDone 1 = true)
    ∧ (mayRun (partCommand 0x24 .preempting) 0 0x24 ∧ (partCommand 0x24 .preempting).preDone 1 = true)
    ∧ (let s : State := { partCommand 0x25 .running with migs := [mig1] }
       mayRun s 0 0x25 ∧ s.resets 1 = false ∧ s.migs[0]? = some mig1 ∧ record1.quotas = mig1.cfg.quotas ∧ record1.handleQuota = mig1.cfg.handleQuota ∧ s.partBusy 1 = false ∧ s.conflict 1 mig1 = false ∧ mig1.beyond = false
        ∧ s.conflict 1 { mig1 with tensors := [(5, tens)] } = false ∧ (withTens s).conflict 1 { mig1 with tensors := [(5, tens)] } = true
        ∧ ((mig1.tensors.map Prod.fst).Nodup))
    ∧ (let g : PartRecord := { record1 with sliceGroup := 3, sliceLen := 170000 }
       let s : State := { State.reset with parts := [(1, some { cfg := g }), (2, some { cfg := { g with pid := 2 }, state := .waiting })], packets := [(1, some { packet0 with part := 2 })], now := 170000 }
       (∀ y ∈ somes s.parts, s.part y.1 = some y.2) ∧ ((somes s.parts).filter (fun y => decide (y.2.cfg.sliceGroup = 3))).map Prod.fst = [1, 2] ∧ s.hasPacket 2 = true
        ∧ (s.part 1).any (fun x => decide (x.state = .running) && decide (x.slice + x.cfg.sliceLen ≤ s.now)) = true)
    ∧ (let g : PartRecord := { record1 with sliceGroup := 3, sliceLen := 170000 }
       let s : State := { State.reset with parts := [(1, some { cfg := g, state := .sliced, slice := 5 }), (2, some { cfg := { g with pid := 2 }, state := .waiting })], packets := [(1, some { packet0 with part := 2 })] }
       (∀ y ∈ somes s.parts, y.2.state ≠ .running ∧ (y.2.state = .waiting ∨ s.preDone y.1 = true)) ∧ ∀ y ∈ somes s.parts, y.1 ≠ 1 → y.2.slice < 5)
    ∧ (let s := withPart (fun p => { p with preLimit := 17000 }) (running (fun k => k.onJob (fun j => { j with preempt := some false, preCyc := 17000 })))
       (s.bank 0 0).job = some { probeJob with preempt := some false, preCyc := 17000 } ∧ (s.part 0).any (fun x => decide (x.cfg.preLimit = 17000)) = true ∧ (s.bank 0 0).fault = none)
    ∧ ((State.reset.func 5).tdisp = .unlocked ∧ (let s : State := { partCommand 0x21 (.resetting true) with funcs := [(0, { part := some 0 }), (5, { part := some 1, tdisp := .locked }), (6, { part := some 1, tdisp := .run }), (7, { part := some 1 })] }
        (s.func 5).tdisp = .locked ∧ (s.part (s.fnPart 5)).isSome = true ∧ (s.func 6).tdisp = .run ∧ (s.func 7).tdisp ≠ .run ∧ s.frozen (s.fnPart 7) = true)) := by
  refine ⟨?_, ?_, ⟨?_, ?_, ?_, ?_, ?_, ?_, ?_⟩, ?_, ?_, ?_, ?_, ?_, ?_, ?_⟩
  case refine_9 =>
    intro i j hi
    have h : (partCommand 0x21 (.resetting false)).func 0 = (commandState 0 0x21 1 []).func 0 := rfl
    have h0 : ((commandState 0 0x21 1 []).func 0).ringAt = 0 := by decide +kernel
    rw [h, h0]
    omega
  all_goals decide +kernel

/-- The record of LOAD_WEIGHTS for version 7, read by this package, at 4096 (23 R450). -/
def loadState (vs : Map (Option Version)) : State :=
  { withPart (fun p => { p with nvme := [default] }) (commandState 0 0x30 0 [(4096, leBytes 2 7), (4098, [1])]) with versions := vs }

/-- A manifest of one tensor, that of `tensorFile` made read-only, with one hash and room for a signature (23 R448). -/
def manifest : List Byte :=
  leBytes 4 0x574D4E46 ++ leBytes 2 1 ++ leBytes 2 0 ++ leBytes 4 1 ++ leBytes 4 1 ++ leBytes 8 0x1000 ++ List.replicate 40 0
    ++ ((tensorFile.foldl (fun m p => wrBytes m (p.1 - 4096) p.2) ([] : List Host.Cell)) |> fun m => rdBytes (wrByte m 3 7) 0 128) ++ List.replicate 32 0 ++ List.replicate 1280 0

/-- A verified version of two tiles of the tensor with this hash, of an image whose data begin at 0x1000 and of which this many bytes are read. -/
def tileVersion (h len : Nat) : Version := { verified := true, agreed := true, reader := true, data := 0x1000, len := len, hashes := [⟨0, 5, 0, h, 0⟩, ⟨1, 5, 1, h + 1, 4096⟩] }
def tileState (h len : Nat) : State :=
  { withPart (fun p => { p with quotas := [{ tier := 0, stack := 0, fsz := 0, frames := 1 }] }) (withTens State.reset) with versions := [(7, some (tileVersion h len))] }

theorem witness_WeightVersionsLoadAndRetire :
    (mayRun (loadState []) 0 0x30 ∧ (loadState []).badLoad 0 ((loadState []).hostGet 4096 64) = false ∧ (loadState []).version 0 7 = none ∧ leAt ((loadState []).hostGet 4096 64) 2 1 = 1 ∧ ((loadState []).members 0).1 = 1
      ∧ (loadState []).part 0 = some { cfg := { (default : PartRecord) with units := [0, 1, 2, 3], nvme := [default] } }
      ∧ ((withPart (fun p => { p with nvme := [default], fabric := some (3, 2, 1) }) (loadState [])).members 0).1 = 2
      ∧ (commandState 0 0x30 0 []).badLoad 0 ((commandState 0 0x30 0 []).hostGet 4096 64) = true)
    ∧ ((loadState [(7, some { state := .ready })]).version 0 7 = some { state := .ready } ∧ (loadState [(7, some { fn := 0 })]).version 0 7 = some { fn := 0 })
    ∧ (let s : State := { commandState 0 0x31 7 [] with versions := [(7, some { state := .ready })] }
       mayRun s 0 0x31 ∧ (headCmd s 0).target < 65536 ∧ s.version (s.fnPart 0) 7 = some { state := .ready })
    ∧ (let s : State := { State.reset with versions := [(7, some {})], lenfy := { keys := [(0, [1])] } }
       s.version 0 7 = some {} ∧ get [] s.lenfy.keys (leAt manifest 6 1) ≠ [] ∧ manifestOk manifest = true ∧ manifestOk [] = false
        ∧ ({} : Version).agreed = false ∧ ({ ({} : Version) with agreed := true }).agreed = true ∧ (State.reset.imageTensors 0 7 [(manifest.drop 64).take 128]) = .error 0x0205)
    ∧ (let h := Config.shake256 (List.replicate 4096 1)
       let s := tileState h 0x3000
       s.version 0 7 = some (tileVersion h 0x3000) ∧ (tileVersion h 0x3000).hashes.find? (fun h => decide (h.idx = 0)) = some ⟨0, 5, 0, h, 0⟩ ∧ s.tensor 5 = some tens
        ∧ (List.replicate 4096 (1 : Byte)).length = frameBytes tens.fsz ∧ h ≠ h + 1 ∧ 0x1000 + 0 + frameBytes tens.fsz ≤ 0x3000 ∧ 0x1FFF < 0x1000 + 0 + frameBytes tens.fsz
        ∧ (∃ f s1, s.storeFrame 0 0 = some (f, s1) ∧ s1.machineBase f = some (f.base * 4096))
        ∧ s.machineBase { tier := 0, stack := 0, fsz := 0, base := 8, part := 1 } = none)
    ∧ (let s : State := { State.reset with versions := [(7, some { state := .ready, reader := true }), (8, some { state := .retired }), (9, some { state := .ready, cur := true })] }
       s.version 0 7 = some { state := .ready, reader := true } ∧ (0 : Nat) < (s.members 0).1 ∧ s.version 0 8 = some { state := .retired } ∧ s.version 0 9 = some { state := .ready, cur := true })
    ∧ (commandState 0 1 0 []).lenfy.boot = .running := by
  refine ⟨by decide +kernel, by decide +kernel, by decide +kernel, ?_, ⟨rfl, rfl, by decide +kernel, by rw [List.length_replicate]; rfl, by omega, by decide, by decide, ?_, ?_⟩, by decide +kernel, by decide +kernel⟩
  · refine ⟨by decide +kernel, by decide +kernel, by decide +kernel, by decide +kernel, rfl, rfl, ?_⟩
    rfl
  · unfold State.storeFrame
    obtain ⟨f, s1, h⟩ := takes_frame (tileState (Config.shake256 (List.replicate 4096 1)) 0x3000) 0 0 0 0 (by decide +kernel) (by decide +kernel)
    refine ⟨f, s1, ?_, if_pos (Or.inl ?_)⟩
    · rw [show List.range 8 = 0 :: [1, 2, 3, 4, 5, 6, 7] from rfl, List.findSome?_cons, h]
    · rw [part_of_frame h]; rfl
  · exact if_neg (by decide) |>.trans (if_neg (by decide))

/-- The boot of an H-die ends in one of the four ways, whichever keys and counters are fused: no case of the statement is empty for want of the others. -/
theorem witness_ClockAlertsPowerAndBoot :
    (State.reset.governed + 4096 ≤ ({ State.reset with now := 4096 } : State).now ∧ State.reset.now < State.reset.governed + 4096)
    ∧ (let a : Alert := { kind := 1, unit := 3, bank := 0, row := 9, cnt := 1, seq := 0 }
       let x : Stack := get {} [(64, ({ ring := [a] } : Stack))] (32 * 2 + 0)
       x.ring[0]? = some a ∧ x.ring.length < 32 ∧ (List.replicate 32 a).length = 32)
    ∧ (State.reset.lenfy.boot ≠ .running ∧ (commandState 0 1 0 []).lenfy.boot = .running ∧ (commandState 0 1 0 []).placedJobs = [] ∧ ∀ q ∈ (commandState 0 1 0 []).queues, q.2.tail = q.2.head)
    ∧ (State.reset.lenfy.boot = .booting ∧ 1 ∉ State.reset.lenfy.booted ∧ (1 : Nat) < 2 ∧ Config.fusedSvn 1 % 65 ≤ (Firmware.mk [] [] (Config.fusedSvn 1) []).svn)
    ∧ (∀ (h : Nat) (fw : Firmware), (¬ Config.shake256 fw.pubKey = Config.fusedKeyHash h)
        ∨ (Config.shake256 fw.pubKey = Config.fusedKeyHash h ∧ (Config.falconVerify fw.pubKey fw.sig (Firmware.message fw) ≠ true
          ∨ (Config.falconVerify fw.pubKey fw.sig (Firmware.message fw) = true ∧ (fw.svn < Config.fusedSvn h % 65 ∨ Config.fusedSvn h % 65 ≤ fw.svn)))))
    ∧ (let s : State := { State.reset with lenfy := { boot := .running, booted := [1, 0] } }
       s.lenfy.boot ≠ .fail ∧ 0 ∈ s.lenfy.booted) := by
  refine ⟨by decide +kernel, by decide +kernel, by decide +kernel, ⟨by decide, by decide, by decide, Nat.mod_le _ _⟩, ?_, by decide +kernel⟩
  intro h fw
  by_cases a : Config.shake256 fw.pubKey = Config.fusedKeyHash h
  · by_cases b : Config.falconVerify fw.pubKey fw.sig (Firmware.message fw) = true
    · exact .inr ⟨a, .inr ⟨b, Nat.lt_or_ge _ _⟩⟩
    · exact .inr ⟨a, .inl b⟩
  · exact .inl a

theorem witness_DecodeAndEncodeAgree :
    (Instr.movl 19 0x9ABCDEF0).engine.isSome = true ∧ (Instr.movl 19 0x9ABCDEF0).wellFormed = true
    ∧ (0b000_010_01_10011_0000000000000000000 : Nat) < 2 ^ 32 ∧ decode 0b000_010_01_10011_0000000000000000000 0x9ABCDEF0 = .ok (.movl 19 0x9ABCDEF0) := by decide

theorem witness_AStepRunsTheDecodedInstruction :
    (let s := State.reset.withFetchWord 64 (0x9ABCDEF0 * 2 ^ 32 + 0b000_010_01_10011_0000000000000000000)
     let k := s.bank 0 (s.core 0).kbank
     s.agenda = .issue 0 0 :: [] ∧ s.canIssue 0 0 = true ∧ s.tickDue 0 = false ∧ (k.stream 0).q0.null = false ∧ (get 0 k.imem 0).getLsbD 32 = false
      ∧ decode ((get 0 k.imem 0).toNat % 2 ^ 32) (BitVec.ofNat 32 (get 0 k.imem 1).toNat) = .ok (.movl 19 0x9ABCDEF0) ∧ (Instr.movl 19 0x9ABCDEF0).engine = some 0
      ∧ k.awaitsLoad (.movl 19 0x9ABCDEF0) = false ∧ s.settle 0 = s)
    ∧ (let s := State.reset.withFetchWord 32 0
       let r := s.setCore 448 { s.core 0 with lastE := 5 }
       r.issues 448 0 = true ∧ (r.core 448).lastE = 5
        ∧ ((List.range 6).map (fun n => ((r.core 448).lastE + 1 + n) % 6)).takeWhile (fun g => decide (g ≠ 0)) = []
        ∧ ∃ g ∈ ((List.range 6).map (fun n => ((r.core 448).lastE + 1 + n) % 6)).takeWhile (fun g => decide (g ≠ 1)), r.issues 448 g = true)
    ∧ (let s := (State.reset.withFetchWord 32 0).onBank 0 0 (fun k => { k with imem := [(0, BitVec.ofNat 33 (2 ^ 32))] })
       (get 0 (s.bank 0 0).imem 0 : BitVec 33).getLsbD 32 = true ∧ (s.bank 0 0).fault = none)
    ∧ (let s := { atBunit (fun x => { x with ucode := [(0, 0x9000000000000000)] }) with agenda := [.micro 0] }
       s.agenda = .micro 0 :: [] ∧ (s.bunit 0).cmd = some bcmd ∧ (decodeMicro 0 (get 0 (s.bunit 0).ucode ((s.bunit 0).ctx bcmd.ctx).upc.toNat).toNat).isSome = true)
    ∧ (Instr.wake.engine = none ∧ encodeMicro .wake = none ∧ State.reset.agenda = []) := by
  refine ⟨?_, ?_, ?_, ?_, ?_⟩ <;> decide +kernel

/-- Memory after reset is in its canonical form, and a step from there answers a next state. -/
theorem witness_EveryStepKeepsMemoryCanonical :
    Memory.wf State.reset.mem ∧ ∃ t, step (State.reset.withFetchWord 32 0b000_001_0000_10011_00110_111111111011) = .next t := by
  constructor
  · decide
  · exact ⟨_, rfl⟩

/-- The step runs the placed word: `ADDI s19, s6, -5` writes s19. -/
theorem test_step_runs_the_placed_word :
    (match step (State.reset.withFetchWord 32 0b000_001_0000_10011_00110_111111111011) with
     | .next t => (t.me.rdS 19, t.me.rdS 6)
     | _ => (0, 0)) = (-5, 0) := by decide +kernel


/-- 06 R145: 1/sqrt of −0 is −∞, of +0 it is +∞. -/
theorem test_vrsq_of_zeros : FVal.rsq (.fin true 0 0) = .inf true ∧ FVal.rsq (.fin false 0 0) = .inf false := by decide

/-- 05 R130, 16 R360: an exact zero sum is +0, of −0 and −0 too. -/
theorem test_zero_sum_is_positive : treeSum fp32 7 (List.replicate 128 0x80000000) = 0 ∧ leftSum fp32 0x80000000 [0x80000000] = 0x80000000 := by decide +kernel

/-- 12 R292: a slot that has carried a request in a cycle carries no other in it. -/
theorem test_a_slot_carries_one_request : (slotted.useSlot 2 0 3).freeSlotAt 0 2 0 0 = none := by decide +kernel

/-- 02 R39: the tagged word raises the literal-target fault, and EPCQ.a holds its address. -/
theorem test_tagged_word_in_epcq :
    (match step ((State.reset.withFetchWord 32 0).onBank 0 0 (fun k => { k with imem := [(0, BitVec.ofNat 33 (2 ^ 32))] })) with
     | .next t => ((t.bank 0 0).fault.map (fun f => f.code), (t.bank 0 0).csr.epcqA.addr)
     | _ => (none, 1)) = (some 0x0002, 0) := by decide +kernel

/-- 22 R433: a partition for which a RESUME waits takes its turn when the slice of the running one ends. -/
theorem test_resume_waits_for_its_turn :
    (let g : PartRecord := { record1 with sliceGroup := 3, sliceLen := 170000 }
     let s : State := { State.reset with parts := [(1, some { cfg := g }), (2, some { cfg := { g with pid := 2 }, state := .preempting, wanted := some false })], now := 170000 }
     ((s.sliceExpiry 3).part 1).map (fun x => x.state)) = some .sliced := by decide +kernel
/-- Partition 1 with this record beside the state. -/
def withPart1 (f : Part → Part) (s : State) : State := { s with parts := [(1, some (f { cfg := record1 }))] }

theorem witness_RegistersPadsAndRings :
    (let s : State := { queued { k := 6 } with agenda := [.registerRead 0 0x010] }
     s.agenda = .registerRead 0 0x010 :: [] ∧ s.exposed 0 = true ∧ State.reset.exposed 97 = false)
    ∧ ((queued {}).onFunc 0 (fun f => { f with state := .error })).exposed 0 = true
    ∧ (let s : State := { State.reset with tensors := [(5, some { tens with fmt := 6 })] }
       s.barPad 0 (0x10000 + 504) = true ∧ s.barPad 0 (0x10000 + 503) = false ∧ s.barPad 0 (0x10000 + 512) = false)
    ∧ (let s := commandState 0 1 0 [(0, [1])]
       s.lenfy.boot = .running ∧ (s.func 0).state = .running ∧ s.ringOk (s.func 0).ringAt = true ∧ (headCmd s 0).stamp ≠ (s.func 0).head.toNat % 65536 ∧ (s.func 0).stale = none
        ∧ ({ s.onFunc 0 (fun f => { f with stale := some 5 }) with now := 1704 } : State).now < 5 + 1700)
    ∧ (let ds := [(1, Digest.withdraw), (1, Digest.value 4)]
       ds.length = 2 ∧ (1 : Nat) < 2 ∧ Digest.value 4 ≠ .withdraw) := by decide +kernel

theorem witness_CommandsOnPartitionsAndObjects :
    (stage2On 0 = false ∧ stage2On 1 = true ∧ (commandState 0 0x26 9 []).part 9 = none)
    ∧ (let s := running (fun k => k.onJob (fun j => { j with packet := 1, started := true }))
       (∀ x ∈ s.placedJobs, x.2.2.started = true ∧ x.2.2.status ≠ .stopped) ∧ (∀ x ∈ somes s.parts, x.2.saved = []))
    ∧ (let s := commandState 0 0x10 0 imageFile
       leNat (rdBytes s.mem (hostAddr (4096 + 64 + 8)) 4) = 0 ∧ (∀ x ∈ s.images, x.1 + 1 < 2 ^ 64)
        ∧ (s.loadTensors 0 (4096 + 76) 1).2 = some 0x0201)
    ∧ ((2 : Nat) < 3 ∧ (23 : Nat) < 24 ∧ (7 : Nat) < 8 ∧ tens.tiled = true ∧ 1 < tens.tileCount ∧ ¬ 2 < tens.tileCount)
    ∧ (let s := withPart1 (fun x => { x with cfg := { record1 with fns := [2, 3] } }) { commandState 0 0x20 1 [] with funcs := [(0, { part := some 0, state := .running, tail := 1 }), (3, { part := some 1, tdisp := .locked })] }
       3 ∉ record1.fns ∧ (s.part 1).any (fun x => decide (3 ∈ x.cfg.fns)) = true ∧ (s.func 3).tdisp ≠ .unlocked ∧ record1.pid = (headCmd s 0).target ∧ s.resets 1 = false)
    ∧ (let g : PartRecord := { record1 with sliceGroup := 3, sliceLen := 170000 }
       let s : State := { partCommand 0x23 .preempting with parts := [(1, some { cfg := g, state := .preempting }), (2, some { cfg := { g with pid := 2 } })] }
       mayRun s 0 0x23 ∧ s.preDone 1 = true ∧ ((somes s.parts).any (fun y => decide (y.2.cfg.sliceGroup = 3) && decide (y.1 ≠ 1) && decide (y.2.state = .running))) = true
        ∧ (s.part 1).any (fun x => decide (x.wanted = none)) = true
        ∧ ((s.onPart 1 (fun x => { x with wanted := some true, state := .running })).part 1).any (fun x => decide (x.wanted = some true)) = true)
    ∧ (get 1700000 State.reset.limits 0 = 1700000 ∧ probeJob.preempt = none)
    ∧ (let s := { withPart (fun p => { p with nvme := [default], fabric := some (3, 2, 1) }) (commandState 0 0x30 0 [(4096, leBytes 2 7), (4098, [1])]) with versions := [] }
       mayRun s 0 0x30 ∧ 2 ≤ (s.members 0).1 ∧ s.badLoad 0 (s.hostGet 4096 64) = false ∧ (s.part 0).any (fun x => decide (x.peers = [])) = true) := by decide +kernel

/-- Whether an outcome is a next state that satisfies `p`. -/
def goesOn (o : Host.Outcome State Fault Refusal) (p : State → Bool) : Bool := match o with
  | .next t => p t
  | _ => false

/-- A `HIST` of the control stream that stands in the running job. -/
def histWaits : State := commanded 0 (.hist 2 { form := wholeForm, tid := 5, box := wholeBox } 0) false id

/-- 13 R310: the JOIN of any engine waits for it. -/
theorem witness_JoinWaitsForHist :
    histWaits.me.histPending = true ∧ histWaits.me.csr.th = false ∧ (∀ f, f < 6 → (histWaits.me.stream f).phase = .running)
    ∧ goesOn (exec (.join 3) histWaits) (fun t => decide ((t.me.stream 3).wait = .inner ∧ (t.me.stream 3).phase = .running)) = true := by decide +kernel

/-- A store of the control stream that stands in the job of that domain. -/
def undoneIn (i : BitVec 16) : State :=
  (inDomain 3 i 1).onBank 0 0 (fun k => { k with cmds := [(0, [{ seq := 4, pc := 0, epoch := 0, op := .stg 0x10000 7 }])] })

/-- 08 R209: a DSYNC or an HLATCH behind it waits as for another job. -/
theorem witness_DsyncWaitsRemotely :
    (undoneIn 7).me.isStatic = false ∧ (undoneIn 7).undone (undoneIn 7).cur (undoneIn 7).curB = true
    ∧ (undoneIn 7).dmrKey 0 0 = some (domKey 3 (State.reset.joinScope 0 probeJob 3) 7) ∧ (undoneIn 7).me.csr.dmrLevel = 3
    ∧ goesOn (exec .dsync (undoneIn 7)) (fun t => decide ((t.me.stream 0).wait = .remote 0)) = true := by decide +kernel

/-- A lane core whose job asks for the lease, with an array operation of an earlier lease that is not performed where `old`. -/
def laneLease (old : Bool) : State :=
  let s := (running id).setCore 448 ((running id).core 0)
  { s with cur := 448, clusters := [(448, { tile := some { code := 0, kp := 32, els := [] } })] }.onBank 448 0 (fun k =>
    { k with seq := 9, cmds := if old then [(2, [{ seq := 4, pc := 0, epoch := 0, op := .array .mma 0 1 0 }])] else [] })

theorem witness_LaneLeaseIsHeldAtOnce :
    (∀ o, let s := laneLease o
      448 ≤ s.cur ∧ s.curB < 2 ∧ s.leaseOf s.cur s.curB = .none ∧ s.me.arrayBusy = o
      ∧ goesOn (exec .mlease s) (fun t => decide ((t.cluster 448).leaseOf (requester 448 0) = .held ∧ (t.cluster 448).from_ = (if o then 9 else 0))
          && decide ((t.cluster 448).tile.isSome = o)) = true) := by decide +kernel

/-- A list of zeros is a list of finite numbers. -/
theorem zeros_finite (l : List (FVal × Bool)) (n : Nat) (e : Int) (h : l = List.replicate n (.fin false 0 e, false)) :
    ∃ q : List ℚ, l.map (fun x => num x.1) = q.map some := by
  subst h
  exact ⟨List.replicate n 0, by simp [num]⟩

/-- The MMA of one row of format 0 with all its elements of both operands read, all zero. -/
def multiplied : State :=
  let n := kExtent false 0 * nExtent false 0
  arrayState .mma [] (some { seq := 4, a := List.replicate (kExtent false 0 / 256 + 1) { row := {}, scale := {}, lo := 0, hi := 512 }
                             b := List.replicate (n / 256 + 1) { row := {}, scale := {}, lo := 0, hi := 512 } })

theorem witness_MatrixElementsAreWrittenOut :
    (let s := multiplied
     (s.bank 0 0).firstArray.map (fun c => (c.seq, c.op, s.arrNext 0 0 c)) = some (4, .array .mma 0 1 0, none) ∧ ∀ r ∈ (s.bank 0 0).run,
      (groupsOf (kExtent false 0) 2 (r.a.flatMap (Chunk.elems (opFmt (entAF 0))))).getD 0 [] = List.replicate (kExtent false 0) (.fin false 0 (-133), false)
      ∧ (groupsOf (kExtent false 0) (nExtent false 0 + 1) (r.b.flatMap (Chunk.elems (opFmt (entBF 0))))).getD 3 [] = List.replicate (kExtent false 0) (.fin false 0 (-133), false))
    ∧ entOF 0x10000 = 1 ∧ 255 < 256 ∧ 0 < 4 * arrW false / 256 ∧ fp32.val ((get {} (multiplied.cluster 0).acc 0 : AccRow).el 32 0) = .fin false 0 (-149) := by
  decide +kernel

/-- A slot tensor of two slots of two lines each, with its tiles in near memory. -/
def slots : Tensor :=
  { tens with covered := true, ndim := 2, ext := [1024, 4, 1, 1, 1, 1], tsh := [1024, 2, 1, 1, 1, 1], order := [0, 1, 0, 0, 0, 0] }

/-- 12 R282: tile and bit of an element of each layout. -/
theorem witness_ElementsAreLocated :
    tens.ndim ≤ tens.order.length ∧ slots.ndim ≤ slots.order.length ∧ tens.loc [1500, 0, 0, 0, 0, 0] = (1, 476 / 128 * 4096 + 476 % 128 * 32)
    ∧ slots.loc [5, 3, 0, 0, 0, 0] = (1, (1024 + 5) / 128 * 4096 + 5 * 32)
    ∧ { tens with tiled := false, stride := [512, 0, 0, 0, 0] }.loc [130, 9, 0, 0, 0, 0] = ((1 * 4096 + 2 * 32 + 9 * 512 * 8) / 32768, (1 * 4096 + 2 * 32 + 9 * 512 * 8) % 32768) := by decide +kernel

/-- A slot tensor of rows of 128 elements, of two slots of two rows, on tensor 7, with the Crossing's XSEND of a row of tensor 5. -/
def rowSlots : Tensor :=
  { tens with id := 7, covered := true, ndim := 2, ext := [128, 4, 1, 1, 1, 1], tsh := [128, 2, 1, 1, 1, 1], order := [0, 1, 0, 0, 0, 0]
              wbase := 0x40000, tiles := [(0, { v := true, tier := 2, stack := 0, fbase := 24 }), (1, { v := true, tier := 2, stack := 0, fbase := 32 })] }
def sendRow (slot i : Nat) : State :=
  let s := sendState { crossing 1 .filling 0xFFFFFFFF [] with tid := 7, slots := [(slot, { st := .filling, form := wholeForm })], nslots := 2 } [] id
  { s with tensors := s.tensors ++ [(7, some rowSlots)] }.onBank 0 0 (fun k => { k with
    cmds := [(5, [{ seq := 4, pc := 0, epoch := 0, op := .xsend 9 slot true 3 { form := wholeForm, tid := 5, box := { lo := [0, 0, 0, 0, 0, 0], hi := [256, 1, 1, 1, 1, 1] } } 2 [] }])]
    departed := [{ src := 4, row := i, x := { tid := 5, tile := 0, tier := 2, stack := 0, base := 0x8000, w := true }, due := some 0 }] })

theorem witness_XsendRowsLieInTheirLines :
    (∀ p ∈ [(0, 0), (0, 1), (1, 0), (1, 1)], let s := sendRow p.1 p.2
      ((s.lend 0 0 4 p.2).readRun 0 0 5 0 tens (rowCoords 0 { lo := [0, 0, 0, 0, 0, 0], hi := [256, 1, 1, 1, 1, 1] } [0, 0, 0, 0, 0, 0] p.2)).toOption.isSome = true
      ∧ s.tensor 7 = some rowSlots ∧ s.translate rowSlots p.1 .none true = .frame 2 0 ((24 + 8 * p.1) * 4096) ∧ rowElems 0 = 128
      ∧ rowSlots.loc [3, p.1 * 2 + p.2, 0, 0, 0, 0] = (p.1, 4096 * p.2 + 3 * 32)
      ∧ goesOn (exec (.copyRowPerformed 0 0 5 4 p.2) s) (fun t => decide ((t.bank 0 0).fault = none ∧ ((t.tensor 7).map (fun z => z.stamp p.1)) = some {})) = true) := by
  decide +kernel

/-- A releasing slot whose handle stands at generation 4095, in a partition of two handles. -/
def lastGeneration : State :=
  let f : Frame := { tier := 2, stack := 0, fsz := 0, base := 24, part := 0 }
  let s := withPart (fun p => { p with handleQuota := 2 }) (withCrossing { crossing 0 .releasing 0xFFFFFFFF [] with slots := [(0, { st := .releasing, form := wholeForm, frame := some f })] })
  { s with views := [(3, { wholeView with gen := 4095, holder := .system })] }

theorem witness_LastGenerationTakesAnotherHandle :
    (let s := lastGeneration
     (get {} s.views 3 : View).gen = 4095 ∧ (get {} s.views 3 : View).used = true ∧ s.handles 0 < s.handleQuota 0
      ∧ ∀ c ∈ get none s.crossings 9, (c.slot 0).st = .releasing ∧ formHandle (c.slot 0).form = 3 ∧ (c.slot 0).frame ≠ none ∧ s.tensor c.tid = some tens)
    ∧ ∃ g, lastGeneration.takeHandle 0 = some g :=
  ⟨by decide +kernel, takes_handle _ _ (by decide +kernel) (by decide +kernel)⟩

/-- Two lines of a tile each. -/
def twoLines : Box := { lo := [0, 0, 0, 0, 0, 0], hi := [1024, 2, 1, 1, 1, 1] }

/-- Two bins of that tensor's lines, the first full, behind an `SCATB` of `n` rows. -/
def scattering (n : Nat) : State :=
  let y := { tens with ndim := 2, ext := [1024, 2, 1, 1, 1, 1], tsh := [1024, 1, 1, 1, 1, 1], order := [0, 1, 0, 0, 0, 0] }
  { buffered (commanded 4 (.copy { copyOf .scatb with n := n, chk := some { form := wholeForm, tid := 5, box := twoLines } }) false (fun k => k.onSq 4 (fun r => { r with nb := 2, sp := 1, cap := [(0, 1), (1, 1)], base := [(1, 1)] }))) with tensors := [(5, some y)] }

theorem witness_ScatbWritesItsLastRow :
    (let s := scattering 2
     let sq := (s.bank 0 0).sq 4
     let cap := fun (j : Nat) => (get 0 sq.cap j : Word).toNat
     let count := binCounts sq.nb.toNat sq.sp.toNat cap (fun j => (get 0 sq.bcnt j : Word).toNat) [0]
     count 0 = 1 ∧ cap 0 ≤ count 0 ∧ sq.sp.toNat = 1 ∧ count 1 < cap 1 ∧ ((get 0 sq.base 1 : Word).toNat + count 1) % 2 ^ 32 = 1
      ∧ (copyOf .scatb).point = [0, 0, 0, 0, 0, 0]
      ∧ twoLines.has [0, 1, 0, 0, 0, 0] = true)
    ∧ (let s := scattering 2
       let s1 := s.setCore 0 { s.core 0 with pad := [(2, { data := 5 })] }
       (∀ c ∈ (s1.bank 0 0).cmd 4 4, s1.mayPerform 0 0 4 c = true ∧ s1.allArrived 0 0 4 c = true)
        ∧ goesOn (exec (.scatbPerformed 0 0) s1) (fun t => decide ((t.bank 0 0).fault = none ∧ rdByte t.mem (physAddr 2 1 0x8000) = 5 ∧ rdByte t.mem (physAddr 2 0 0x8000) = 0)) = true) := by
  decide +kernel
/-- Domain 7 of level 3 of partition 0 at its close, with one latch list at this address that the running job leaves: its memory holds this header, and one entry of level 1 and field 0 for the record at 0x10080, the sum of the bins below bin 2, plus 7. -/
def latching (a : DWord) (count : Nat) (f : Job → Job) : State :=
  { withTens (withPart id (inDomain 3 7 1)) with
    domains := [(domKey 3 0 7, some { quota := 1, joined := 1, arrivals := 1, latches := [(0, 0, probeJob.jid, a)] })]
    dies := [(0, { hist := [(0, [(0, 3), (1, 4), (2, 90)])] }), (3, { hist := [(0, [(1, 10)])] })]
    mem := wrBytes [] (physAddr 2 0 0x8000) (leBytes 4 count ++ leBytes 4 0 ++ leBytes 8 0x10080 ++ leBytes 1 1 ++ leBytes 1 0 ++ leBytes 1 1 ++ leBytes 1 2 ++ leBytes 4 7
      ++ List.replicate 200 (BitVec.ofNat 8 255)) }.onBank 0 0 (fun k => k.onJob f)

/-- The latch of that domain. -/
def latchOf (a : DWord) : List (Nat × Nat × Nat × DWord) := [(0, 0, probeJob.jid, a)]

theorem witness_LatchListsAreCarriedOut :
    (let s := latching 0x10000 1 id
     ((latchOf 0x10000).findSome? (s.latchMiss 0)).isNone = true ∧ (s.latches 0 (latchOf 0x10000)).logOver 0 = false
      ∧ (s.placedJobs.find? (fun y => decide (y.2.2.jid = probeJob.jid))).map (fun y => (y.1, y.2.1)) = some (0, 0)
      ∧ (s.devRead 0 0x10000 8 probeJob.asid).map (fun h => leAt h 0 4) = some 1
      ∧ (s.devRead 0 0x10008 16 probeJob.asid).map (fun h => (leAt h 0 8, leAt h 8 1, leAt h 9 1, leAt h 10 1, leAt h 11 1, leAt h 12 4)) = some (0x10080, 1, 0, 1, 2, 7)
      ∧ (∀ i ∈ [0, 64, 127], s.window 0 (0x10080 + i) = some tens ∧ tens.pad (tens.ofFlat (0x10080 + i)).2 = false
        ∧ s.devAddr tens (0x10080 + i) probeJob.asid false = some (physAddr 2 0 0x8080 + i) ∧ s.devAddr tens (0x10080 + i) probeJob.asid true = some (physAddr 2 0 0x8080 + i))
      ∧ goesOn (exec (.domainClose { level := 3, scope := 0, id := 7 }) s) (fun t => decide (leNat (rdBytes t.mem (physAddr 2 0 0x8088) 4) = 3 + 14 + 7
          ∧ leNat (rdBytes t.mem (physAddr 2 0 0x80C2) 2) = 0xFFFE ∧ rdByte t.mem (physAddr 2 0 0x808C) = 255)) = true)
    ∧ (let s := latching 0x10004 1 id
       (s.bank 0 0).fault = none ∧ ((latchOf 0x10004).findSome? (s.latchMiss 0)).isNone = true
        ∧ goesOn (exec (.domainClose { level := 3, scope := 0, id := 7 }) s) (fun t => decide (((t.bank 0 0).fault.map (fun f => (f.code, f.da))) = some (0x0007, 0x10004)
          ∧ (t.domain (domKey 3 0 7)).map (fun z => z.pn) = some 1)) = true)
    ∧ (let s := latching 0x10000 257 id
       (s.devRead 0 0x10000 8 probeJob.asid).map (fun h => leAt h 0 4) = some 257
        ∧ goesOn (exec (.domainClose { level := 3, scope := 0, id := 7 }) s) (fun t => decide (((t.bank 0 0).fault.map (fun f => (f.code, f.da))) = some (0x0007, 0x10000))) = true) := by decide +kernel

/-- That domain where the list lies in a tile that misses. -/
def latchMissing (f : Job → Job) : State := { latching 0x10000 1 f with tensors := [(5, some { tens with tiles := [] })] }

theorem witness_LatchListsThatMissWait :
    (let s := latchMissing id
     ((latchOf 0x10000).findSome? (s.latchMiss 0)).any (fun y => decide (y.1 = 0) && decide (y.2.1 = 0) && decide (y.2.2.1.status = .ready) && !y.2.2.2.1) = true ∧ (s.die 0).full = false
      ∧ goesOn (exec (.domainClose { level := 3, scope := 0, id := 7 }) s) (fun t => (t.bank 0 0).job.any (fun j => decide (j.status = .missing)) && (t.die 0).batch.all (fun m => m.read && !m.write)) = true)
    ∧ (let s := latchMissing (fun j => { j with status := .missing })
       ((latchOf 0x10000).findSome? (s.latchMiss 0)).any (fun y => decide (y.2.2.1.status = .missing)) = true) := by decide +kernel
/-- 19 R382: a CLIMB takes a free bank of the tier and records none where none is free; the monitor evaluates a job once, with a target or without. -/
theorem witness_ClimbsReserveAndMonitors :
    (let s := climbing 1 none
     goesOn (exec .climb s) (fun t => t.me.job.any (fun j => j.request.any (fun r => decide (r.unit = some (0, 1)) && r.ever))) = true
      ∧ goesOn (exec .climb (withPart (fun p => { p with units := [] }) s)) (fun t => t.me.job.any (fun j => j.request.any (fun r => decide (r.unit = none) && !r.ever))) = true)
    ∧ (∀ p ∈ [((1 : BitVec 2), some 2), (2, none)], let s := (climbing p.1 none).onBank 0 0 (fun k => k.onJob (fun j => { j with eval := true }))
       (s.bank 0 0).job.any (fun j => decide (s.climbTarget j (s.bank 0 0).csr.tier.toNat = p.2) && j.climb && j.eval) = true
        ∧ goesOn (exec (.climbMonitorEval 0 0) s) (fun t => (t.bank 0 0).job.any (fun j => decide ((j.request.map (fun r => r.target)) = p.2) && !j.eval)) = true) := by decide +kernel

/-- The same latch in partition 1, whose frame 8 stage 2 maps, where the ring of dirty log entries has room for `n` more. -/
def latchLogged (n : Nat) : State :=
  let s := latching 0x10000 1 (fun j => { j with part := 1 })
  { s with domains := [(domKey 3 1 7, some { quota := 1, joined := 1, arrivals := 1, latches := [(0, 0, probeJob.jid, 0x10000)] })]
           parts := [(1, some { cfg := { (default : PartRecord) with units := [0] }, dirty := some (4096, 1), dlTail := 2 - n })]
           tensors := [(5, some { tens with part := 1 })], stage2 := [(s2Key 1 0 8, { v := true, tier := 2, stack := 0, w := true, mbase := 8 })] }

theorem witness_LatchesWaitForTheDirtyLog :
    (let s := latchLogged 0
     ((latchOf 0x10000).findSome? (s.latchMiss 1)).isNone = true ∧ (s.latches 1 (latchOf 0x10000)).logOver 1 = true
      ∧ goesOn (exec (.domainClose { level := 3, scope := 1, id := 7 }) s) (fun t => decide (t.mem = s.mem) && decide (t.domains = s.domains)) = true)
    ∧ (let s := latchLogged 1
       (s.latches 1 (latchOf 0x10000)).logOver 1 = false
        ∧ goesOn (exec (.domainClose { level := 3, scope := 1, id := 7 }) s) (fun t => decide (t.mem ≠ s.mem)) = true) := by decide +kernel

/-- A load that survives a fault of its job and misses. -/
def stoppedMiss : State := missing.onBank 0 0 (fun k => ({ k with fault := some { code := 0x0007, eng := 2, precise := false } }).onJob (fun j => { j with status := .stopped }))

theorem witness_MissesOfStoppedJobsAndBadReplies :
    (let s := stoppedMiss
     ∀ c ∈ (s.bank 0 0).cmd 0 4, s.mayPerform 0 0 0 c = true ∧ s.missOf 0 0 0 0 c = some (5, 0, 1, false, 0x10FF8) ∧ (s.die 0).batch.length < 64
      ∧ goesOn (exec (.faultRangeMiss 0 0 0 4 0) s) (fun t => (t.bank 0 0).job.any (fun j => decide (j.status = .stopped)) && ((t.bank 0 0).cmd 0 4).any (fun x => x.held) && decide ((t.die 0).batch.length = 1)) = true)
    ∧ (stoppedMiss.bank 0 0).cmd 0 4 ≠ none
    ∧ (let s := (batched 1 0).onBank 0 0 (fun k => k.onJob (fun j => { j with status := .missing }))
       (s.bank 0 0).cmd 0 4 ≠ none ∧ (s.bank 0 0).fault = none
        ∧ goesOn (exec (.rangeReply 0 9 1) s) (fun t => decide ((t.bank 0 0).fault.map (fun f => (f.code, f.eng, f.da)) = some (0x0007, 0, 0x10FF8)) && ((t.bank 0 0).cmd 0 4).any (fun c => c.held && c.lost)) = true) := by
  decide +kernel

/-- A `BKRUN` of partition 1 whose record of 28 lines starts in frame 2 of a DIRECT tensor and goes on in frame 3, which stage 2 maps elsewhere. -/
def twoFrames : State :=
  let y := { tens with part := 1, tiled := false, fsz := 1, ext := [8192, 1, 1, 1, 1, 1], tbase := 0x9000, stride := [0, 0, 0, 0, 0], tiles := [] }
  let s := commanded 5 (.bkrun 0x10000 1 0 false) false (fun k => { k with job := some { probeJob with part := 1 } })
  { s with bunits := [(0, { ctxs := [(1, { owner := some 1 })] })], tensors := [(5, some y)]
           stage2 := [(s2Key 1 1 2, { v := true, tier := 2, stack := 0, w := true, mbase := 16 }), (s2Key 1 1 3, { v := true, tier := 2, stack := 0, w := true, mbase := 28 })]
           mem := [(0, leBytes 8 0x10000), (8, leBytes 8 (3 + 256)), (16, leBytes 8 28)].foldl (fun m (p : Nat × List Byte) => wrBytes m (physAddr 2 0 0x11000 + p.1) p.2) [] }

/-- 21 R407: its lines from line 24 on lie in the second frame. -/
theorem witness_RecordsGoOnInTheNextFrame :
    (let s := twoFrames
     (s.nextRecord 0 0).isSome = true ∧ (s.readDwords 0 0 0 0x10000 4).toOption.map Prod.fst = some [0x10000, 0x11C - 25, 28, 0]
      ∧ ∀ c ∈ (s.bank 0 0).cmd 5 4, ((s.bkCheck 0 0 c 0x10000 0 (bkRec [0x10000, 0x103, 28, 0])).toOption.map (fun x => (x.1, lineAt x.2 23, lineAt x.2 24)))
          = some (0, (2, 0, 0x11000 + 512 * 23), (2, 0, 0x1C000)))
    ∧ (let y := { tens with fsz := 1 }
       (frameBytes y.fsz - (0x9000 + (0x10000 - y.wbase)) % frameBytes y.fsz) / 512 = 24 ∧ ¬ (28 : Nat) ≤ 24)
    ∧ (let s := { commanded 5 (.bkload (2 ^ 19 * 2) 0x10000) false id with bunits := [(0, { ctxs := [(0, { owner := some 0 })] })] }
       ∀ c ∈ (s.bank 0 0).cmd 5 4, s.allArrived 0 0 5 c = true) := by decide +kernel

/-- 00 R1, 05 R126: every place where an uncorrectable error is found is one of the model. -/
theorem witness_ErrorsOnADieAndInStoreStacks :
    (let s := accState true
     3 < (s.bank 0 0).rows
      ∧ goesOn (exec (.stackAlertEvent 0 9 (.onChip 0 0 (.pad 3)) 0 0 0 [1]) s) (fun t => (t.row 0 0 3).poison.getLsbD 1 && !(t.row 0 0 3).poison.getLsbD 0) = true
      ∧ goesOn (exec (.stackAlertEvent 0 9 (.onChip 0 0 (.vector 31)) 0 0 0 [1]) s) (fun t => (get {} (t.bank 0 0).v 31 : Row).poison.getLsbD 1) = true
      ∧ goesOn (exec (.stackAlertEvent 0 9 (.onChip 0 0 (.fifo 1 0)) 0 0 0 [1]) (arrayState .mma [{ row := {}, eng := 0, epoch := 0 }] none))
          (fun t => (((t.bank 0 0).dfifo 1).rows.map (fun x => x.row.poison.getLsbD 1)) == [true]) = true
      ∧ goesOn (exec (.stackAlertEvent 0 9 (.onChip 0 0 (.acc 2047)) 0 0 0 [33]) s) (fun t => (get {} (t.cluster 0).acc 2047 : AccRow).poison.getLsbD 33) = true
      ∧ goesOn (exec (.stackAlertEvent 0 7 .dramUncorrectable 0 0 0 [5]) s) (fun t => get false t.poison (physAddr 0 7 80 / 16)) = true) := by decide +kernel

/-- 22 R429, R434: a job that the limit has stopped and whose frame waits is one of those that DESTROY_QUEUE marks. -/
theorem witness_LimitedJobsAreDiscardedToo :
    (let s := running (fun k => ({ k with fault := some { code := 0x0018, eng := 0, precise := false } }).onJob (fun j => { j with status := .stopped, started := true, preempt := some false }))
     (∀ x ∈ s.placedJobs, x.2.2.started = true ∧ ((s.bank x.1 x.2.1).fault.map (fun k => (k.code, k.slot))) = some (0x0018, none)) ∧ s.placedJobs ≠ [] ∧ ∀ x ∈ somes s.parts, x.2.saved = []) := by
  decide +kernel

/-- 17 R362, 12 R281: the refusals of CREATE_CROSSING behind its record's checks. -/
theorem witness_CrossingsThatAreRefused :
    (let s := { crossingState with tensors := [(5, some { tens with wbase := 0 })] }
     (s.crossingOf 0 (s.hostGet 4096 32)).map (fun p => (s.placeFault p.2).isSome) = some true)
    ∧ (let s := withPart (fun p => { p with units := [0, 192], quotas := [{ tier := 2, stack := 0, fsz := 0, frames := 1 }] }) (commandState 0 0x15 0 crossingFile)
       mayRun s 0 0x15 ∧ (s.crossingOf 0 (s.hostGet 4096 32)).map (fun p => (s.placeFault p.2, (s.slotViews 0 p.2.id (rowElems p.2.fmt) p.1.rows 0 p.1.nslots).isNone)) = some (none, true))
    ∧ (let s := withPart (fun p => { p with units := [0, 192], handleQuota := 1 }) (commandState 0 0x15 0 crossingFile)
       (s.crossingOf 0 (s.hostGet 4096 32)).map (fun p => (s.placeFault p.2, decide (s.frameQuota 0 2 (nearStack p.2.home) p.2.fsz ≤ s.framesHeld 0 2 (nearStack p.2.home) p.2.fsz))) = some (none, true)) := by
  decide +kernel

/-- 02 R36, R37: a word of engine 0 that takes a literal, its literal, which looks like a word of engine 1, and a JOIN of engine 1. -/
theorem witness_LiteralsFollowTheirWords :
    let ws := [0b000_010_01000000000000000000000001, 0b001_010_11100000000000000000000000, 0b001_111_00001_000000000000000000000]
    (List.range 3).map (fun i => (literalAt ws i, engineAt ws i)) = [(false, 0), (true, 0), (false, 1)] := by decide +kernel

/-- A target record of another number with its own function and queue, and an image with a queue (22 R435). -/
def record2 : PartRecord := { record1 with pid := 2, fns := [4], queues := [{ fn := 4, loc := 3, glob := 90 }] }
def mig2 : Mig := { mig1 with cfg := { record1 with queues := [{ fn := 2, loc := 3, glob := 70 }] }, queues := [(70, { fn := 2, k := 6, state := .paused })], images := [(77, image0)] }

theorem witness_MigrationsPlaceTheirQueues :
    mig2.lacksQueue record2 = false ∧ mig2.lacksQueue { record2 with queues := [] } = true ∧ mig2.lacksQueue { record2 with fns := [] } = true
    ∧ mig2.queueOn record2 70 = some 90 ∧ mig2.fnOn record2 2 = some 4 ∧ ((mig2.placed record2).queues.map Prod.fst).Nodup
    ∧ (get none ({ partCommand 0x25 .running with images := [(77, some image0)] } : State).images 77) ≠ none
    ∧ (let s : State := { commandState 0 0x25 2 [] with parts := [(2, some { cfg := record2 })], migs := [mig2] }
       mayRun s 0 0x25 ∧ s.conflict 2 mig2 = false ∧ s.partBusy 2 = false ∧ mig2.beyond = false
        ∧ goesOn (exec (.migrateRestore 0 0) s) (fun t => decide ((t.queue 90).fn = 4 ∧ (t.queue 90).k = 6 ∧ (t.queue 70).k = 0)) = true) := by decide +kernel

/-- 22 R416: the registers of function 5, and the offsets that are none. -/
theorem witness_RegistersElseZero :
    (∀ o ∈ [0x018, 0x200, 0x7F8, 0xA00, 0xFF8, 0x1010], (∀ x ∈ [0x000, 0x008, 0x010, 0x100], o ≠ x) ∧ (∀ c, c < 64 → o ≠ 0x800 + 8 * c)
      ∧ (∀ x ∈ [0x000, 0x008, 0x018], o ≠ 0x1000 * (0 + 1) + x)) := by decide +kernel
end Sys2Proof.Tests
end

section
/-!
SUPPORT. Fields of byte records, folds over numbered entries, rows whose granules are poisoned.
-/

namespace Sys2Proof.Machine

/-! ### Little-endian fields of a record -/

@[simp] theorem length_leBytes (n v : Nat) : (leBytes n v).length = n := by
  induction n generalizing v with
  | zero => rfl
  | succ n ih => rw [leBytes, List.length_cons, ih]

theorem leNat_leBytes (n v : Nat) : leNat (leBytes n v) = v % 256 ^ n := by
  induction n generalizing v with
  | zero => simp [leBytes, leNat, Nat.mod_one]
  | succ n ih =>
    rw [leBytes, leNat, ih, BitVec.toNat_ofNat, Nat.pow_succ' (m := 256), Nat.mod_mul (a := 256)]

/-- A field that lies behind the bytes `xs`. -/
theorem leAt_skip (xs zs : List Byte) (lo n : Nat) (h : xs.length ≤ lo) : leAt (xs ++ zs) lo n = leAt zs (lo - xs.length) n := by
  rw [leAt, List.drop_append, List.drop_eq_nil_of_le h, List.nil_append, leAt]

/-- The first field of a record. -/
theorem leAt_head (n v : Nat) (zs : List Byte) : leAt (leBytes n v ++ zs) 0 n = v % 256 ^ n := by
  rw [leAt, List.drop_zero, List.take_left' (length_leBytes n v), leNat_leBytes]

/-- A record of one field. -/
theorem leAt_leBytes (n v : Nat) : leAt (leBytes n v) 0 n = v % 256 ^ n := by
  simpa using leAt_head n v []

theorem length_flatMap_leBytes (w n : Nat) (f : Nat → Nat) : ((List.range n).flatMap (fun i => leBytes w (f i))).length = w * n := by
  simp [List.length_flatMap, Nat.mul_comm]

/-- Field `i` of a record of `n` fields of `w` bytes, whatever stands behind them. -/
theorem leAt_flatMap_leBytes (w n : Nat) (f : Nat → Nat) (zs : List Byte) (i : Nat) (h : i < n) :
    leAt ((List.range n).flatMap (fun i => leBytes w (f i)) ++ zs) (w * i) w = f i % 256 ^ w := by
  induction n generalizing zs with
  | zero => omega
  | succ n ih =>
    rw [List.range_succ, List.flatMap_append, List.append_assoc, List.flatMap_singleton]
    rcases Nat.lt_succ_iff_lt_or_eq.mp h with hi | rfl
    · exact ih _ hi
    · rw [leAt_skip _ _ _ _ (length_flatMap_leBytes w i f).le, length_flatMap_leBytes, Nat.sub_self, leAt_head]

/-! ### Numbered entries -/

/-- Entries marked one after the other: an entry is marked if it was or if it is among them. -/
theorem get_foldl_mark (m : Map Bool) (ks : List Nat) (base g : Nat) :
    get false (ks.foldl (fun m k => set false m (base + k) true) m) g = (get false m g || ks.any (fun k => decide (base + k = g))) := by
  induction ks generalizing m with
  | nil => simp
  | cons k ks ih =>
    rw [List.foldl_cons, ih, get_set, List.any_cons]
    by_cases h : g = base + k
    · simp [h]
    · simp [h, Ne.symm h]

/-- A map whose entries have all been changed by an `f` that keeps the default. -/
theorem get_map_snd {α : Type} (d : α) (f : α → α) (hd : f d = d) (m : Map α) (k : Nat) :
    get d (m.map (fun p => (p.1, f p.2))) k = f (get d m k) := by
  induction m with
  | nil => exact hd.symm
  | cons p m ih =>
    obtain ⟨i, v⟩ := p
    simp only [List.map_cons, get]
    split
    · rfl
    · exact ih

/-! ### Rows -/

@[simp] theorem Row.hit_data (r : Row) (gs : List Nat) : (r.hit gs).data = r.data := rfl

theorem Row.hit_poison (r : Row) (gs : List Nat) (g : Nat) (h : g < 32) :
    (r.hit gs).poison.getLsbD g = (r.poison.getLsbD g || decide (g ∈ gs)) := by
  rw [Row.hit, BitVec.getLsbD_or, getLsbD_ofGran _ _ h, List.contains_eq_mem]

@[simp] theorem bank_setRow (s : State) (u b r : Nat) (v : Row) (w d : Nat) : (s.setRow u b r v).bank w d = s.bank w d := by
  unfold State.bank State.setRow
  by_cases h : w = u
  · subst h; rw [core_setCore_self]; rfl
  · rw [core_setCore_other _ _ h]

theorem core_setRow_other (s : State) {u w : Nat} (b r : Nat) (v : Row) (h : w ≠ u) : (s.setRow u b r v).core w = s.core w :=
  core_setCore_other s _ h

/-- A write of a row changes nothing of its unit but the scratchpad. -/
theorem core_setRow_self (s : State) (u b r : Nat) (v : Row) :
    (s.setRow u b r v).core u = { s.core u with pad := set {} (s.core u).pad ((s.bank u b).base + r) v } :=
  core_setCore_self s u _

@[simp] theorem row_setRow_self (s : State) (u b r : Nat) (v : Row) : (s.setRow u b r v).row u b r = v := by
  unfold State.row
  rw [bank_setRow, core_setRow_self, get_set_self]

theorem row_setRow_other (s : State) (u b : Nat) {r q : Nat} (v : Row) (h : q ≠ r) : (s.setRow u b r v).row u b q = s.row u b q := by
  unfold State.row
  rw [bank_setRow, core_setRow_self, get_set_other _ _ _ (by omega)]

/-! ### Clusters -/

@[simp] theorem cluster_onCluster_self (s : State) (i : Nat) (f : Cluster → Cluster) : (s.onCluster i f).cluster i = f (s.cluster i) :=
  get_set_self _ _ _ _

theorem cluster_onCluster_other (s : State) {i n : Nat} (f : Cluster → Cluster) (h : n ≠ i) : (s.onCluster i f).cluster n = s.cluster n :=
  get_set_other _ _ _ h

end Sys2Proof.Machine
end

section
/-!
SUPPORT. The moves of the governor, the alerts, the power levels, the boot and the measurements (21 R412, R413, 05 R126, 22 R440, 23 R454, R455).
-/

namespace Sys2Proof.Machine

/-- A step whose meaning goes on in a state that is equal to `t` answers `t`. -/
theorem exec_next {i : Instr} {s r t : State} (h : exec i s = .next r) (e : r = t) : exec i s = .next t := e ▸ h

/-! ### The governor -/

theorem governorTick_early (s : State) (h : s.now < s.governed + 4096) : s.governorTick = s := if_pos h

theorem governorTick_due (s : State) (h : s.governed + 4096 ≤ s.now) :
    s.governorTick = { s with
      governed := s.governed + 4096
      clock := if s.clock < clockFor (s.bunits.filter (fun x => x.2.busy)).length then s.clock + 1
        else if clockFor (s.bunits.filter (fun x => x.2.busy)).length < s.clock then s.clock - 1 else s.clock } :=
  if_neg (Nat.not_lt.mpr h)

/-! ### The ring of a base die -/

/-- The record with which a stack logs an event. -/
def Stack.alertFor (x : Stack) (kind : Nat) (unit : Byte) (bank : BitVec 16) (row : Word) : Alert where
  kind := kind
  unit := unit
  bank := bank
  row := row
  seq := x.aseq
  cnt := match (x.ring.filter (fun a => decide (a.kind = kind) && decide (a.unit = unit) && decide (a.bank = bank) && decide (a.row = row))).getLast? with
    | some a => if a.cnt = BitVec.allOnes 32 then a.cnt else a.cnt + 1
    | none => 1

theorem Stack.log_eq (x : Stack) (kind : Nat) (unit : Byte) (bank : BitVec 16) (row : Word) :
    x.log kind unit bank row = { x with
      ring := (x.ring ++ [x.alertFor kind unit bank row]).drop ((x.ring ++ [x.alertFor kind unit bank row]).length - 32)
      aseq := x.aseq + 1
      alert := true } := rfl

/-- The first event at a place counts 1. -/
theorem Stack.alertFor_cnt_first (x : Stack) (kind : Nat) (unit : Byte) (bank : BitVec 16) (row : Word)
    (h : ∀ z ∈ x.ring, ¬ (z.kind = kind ∧ z.unit = unit ∧ z.bank = bank ∧ z.row = row)) : (x.alertFor kind unit bank row).cnt = 1 := by
  have hn : x.ring.filter (fun a => decide (a.kind = kind) && decide (a.unit = unit) && decide (a.bank = bank) && decide (a.row = row)) = [] := by
    rw [List.filter_eq_nil_iff]
    intro z hz
    simpa [and_assoc] using h z hz
  simp only [Stack.alertFor, hn, List.getLast?_nil]

section
variable (x : Stack) (kind : Nat) (unit : Byte) (bank : BitVec 16) (row : Word)

theorem Stack.log_ring_getLast : (x.log kind unit bank row).ring.getLast? = some (x.alertFor kind unit bank row) := by
  rw [Stack.log_eq, List.getLast?_drop, if_neg (by simp), List.getLast?_concat]

theorem Stack.log_ring_room (h : x.ring.length < 32) : (x.log kind unit bank row).ring = x.ring ++ [x.alertFor kind unit bank row] := by
  rw [Stack.log_eq, List.length_append, List.length_singleton, Nat.sub_eq_zero_of_le (by omega), List.drop_zero]

theorem Stack.log_ring_full (h : x.ring.length = 32) : (x.log kind unit bank row).ring = x.ring.tail ++ [x.alertFor kind unit bank row] := by
  rw [Stack.log_eq, List.length_append, List.length_singleton, h, List.drop_append_of_le_length (by omega), List.drop_one]

theorem Stack.log_aseq : (x.log kind unit bank row).aseq = x.aseq + 1 := rfl

theorem Stack.log_alert : (x.log kind unit bank row).alert = true := rfl

end

/-! ### What an event changes -/

theorem noBaseDie_eq_false {tier stack : Nat} (ht : tier = 1 ∨ tier = 2) (hs : stack < 24) : noBaseDie tier stack = false := by
  rcases ht with rfl | rfl <;> simp [noBaseDie, stacksOf, hs]

theorem noBaseDie_eq_true {tier stack : Nat} (h : tier = 0 ∨ 3 ≤ tier ∨ 24 ≤ stack) : noBaseDie tier stack = true := by
  unfold noBaseDie
  by_cases ht : tier = 1 ∨ tier = 2
  · have hs : stacksOf tier = 24 := by rcases ht with rfl | rfl <;> rfl
    simp only [hs, Bool.or_eq_true, decide_eq_true_eq]
    omega
  · simp only [Bool.or_eq_true, decide_eq_true_eq]
    omega

/-- The granules hit that lie inside the stack are poisoned, and no other becomes so. -/
theorem get_poison_hitStack (s : State) (tier stack : Nat) (gs : List Nat) (g : Nat) :
    get false (s.hitStack tier stack gs).poison g
      = (get false s.poison g || gs.any (fun h => decide (16 * h < stackBytes tier ∧ physAddr tier stack 0 / 16 + h = g))) := by
  simp only [State.hitStack, get_foldl_mark, List.any_filter, Bool.decide_and]

/-- An event of a place with no base die changes nothing, unless it is an uncorrectable error of a store stack or on a core's die. -/
theorem stackAlert_no_die (s : State) {tier stack : Nat} {kind : AlertKind} (unit : Byte) (bank : BitVec 16) (row : Word) (hit : List Nat)
    (h : tier = 0 ∨ 3 ≤ tier ∨ 24 ≤ stack) (hc : ∀ u b x, kind ≠ .onChip u b x) (hd : tier = 0 → stack < 8 → kind ≠ .dramUncorrectable) :
    s.stackAlert tier stack kind unit bank row hit = s := by
  have hstore : ¬ (tier = 0 ∧ stack < stacksOf 0 ∧ kind = .dramUncorrectable) := fun ⟨h0, hs, hk⟩ => hd h0 hs hk
  have hn : noBaseDie tier stack = true := noBaseDie_eq_true h
  cases kind with
  | onChip u b x => exact absurd rfl (hc u b x)
  | dramUncorrectable | microcodeParity | bankMachineCheck | thermal =>
    exact (if_neg hstore).trans (if_pos (.inl hn))

theorem stackAlert_store (s : State) {stack : Nat} (unit : Byte) (bank : BitVec 16) (row : Word) (hit : List Nat) (h : stack < 8) :
    s.stackAlert 0 stack .dramUncorrectable unit bank row hit = s.hitStack 0 stack hit := if_pos ⟨rfl, h, rfl⟩

/-- The state in which the stack has logged an event. -/
def State.logged (s : State) (k : Nat) (kind : AlertKind) (unit : Byte) (bank : BitVec 16) (row : Word) : State :=
  { s with stackSt := set {} s.stackSt k ((get {} s.stackSt k : Stack).log (alertCode kind) unit bank row) }

/-- What an event beside its record does to granules and microcode words. -/
def State.alertEffect (s : State) (tier stack : Nat) (kind : AlertKind) (unit : Byte) (hit : List Nat) : State := match kind with
  | .dramUncorrectable | .bankMachineCheck => s.hitStack tier stack hit
  | .microcodeParity => s.onBunit ((if tier = 2 then 0 else 768) + 32 * stack + unit.toNat) (fun x => { x with parity := x.parity ++ hit })
  | .thermal | .onChip _ _ _ => s

/-- An event of a near or far stack is logged and takes its effect. -/
theorem stackAlert_logged (s : State) {tier stack : Nat} {kind : AlertKind} {unit : Byte} (bank : BitVec 16) (row : Word) (hit : List Nat)
    (ht : tier = 1 ∨ tier = 2) (hs : stack < 24) (hu : unit.toNat < 32) (hk : alertCode kind ≠ 0) :
    s.stackAlert tier stack kind unit bank row hit
      = (s.logged (32 * tier + stack) kind unit bank row).alertEffect tier stack kind unit hit := by
  have hstore : ¬ (tier = 0 ∧ stack < stacksOf 0 ∧ kind = .dramUncorrectable) := by omega
  have hdie : ¬ (noBaseDie tier stack = true ∨ 32 ≤ unit.toNat) := by
    rw [noBaseDie_eq_false ht hs]
    simpa using hu
  cases kind with
  | onChip u b x => exact absurd rfl hk
  | dramUncorrectable | microcodeParity | bankMachineCheck | thermal =>
    exact (if_neg hstore).trans (if_neg hdie)

section
variable (s : State) (tier stack : Nat) (kind : AlertKind) (unit : Byte) (hit : List Nat)

@[simp] theorem stackSt_alertEffect : (s.alertEffect tier stack kind unit hit).stackSt = s.stackSt := by cases kind <;> rfl

@[simp] theorem mem_alertEffect : (s.alertEffect tier stack kind unit hit).mem = s.mem := by cases kind <;> rfl

/-- Only the uncorrectable error and the machine check poison granules. -/
theorem get_poison_alertEffect (g : Nat) :
    get false (s.alertEffect tier stack kind unit hit).poison g
      = (get false s.poison g || (decide (alertCode kind = 1 ∨ alertCode kind = 3)
          && hit.any (fun h => decide (16 * h < stackBytes tier ∧ physAddr tier stack 0 / 16 + h = g)))) := by
  cases kind with
  | dramUncorrectable | bankMachineCheck =>
    simp only [State.alertEffect, get_poison_hitStack, alertCode, true_or, or_true, decide_true, Bool.true_and]
  | microcodeParity | thermal | onChip u b x =>
    rw [decide_eq_false (by simp [alertCode]), Bool.false_and, Bool.or_false]
    rfl

/-- Only the parity error marks microcode words, those of the unit that it names. -/
theorem parity_alertEffect (n : Nat) :
    ((s.alertEffect tier stack kind unit hit).bunit n).parity = (s.bunit n).parity
      ++ (if alertCode kind = 2 ∧ n = (if tier = 2 then 0 else 768) + 32 * stack + unit.toNat then hit else []) := by
  cases kind with
  | microcodeParity =>
    simp only [State.alertEffect, alertCode, true_and]
    generalize (if tier = 2 then 0 else 768) + 32 * stack + unit.toNat = k
    unfold State.onBunit State.bunit
    simp only [get_set]
    by_cases h : n = k <;> simp [h]
  | dramUncorrectable | bankMachineCheck | thermal | onChip u b x =>
    rw [if_neg (by simp [alertCode]), List.append_nil]
    rfl

end

/-! ### Errors on a core's die -/

section
variable (s : State) {u b : Nat} (gs : List Nat)

/-- An error in a row of the window of the bank's job. -/
theorem chipError_pad (hu : u < 528) (hb : b < 2) {r : Nat} (hr : r < (s.bank u b).rows) :
    s.chipError u b (.pad r) gs = s.setRow u b r ((s.row u b r).hit gs) :=
  (if_neg (by omega)).trans (if_pos hr)

theorem chipError_vector (hu : u < 528) (hb : b < 2) {r : Nat} (hr : r < 32) :
    s.chipError u b (.vector r) gs = s.onBank u b (fun k => { k with v := set {} k.v r (Row.hit (get {} k.v r) gs) }) :=
  (if_neg (by omega)).trans (if_pos hr)

/-- An error in a row that a data FIFO holds: a place behind its last row names none. -/
theorem chipError_fifo (hu : u < 528) (hb : b < 2) {f i : Nat} {x : FRow} (hf : f < 4) (hx : ((s.bank u b).dfifo f).rows[i]? = some x) :
    s.chipError u b (.fifo f i) gs = s.onBank u b (fun k => k.setFifo f { (s.bank u b).dfifo f with
      rows := ((s.bank u b).dfifo f).rows.set i { x with row := x.row.hit gs } }) := by
  refine ((if_neg (by omega)).trans (if_pos hf)).trans ?_
  simp only [State.onBank, List.modify_eq_set_getElem?, hx, Option.map_eq_map, Option.map_some, Option.getD_some]

/-- An accumulator row with the named granules poisoned. -/
def AccRow.hit (a : AccRow) (gs : List Nat) : AccRow :=
  { a with poison := a.poison ||| BitVec.ofNat 64 (gatherN 1 (fun g => (gs.contains g).toNat) 0 64) }

theorem AccRow.hit_poison (a : AccRow) (g : Nat) (h : g < 64) :
    (a.hit gs).poison.getLsbD g = (a.poison.getLsbD g || decide (g ∈ gs)) := by
  rw [AccRow.hit, BitVec.getLsbD_or, getLsbD_ofNat_gatherN 64 64 _ g h (by omega), List.contains_eq_mem]

theorem chipError_acc (hu : u < 528) (hb : b < 2) {r : Nat} (hr : r < 2048) :
    s.chipError u b (.acc r) gs
      = s.onCluster (clusterOf u b) (fun x => { x with acc := set {} x.acc r (AccRow.hit (get {} x.acc r) gs) }) :=
  (if_neg (by omega)).trans (if_pos hr)

end

/-! ### The record that a read answers -/

@[simp] theorem Alert.length_bytes (a : Alert) : a.bytes.length = 16 := by simp [Alert.bytes]

/-- The record byte by byte: KIND, UNIT, BANK, ROW, COUNT and SEQ (21 R413). -/
theorem Alert.bytes_fields (a : Alert) :
    leAt a.bytes 0 1 = a.kind % 256 ∧ leAt a.bytes 1 1 = a.unit.toNat ∧ leAt a.bytes 2 2 = a.bank.toNat ∧ leAt a.bytes 4 4 = a.row.toNat
      ∧ leAt a.bytes 8 4 = a.cnt.toNat ∧ leAt a.bytes 12 4 = a.seq.toNat := by
  have hunit : [a.unit] = leBytes 1 a.unit.toNat := by simp [leBytes]
  simp [Alert.bytes, hunit, leAt_skip, leAt_head, leAt_leBytes, a.unit.isLt, a.bank.isLt, a.row.isLt, a.cnt.isLt, a.seq.isLt]

theorem alertRead_no_die (s : State) {tier stack : Nat} (n : Nat) (h : tier = 0 ∨ 3 ≤ tier ∨ 24 ≤ stack) : s.alertRead tier stack n = s :=
  if_pos (noBaseDie_eq_true h)

theorem alertRead_record (s : State) {tier stack n : Nat} {a : Alert} (ht : tier = 1 ∨ tier = 2) (hs : stack < 24)
    (ha : (get {} s.stackSt (32 * tier + stack) : Stack).ring[n]? = some a) :
    let x : Stack := get {} s.stackSt (32 * tier + stack)
    s.alertRead tier stack n = { s with
      stackSt := set {} s.stackSt (32 * tier + stack) { x with
        ring := x.ring.set n { a with seen := true }, alert := x.alert && !(x.ring.set n { a with seen := true }).all (fun b => b.seen) }
      sent := s.sent ++ [Sent.answer a.bytes] } := by
  simp only [State.alertRead, noBaseDie_eq_false ht hs, Bool.false_eq_true, if_false, ha]

/-- With a record marked as seen all are, if the others were. -/
theorem all_seen_set (r : List Alert) (n : Nat) (a : Alert) :
    (r.set n { a with seen := true }).all (fun b => b.seen) = true ↔ ∀ i z, i ≠ n → r[i]? = some z → z.seen = true := by
  rw [List.all_eq_true]
  constructor
  · intro h i z hi hz
    exact h z (List.mem_of_getElem? (i := i) (by rw [List.getElem?_set_ne (Ne.symm hi), hz]))
  · intro h z hz
    obtain ⟨i, hi⟩ := List.mem_iff_getElem?.mp hz
    by_cases hin : n = i
    · simp only [List.getElem?_set, hin, if_true, Option.ite_none_right_eq_some, Option.some.injEq] at hi
      exact hi.2 ▸ rfl
    · exact h i z (Ne.symm hin) (by rwa [List.getElem?_set_ne hin] at hi)

/-! ### Power -/

/-- The level is among those that the tolerance allows, and the highest of them. -/
theorem levelFor_max (tol : Nat) : ((List.range 6).filter (fun l => decide (wakeLatency l ≤ tol))).max? = some (levelFor tol) := by
  have h0 : (List.range 6).filter (fun l => decide (wakeLatency l ≤ tol))
      = 0 :: [1, 2, 3, 4, 5].filter (fun l => decide (wakeLatency l ≤ tol)) := by
    simp [show List.range 6 = [0, 1, 2, 3, 4, 5] from rfl, List.filter_cons, wakeLatency]
  rw [levelFor, h0, List.max?_cons']
  rfl

theorem levelFor_spec (tol : Nat) :
    levelFor tol ≤ 5 ∧ wakeLatency (levelFor tol) ≤ tol ∧ ∀ l, l ≤ 5 → wakeLatency l ≤ tol → l ≤ levelFor tol := by
  obtain ⟨hm, hmax⟩ := List.max?_eq_some_iff.mp (levelFor_max tol)
  simp only [List.mem_filter, List.mem_range, decide_eq_true_eq] at hm hmax
  exact ⟨by omega, hm.2, fun l h5 hl => hmax l ⟨by omega, hl⟩⟩

/-- The latencies by level, as a list. -/
theorem wakeLatency_eq_getD (l : Nat) (h : l ≤ 5) : wakeLatency l = [0, 2, 20, 200, 2000, 20000].getD l 0 := by
  interval_cases l <;> rfl

/-- A module that is busy or not running keeps its level. -/
theorem powerEnter_busy (s : State) (h : s.lenfy.boot ≠ .running ∨ s.placedJobs ≠ [] ∨ ∃ q ∈ s.queues, q.2.tail ≠ q.2.head) : s.powerEnter = s := by
  refine if_pos ?_
  simpa [List.any_eq_true, or_assoc] using h

theorem powerEnter_idle (s : State) (h : ¬ (s.lenfy.boot ≠ .running ∨ s.placedJobs ≠ [] ∨ ∃ q ∈ s.queues, q.2.tail ≠ q.2.head)) :
    s.powerEnter = { s with
      power := levelFor s.tolerance
      units := if levelFor s.tolerance < 4 then s.units else s.units.map (fun p => (p.1, p.2.powerOff)) } := by
  refine (if_neg ?_).trans ?_
  · simpa [List.any_eq_true, or_assoc] using h
  · simp only
    split <;> rfl

/-- Units without power are as after reset. -/
theorem core_powerOff (s t : State) (h : t.units = s.units.map (fun p => (p.1, p.2.powerOff))) (u : Nat) : t.core u = (s.core u).powerOff := by
  rw [State.core, h]
  exact get_map_snd {} Core.powerOff rfl s.units u

theorem Core.bank_powerOff (c : Core) (b : Nat) : c.powerOff.bank b = {} := by
  unfold Core.bank Core.powerOff
  split <;> rfl

/-! ### Boot and measurements -/

/-- With a good key and signature the security version decides. -/
theorem bootStep_signed {h : Nat} {fw : Firmware} (hk : Config.shake256 fw.pubKey = Config.fusedKeyHash h)
    (hs : Config.falconVerify fw.pubKey fw.sig (Firmware.message fw) = true) : bootStep h fw = if fw.svn < fusedStep h then 3 else 0 :=
  (if_neg (not_not.mpr hk)).trans (if_neg (by simp [hs]))

section
variable (s : State) {h : Nat} {fw : Firmware} (hh : h < 2) (hb : s.lenfy.boot = .booting) (hn : h ∉ s.lenfy.booted)
include hh hb hn

theorem boot_open : ¬ (2 ≤ h ∨ s.lenfy.boot ≠ .booting ∨ s.lenfy.booted.contains h = true) := by
  rintro (h2 | h2 | h2)
  · omega
  · exact h2 hb
  · exact hn (by simpa using h2)

/-- A step that fails ends the boot. -/
theorem boot_fails (hf : bootStep h fw ≠ 0) : s.boot h fw = { s with lenfy := { s.lenfy with boot := .fail, step := bootStep h fw } } := by
  refine (if_neg (boot_open s hh hb hn)).trans ?_
  cases hs : bootStep h fw with
  | zero => exact absurd hs hf
  | succ n => rfl

/-- An H-die whose checks hold starts its firmware; the module runs once the other has. -/
theorem boot_starts (hf : bootStep h fw = 0) :
    s.boot h fw = { s with lenfy := { s.lenfy with
      boot := if 1 - h ∈ s.lenfy.booted then .running else .booting
      svn := if h = 0 then BitVec.ofNat 32 fw.svn else s.lenfy.svn
      logs := set [] s.lenfy.logs h (fw.images.map Config.shake256)
      booted := s.lenfy.booted ++ [h] } } := by
  refine (if_neg (boot_open s hh hb hn)).trans ?_
  have hall : ((s.lenfy.booted ++ [h]).contains 0 = true ∧ (s.lenfy.booted ++ [h]).contains 1 = true) ↔ 1 - h ∈ s.lenfy.booted := by
    obtain rfl | rfl : h = 0 ∨ h = 1 := by omega
    all_goals simp
  simp only [hf, hall]

end

/-- The blocks 1 to 8, behind them the key slots and the fabric map. -/
theorem measurements_eq (l : Lenfy) :
    l.measurements = (List.range 8).flatMap (fun i => leBytes 32 ((get [] l.logs 0 ++ get [] l.logs 1).getD i 0))
      ++ ((List.range 8).flatMap (fun i => get [] l.keys i) ++ (somes l.fabric).flatMap (fun x => FabricMap.bytes x.1 x.2)) :=
  List.append_assoc _ _ _

theorem attest_answers (s : State) (nonce : Nat) (hf : s.lenfy.boot ≠ .fail) (h0 : 0 ∈ s.lenfy.booted) :
    s.attest nonce = { s with
      sent := s.sent ++ [Sent.answer (s.lenfy.measurements ++ Config.ecdsaSign (leBytes 32 nonce ++ s.lenfy.measurements))] } := by
  refine if_neg ?_
  simp [hf, h0]

end Sys2Proof.Machine
end

section
/-!
The governor, the alerts, the power levels, the boot and the measurements, put together from the rules of the moves.
-/

namespace Sys2Proof.Machine

open Sys2Proof.Spec

/-- Settles O54: each clause is the rule of its move, read off in the fields that it names. -/
theorem clockAlertsPowerAndBoot : Obligations.ClockAlertsPowerAndBoot := by
  unfold Obligations.ClockAlertsPowerAndBoot
  refine ⟨?governor, ?logged, ?noDie, ?store, ?chip, ?read, ?power, ?boot, ?measurements⟩
  -- 21 R412
  case governor =>
    intro s n want
    refine ⟨fun h => ⟨_, exec_next (exec_governorTick s) (governorTick_due s h), rfl, rfl, ?_, ?_, ?_⟩,
      fun h => exec_next (exec_governorTick s) (governorTick_early s h)⟩
    · exact fun hlt => if_pos hlt
    · exact fun hgt => (if_neg (Nat.not_lt.mpr hgt.le)).trans (if_pos hgt)
    · exact fun heq => (if_neg (Nat.not_lt.mpr heq.ge)).trans (if_neg (Nat.not_lt.mpr heq.le))
  -- 21 R413, R402; 05 R126
  case logged =>
    intro tier stack kind unit bank row hit s k x code ht hs hu hcode
    refine ⟨_, x.alertFor (alertCode kind) unit bank row,
      exec_next (exec_stackAlertEvent ..) (stackAlert_logged s bank row hit ht hs hu hcode), ?_⟩
    have hx : get {} ((s.logged k kind unit bank row).alertEffect tier stack kind unit hit).stackSt k
        = x.log (alertCode kind) unit bank row := by
      rw [stackSt_alertEffect]; exact get_set_self _ _ _ _
    refine ⟨?_, ?_, ?_, ?_, rfl, rfl, rfl, rfl, rfl, rfl, ?_, x.alertFor_cnt_first _ _ _ _, ?_, ?_, ?_⟩
    · rw [hx, Stack.log_alert]
    · rw [hx, Stack.log_ring_getLast]
    · intro h; rw [hx, Stack.log_ring_room _ _ _ _ _ h]
    · intro h; rw [hx, Stack.log_ring_full _ _ _ _ _ h]
    · rw [hx, Stack.log_aseq]
    · intro a; rw [mem_alertEffect]; rfl
    · exact get_poison_alertEffect _ tier stack kind unit hit
    · exact parity_alertEffect _ tier stack kind unit hit
  -- 00 R1
  case noDie =>
    intro tier stack n kind unit bank row hit s h
    exact ⟨exec_next (exec_alertLogRead ..) (alertRead_no_die s n h),
      fun hc hd => exec_next (exec_stackAlertEvent ..) (stackAlert_no_die s unit bank row hit h hc hd)⟩
  -- 05 R126
  case store =>
    intro stack unit bank row hit s h
    exact ⟨_, exec_next (exec_stackAlertEvent ..) (stackAlert_store s unit bank row hit h), rfl,
      get_poison_hitStack s 0 stack hit⟩
  -- 05 R124, R126
  case chip =>
    intro tier stack u b unit bank row hit s hu hb poisoned
    have hrow : ∀ r : Row, poisoned r (r.hit hit) := fun r => ⟨r.hit_data hit, r.hit_poison hit⟩
    refine ⟨fun r hr => ?pad, fun r hr => ?vector, fun f i x hf hx => ?fifo, fun r hr => ?acc⟩
    case pad =>
      refine ⟨_, exec_next (exec_stackAlertEvent ..) (chipError_pad s hit hu hb hr), rfl,
        fun v hv => core_setRow_other s b r _ hv, ?_, ?_, fun q hq => row_setRow_other s u b _ hq⟩
      · rw [core_setRow_self]
      · rw [row_setRow_self]; exact hrow _
    case vector =>
      refine ⟨_, exec_next (exec_stackAlertEvent ..) (chipError_vector s hit hu hb hr), rfl,
        fun v hv => core_onBank_other s b _ hv, ?_⟩
      rw [bank_onBank_self]
      refine ⟨rfl, ?_, fun q hq => get_set_other _ _ _ hq⟩
      rw [get_set_self]; exact hrow _
    case fifo =>
      refine ⟨_, { x with row := x.row.hit hit }, exec_next (exec_stackAlertEvent ..) (chipError_fifo s hit hu hb hf hx), rfl,
        fun v hv => core_onBank_other s b _ hv, ?_⟩
      rw [bank_onBank_self]
      exact ⟨rfl, by rw [dfifo_setFifo_self], rfl, hrow _, fun q hq => dfifo_setFifo_other _ _ hq⟩
    case acc =>
      refine ⟨_, exec_next (exec_stackAlertEvent ..) (chipError_acc s hit hu hb hr),
        ⟨rfl, fun n hn => cluster_onCluster_other s _ hn, fun _ => rfl⟩, rfl, ?_⟩
      rw [cluster_onCluster_self]
      refine ⟨?_, fun q hq => get_set_other _ _ _ hq⟩
      rw [get_set_self]
      exact ⟨rfl, AccRow.hit_poison hit _⟩
  -- 21 R413
  case read =>
    intro tier stack n s a k x ht hs ha
    refine ⟨_, a.bytes, exec_next (exec_alertLogRead ..) (alertRead_record s ht hs ha), rfl, rfl, a.length_bytes, ?_⟩
    obtain ⟨hkind, hunit, hbank, hrow, hcnt, hseq⟩ := a.bytes_fields
    refine ⟨hkind, hunit, hbank, hrow, hcnt, hseq, ?_⟩
    rw [get_set_self]
    refine ⟨rfl, fun h => ?_, fun ⟨i, z, hi, hz, hseen⟩ => ?_⟩
    · exact Bool.and_eq_false_iff.mpr (.inr (congrArg Bool.not ((all_seen_set x.ring n a).mpr h)))
    · have hall : (x.ring.set n { a with seen := true }).all (fun b => b.seen) = false := Bool.eq_false_iff.mpr fun hs =>
        absurd ((all_seen_set x.ring n a).mp hs i z hi hz) (Bool.eq_false_iff.mp hseen)
      exact (congrArg (fun v => x.alert && !v) hall).trans (Bool.and_true _)
  -- 22 R440
  case power =>
    intro s latency busy
    obtain ⟨h5, hlat, hmax⟩ := levelFor_spec s.tolerance
    refine ⟨fun h => exec_next (exec_powerLevelEnter s) (powerEnter_busy s h), fun h => ?_, _, exec_wake s, rfl, rfl⟩
    refine ⟨_, exec_next (exec_powerLevelEnter s) (powerEnter_idle s h), rfl, h5, ?_, ?_, fun h4 => if_pos h4, fun h4 u b => ?_⟩
    · exact (wakeLatency_eq_getD _ h5).ge.trans hlat
    · exact fun l hl htol => hmax l hl ((wakeLatency_eq_getD l hl).le.trans htol)
    · rw [State.bank, core_powerOff s _ (if_neg (Nat.not_lt.mpr h4)) u]
      exact ⟨Core.bank_powerOff _ b, rfl, rfl⟩
  -- 23 R454
  case boot =>
    intro h fw s hh hb hn key sig least fail
    have hfail : ∀ n, n ≠ 0 → bootStep h fw = n → fail n := fun n h0 hs =>
      ⟨_, exec_next (exec_powerOnBoot h fw s) (boot_fails s hh hb hn (hs ▸ h0)), rfl, by rw [hs]⟩
    refine ⟨fun hk => hfail 1 (by omega) (if_pos hk),
      fun hk hs => hfail 2 (by omega) ((if_neg (not_not.mpr hk)).trans (if_pos (Bool.eq_false_iff.mpr hs))),
      fun hk hs hlt => hfail 3 (by omega) ((bootStep_signed hk hs).trans (if_pos hlt)), fun hk hs hle => ?_⟩
    have h0 : bootStep h fw = 0 := (bootStep_signed hk hs).trans (if_neg (Nat.not_lt.mpr hle))
    exact ⟨_, exec_next (exec_powerOnBoot h fw s) (boot_starts s hh hb hn h0), rfl, rfl, rfl, rfl,
      get_set_self _ _ _ _, fun i hi => get_set_other _ _ _ hi, rfl⟩
  -- 23 R455
  case measurements =>
    intro nonce s log hf h0
    refine ⟨_, s.lenfy.measurements, exec_next (exec_getMeasurements nonce s) (attest_answers s nonce hf h0), rfl, rfl, ?_⟩
    rw [measurements_eq]
    refine ⟨fun i hi => ?_, List.drop_left' (length_flatMap_leBytes 32 8 _)⟩
    rw [show (2 : Nat) ^ 256 = 256 ^ 32 by norm_num]
    exact leAt_flatMap_leBytes 32 8 _ _ i hi

end Sys2Proof.Machine
end

section
/-!
SUPPORT. Loop levels and the PC queue: what the issue of an entry leaves of the levels, and the entries that the queue then holds (04 R101 to R106).
-/

namespace Sys2Proof.Machine

open Sys2Proof.Safety Sys2Proof.Spec

/-! ### Loop levels -/

theorem Stream.lp_setLp_self (t : Stream) (l : Nat) (p : Loop) : (t.setLp l p).lp l = p := by
  unfold Stream.setLp Stream.lp; split <;> rfl

theorem Stream.lp_setLp_other (t : Stream) {l m : Nat} (p : Loop) (h : ¬ (l = 0 ↔ m = 0)) : (t.setLp l p).lp m = t.lp m := by
  unfold Stream.setLp Stream.lp; split <;> split <;> simp_all

theorem Stream.exits_setLp (t : Stream) (l : Nat) (p : Loop) : (t.setLp l p).exits = t.exits := by
  unfold Stream.setLp; split <;> rfl

theorem Stream.lp_noLevel (t : Stream) (l : Nat) : t.noLevel.lp l = t.lp l := by
  unfold Stream.noLevel; split <;> rfl

/-- A stream holds no innermost level only where both are inactive. -/
theorem Stream.inner_eq_none (t : Stream) : t.inner = none ↔ t.lp0.act = false ∧ t.lp1.act = false := by
  unfold Stream.inner; cases t.lp0.act <;> cases t.lp1.act <;> simp

/-- An exit is pending for the innermost active level (04 R105). -/
theorem Stream.exitFor_eq_true (t : Stream) {l : Nat} (hl : l < 2) : t.exitFor l = true ↔ 0 < t.exits ∧ innermost t l := by
  obtain rfl | rfl : l = 0 ∨ l = 1 := by omega
  · cases h0 : t.lp0.act <;> simp [Stream.exitFor, Stream.inner, innermost, Stream.lp, h0]
  · cases h0 : t.lp0.act <;> cases h1 : t.lp1.act <;> simp [Stream.exitFor, Stream.inner, innermost, Stream.lp, h0, h1]

/-- The level of each number after the issue of an entry at `x`: one that ends there has turned (04 R103). -/
theorem Stream.lp_loopEnd (t : Stream) (x : BitVec 13) {l : Nat} (hl : l < 2) :
    (t.loopEnd x).lp l = if t.ends l x then (t.lp l).turn (t.exitFor l) else t.lp l := by
  have hexits : ∀ (r : Stream) (n : Nat), ({ r with exits := n } : Stream).lp l = r.lp l := fun _ _ => rfl
  unfold Stream.loopEnd
  simp only [Stream.lp_noLevel, hexits]
  obtain rfl | rfl : l = 0 ∨ l = 1 := by omega
  · split
    · rw [Stream.lp_setLp_other _ _ (by decide)]; split
      · exact Stream.lp_setLp_self _ _ _
      · rfl
    · split
      · exact Stream.lp_setLp_self _ _ _
      · rfl
  · split
    · exact Stream.lp_setLp_self _ _ _
    · split
      · exact Stream.lp_setLp_other _ _ (by decide)
      · rfl

/-- The exits that are pending after the issue of an entry at `x`: none where no level is active (04 R105, R106). -/
theorem Stream.exits_loopEnd (t : Stream) (x : BitVec 13) :
    (t.loopEnd x).exits = if (t.loopEnd x).lp0.act = true ∨ (t.loopEnd x).lp1.act = true then
      (if t.takesExit x then t.exits - 1 else t.exits) else 0 := by
  have hlevels : ∀ r : Stream, r.noLevel.exits = if r.noLevel.lp0.act = true ∨ r.noLevel.lp1.act = true then r.exits else 0 := by
    intro r
    unfold Stream.noLevel
    by_cases h : r.inner = none
    · obtain ⟨h0, h1⟩ := r.inner_eq_none.mp h
      simp [h, h0, h1]
    · have hact : r.lp0.act = true ∨ r.lp1.act = true := by
        by_contra hn
        exact h (r.inner_eq_none.mpr (by simpa using hn))
      simp [h, hact]
  exact hlevels _

/-- No exit is taken where none is pending. -/
theorem Stream.takesExit_of_exits (t : Stream) (x : BitVec 13) (h : t.exits = 0) : t.takesExit x = false := by
  simp [Stream.takesExit, Stream.exitFor, h]

/-- Without a level that ends at `x` its issue changes nothing of the levels. -/
theorem Stream.lp_loopEnd_of_not_ends (t : Stream) (x : BitVec 13) {l : Nat} (hl : l < 2) (h : t.ends l x = false) :
    (t.loopEnd x).lp l = t.lp l := by
  rw [Stream.lp_loopEnd t x hl, h]; rfl

/-! ### The entry that the queue takes -/

/-- A level sends the entry behind those at `ahead` back exactly where R102 says so. -/
theorem Stream.backs_eq_true (t : Stream) (ahead : List QEnt) {l : Nat} (hl : l < 2) (h : ahead ≠ []) :
    t.backs l (ahead.getLastD {}).addr (ahead.filter (fun q => q.addr = (ahead.getLastD {}).addr)).length = true
      ↔ sentBack t (ahead.map QEnt.addr) l := by
  have hlast : ∀ x, (ahead.map QEnt.addr).getLast? = some x ↔ x = (ahead.getLastD {}).addr := by
    intro x
    rw [List.getLast?_map, List.getLast?_eq_some_getLast h, List.getLastD_eq_getLast?, List.getLast?_eq_some_getLast h]
    simp [eq_comm]
  have hcount : ∀ x, (ahead.map QEnt.addr).count x = (ahead.filter (fun q => q.addr = x)).length := by
    intro x
    rw [List.count, List.countP_map, List.countP_eq_length_filter]
    rfl
  have hexit : t.exitFor l = false ↔ ¬ (0 < t.exits ∧ innermost t l) := by
    rw [← t.exitFor_eq_true hl, Bool.not_eq_true]
  unfold Stream.backs sentBack
  simp only [hlast, hcount, ← hexit, Bool.and_eq_true, Bool.not_eq_true', decide_eq_true_eq, exists_eq_left, and_assoc]

/-- The entry behind those at `ahead` is the one that R102 gives, for any stream with the same levels and pending exits. -/
theorem filledBy_fill (k : Bank) (e : Nat) (t r : Stream) (ahead : List QEnt) (h : ahead ≠ [])
    (hlp : ∀ l, l < 2 → r.lp l = t.lp l) (hx : r.exits = t.exits) : FilledBy k e r (ahead.map QEnt.addr) (k.fill e t ahead) := by
  have h0 : r.lp0 = t.lp0 := hlp 0 (by decide)
  have h1 : r.lp1 = t.lp1 := hlp 1 (by decide)
  have hback : ∀ l, sentBack r (ahead.map QEnt.addr) l ↔ sentBack t (ahead.map QEnt.addr) l := by
    intro l; unfold sentBack innermost Stream.lp; rw [h0, h1, hx]
  have hlast : (ahead.map QEnt.addr).getLast? = some (ahead.getLastD {}).addr := by
    rw [List.getLast?_map, List.getLastD_eq_getLast?, List.getLast?_eq_some_getLast h]; rfl
  have hb0 := t.backs_eq_true ahead (l := 0) (by decide) h
  have hb1 := t.backs_eq_true ahead (l := 1) (by decide) h
  unfold FilledBy Bank.fill
  simp only [hback, ← hb0, ← hb1, h0, h1, hlast]
  refine ⟨fun hb _ => if_pos hb, fun hb hn => (if_neg hn).trans (if_pos hb), fun hn0 hn1 x hx => ?_⟩
  rw [if_neg hn0, if_neg hn1, Option.some.inj hx]

/-! ### The stream after an issue -/

theorem Bank.lp_refill (k : Bank) (e : Nat) (t : Stream) (a : BitVec 13) (l : Nat) : (k.refill e t a).lp l = t.lp l := rfl

/-- A stream that has been refilled holds the entries that R101 gives. -/
theorem refilledFrom_refill (k : Bank) (e : Nat) (t : Stream) (a : BitVec 13) : RefilledFrom k e (k.refill e t a) a :=
  ⟨rfl, rfl, rfl, filledBy_fill k e t _ [{ addr := a }] (by simp) (fun _ _ => rfl) rfl,
    filledBy_fill k e t _ [{ addr := a }, (k.refill e t a).q1] (by simp) (fun _ _ => rfl) rfl⟩

/-- The levels and pending exits after an issue are those of `Stream.loopEnd`, whichever entry the queue takes. -/
theorem advanced_levels (k : Bank) (e : Nat) (x : Option (BitVec 13)) :
    (∀ l, (k.advanced e x).lp l = ((k.stream e).loopEnd (k.stream e).q0.addr).lp l)
      ∧ (k.advanced e x).exits = ((k.stream e).loopEnd (k.stream e).q0.addr).exits := by
  unfold Bank.advanced; simp only; split <;> exact ⟨fun _ => rfl, rfl⟩

/-- An issue that takes no pending exit moves the queue on by one entry (01 R22, 04 R102). -/
theorem advanced_queue (k : Bank) (e : Nat) (h : (k.stream e).takesExit (k.stream e).q0.addr = false) :
    (k.advanced e none).q0 = (k.stream e).q1 ∧ (k.advanced e none).q1 = (k.stream e).q2
      ∧ (k.advanced e none).q2 = { addr := k.fill e ((k.stream e).loopEnd (k.stream e).q0.addr) [(k.stream e).q1, (k.stream e).q2] } := by
  unfold Bank.advanced; simp only [h, Bool.false_and, Bool.false_eq_true, if_false]; exact ⟨trivial, trivial, trivial⟩

/-- An issue that takes a pending exit goes on behind the END of the level that it leaves (04 R106). -/
theorem advanced_exit (k : Bank) (e : Nat) (h : (k.stream e).takesExit (k.stream e).q0.addr = true) :
    (k.advanced e none).q0.addr = k.succ e (k.stream e).q0.addr := by
  unfold Bank.advanced
  simp only [h, Bool.true_and, decide_eq_true_eq]
  split
  · rfl
  · exact not_not.mp ‹_›

/-- `NOP` changes nothing but its own stream, which advances (04 R100). -/
theorem nop_advances (e : BitVec 3) (s : State) :
    ∃ t, exec (.nop e) s = .next t ∧ StreamOnly e.toNat s t ∧ t.me.stream e.toNat = s.me.advanced e.toNat none := by
  refine ⟨s.onMe (fun k => k.advance e.toNat), rfl, ⟨onlyBank_onMe s _, fun f hf => ?_, ?_⟩, ?_⟩
  · rw [me_onMe]; exact stream_advance_other _ _ hf
  · rw [me_onMe]; rfl
  · rw [me_onMe]; exact stream_advance_self _ _ _

end Sys2Proof.Machine
end

section
/-!
SUPPORT. The loop words (04 R101).
-/

namespace Sys2Proof.Machine

open Sys2Proof.Safety Sys2Proof.Spec

/-- The state in which a loop word at level `l` of engine `e` has started its level with count `n` and END `stop` (04 R101). -/
def State.loopStarted (s : State) (e l n : Nat) (stop : BitVec 13) : State :=
  let t := s.me.stream e
  s.onMe (fun k =>
    let p : Loop := { start := k.succ e t.q0.addr, stop := stop, cnt := BitVec.ofNat 33 n, idx := 0, act := true }
    k.setStream e (k.refill e { (t.setLp l p).loopEnd t.q0.addr with wait := .none, waited := 0 } (k.succ e t.q0.addr)))

/-- The queue of stream `e` is sequential with flags 0 (04 R101). -/
def Bank.inSequence (k : Bank) (e : Nat) : Prop :=
  (k.stream e).q1 = { addr := k.succ e (k.stream e).q0.addr, null := false } ∧ (k.stream e).q2 = { addr := k.succ e (k.stream e).q1.addr, null := false }

/-- The other level than `l` is active with END `stop`. -/
def Stream.otherEnds (t : Stream) (l : Nat) (stop : BitVec 13) : Prop := (t.lp (1 - l)).act = true ∧ (t.lp (1 - l)).stop = stop

theorem QEnt.eq_iff (q : QEnt) (a : BitVec 13) : q = { addr := a, null := false } ↔ q.addr = a ∧ ¬ q.null = true := by
  cases q; simp

theorem loopWord_starts (s : State) (e l n o : Nat) (hq : s.me.inSequence e)
    (hc : ¬ (s.me.stream e).otherEnds l (wrapAddr e ((s.me.stream e).q0.addr.toNat + o))) :
    s.loopWord e l n o = .next (s.loopStarted e l n (wrapAddr e ((s.me.stream e).q0.addr.toNat + o))) := by
  obtain ⟨h1, h2⟩ := hq
  obtain ⟨a1, n1⟩ := (QEnt.eq_iff _ _).mp h1
  obtain ⟨a2, n2⟩ := (QEnt.eq_iff _ _).mp h2
  refine if_neg ?_
  rintro (h | h | h | h | h)
  exacts [h a1, h a2, n1 h, n2 h, hc h]

theorem loopWord_illegal (s : State) (e l n o : Nat)
    (h : ¬ s.me.inSequence e ∨ (s.me.stream e).otherEnds l (wrapAddr e ((s.me.stream e).q0.addr.toNat + o))) :
    s.loopWord e l n o = s.illegal e := by
  refine if_pos ?_
  rcases h with h | h
  · by_contra hn
    simp only [not_or, not_not] at hn
    obtain ⟨a1, a2, n1, n2, -⟩ := hn
    exact h ⟨(QEnt.eq_iff _ _).mpr ⟨a1, n1⟩, (QEnt.eq_iff _ _).mpr ⟨a2, n2⟩⟩
  · exact .inr (.inr (.inr (.inr h)))

/-- The level that a loop word starts, and the queue behind it; neither this level nor the other ends at the word itself. -/
theorem loopStarted_level (s : State) (e : Nat) {l : Nat} (n : Nat) {stop : BitVec 13} (hl : l < 2) (hs : stop ≠ (s.me.stream e).q0.addr)
    (ho : ¬ (s.me.stream e).otherEnds l (s.me.stream e).q0.addr) :
    StreamOnly e s (s.loopStarted e l n stop)
      ∧ ((s.loopStarted e l n stop).me.stream e).lp l
          = { start := s.me.succ e (s.me.stream e).q0.addr, stop := stop, cnt := BitVec.ofNat 33 n, idx := 0, act := true }
      ∧ ((s.loopStarted e l n stop).me.stream e).lp (1 - l) = (s.me.stream e).lp (1 - l)
      ∧ RefilledFrom s.me e ((s.loopStarted e l n stop).me.stream e) (s.me.succ e (s.me.stream e).q0.addr) := by
  generalize ht : s.me.stream e = t at hs ho
  let p : Loop := { start := s.me.succ e t.q0.addr, stop := stop, cnt := BitVec.ofNat 33 n, idx := 0, act := true }
  have hother : ((t.setLp l p).lp (1 - l)) = t.lp (1 - l) := Stream.lp_setLp_other t p (by omega)
  have hown : (t.setLp l p).ends l t.q0.addr = false := by
    rw [Stream.ends, Stream.lp_setLp_self, decide_eq_false hs]; rfl
  have hend : (t.setLp l p).ends (1 - l) t.q0.addr = false := by
    rw [Stream.ends, hother]; simpa [Stream.otherEnds] using ho
  have hstream : (s.loopStarted e l n stop).me.stream e
      = s.me.refill e { (t.setLp l p).loopEnd t.q0.addr with wait := .none, waited := 0 } (s.me.succ e t.q0.addr) := by
    subst ht; rw [State.loopStarted, me_onMe, stream_setStream_self]
  refine ⟨⟨onlyBank_onMe s _, fun f hf => ?_, ?_⟩, ?_, ?_, ?_⟩
  · rw [State.loopStarted, me_onMe]; exact stream_setStream_other _ _ hf
  · rw [State.loopStarted, me_onMe]; rfl
  · rw [hstream, Bank.lp_refill]
    exact (Stream.lp_loopEnd_of_not_ends _ _ hl hown).trans (Stream.lp_setLp_self _ _ _)
  · rw [hstream, Bank.lp_refill]
    exact (Stream.lp_loopEnd_of_not_ends _ _ (by omega) hend).trans hother
  · rw [hstream]; exact refilledFrom_refill _ _ _ _

/-- A loop word with a sequential queue and no clash starts its level, and raises the illegal-instruction fault otherwise (04 R101). -/
theorem loopWord_fault (s : State) (e l n o : Nat) (hf : s.me.fault = none)
    (h : ¬ s.me.inSequence e ∨ (s.me.stream e).otherEnds l (wrapAddr e ((s.me.stream e).q0.addr.toNat + o))) :
    ∃ t da, s.loopWord e l n o = .next t ∧ StoppedBy s t s.cur s.curB e 0x0001 da 0 0 := by
  obtain ⟨t, ht, hstop⟩ := stoppedBy_fault s e 0x0001
    (BitVec.ofNat 64 ((s.me.word e (s.me.stream e).q0.addr).toNat % 2 ^ 32)) 0 0 hf
  exact ⟨t, _, (loopWord_illegal s e l n o h).trans ht, hstop⟩

end Sys2Proof.Machine
end

section
/-!
NOP and the loop words, put together from the rules of the queue and of the levels.
-/

namespace Sys2Proof.Machine

open Sys2Proof.Safety Sys2Proof.Spec

theorem nopAdvancesThePcQueue : NopAdvancesThePcQueue := by
  intro e s h0 h1
  obtain ⟨t, hexec, honly, hstream⟩ := nop_advances e s
  have hends : ∀ l x, l < 2 → (s.me.stream e.toNat).ends l x = false := by
    intro l x hl
    obtain rfl | rfl : l = 0 ∨ l = 1 := by omega
    · exact Bool.and_eq_false_iff.mpr (.inl h0)
    · exact Bool.and_eq_false_iff.mpr (.inl h1)
  have hexit : (s.me.stream e.toNat).takesExit (s.me.stream e.toNat).q0.addr = false := by
    rw [Stream.takesExit, hends 0 _ (by decide), hends 1 _ (by decide)]; rfl
  obtain ⟨hlp, -⟩ := advanced_levels s.me e.toNat none
  have hlevel : ∀ l, l < 2 → (s.me.advanced e.toNat none).lp l = (s.me.stream e.toNat).lp l :=
    fun l hl => (hlp l).trans (Stream.lp_loopEnd_of_not_ends _ _ hl (hends l _ hl))
  obtain ⟨hq0, hq1, hq2⟩ := advanced_queue s.me e.toNat hexit
  obtain ⟨hb, hepoch, -, -⟩ := advanced_kept s.me e.toNat none
  refine ⟨t, hexec, honly, ?_⟩
  rw [hstream]
  refine ⟨hq0, hq1, hq2.trans ?_, hlevel 0 (by decide), hlevel 1 (by decide), hb, hepoch⟩
  have hback : ∀ l x j, l < 2 → ((s.me.stream e.toNat).loopEnd (s.me.stream e.toNat).q0.addr).backs l x j = false := by
    intro l x j hl
    rw [Stream.backs, Stream.lp_loopEnd_of_not_ends _ _ hl (hends l _ hl)]
    obtain rfl | rfl : l = 0 ∨ l = 1 := by omega
    · rw [show ((s.me.stream e.toNat).lp 0).act = false from h0]; rfl
    · rw [show ((s.me.stream e.toNat).lp 1).act = false from h1]; rfl
  simp [Bank.fill, hback]

theorem loopEndCountsDownOrLeaves : LoopEndCountsDownOrLeaves := by
  intro e l s hl x L hact hstop
  obtain ⟨t, hexec, honly, hstream⟩ := nop_advances e s
  obtain ⟨hlp, hexits⟩ := advanced_levels s.me e.toNat none
  have hends : x.ends l x.q0.addr = true := by
    rw [Stream.ends, decide_eq_true hstop, hact]; rfl
  have hturn : (s.me.advanced e.toNat none).lp l = L.turn (x.exitFor l) := by
    rw [hlp l, Stream.lp_loopEnd _ _ hl, if_pos hends]
  refine ⟨t, hexec, honly, ?_⟩
  rw [hstream]
  refine ⟨fun hpos hinner => ?leaves, fun hnone => ?goesOn, fun hkeep => ?counts⟩
  case leaves =>
    have hexit : x.exitFor l = true := (Stream.exitFor_eq_true x hl).mpr ⟨hpos, hact, hinner⟩
    have htakes : x.takesExit x.q0.addr = true := by
      rw [Stream.takesExit, Bool.or_eq_true]
      obtain rfl | rfl : l = 0 ∨ l = 1 := by omega
      · exact .inl (by rw [hends, hexit]; rfl)
      · exact .inr (by rw [hends, hexit]; rfl)
    refine ⟨by rw [hturn, hexit]; rfl, advanced_exit s.me e.toNat htakes, ?_⟩
    have hact0 : (s.me.advanced e.toNat none).lp0 = (x.loopEnd x.q0.addr).lp0 := hlp 0
    have hact1 : (s.me.advanced e.toNat none).lp1 = (x.loopEnd x.q0.addr).lp1 := hlp 1
    rw [hexits, Stream.exits_loopEnd, if_pos htakes, hact0, hact1]
  case goesOn =>
    obtain ⟨hq0, hq1, hq2⟩ := advanced_queue s.me e.toNat (Stream.takesExit_of_exits x _ hnone)
    refine ⟨hq0, hq1, by rw [hq2], ?_⟩
    rw [hq2]
    exact filledBy_fill s.me e.toNat _ _ [x.q1, x.q2] (by simp) (fun l _ => hlp l) hexits
  case counts =>
    have hexit : x.exitFor l = false := by
      rw [Bool.eq_false_iff, Ne, Stream.exitFor_eq_true x hl]
      rintro ⟨hpos, -, hinner⟩
      rcases hkeep with h | ⟨rfl, h0⟩
      · omega
      · exact hinner.elim (by decide) (fun hn => by simp [h0] at hn)
    have hone : L.cnt - 1 = 0 ↔ L.cnt = 1 := by constructor <;> intro h <;> bv_omega
    rw [hturn, hexit, Loop.turn]
    simp only [Bool.false_eq_true, if_false, hone]

theorem loopWordsStartTheirLevel : LoopWordsStartTheirLevel := by
  intro e l n x o s t0 a stop inSequence clash started
  have hl : l.toNat < 2 := l.isLt
  have hcount : ∀ {w : Nat} (y : BitVec w), count y = if y.toNat = 0 then 2 ^ w else y.toNat := fun _ => rfl
  refine ⟨fun hseq hclash hself hother => ?starts, fun hf h i hi => ?faults⟩
  case starts =>
    have hlevel := fun c => loopStarted_level s e.toNat c hl hself hother
    refine ⟨⟨_, loopWord_starts s e.toNat l.toNat (count n) o.toNat hseq hclash, ?_⟩,
      ⟨_, loopWord_starts s e.toNat l.toNat (count ((s.me.scal e.toNat x).setWidth 32 : Word)) o.toNat hseq hclash, ?_⟩⟩
    · have hn : (if n = 0 then 1024 else n.toNat) = count n := by
        rw [hcount]; simp only [← BitVec.toNat_inj]; rfl
      rw [hn]; exact hlevel _
    · have hx : (if (s.me.scal e.toNat x).toNat % 2 ^ 32 = 0 then 2 ^ 32 else (s.me.scal e.toNat x).toNat % 2 ^ 32)
          = count ((s.me.scal e.toNat x).setWidth 32 : Word) := by rw [hcount, BitVec.toNat_setWidth]
      rw [hx]; exact hlevel _
  case faults =>
    rcases List.mem_pair.mp hi with rfl | rfl
    · exact loopWord_fault s e.toNat l.toNat _ o.toNat hf h
    · exact loopWord_fault s e.toNat l.toNat _ o.toNat hf h

/-- Settles O7, from the advance of the queue, the ends of the levels and the loop words. -/
theorem nopAndLoops : Obligations.NopAndLoops :=
  ⟨nopAdvancesThePcQueue, loopEndCountsDownOrLeaves, loopWordsStartTheirLevel⟩

end Sys2Proof.Machine
end

section
namespace Sys2Proof.Machine

/-- A job that uses the vector engine alone, with a pre-emption that saves it. -/
def vectorJob : Job := { probeJob with mask := 2, preempt := some false }

/-- That job in bank 0 of unit 0 at its clause boundary: the vector stream waits at `CLAUSE 5`, and the stream of the control engine, which the job does not use, runs. -/
def strayStream : State where
  units := [(0, { b0 := { job := some vectorJob, streams := [(0, { phase := .running }), (1, { phase := .clause 5 })] } })]
  parts := [(0, some { cfg := { (default : PartRecord) with saveSlots := 1 } })]

/-- The image that the pre-emption saves of it, as the statement names it. -/
def strayImage : List Byte :=
  (strayStream.formBoundary 0 0).climbImage 0 0 { vectorJob with paused := vectorJob.static, pauseBy := none, passed := none } 5 true

/-- STATE in the image's record of the control stream is that of a running stream, 1, and not that of one at its `CLAUSE`, 4 (08 R213). -/
theorem strayImage_state : strayImage[0x206]? = some 1 := by decide +kernel

/-- The boundary of the job forms all the same: only the streams that it uses wait for it (01 R26). -/
theorem strayStream_forms : strayStream.boundaryForms 0 0 = true := by decide +kernel

/-- A save slot is free. -/
theorem strayStream_slot : (strayStream.formBoundary 0 0).freeSave 0 = some 0 := by decide +kernel

/-- Bytes that read as `bs` hold its byte `i` in their place. -/
theorem rdByte_of_rdBytes {m : List Host.Cell} {a i : Nat} {bs : List Byte} {v : Byte} (h : rdBytes m a bs.length = bs) (hi : bs[i]? = some v) :
    rdByte m (a + i) = v := by
  have hlt : i < bs.length := (List.getElem?_eq_some_iff.mp hi).1
  have hget := rdBytes_get m a bs.length i hlt
  rw [h, hi] at hget
  exact (Option.some.inj hget).symm

end Sys2Proof.Machine
end

section
/-!
The clause boundary, refuted: the statement asks the control stream's record in a saved image for the state of a stream at its `CLAUSE` wherever that stream is not idle, also in a job that does not use it.
-/

namespace Sys2Proof.Machine

/-- Refutes O41, in the clause of a pre-emption that saves the job: in `strayStream` the boundary of a job that does not use the control engine forms while that engine's stream runs, and its record in the image holds STATE 1. -/
theorem not_clauseBoundariesClearAndGoOn : ¬ Obligations.ClauseBoundariesClearAndGoOn := by
  unfold Obligations.ClauseBoundariesClearAndGoOn
  rintro ⟨hforms, -⟩
  obtain ⟨-, hsave, -⟩ := hforms 0 0 strayStream vectorJob (by decide) rfl strayStream_forms (fun _ h => nomatch h) (.inl rfl)
  obtain ⟨t, -, -, -, -, -, -, -, -, -, himage, -, -, hstream, -⟩ := hsave rfl rfl 0 _ strayStream_slot rfl
  obtain ⟨-, hstate, -⟩ := hstream (by decide)
  have hbyte := rdByte_of_rdBytes (i := 0x206) (v := 1) himage strayImage_state
  exact absurd (hbyte.symm.trans hstate) (by decide)

end Sys2Proof.Machine
end

section
/-!
The machine after reset.
-/

namespace Sys2Proof.Machine

/-- Every bank of every unit is empty after reset. -/
theorem bank_reset (u b : Nat) : State.reset.bank u b = {} := by
  unfold State.bank Core.bank
  exact ite_self _

theorem queue_reset (q : Nat) : State.reset.queue q = {} := rfl

/-- Function 0 belongs to partition 0 after reset, and no other function to one. -/
theorem func_reset (f : Nat) : State.reset.func f = { part := if f = 0 then some 0 else none } := by
  rcases Nat.eq_zero_or_pos f with rfl | h
  · rfl
  · rw [if_neg h.ne', State.func, State.reset, get, if_neg h.ne]; rfl

theorem globalQ_reset (f l : Nat) : State.reset.globalQ f l = none :=
  congrArg (fun x : Func => get none x.qmap l) (func_reset f)

/-- Settles O55: every bank, queue and function of the state is the default one, but for the partition of function 0. -/
theorem resetLeavesTheSpecsValues : Obligations.ResetLeavesTheSpecsValues := by
  unfold Obligations.ResetLeavesTheSpecsValues
  refine ⟨rfl, rfl, rfl, rfl, rfl, rfl, rfl, rfl, fun u b => ?banks, fun q => ?queues, fun f => ?functions, rfl, fun f hf => ?owner,
    fun _ => rfl, fun _ => rfl, fun _ => ⟨rfl, rfl⟩⟩
  case banks => rw [bank_reset]; decide
  case queues => rw [queue_reset]; exact ⟨rfl, rfl, rfl, rfl, rfl⟩
  case functions => rw [func_reset]; exact ⟨rfl, rfl, rfl, rfl, fun _ => rfl, globalQ_reset f⟩
  case owner => rw [func_reset, if_neg hf]

end Sys2Proof.Machine
end

section
/-!
SUPPORT. What a unit's bank gives way on depends on: of the unit its bank and its scratchpad, of the rest the tensors (08 R202, R211).
-/

namespace Sys2Proof.Machine

section
variable {s t : State} {u b : Nat}

theorem row_congr (hb : t.bank u b = s.bank u b) (hp : (t.core u).pad = (s.core u).pad) (r : Nat) : t.row u b r = s.row u b r := by
  unfold State.row; rw [hb, hp]

theorem runPlaces_congr (ht : t.tensors = s.tensors) (x : Chk) (p : List Nat) (r : Nat) : t.runPlaces x p r = s.runPlaces x p r := by
  unfold State.runPlaces State.tensor; rw [ht]

theorem copyPlaces_congr (hb : t.bank u b = s.bank u b) (hp : (t.core u).pad = (s.core u).pad) (ht : t.tensors = s.tensors) (c : CopyCmd) :
    t.copyPlaces u b c = s.copyPlaces u b c := by
  have hrun : t.runPlaces = s.runPlaces := by funext x p r; exact runPlaces_congr ht x p r
  have hidx : t.idxAt u b = s.idxAt u b := by funext c i; unfold State.idxAt; rw [row_congr hb hp]
  have hbin : t.binPlaces u b = s.binPlaces u b := by funext c x; unfold State.binPlaces; rw [hb, hrun]
  have hred : t.redPlaces = s.redPlaces := by funext c a x; unfold State.redPlaces State.tensor; rw [ht]
  unfold State.copyPlaces
  rw [hrun, hidx, hbin, hred]

theorem behind_congr (hb : t.bank u b = s.bank u b) (hp : (t.core u).pad = (s.core u).pad) (ht : t.tensors = s.tensors) (e : Nat) (p c : Cmd) :
    t.behind u b e p c = s.behind u b e p c := by
  have hclash : t.globalClash u b e = s.globalClash u b e := by
    funext c d; unfold State.globalClash; rw [copyPlaces_congr hb hp ht, copyPlaces_congr hb hp ht]
  unfold State.behind
  rw [hclash]

theorem blocked_congr (hb : t.bank u b = s.bank u b) (e : Nat) (c : Cmd) : t.blocked u b e c = s.blocked u b e c := by
  unfold State.blocked State.stuck State.starvedCmd State.arrStarved State.arrNext State.narrow
  rw [hb]

theorem drainOf_congr (hb : t.bank u b = s.bank u b) (hp : (t.core u).pad = (s.core u).pad) (ht : t.tensors = s.tensors) (e : Nat)
    (no cs : List Cmd) : t.drainOf u b e no cs = s.drainOf u b e no cs := by
  induction cs generalizing no with
  | nil => rfl
  | cons c cs ih => simp only [State.drainOf, blocked_congr hb, behind_congr hb hp ht, ih]

/-- Whether a bank gives way depends on the bank, the unit's scratchpad and the tensors alone. -/
theorem yields_congr (hb : t.bank u b = s.bank u b) (hp : (t.core u).pad = (s.core u).pad) (ht : t.tensors = s.tensors) :
    t.yields u b = s.yields u b := by
  have hdrain : t.drained u b = s.drained u b := by
    funext e; unfold State.drained; rw [hb, drainOf_congr hb hp ht]
  unfold State.yields
  rw [hb, hdrain]

end

/-! ### The change to the other bank -/

theorem settle_units (s : State) (u : Nat) : ∃ us, s.settle u = { s with units := us } := by
  unfold State.settle; simp only; split
  · exact ⟨_, rfl⟩
  · exact ⟨s.units, rfl⟩

theorem core_settle_other (s : State) {u v : Nat} (h : v ≠ u) : (s.settle u).core v = s.core v := by
  unfold State.settle; simp only; split
  · exact core_setCore_other s _ h
  · rfl

/-- A unit whose bank gives way changes its executing bank alone. -/
theorem core_settle_self (s : State) (u : Nat) :
    (s.settle u).core u = { s.core u with
      kbank := if s.yields u (s.core u).kbank = true ∧ ((s.core u).bank (1 - (s.core u).kbank)).ready = true then 1 - (s.core u).kbank
        else (s.core u).kbank } := by
  unfold State.settle; simp only; split
  · exact core_setCore_self s u _
  · rfl

@[simp] theorem bank_settle (s : State) (u v d : Nat) : (s.settle u).bank v d = s.bank v d := by
  unfold State.bank
  by_cases h : v = u
  · subst h; rw [core_settle_self]; rfl
  · rw [core_settle_other s h]

/-- The mark of the stream that issued last leaves the change to the other bank as it is. -/
theorem core_settle_lastE (s : State) (u e : Nat) :
    ((s.setCore u { s.core u with lastE := e }).settle u).core u = { (s.settle u).core u with lastE := e } := by
  have hyields : (s.setCore u { s.core u with lastE := e }).yields u (s.core u).kbank = s.yields u (s.core u).kbank := by
    refine yields_congr ?_ ?_ rfl
    · unfold State.bank; rw [core_setCore_self]; rfl
    · rw [core_setCore_self]
  rw [core_settle_self, core_settle_self, core_setCore_self]
  simp only [hyields]
  rfl

end Sys2Proof.Machine
end

section
/-!
SUPPORT. The issue point: the word that it fetches, and the state in which its instruction is executed (01 R22; 02 R37 to R39; 19 R373).
-/

namespace Sys2Proof.Machine

open Sys2Proof.Safety

/-! ### The word at the issue point -/

theorem toNat_wrapAddr (e a : Nat) : (wrapAddr e a).toNat = a % 2 ^ addrWidth e := by
  have hw : addrWidth e ≤ 13 := by unfold addrWidth; split <;> decide
  rw [wrapAddr, BitVec.toNat_ofNat]
  exact Nat.mod_eq_of_lt (Nat.lt_of_lt_of_le (Nat.mod_lt _ (Nat.two_pow_pos _)) (Nat.pow_le_pow_right (by decide) hw))

/-- The decoder reads the word at an address and the one behind it, at its place in the engine's memory (02 R37, R38). -/
theorem fetchAt_eq (k : Bank) (e : Nat) (a : BitVec 13) :
    k.fetchAt e a = decode ((get 0 k.imem (8192 * e + a.toNat)).toNat % 2 ^ 32)
      (BitVec.ofNat 32 (get 0 k.imem (8192 * e + (a.toNat + 1) % 2 ^ addrWidth e)).toNat) := by
  unfold Bank.fetchAt Bank.wordAt Bank.word
  rw [toNat_wrapAddr]
  congr 1
  exact BitVec.eq_of_toNat_eq (by simp only [BitVec.toNat_ofNat, Nat.mod_mod])

/-! ### The state at the issue point -/

/-- The executing bank of a unit. -/
abbrev State.execBank (s : State) (u : Nat) : Bank := s.bank u (s.core u).kbank

/-- A bank whose job has started. -/
def Bank.starts (k : Bank) : Bank := k.onJob (fun j => { j with started := true })

@[simp] theorem cur_atIssue (s : State) (u : Nat) : (s.atIssue u).cur = u := rfl

@[simp] theorem mem_atIssue (s : State) (u : Nat) : (s.atIssue u).mem = s.mem := rfl

theorem curB_atIssue (s : State) (u : Nat) : (s.atIssue u).curB = (s.core u).kbank := by
  unfold State.curB State.atIssue
  rw [State.onBank_cur, core_onBank_self]
  unfold Core.setBank; split <;> rfl

theorem me_atIssue (s : State) (u : Nat) : (s.atIssue u).me = (s.execBank u).starts := by
  rw [State.me, curB_atIssue]
  exact bank_onBank_self _ u _ _

/-- What stands at the issue point of engine `e` of unit `u` in state `s`: the stream may issue, no tick interrupt is due, and the entry is not nullified. -/
structure State.AtEntry (s : State) (u e : Nat) : Prop where
  may  : s.canIssue u e = true
  tick : e = 0 → s.tickDue u = false
  null : ((s.execBank u).stream e).q0.null = false

/-- An untagged word that decodes to an instruction `i` of engine `e` which does not wait for an earlier command. -/
structure Bank.Holds (k : Bank) (e : Nat) (i : Instr) : Prop where
  untagged : k.tagged e (k.stream e).q0.addr = false
  decodes  : k.fetchAt e (k.stream e).q0.addr = .ok i
  engine   : i.engine = some e
  load     : e = 0 → k.awaitsLoad i = false
  atom     : e = 5 → k.awaitsAtom i = false

/-- A stream that issues such a word executes its instruction, in the state whose unit has settled (02 R32, R37). -/
theorem issueOut_holds {s : State} {u e : Nat} {i : Instr} (h : (s.settle u).AtEntry u e) (hk : ((s.settle u).execBank u).Holds e i) :
    s.issueOut u e = exec i ((s.settle u).atIssue u) := by
  generalize hs : s.settle u = r at h hk
  have hwaits : ¬ ((e = 0 ∧ (r.execBank u).starts.awaitsLoad i = true) ∨ (e = 5 ∧ (r.execBank u).starts.awaitsAtom i = true)) := by
    rintro (⟨he, hw⟩ | ⟨he, hw⟩)
    · exact absurd ((hk.load he).symm.trans hw) Bool.false_ne_true
    · exact absurd ((hk.atom he).symm.trans hw) Bool.false_ne_true
  have htick : ¬ (e = 0 ∧ r.tickDue u = true) := fun ⟨he, hd⟩ => absurd ((h.tick he).symm.trans hd) Bool.false_ne_true
  have hnull : ((r.execBank u).starts.stream e).q0.null = false := h.null
  have htag : (r.execBank u).starts.tagged e ((r.execBank u).starts.stream e).q0.addr = false := hk.untagged
  have hdec : (r.execBank u).starts.fetchAt e ((r.execBank u).starts.stream e).q0.addr = .ok i := hk.decodes
  have hfetch : s.fetch u e = .ok (r.atIssue u, i) := by
    unfold State.fetch
    simp only [hs, h.may, Bool.true_eq_false, Bool.false_eq_true, if_false, htick, me_atIssue, hnull, htag, hdec, hk.engine, ne_eq,
      not_true_eq_false, hwaits]
  rw [State.issueOut, hfetch]

/-- A tagged word at the issue point is the literal-target fault (02 R39). -/
theorem issueOut_tagged {s : State} {u e : Nat} (h : (s.settle u).AtEntry u e)
    (ht : ((s.settle u).execBank u).tagged e (((s.settle u).execBank u).stream e).q0.addr = true) :
    s.issueOut u e = ((s.settle u).atIssue u).tagged e (((s.settle u).execBank u).stream e).q0 := by
  generalize hs : s.settle u = r at h ht
  have htick : ¬ (e = 0 ∧ r.tickDue u = true) := fun ⟨he, hd⟩ => absurd ((h.tick he).symm.trans hd) Bool.false_ne_true
  have hnull : ((r.execBank u).starts.stream e).q0.null = false := h.null
  have htag : (r.execBank u).starts.tagged e ((r.execBank u).starts.stream e).q0.addr = true := ht
  have hfetch : s.fetch u e = .error ((r.atIssue u).tagged e ((r.execBank u).starts.stream e).q0) := by
    unfold State.fetch
    simp only [hs, h.may, Bool.true_eq_false, Bool.false_eq_true, if_false, htick, me_atIssue, hnull, htag, if_true]
  rw [State.issueOut, hfetch]
  rfl

/-- The literal-target fault stops the job of the executing bank and puts the entry in EPCQ.a (02 R39). -/
theorem tagged_stops (s : State) (e : Nat) (q : QEnt) (h : s.me.fault = none) :
    ∃ t f, s.tagged e q = .next t ∧ (t.bank s.cur s.curB).fault = some f ∧ f.code = 0x0002 ∧ f.eng = e ∧ f.da = zx q.addr
      ∧ (t.bank s.cur s.curB).csr = { s.me.csr with epcqA := q } := by
  let r := s.onMe (fun k => { k with csr := { k.csr with epcqA := q } })
  have hme : r.me = { s.me with csr := { s.me.csr with epcqA := q } } := me_onMe s _
  obtain ⟨t, ht, hstop⟩ := stoppedBy_fault r e 0x0002 (zx q.addr) 0 0 (by rw [hme]; exact h)
  have hplace : r.cur = s.cur ∧ r.curB = s.curB := ⟨rfl, curB_onMe s _⟩
  rw [hplace.1, hplace.2] at hstop
  obtain ⟨c, hc⟩ := hstop.fault
  refine ⟨t, _, ht, hc, rfl, rfl, rfl, ?_⟩
  have hcsr : (t.bank s.cur s.curB).csr = (r.bank s.cur s.curB).csr := by rw [← hstop.bank]
  have hr : r.bank s.cur s.curB = r.me := by rw [State.me, hplace.1, hplace.2]
  rw [hcsr, hr, hme]

/-! ### The turn of the streams -/

theorem issueTurn_main (s : State) {u : Nat} (e : Nat) (h : u < 448) : s.issueTurn u e = s.issueOut u e := if_pos (.inl h)

/-- On a lane or store core a stream does not issue while one before it in the turn can (19 R373). -/
theorem issueTurn_behind (s : State) {u e : Nat} (h : 448 ≤ u) (hu : u < 528)
    (hb : ∃ g ∈ turnBefore (s.core u).lastE e, s.issues u g = true) : s.issueTurn u e = .next s :=
  (if_neg (by omega)).trans (if_pos (List.any_eq_true.mpr hb))

/-- The state in which a lane or store core's stream issues in its turn: it is the one that issued last, where it can issue (19 R373). -/
def State.turned (s : State) (u e : Nat) : State := if s.issues u e then s.setCore u { s.core u with lastE := e } else s

theorem issueTurn_first (s : State) {u e : Nat} (h : 448 ≤ u) (hu : u < 528)
    (hb : ∀ g ∈ turnBefore (s.core u).lastE e, s.issues u g = false) : s.issueTurn u e = (s.turned u e).issueOut u e := by
  have hnone : (turnBefore (s.core u).lastE e).any (s.issues u) ≠ true := by
    rw [Ne, List.any_eq_true]
    rintro ⟨g, hg, hi⟩
    exact absurd ((hb g hg).symm.trans hi) Bool.false_ne_true
  refine (if_neg (by omega)).trans ((if_neg hnone).trans ?_)
  unfold State.turned
  split <;> rfl

theorem mem_turned (s : State) (u e : Nat) : (s.turned u e).mem = s.mem := by unfold State.turned; split <;> rfl

/-- The turn changes nothing of the unit but which stream issued last. -/
theorem core_settle_turned (s : State) (u e : Nat) : ∃ n, ((s.turned u e).settle u).core u = { (s.settle u).core u with lastE := n } := by
  unfold State.turned
  split
  · exact ⟨e, core_settle_lastE s u e⟩
  · exact ⟨((s.settle u).core u).lastE, rfl⟩

theorem now_settle_turned (s : State) (u e : Nat) : ((s.turned u e).settle u).now = (s.settle u).now := by
  obtain ⟨us, h⟩ := settle_units (s.turned u e) u
  obtain ⟨vs, h'⟩ := settle_units s u
  rw [h, h']
  unfold State.turned
  split <;> rfl

theorem bank_of_lastE {s t : State} {u n : Nat} (h : t.core u = { s.core u with lastE := n }) (b : Nat) : t.bank u b = s.bank u b := by
  unfold State.bank; rw [h]; rfl

theorem execBank_of_lastE {s t : State} {u n : Nat} (h : t.core u = { s.core u with lastE := n }) : t.execBank u = s.execBank u := by
  rw [State.execBank, bank_of_lastE h, h]

/-- Which stream issued last does not matter at the issue point. -/
theorem AtEntry.of_lastE {s t : State} {u e n : Nat} (h : t.core u = { s.core u with lastE := n }) (hn : t.now = s.now)
    (hs : s.AtEntry u e) : t.AtEntry u e where
  may := by
    have hmay := hs.may
    unfold State.canIssue at hmay ⊢
    simp only [bank_of_lastE h, h]
    exact hmay
  tick he := by
    have htick := hs.tick he
    unfold State.tickDue State.tp State.tickOf at htick ⊢
    simp only [bank_of_lastE h, h, hn]
    exact htick
  null := by
    rw [execBank_of_lastE h]
    exact hs.null

/-! ### A step -/

theorem step_of_agenda {s : State} {m : Move} {rest : List Move} (h : s.agenda = m :: rest) : step s = ({ s with agenda := rest }).move m := by
  unfold step; rw [h]

theorem step_of_empty {s : State} (h : s.agenda = []) : step s = ({ s with moves := s.moves + 1 }).move (Config.nextMove s.moves) := by
  unfold step; rw [h]

/-- A microcode move runs the word at UPC of the running command (21 R399, R400). -/
theorem move_micro {s : State} {k : Nat} {i : Instr} {c : BCmd} (hc : (s.bunit k).cmd = some c)
    (hd : decodeMicro k (get 0 (s.bunit k).ucode ((s.bunit k).ctx c.ctx).upc.toNat).toNat = some i) : s.move (.micro k) = exec i s := by
  have hat : s.microAt k = some i := by
    unfold State.microAt; simp only [hc]; exact hd
  unfold State.move; simp only [hat]

/-- A move that is neither an instruction nor microcode runs as itself. -/
theorem move_event {s : State} {i : Instr} (he : i.engine = none) (hm : encodeMicro i = none) : s.move (.event i) = exec i s := by
  have hevent : Instr.isEvent i = true := by simp [Instr.isEvent, he, hm]
  exact if_pos hevent

end Sys2Proof.Machine
end

section
/-!
A step of the machine, put together from the issue point, the turn of the streams and the other moves of the agenda.
-/

namespace Sys2Proof.Machine

open Sys2Proof.Safety Sys2Proof.Spec

/-- Settles O59. On a lane or store core the stream's turn leaves its bank, its freeze and its clock as they are, so that the issue point is that of the state before. -/
theorem aStepRunsTheDecodedInstruction : Obligations.AStepRunsTheDecodedInstruction := by
  unfold Obligations.AStepRunsTheDecodedInstruction
  refine ⟨?issue, ?micro, ?event, ?free⟩
  case issue =>
    intro u e i rest s r q b k x w before hagenda hmay htick hnull
    have hstep : step s = r.issueTurn u e := step_of_agenda hagenda
    have hentry : q.AtEntry u e := ⟨hmay, htick, hnull⟩
    have hu : u < 528 := by
      have hmay' := hmay
      simp only [State.canIssue, Bool.and_eq_true, decide_eq_true_eq] at hmay'
      exact hmay'.1.1.1.1.1
    have hmem : ∀ a : State, a.mem = s.mem → SameMem s a := fun a h y => by rw [h]
    have hmemSettle : ∀ a : State, (a.settle u).mem = a.mem := fun a => by
      obtain ⟨us, h⟩ := settle_units a u
      rw [h]
    refine ⟨fun htag hdec heng hload hatom => ?runs, fun hmain htag hfault => ?literal⟩
    case runs =>
      have hholds : k.Holds e i := ⟨htag, (fetchAt_eq k e x).trans hdec, heng, hload, hatom⟩
      refine ⟨fun hmain => ?main, fun hlane hbehind => ?behind, fun hlane hfirst => ?turn⟩
      case main =>
        exact ⟨hstep.trans ((issueTurn_main r e hmain).trans (issueOut_holds hentry hholds)), rfl, me_atIssue q u,
          hmem _ ((mem_atIssue q u).trans (hmemSettle r))⟩
      case behind => exact hstep.trans (issueTurn_behind r hlane hu hbehind)
      case turn =>
        obtain ⟨n, hcore⟩ := core_settle_turned r u e
        have hk : ((r.turned u e).settle u).execBank u = k := execBank_of_lastE hcore
        have hentry' := AtEntry.of_lastE hcore (now_settle_turned r u e) hentry
        refine ⟨hstep.trans ((issueTurn_first r hlane hu hfirst).trans (issueOut_holds hentry' (by rw [hk]; exact hholds))), rfl, ?_,
          hmem _ ((mem_atIssue _ u).trans ((hmemSettle _).trans (mem_turned r u e)))⟩
        exact (me_atIssue _ u).trans (congrArg Bank.starts hk)
    case literal =>
      have hme : (q.atIssue u).me = k.starts := me_atIssue q u
      obtain ⟨t, f, ht, hf, hcode, heng, hda, hcsr⟩ := tagged_stops (q.atIssue u) e (k.stream e).q0 (by rw [hme]; exact hfault)
      rw [cur_atIssue, curB_atIssue] at hf hcsr
      refine ⟨t, f, hstep.trans ((issueTurn_main r e hmain).trans ((issueOut_tagged hentry htag).trans ht)), hf, hcode, heng, hda, ?_⟩
      rw [hcsr, hme]
      rfl
  case micro =>
    intro k i c rest s hagenda hc hd
    exact (step_of_agenda hagenda).trans (move_micro (s := { s with agenda := rest }) hc hd)
  case event =>
    intro i rest s hagenda he hm
    exact (step_of_agenda hagenda).trans (move_event he hm)
  case free =>
    intro s hagenda
    rw [step_of_empty hagenda, step_of_agenda (s := { s with agenda := [Config.nextMove s.moves], moves := s.moves + 1 }) rfl]
    simp only [← hagenda]

end Sys2Proof.Machine
end

section
/-!
SUPPORT. The bank of a newly placed job: its streams at their entries, its registers (01 R14 to R22, 13 R306).
-/

namespace Sys2Proof.Machine

/-! ### Entries left out, tasks changed -/

/-- An entry of a map from which the entries with some numbers have been left out. -/
theorem get_filter_key {α : Type} (d : α) (f : Nat → Bool) (m : Map α) (k : Nat) :
    get d (m.filter (fun p => f p.1)) k = if f k then get d m k else d := by
  induction m with
  | nil => simp
  | cons p m ih =>
    obtain ⟨i, v⟩ := p
    by_cases hi : i = k
    · subst hi
      cases hf : f i
      · simpa [hf] using ih
      · simp [hf, get]
    · cases hf : f i <;> simp [hf, get, hi, ih]

/-- The elements of a list of which one place has been changed. -/
theorem getElem?_map_zipIdx {α : Type} (l : List α) (n : Nat) (f : α → α) (i : Nat) :
    (l.zipIdx.map (fun t => if t.2 = n then f t.1 else t.1))[i]? = (l[i]?).map (fun x => if i = n then f x else x) := by
  rw [List.getElem?_map, List.getElem?_zipIdx, Option.map_map, Nat.zero_add]
  rfl

/-! ### Streams at their entries -/

/-- A bank in which the stream of engine `e` stands at its entry, where the image uses that engine. -/
def Bank.startStream (im : Image) (k : Bank) (e : Nat) : Bank :=
  if im.mask.getLsbD e then k.setStream e { k.refill e {} (im.entry.getD e 0) with phase := .running } else k

theorem startStreams_eq_foldl (k : Bank) (im : Image) : k.startStreams im = (List.range 6).foldl (Bank.startStream im) k := rfl

/-- Starting streams changes the streams alone. -/
theorem foldl_startStream_kept (im : Image) (l : List Nat) (k : Bank) : ∃ m, l.foldl (Bank.startStream im) k = { k with streams := m } := by
  induction l generalizing k with
  | nil => exact ⟨k.streams, rfl⟩
  | cons x l ih =>
    obtain ⟨m, h⟩ := ih (Bank.startStream im k x)
    refine ⟨m, h.trans ?_⟩
    unfold Bank.startStream; split <;> rfl

theorem stream_foldl_startStream_other (im : Image) {l : List Nat} {e : Nat} (k : Bank) (h : e ∉ l) :
    (l.foldl (Bank.startStream im) k).stream e = k.stream e := by
  induction l generalizing k with
  | nil => rfl
  | cons x l ih =>
    obtain ⟨hx, hl⟩ : e ≠ x ∧ e ∉ l := by simpa using h
    rw [List.foldl_cons, ih _ hl]
    unfold Bank.startStream; split
    · exact stream_setStream_other _ _ hx
    · rfl

/-- A used stream runs from its entry, with flags 0 and epoch 0 (01 R22, 10 R242). -/
theorem stream_foldl_startStream (im : Image) {l : List Nat} {e : Nat} (k : Bank) (h : e ∈ l) (hm : im.mask.getLsbD e = true) :
    ((l.foldl (Bank.startStream im) k).stream e).phase = .running
      ∧ ((l.foldl (Bank.startStream im) k).stream e).q0 = { addr := im.entry.getD e 0, null := false }
      ∧ ((l.foldl (Bank.startStream im) k).stream e).epoch = 0 := by
  induction l generalizing k with
  | nil => simp at h
  | cons x l ih =>
    rw [List.foldl_cons]
    by_cases hl : e ∈ l
    · exact ih _ hl
    · obtain rfl : e = x := (List.mem_cons.mp h).resolve_right hl
      rw [stream_foldl_startStream_other im _ hl, Bank.startStream, if_pos hm, stream_setStream_self]
      exact ⟨rfl, rfl, rfl⟩

/-! ### Registers of the indices -/

/-- A bank with the index of level `l` in its control register and in those of both copy engines (13 R306). -/
def Bank.putIndex (k : Bank) (l : Nat) (v : Word) : Bank :=
  ((k.wrS (BitVec.ofNat 5 (l + 1)) (zx v)).wrC 3 (BitVec.ofNat 4 (l + 1)) v).wrC 4 (BitVec.ofNat 4 (l + 1)) v

theorem rdS_wrC (k : Bank) (e : Nat) (d : BitVec 4) (v : Word) (r : BitVec 5) : (k.wrC e d v).rdS r = k.rdS r := by
  unfold Bank.rdS Bank.i0 Bank.i1; simp

theorem rdC_wrS (k : Bank) (d : BitVec 5) (v : DWord) (e : Nat) (r : BitVec 4) : (k.wrS d v).rdC e r = k.rdC e r := by
  unfold Bank.rdC Bank.i0 Bank.i1; simp

theorem wrS_kept (k : Bank) (d : BitVec 5) (v : DWord) : ∃ x, k.wrS d v = { k with s := x } := by
  unfold Bank.wrS; split
  · exact ⟨k.s, rfl⟩
  · exact ⟨_, rfl⟩

theorem wrC_kept (k : Bank) (e : Nat) (d : BitVec 4) (v : Word) : ∃ y, k.wrC e d v = { k with c := y } := by
  unfold Bank.wrC; split
  · exact ⟨k.c, rfl⟩
  · exact ⟨_, rfl⟩

/-- An index put in changes registers of the control engine and of the copy engines alone. -/
theorem putIndex_kept (k : Bank) (l : Nat) (v : Word) : ∃ x y, k.putIndex l v = { k with s := x, c := y } := by
  obtain ⟨x, hx⟩ := wrS_kept k (BitVec.ofNat 5 (l + 1)) (zx v)
  obtain ⟨y, hy⟩ := wrC_kept (k.wrS (BitVec.ofNat 5 (l + 1)) (zx v)) 3 (BitVec.ofNat 4 (l + 1)) v
  obtain ⟨z, hz⟩ := wrC_kept ((k.wrS (BitVec.ofNat 5 (l + 1)) (zx v)).wrC 3 (BitVec.ofNat 4 (l + 1)) v) 4 (BitVec.ofNat 4 (l + 1)) v
  refine ⟨x, z, hz.trans ?_⟩
  rw [hy, hx]

theorem rdS_putIndex (k : Bank) {l : Nat} (v : Word) (r : BitVec 5) (h : l < 6) :
    (k.putIndex l v).rdS r = if r.toNat = l + 1 then zx v else k.rdS r := by
  have hr : r = BitVec.ofNat 5 (l + 1) ↔ r.toNat = l + 1 := by
    rw [← BitVec.toNat_inj, BitVec.toNat_ofNat, Nat.mod_eq_of_lt (by omega)]
  have hw : ∀ n : BitVec 5, n ∈ [0, 30, 31] → BitVec.ofNat 5 (l + 1) ≠ n := by
    intro n hn he
    have ht := congrArg BitVec.toNat he
    rw [BitVec.toNat_ofNat, Nat.mod_eq_of_lt (by omega)] at ht
    rcases List.mem_cons.mp hn with rfl | hn
    · simp at ht
    · rcases List.mem_pair.mp hn with rfl | rfl <;> simp at ht <;> omega
  unfold Bank.putIndex
  rw [rdS_wrC, rdS_wrC, rdS_wrS]
  simp [hr, hw]

theorem rdC_putIndex (k : Bank) {l e : Nat} (v : Word) (r : BitVec 4) (h : l < 6) (he : e = 3 ∨ e = 4) :
    (k.putIndex l v).rdC e r = if r.toNat = l + 1 then v else k.rdC e r := by
  have hr : r = BitVec.ofNat 4 (l + 1) ↔ r.toNat = l + 1 := by
    rw [← BitVec.toNat_inj, BitVec.toNat_ofNat, Nat.mod_eq_of_lt (by omega)]
  have hw : ∀ n : BitVec 4, n ∈ [0, 14, 15] → BitVec.ofNat 4 (l + 1) ≠ n := by
    intro n hn he
    have ht := congrArg BitVec.toNat he
    rw [BitVec.toNat_ofNat, Nat.mod_eq_of_lt (by omega)] at ht
    rcases List.mem_cons.mp hn with rfl | hn
    · simp at ht
    · rcases List.mem_pair.mp hn with rfl | rfl <;> simp at ht <;> omega
  unfold Bank.putIndex
  rcases he with rfl | rfl
  · rw [rdC_wrC_other _ _ _ _ (by decide), rdC_wrC, rdC_wrS]
    simp [hr, hw]
  · rw [rdC_wrC, rdC_wrC_other _ _ _ _ (by decide), rdC_wrS]
    simp [hr, hw]

/-- A bank with the indices of the first `n` levels in their registers. -/
def Bank.putIndices (k : Bank) (idx : List Word) (n : Nat) : Bank := (List.range n).foldl (fun k l => k.putIndex l (idx.getD l 0)) k

theorem putIndices_succ (k : Bank) (idx : List Word) (n : Nat) :
    k.putIndices idx (n + 1) = (k.putIndices idx n).putIndex n (idx.getD n 0) := by
  rw [Bank.putIndices, List.range_succ, List.foldl_append]; rfl

/-- Writing indices changes registers of the control engine and of the copy engines alone. -/
theorem putIndices_kept (k : Bank) (idx : List Word) (n : Nat) : ∃ x y, k.putIndices idx n = { k with s := x, c := y } := by
  induction n with
  | zero => exact ⟨k.s, k.c, rfl⟩
  | succ n ih =>
    obtain ⟨x, y, h⟩ := ih
    obtain ⟨x', y', h'⟩ := putIndex_kept (k.putIndices idx n) n (idx.getD n 0)
    rw [putIndices_succ, h', h]
    exact ⟨x', y', rfl⟩

theorem rdS_putIndices (k : Bank) (idx : List Word) {n : Nat} (r : BitVec 5) (h : n ≤ 6) :
    (k.putIndices idx n).rdS r = if 1 ≤ r.toNat ∧ r.toNat ≤ n then zx (idx.getD (r.toNat - 1) 0) else k.rdS r := by
  induction n with
  | zero => rw [if_neg (by omega)]; rfl
  | succ n ih =>
    rw [putIndices_succ, rdS_putIndex _ _ _ (by omega), ih (by omega)]
    by_cases hr : r.toNat = n + 1
    · rw [if_pos hr, if_pos (by omega), hr, Nat.add_sub_cancel]
    · rw [if_neg hr]
      exact if_congr (by omega) rfl rfl

theorem rdC_putIndices (k : Bank) (idx : List Word) {n e : Nat} (r : BitVec 4) (h : n ≤ 6) (he : e = 3 ∨ e = 4) :
    (k.putIndices idx n).rdC e r = if 1 ≤ r.toNat ∧ r.toNat ≤ n then idx.getD (r.toNat - 1) 0 else k.rdC e r := by
  induction n with
  | zero => rw [if_neg (by omega)]; rfl
  | succ n ih =>
    rw [putIndices_succ, rdC_putIndex _ _ _ (by omega) he, ih (by omega)]
    by_cases hr : r.toNat = n + 1
    · rw [if_pos hr, if_pos (by omega), hr, Nat.add_sub_cancel]
    · rw [if_neg hr]
      exact if_congr (by omega) rfl rfl

/-! ### The bank of a new job -/

section
variable (im : Image) (j : Job) (tier : Nat) (idx : List Word) (args : DWord)

/-- A bank that holds a new job of an image and nothing else yet. -/
def blankBank : Bank :=
  { job := some { j with paused := j.static }, imem := im.imem, tok := im.toks, csr := { tvec := im.trap, tier := BitVec.ofNat 2 tier } }

theorem freshBank_eq : freshBank im j tier idx args
    = ((((blankBank im j tier).startStreams im).putIndices idx 6).wrS 7 j.ord).wrS 8 args := rfl

/-- A new job's bank holds its job, the image's memories and bindings, the trap vector, and no more than registers and streams beside (01 R14 to R21). -/
theorem freshBank_kept : ∃ st x y, freshBank im j tier idx args = { blankBank im j tier with streams := st, s := x, c := y } := by
  obtain ⟨st, hst⟩ := foldl_startStream_kept im (List.range 6) (blankBank im j tier)
  obtain ⟨x, y, hxy⟩ := putIndices_kept ((blankBank im j tier).startStreams im) idx 6
  obtain ⟨z, hz⟩ := wrS_kept (((blankBank im j tier).startStreams im).putIndices idx 6) 7 j.ord
  obtain ⟨w, hw⟩ := wrS_kept ((((blankBank im j tier).startStreams im).putIndices idx 6).wrS 7 j.ord) 8 args
  refine ⟨st, w, y, (freshBank_eq im j tier idx args).trans (hw.trans ?_)⟩
  rw [hz, hxy, startStreams_eq_foldl, hst]

theorem stream_freshBank {e : Nat} (he : e < 6) (hm : im.mask.getLsbD e = true) :
    ((freshBank im j tier idx args).stream e).phase = .running
      ∧ ((freshBank im j tier idx args).stream e).q0 = { addr := im.entry.getD e 0, null := false }
      ∧ ((freshBank im j tier idx args).stream e).epoch = 0 := by
  have hstream : (freshBank im j tier idx args).stream e = ((blankBank im j tier).startStreams im).stream e := by
    obtain ⟨x, y, hxy⟩ := putIndices_kept ((blankBank im j tier).startStreams im) idx 6
    rw [freshBank_eq, stream_wrS, stream_wrS, hxy]; rfl
  rw [hstream]
  exact stream_foldl_startStream im _ (List.mem_range.mpr he) hm

/-- The control registers of a new job: the indices in s1 to s6, the ordinal in s7, the argument block in s8, 0 elsewhere (13 R306). -/
theorem rdS_freshBank {r : BitVec 5} (hr : r.toNat < 30) : (freshBank im j tier idx args).rdS r =
    if r = 8 then args else if r = 7 then j.ord else if 1 ≤ r.toNat ∧ r.toNat ≤ 6 then zx (idx.getD (r.toNat - 1) 0) else 0 := by
  have hblank : ((blankBank im j tier).startStreams im).rdS r = 0 := by
    obtain ⟨st, hst⟩ := foldl_startStream_kept im (List.range 6) (blankBank im j tier)
    rw [startStreams_eq_foldl, hst]
    have h30 : r ≠ 30 := by rintro rfl; simp at hr
    have h31 : r ≠ 31 := by rintro rfl; simp at hr
    rw [Bank.rdS, if_neg h30, if_neg h31]
    exact ite_self _
  rw [freshBank_eq, rdS_wrS, rdS_wrS, rdS_putIndices _ _ _ (by decide), hblank]
  simp

/-- The index of level `l` stands in control register `l + 1` (13 R306). -/
theorem rdS_index_freshBank {l : Nat} (hl : l < 6) :
    (freshBank im j tier idx args).rdS (BitVec.ofNat 5 (l + 1)) = (idx.getD l 0).setWidth 64 := by
  have hr : (BitVec.ofNat 5 (l + 1)).toNat = l + 1 := by rw [BitVec.toNat_ofNat, Nat.mod_eq_of_lt (by omega)]
  rw [rdS_freshBank _ _ _ _ _ (by omega), if_neg (by bv_omega), if_neg (by bv_omega), if_pos (by omega), hr, Nat.add_sub_cancel]
  rfl

theorem rdS_unused_freshBank {x : Nat} (h9 : 9 ≤ x) (h30 : x < 30) : (freshBank im j tier idx args).rdS (BitVec.ofNat 5 x) = 0 := by
  have hr : (BitVec.ofNat 5 x).toNat = x := by rw [BitVec.toNat_ofNat, Nat.mod_eq_of_lt (by omega)]
  rw [rdS_freshBank _ _ _ _ _ (by omega), if_neg (by bv_omega), if_neg (by bv_omega), if_neg (by omega)]

/-- The copy registers of a new job: the indices in c1 to c6 of both engines (13 R306). -/
theorem rdC_freshBank {l e : Nat} (hl : l < 6) (he : e = 3 ∨ e = 4) :
    (freshBank im j tier idx args).rdC e (BitVec.ofNat 4 (l + 1)) = idx.getD l 0 := by
  rw [freshBank_eq, rdC_wrS, rdC_wrS, rdC_putIndices _ _ _ (by decide) he, BitVec.toNat_ofNat, Nat.mod_eq_of_lt (by omega),
    if_pos (by omega), Nat.add_sub_cancel]

end

end Sys2Proof.Machine
end

section
/-!
SUPPORT. The walker of a die: the misses that it reports, the choice that it serves, and the state in which it has placed an iteration (13 R303 to R307).
-/

namespace Sys2Proof.Machine

open Sys2Proof.Spec

/-! ### The misses of the walker's reads -/

/-- A report changes weight versions and dies alone. -/
theorem report_kept (s : State) (d : Nat) (t : Tensor) (n stage : Nat) (w : Bool) (j : Option Waiter) :
    ∃ vs ds, s.report d t n stage w j = { s with versions := vs, dies := ds } := by
  unfold State.report; split
  · exact ⟨_, s.dies, rfl⟩
  · exact ⟨s.versions, _, rfl⟩

/-- A fold whose steps change weight versions and dies alone does so too. -/
theorem foldl_versions_dies {α : Type} (f : State → α → State) (hf : ∀ s x, ∃ vs ds, f s x = { s with versions := vs, dies := ds })
    (l : List α) (s : State) : ∃ vs ds, l.foldl f s = { s with versions := vs, dies := ds } := by
  induction l generalizing s with
  | nil => exact ⟨s.versions, s.dies, rfl⟩
  | cons x l ih =>
    obtain ⟨vs, ds, h⟩ := hf s x
    obtain ⟨vs', ds', h'⟩ := ih (f s x)
    exact ⟨vs', ds', by rw [List.foldl_cons, h', h]⟩

/-- Reporting the misses of a walker's reads changes weight versions and dies alone (12 R290). -/
theorem walkReport_kept (s : State) (d : Nat) : ∃ vs ds, s.walkReport d = { s with versions := vs, dies := ds } := by
  refine foldl_versions_dies _ (fun s x => ?_) _ s
  split
  · exact ⟨s.versions, s.dies, rfl⟩
  · refine foldl_versions_dies _ (fun s t => ?_) _ s
    refine foldl_versions_dies _ (fun s r => ?_) _ s
    split
    · split
      · exact ⟨s.versions, s.dies, rfl⟩
      · exact report_kept _ _ _ _ _ _ _
    · exact ⟨s.versions, s.dies, rfl⟩

/-! ### The first choice -/

/-- A walker serves its first choice where that can be placed (13 R307). -/
theorem serve_first {s s1 : State} {d : Nat} {c : Choice} (rest : List Choice) (h : s.place d c = some s1) :
    s.serve d [] (c :: rest) = { s1.onDie d (fun x => (x.passOver []).served c) with power := 0 } := by
  unfold State.serve; simp only [h]

theorem place_new {s : State} {d : Nat} {c : Choice} (h : s.savedOf d c = []) : s.place d c = s.placeNew d c := by
  unfold State.place; simp only [h]

/-- A running module whose walker's first choice has no saved job places its next iteration. -/
theorem iterationPlace_first {s s1 : State} {d : Nat} {c : Choice} {rest : List Choice} (hb : s.lenfy.boot = .running)
    (hc : (s.walkReport d).choices d = c :: rest) (hs : (s.walkReport d).savedOf d c = []) (hp : (s.walkReport d).placeNew d c = some s1) :
    s.iterationPlace d = { s1.onDie d (fun x => (x.passOver []).served c) with power := 0 } := by
  refine (if_pos hb).trans ?_
  simp only [hc]
  exact serve_first rest ((place_new hs).trans hp)

/-! ### The iteration -/

/-- Without preloads of the argument block a new bank stays as it is. -/
theorem preloads_unused (s : State) (p : Nat) (q : Pasid) (args : Nat) (k : Bank) (l : List Nat) (h : ∀ x ∈ l, x < 32768) :
    s.preloads p q args k l = some (k, none) := by
  induction l with
  | nil => rfl
  | cons x l ih =>
    rw [State.preloads, if_pos (h x List.mem_cons_self)]
    exact ih (fun y hy => h y (List.mem_cons_of_mem x hy))

/-- The job of iteration `n` of a task, placed in bank `b` of unit `u` with its window at `base` (13 R306, R318). -/
def State.newJob (s : State) (d : Nat) (c : Choice) (im : Image) (u b base n : Nat) : Job :=
  let climb := decide (c.tsk.cls = 2) && im.climb
  { jid := s.jids + 1, part := c.pkt.part, fn := c.pkt.fn, queue := c.pkt.queue, packet := c.pid, task := c.tsk.addr
    ord := BitVec.ofNat 64 n, code := c.tsk.code, mask := im.mask, climb := climb, static := im.static, bucket := im.bucket
    foot := im.foot, prio := c.pkt.prio, pasid := c.pkt.pasid, cls := c.tsk.cls, die := d, writer := u, wbank := b
    ppn := (s.core u).placed, base := base, size := im.foot, accRow := (s.accWindow u b climb).1, accN := (s.accWindow u b climb).2
    win := s.coreWindow u }

/-- The ordinal of the next iteration of a task on a die (13 R304). -/
def State.nextOrdinal (s : State) (d : Nat) (c : Choice) : Nat :=
  (c.tsk.stride (s.members c.pkt.part) d).1 + (c.tsk.stride (s.members c.pkt.part) d).2 * c.tsk.on d

/-- The bank of that iteration's job. -/
def State.newBank (s : State) (d : Nat) (c : Choice) (r : TaskRec) (im : Image) (u b base : Nat) : Bank :=
  freshBank im (s.newJob d c im u b base (s.nextOrdinal d c)) (tierOf u) (r.indices (s.nextOrdinal d c)) c.pkt.args

/-- The state with a further job placed on a unit and counted in its task (13 R318). -/
def State.counted (s : State) (d : Nat) (c : Choice) (u jid : Nat) : State :=
  (({ s with jids := jid }).setCore u { s.core u with placed := (s.core u).placed + 1 }).onTask c.pid c.i
    (fun t => { t with nextN := set 0 t.nextN d (t.on d + 1) })

/-- The state in which a walker has placed the iteration. -/
def State.placed (s : State) (d : Nat) (c : Choice) (r : TaskRec) (im : Image) (u b base : Nat) : State :=
  ((s.takeBank d u b).install u b base im.foot (s.newBank d c r im u b base)).counted d c u (s.jids + 1)

theorem placeNew_placed {s : State} {d : Nat} {c : Choice} {r : TaskRec} {im : Image} {u b base : Nat}
    (hr : s.recOf c.pkt.part c.pkt.asid c.tsk = some r) (hi : get none s.images c.tsk.code = some im)
    (hn : c.tsk.on d < c.tsk.share (s.members c.pkt.part) d r.total)
    (hf : s.findBank c.pkt.part c.pkt.asid d im.foot c.pkt.prio (decide (c.tsk.cls = 2) && im.climb) r c.pkt.args.toNat = some (u, b, base))
    (hp : ∀ x ∈ r.preload, x < 32768) : s.placeNew d c = some (s.placed d c r im u b base) := by
  unfold State.placeNew
  simp only [hr, hi, if_neg (Nat.not_le.mpr hn), hf, preloads_unused _ _ _ _ _ _ hp]
  rfl

/-! ### What the placement changes -/

theorem install_units (s : State) (u b base n : Nat) (k : Bank) : ∃ us, s.install u b base n k = { s with units := us } := by
  obtain ⟨us, h⟩ := settle_units ((s.setCore u ((s.core u).clearRows base n)).setBank u b k) u
  exact ⟨us, h⟩

theorem core_install_other (s : State) {u v : Nat} (b base n : Nat) (k : Bank) (h : v ≠ u) : (s.install u b base n k).core v = s.core v := by
  rw [State.install, core_settle_other _ h, core_setBank_other _ _ _ h, core_setCore_other _ _ h]

/-- A bank that takes a job: the unit's window is clear, and its executing bank may change (01 R24, 08 R202). -/
theorem core_install_self (s : State) (u b base n : Nat) (k : Bank) :
    ∃ m, (s.install u b base n k).core u = { ((s.core u).clearRows base n).setBank b k with kbank := m } := by
  have hset : ((s.setCore u ((s.core u).clearRows base n)).setBank u b k).core u = ((s.core u).clearRows base n).setBank b k := by
    rw [State.setBank, core_setCore_self, core_setCore_self]
  exact ⟨_, (core_settle_self _ u).trans (by rw [hset])⟩

section
variable (s : State) (d : Nat) (c : Choice) (r : TaskRec) (im : Image) (u b base : Nat)

theorem takeBank_unreserved (h : s.reserver u b = none) : ∃ ds, s.takeBank d u b = { s with dies := ds } := by
  unfold State.takeBank State.takeReserved
  rw [h]
  exact ⟨_, rfl⟩

/-- Beside the units a placement changes the dies, the number of jobs and the packet of the task (13 R304, R318). -/
theorem placed_kept (h : s.reserver u b = none) : ∃ us ds, s.placed d c r im u b base
    = ({ s with units := us, dies := ds, jids := s.jids + 1 }).onTask c.pid c.i (fun t => { t with nextN := set 0 t.nextN d (t.on d + 1) }) := by
  obtain ⟨ds, hds⟩ := takeBank_unreserved s d u b h
  obtain ⟨us, hus⟩ := install_units (s.takeBank d u b) u b base im.foot (s.newBank d c r im u b base)
  rw [State.placed, hus, hds]
  exact ⟨_, ds, rfl⟩

theorem core_placed_other (h : s.reserver u b = none) {v : Nat} (hv : v ≠ u) : (s.placed d c r im u b base).core v = s.core v := by
  obtain ⟨ds, hds⟩ := takeBank_unreserved s d u b h
  have hinstall := core_install_other (s.takeBank d u b) b base im.foot (s.newBank d c r im u b base) hv
  refine (core_setCore_other _ _ hv).trans (hinstall.trans ?_)
  rw [hds]; rfl

/-- Of its unit a placement changes the bank, the window's rows, the count of placed jobs and the executing bank. -/
theorem core_placed_self (h : s.reserver u b = none) : ∃ m, (s.placed d c r im u b base).core u
    = { ((s.core u).clearRows base im.foot).setBank b (s.newBank d c r im u b base) with kbank := m, placed := (s.core u).placed + 1 } := by
  obtain ⟨ds, hds⟩ := takeBank_unreserved s d u b h
  obtain ⟨m, hm⟩ := core_install_self (s.takeBank d u b) u b base im.foot (s.newBank d c r im u b base)
  have hcore : (s.takeBank d u b).core u = s.core u := by rw [hds]; rfl
  refine ⟨m, (core_setCore_self _ u _).trans ?_⟩
  change ({ (State.install _ u b base im.foot _).core u with placed := ((State.install _ u b base im.foot _).core u).placed + 1 } : Core) = _
  rw [hm, hcore]
  unfold Core.setBank Core.clearRows
  split <;> rfl

end

end Sys2Proof.Machine
end

section
/-!
The placement of an iteration, put together from the walker's choice, the new job's bank and what the placement changes.
-/

namespace Sys2Proof.Machine

open Sys2Proof.Spec

theorem Core.bank_setBank_kept (c : Core) {b : Nat} (k : Bank) (m : Nat) (p : Word) (x : Core) (hx : x = { c.setBank b k with kbank := m, placed := p }) :
    x.bank b = k ∧ (b < 2 → x.bank (1 - b) = c.bank (1 - b)) ∧ x.pad = c.pad ∧ x.tags = c.tags := by
  subst hx
  refine ⟨?_, fun hb => ?_, ?_, ?_⟩
  · exact Core.bank_setBank_self c b k
  · exact Core.bank_setBank_other c k (by omega)
  · unfold Core.setBank; split <;> rfl
  · unfold Core.setBank; split <;> rfl

/-- An entry of a map from which those of a window have been left out. -/
theorem get_filter_window {α : Type} (d : α) (m : Map α) (base n x : Nat) :
    get d (m.filter (fun p => !(decide (base ≤ p.1) && decide (p.1 < base + n)))) x = if base ≤ x ∧ x < base + n then d else get d m x := by
  rw [get_filter_key d (fun i => !(decide (base ≤ i) && decide (i < base + n))) m x]
  by_cases h : base ≤ x ∧ x < base + n <;> simp [h]

/-- The data memory rows of a window cleared read 0, the others as before (01 R27). -/
theorem get_pad_clearRows (c : Core) (base n x : Nat) :
    get {} (c.clearRows base n).pad x = if base ≤ x ∧ x < base + n then {} else get {} c.pad x := get_filter_window {} c.pad base n x

theorem get_tags_clearRows (c : Core) (base n x : Nat) :
    get {} (c.clearRows base n).tags x = if base ≤ x ∧ x < base + n then {} else get {} c.tags x := get_filter_window {} c.tags base n x

/-- A packet of which one task has been changed. -/
theorem tasks_onTask (s : State) (i : Nat) (f : Task → Task) {pid : Nat} {q : Packet} (h : get none s.packets pid = some q) :
    ∃ q', get none (s.onTask pid i f).packets pid = some q' ∧ ∀ n, q'.tasks[n]? = (q.tasks[n]?).map (fun x => if n = i then f x else x) := by
  refine ⟨_, (get_set_self _ _ _ _).trans (by rw [h]; rfl), fun n => ?_⟩
  exact getElem?_map_zipIdx q.tasks i f n

/-- ITERATION_PLACE of a walker that places its first choice changes the units as the placement does, keeps memory and counts the job
and the iteration (13 R304, R307). -/
theorem iterationPlace_placed {s : State} {d : Nat} {c : Choice} {rest : List Choice} {r : TaskRec} {im : Image} {u b base : Nat}
    (hboot : s.lenfy.boot = .running) (hchoices : (s.walkReport d).choices d = c :: rest) (hsaved : (s.walkReport d).savedOf d c = [])
    (hplace : (s.walkReport d).placeNew d c = some ((s.walkReport d).placed d c r im u b base)) (hfree : (s.walkReport d).reserver u b = none) :
    ∃ t, exec (.iterationPlace d) s = .next t ∧ t.mem = s.mem ∧ t.core = ((s.walkReport d).placed d c r im u b base).core ∧ t.jids = s.jids + 1
      ∧ ∀ q, get none s.packets c.pid = some q → ∃ q', get none t.packets c.pid = some q'
        ∧ ∀ i, q'.tasks[i]? = (q.tasks[i]?).map (fun x => if i = c.i then { x with nextN := set 0 x.nextN d (x.on d + 1) } else x) := by
  obtain ⟨us, ds, hkept⟩ := placed_kept (s.walkReport d) d c r im u b base hfree
  obtain ⟨vs, dies, hw⟩ := walkReport_kept s d
  refine ⟨_, congrArg Host.Outcome.next (iterationPlace_first hboot hchoices hsaved hplace), ?_, rfl, ?_, fun q hq => ?_⟩
  · change ((s.walkReport d).placed d c r im u b base).mem = s.mem
    rw [hkept, hw]; rfl
  · change ((s.walkReport d).placed d c r im u b base).jids = s.jids + 1
    rw [hkept, hw]; rfl
  · change ∃ q', get none ((s.walkReport d).placed d c r im u b base).packets c.pid = some q' ∧ _
    rw [hkept, hw]
    exact tasks_onTask _ c.i (fun x => { x with nextN := set 0 x.nextN d (x.on d + 1) }) hq

/-- Settles O44: the state is the one in which the walker has placed the first choice, read off in its unit, its bank and its packet. -/
theorem iterationsArePlaced : Obligations.IterationsArePlaced := by
  unfold Obligations.IterationsArePlaced
  intro d s c rest r im u b base p w m ds done n climb hboot hchoices hsaved hrec himage hshare hfind hpreload hfree hb
  obtain ⟨vs, dies, hw⟩ := walkReport_kept s d
  have hw' : w = { s with versions := vs, dies := dies } := hw
  have himage' : get none w.images c.tsk.code = some im := by rw [hw']; exact himage
  have hmembers : w.members = s.members := by rw [hw']; rfl
  have hcore : w.core = s.core := by rw [hw']; rfl
  have hjids : w.jids = s.jids := by rw [hw']
  have hplace : w.placeNew d c = some (w.placed d c r im u b base) :=
    placeNew_placed hrec himage' (by rw [hmembers]; exact hshare) hfind hpreload
  have hn : w.nextOrdinal d c = n := by unfold State.nextOrdinal; rw [hmembers]; rfl
  obtain ⟨t, hexec, hmem, htcore, htjids, hpacket⟩ := iterationPlace_placed hboot hchoices hsaved hplace hfree
  obtain ⟨kb, hself⟩ := core_placed_self w d c r im u b base hfree
  rw [hcore] at hself
  obtain ⟨hown, hother, hpad, htags⟩ := Core.bank_setBank_kept _ _ _ _ _ hself
  have hunits : ∀ v, v ≠ u → (w.placed d c r im u b base).core v = s.core v :=
    fun v hv => (core_placed_other w d c r im u b base hfree hv).trans (by rw [hcore])
  have hcount : ((w.placed d c r im u b base).core u).placed = (s.core u).placed + 1 := by rw [hself]
  rw [← htcore] at hown hother hpad htags hunits hcount
  have hk : t.bank u b = w.newBank d c r im u b base := hown
  have hbank0 : t.bank u b = freshBank im (w.newJob d c im u b base n) (tierOf u) (r.indices n) p.args := by
    rw [hk, State.newBank, hn]
  have hrest : t.bank u (1 - b) = s.bank u (1 - b) := hother hb
  obtain ⟨st, x, y, hbank⟩ := freshBank_kept im (w.newJob d c im u b base n) (tierOf u) (r.indices n) p.args
  have hkbank := hbank0.trans hbank
  refine ⟨t, { w.newJob d c im u b base n with paused := im.static }, hexec, fun x => by rw [hmem], hunits, hrest, by rw [hkbank]; rfl,
    rfl, rfl, rfl, rfl, rfl, rfl, rfl, rfl, rfl, rfl, rfl, rfl, rfl, rfl, congrArg (fun f => (f u).placed) hcore, rfl, rfl, rfl, rfl,
    congrArg (· + 1) hjids, ?indices, ?ordinal, ?args, ?others, by rw [hkbank]; rfl, by rw [hkbank]; rfl, by rw [hkbank]; rfl, by rw [hkbank]; rfl,
    ?streams, ?inside, ?outside, hcount, htjids, hpacket⟩
  case indices =>
    intro l hl
    rw [hbank0]
    exact ⟨rdS_index_freshBank _ _ _ _ _ hl, rdC_freshBank _ _ _ _ _ hl (.inl rfl), rdC_freshBank _ _ _ _ _ hl (.inr rfl)⟩
  case ordinal => rw [hbank0, rdS_freshBank _ _ _ _ _ (by decide), if_neg (by decide), if_pos rfl]; rfl
  case args => rw [hbank0, rdS_freshBank _ _ _ _ _ (by decide), if_pos rfl]
  case others =>
    intro x h9 h30
    rw [hbank0]
    exact rdS_unused_freshBank _ _ _ _ _ h9 h30
  case streams =>
    intro e he hm
    rw [hbank0]
    exact stream_freshBank _ _ _ _ _ he hm
  case inside =>
    intro x hlo hhi
    rw [hpad, htags, get_pad_clearRows, get_tags_clearRows, if_pos ⟨hlo, hhi⟩, if_pos ⟨hlo, hhi⟩]
    exact ⟨rfl, rfl⟩
  case outside =>
    intro x hx
    rw [hpad, get_pad_clearRows, if_neg (by omega)]

end Sys2Proof.Machine
end

section
/-!
The fields of an instruction word (02 R30): what a field reads in a word put together from its fields, and a word put together again from what its fields read.
-/

namespace Sys2Proof

theorem toNat_bits (n w lo : Nat) : (bits n w lo).toNat = fld w lo n := by
  rw [bits, BitVec.toNat_ofNat, fld]

/-! ### Reading a field of a word put together

A word grows downwards: below ENG, CLS and FN stands one field after another. -/

/-- The bits `x`, raised to stand from bit `lo` up. -/
def raised (x lo : Nat) : Nat := x * 2 ^ lo

/-- The bits `x` with the field `y` behind them, in `g` bits of its own. -/
def extended (x g : Nat) {n : Nat} (y : BitVec n) : Nat := x * 2 ^ g + y.toNat

/-- ENG, CLS and an FN of `m` bits (02 R30, R31). -/
def headBits (e c f m : Nat) : Nat := (e * 8 + c) * 2 ^ m + f

theorem frame_eq_raised {e c f a : Nat} (ha : a ≤ 26) : frame e c f a = raised (headBits e c f (26 - a)) a := by
  obtain ⟨m, hm⟩ := Nat.exists_eq_add_of_le ha
  rw [frame, raised, headBits, hm, Nat.add_sub_cancel_left, show (29 : Nat) = a + m + 3 by omega]
  ring

theorem raised_add_put {n k lo : Nat} (x : Nat) (y : BitVec n) (h : lo ≤ k) : raised x k + put y lo = raised (extended x (k - lo) y) lo := by
  rw [raised, put, raised, extended, Nat.add_mul, Nat.mul_assoc, ← Nat.pow_add, Nat.sub_add_cancel h]

/-- A field does not see the field below it. -/
theorem fld_raised_extended {n g l m lo : Nat} (x : Nat) (y : BitVec n) (hg : n ≤ g) (h : lo + n ≤ l) :
    fld (raised (extended x g y) lo) l m = fld (raised x (lo + g)) l m := by
  obtain ⟨k, rfl⟩ := Nat.exists_eq_add_of_le h
  obtain ⟨r, rfl⟩ := Nat.exists_eq_add_of_le hg
  have hlow : extended x (n + r) y / 2 ^ n = x * 2 ^ r := by
    rw [extended, Nat.pow_add, Nat.mul_left_comm, Nat.mul_add_div (Nat.two_pow_pos n), Nat.div_eq_of_lt y.isLt, Nat.add_zero]
  have hraised : raised x (lo + (n + r)) = x * 2 ^ r * 2 ^ (lo + n) := by
    rw [raised, Nat.mul_assoc, ← Nat.pow_add]; congr 2; omega
  rw [fld, fld, hraised, Nat.pow_add 2 (lo + n) k, ← Nat.div_div_eq_div_mul, ← Nat.div_div_eq_div_mul, Nat.mul_div_cancel _ (Nat.two_pow_pos _),
    Nat.pow_add, ← Nat.div_div_eq_div_mul, raised, Nat.mul_div_cancel _ (Nat.two_pow_pos _), hlow]

/-- A field reads what stands there. -/
theorem fld_raised_extended_self {n g lo : Nat} (x : Nat) (y : BitVec n) (hg : n ≤ g) : fld (raised (extended x g y) lo) lo n = y.toNat := by
  obtain ⟨r, rfl⟩ := Nat.exists_eq_add_of_le hg
  rw [fld, raised, Nat.mul_div_cancel _ (Nat.two_pow_pos lo), extended, Nat.pow_add, Nat.mul_left_comm, Nat.mul_add_mod, Nat.mod_eq_of_lt y.isLt]

/-- A field below all bits reads 0. -/
theorem fld_raised_low {l m lo : Nat} (x : Nat) (h : l + m ≤ lo) : fld (raised x lo) l m = 0 := by
  obtain ⟨k, rfl⟩ := Nat.exists_eq_add_of_le h
  rw [fld, raised, Nat.add_assoc, Nat.pow_add, Nat.mul_left_comm, Nat.mul_div_cancel_left _ (Nat.two_pow_pos l), Nat.pow_add, Nat.mul_left_comm,
    Nat.mul_mod_right]

theorem fld_headBits_fn (e c : Nat) {f m a : Nat} (hf : f < 2 ^ m) : fld (raised (headBits e c f m) a) a m = f := by
  rw [fld, raised, Nat.mul_div_cancel _ (Nat.two_pow_pos a), headBits, Nat.mul_add_mod_self_right, Nat.mod_eq_of_lt hf]

theorem headBits_raised_div (e c : Nat) {f m a : Nat} (ha : a + m = 26) (hf : f < 2 ^ m) : raised (headBits e c f m) a / 2 ^ 26 = e * 8 + c := by
  rw [← ha, Nat.pow_add, ← Nat.div_div_eq_div_mul, raised, Nat.mul_div_cancel _ (Nat.two_pow_pos a), headBits, Nat.mul_comm,
    Nat.mul_add_div (Nat.two_pow_pos m), Nat.div_eq_of_lt hf, Nat.add_zero]

theorem fld_headBits_cls (e : Nat) {c f m a : Nat} (ha : a + m = 26) (hc : c < 8) (hf : f < 2 ^ m) : fld (raised (headBits e c f m) a) 26 3 = c := by
  rw [fld, headBits_raised_div e c ha hf]; omega

theorem fld_headBits_eng {e c f m a : Nat} (ha : a + m = 26) (he : e < 8) (hc : c < 8) (hf : f < 2 ^ m) :
    fld (raised (headBits e c f m) a) 29 3 = e := by
  have h := headBits_raised_div e c ha hf
  rw [fld]; omega

theorem fld_headBits_toNat (e : BitVec 3) {c f m a : Nat} (ha : a + m = 26) (hc : c < 8) (hf : f < 2 ^ m) :
    fld (raised (headBits e.toNat c f m) a) 29 3 = e.toNat :=
  fld_headBits_eng ha e.isLt hc hf

theorem bits_raised_extended {n g l m lo : Nat} (x : Nat) (y : BitVec n) (hg : n ≤ g) (h : lo + n ≤ l) :
    bits m (raised (extended x g y) lo) l = bits m (raised x (lo + g)) l :=
  BitVec.eq_of_toNat_eq (by rw [toNat_bits, toNat_bits, fld_raised_extended x y hg h])

theorem bits_raised_extended_self {n g lo : Nat} (x : Nat) (y : BitVec n) (hg : n ≤ g) : bits n (raised (extended x g y) lo) lo = y :=
  BitVec.eq_of_toNat_eq (by rw [toNat_bits, fld_raised_extended_self x y hg])

theorem bits_headBits_eng (e : BitVec 3) {c f m a : Nat} (ha : a + m = 26) (hc : c < 8) (hf : f < 2 ^ m) :
    bits 3 (raised (headBits e.toNat c f m) a) 29 = e :=
  BitVec.eq_of_toNat_eq (by rw [toNat_bits, fld_headBits_toNat e ha hc hf])

/-- FMODE of CLIMB.FAR and CLIMB.NEAR as a field of its own (02 R48). -/
theorem fixed_far : fixed 524288 0 = put (1 : BitVec 2) 19 := rfl

theorem fixed_near : fixed 1048576 0 = put (2 : BitVec 2) 19 := rfl

/-- The fixed bits of VPOP and VPUSH as a field of their own (02 R54). -/
theorem fixed_pop : fixed 2 0 = put (2 : BitVec 17) 0 := rfl

theorem fixed_push : fixed 3 0 = put (3 : BitVec 17) 0 := rfl

/-- A number of at most `m` bits. -/
def FitsIn (m x : Nat) : Prop := x < 2 ^ m

theorem fitsIn_zero (m : Nat) : FitsIn m 0 := Nat.two_pow_pos m

theorem fitsIn_raised {m lo : Nat} (x : Nat) (h : lo ≤ m) : FitsIn m (raised x lo) ↔ FitsIn (m - lo) x := by
  rw [FitsIn, FitsIn, raised, ← Nat.pow_sub_mul_pow 2 h, Nat.mul_lt_mul_right (Nat.two_pow_pos lo)]

theorem fitsIn_extended {n m g : Nat} (x : Nat) (y : BitVec n) (hg : n ≤ g) (h : g ≤ m) : FitsIn m (extended x g y) ↔ FitsIn (m - g) x := by
  have hy : y.toNat < 2 ^ g := y.isLt.trans_le (Nat.pow_le_pow_right (by decide) hg)
  have hx : extended x g y / 2 ^ g = x := by
    rw [extended, Nat.mul_comm, Nat.mul_add_div (Nat.two_pow_pos g), Nat.div_eq_of_lt hy, Nat.add_zero]
  rw [FitsIn, FitsIn, ← Nat.pow_sub_mul_pow 2 h, ← Nat.div_lt_iff_lt_mul (Nat.two_pow_pos g), hx]

theorem fitsIn_headBits {e c f m k : Nat} (he : e < 8) (hc : c < 8) (hf : f < 2 ^ m) (hk : k = m + 6) : FitsIn k (headBits e c f m) := by
  rw [FitsIn, headBits, hk, Nat.pow_add]
  calc (e * 8 + c) * 2 ^ m + f < (e * 8 + c + 1) * 2 ^ m := by rw [Nat.add_one_mul (e * 8 + c)]; exact Nat.add_lt_add_left hf _
    _ ≤ 2 ^ m * 2 ^ 6 := by rw [Nat.mul_comm]; exact Nat.mul_le_mul_left _ (by omega)

theorem fitsIn_headBits_toNat (e : BitVec 3) {c f m k : Nat} (hc : c < 8) (hf : f < 2 ^ m) (hk : k = m + 6) : FitsIn k (headBits e.toNat c f m) :=
  fitsIn_headBits e.isLt hc hf hk

/-! ### Putting a word together from what its fields read -/

/-- The part of a word from bit `k` up. -/
def above (w k : Nat) : Nat := w / 2 ^ k * 2 ^ k

theorem fld_zero (w l : Nat) : fld w l 0 = 0 := Nat.mod_one _

/-- The part of a word from bit `l` up is a field there and the part above it. -/
theorem above_split (w l n : Nat) : above w l = above w (l + n) + fld w l n * 2 ^ l := by
  rw [above, above, fld, Nat.pow_add, ← Nat.div_div_eq_div_mul, ← Nat.mul_assoc, Nat.mul_right_comm, ← Nat.add_mul, Nat.div_add_mod']

/-- Bits that read 0 can be left out. -/
theorem above_of_fld {w l k : Nat} (hk : l ≤ k) (h : fld w l (k - l) = 0) : above w k = above w l := by
  rw [above_split w l (k - l), h, Nat.zero_mul, Nat.add_zero, Nat.add_sub_of_le hk]

/-- The next field below, with bits that read 0 between. -/
theorem above_add_put {w n k lo : Nat} (hk : lo + n ≤ k) (h : fld w (lo + n) (k - (lo + n)) = 0) :
    above w k + put (bits n w lo) lo = above w lo := by
  rw [put, toNat_bits, above_of_fld hk h, ← above_split]

/-- The word is all of it, where the last bits read 0. -/
theorem above_eq_self {w k : Nat} (h : fld w 0 k = 0) : above w k = w := by
  rw [above_of_fld (Nat.zero_le k) (by simpa using h), above]; omega

/-- The last bits, where their number is fixed. -/
theorem above_add_fixed {w v k : Nat} (h : fld w 0 k = v) : above w k + fixed v 0 = w := by
  rw [above, fixed, ← h, fld, Nat.pow_zero, Nat.div_one, Nat.mul_one, Nat.div_add_mod']

/-- ENG, CLS and FN are the part of a word above its other fields. -/
theorem frame_eq_above {w e c f a : Nat} (hw : w < 2 ^ 32) (he : fld w 29 3 = e) (hc : fld w 26 3 = c) (hf : fld w a (26 - a) = f) (ha : a ≤ 26) :
    frame e c f a = above w a := by
  have htop : above w 32 = 0 := by rw [above, Nat.div_eq_of_lt hw, Nat.zero_mul]
  rw [above_split w a (26 - a), Nat.add_sub_of_le ha, above_split w 26 3, above_split w 29 3, htop, he, hc, hf, frame, Nat.zero_add]

end Sys2Proof
end

section
/-!
An instruction word by its class (02 R31): the class of each instruction, the ENG and CLS of each class, and its decoder.
-/

namespace Sys2Proof

/-- The classes of instruction words (02 R31): the common stream class, those of the control, vector and matrix engines, of the copy engines and of the exchange engine. -/
inductive WordClass where
  | common | cr | ci | cm | cd | cs | vr | v4 | vk | vi | vm | vx | matrix | copy0 | copy1 | copy2 | exchange
  deriving DecidableEq

/-- The class of an instruction's word (02 R41 to R60); none for a move. -/
def Instr.wordClass : Instr → Option WordClass
  | .nop _ | .join _ | .clause _ _ | .waitk _ _ _ | .sigk _ _ _ | .waitaw _ _ _ | .loop _ _ _ _ | .loopr _ _ _ _ | .pbr _ _ _ | .pbrr _ _ _
  | .br _ _ _ _ _ _ | .brq _ _ _ _ _ | .trap _ _ | .tret => some .common
  | .add _ _ _ _ | .sub _ _ _ _ | .mul _ _ _ _ | .mulh _ _ _ _ | .mulhu _ _ _ _ | .div _ _ _ _ | .divu _ _ _ _ | .rem _ _ _ _ | .remu _ _ _ _
  | .and _ _ _ _ | .or _ _ _ _ | .xor _ _ _ _ | .andn _ _ _ _ | .shl _ _ _ _ | .shr _ _ _ _ | .sra _ _ _ _ | .min _ _ _ _ | .max _ _ _ _ | .minu _ _ _ _
  | .maxu _ _ _ _ | .cmp _ _ _ _ _ | .sel _ _ _ _ | .clz _ _ _ | .popc _ _ _ | .bfx _ _ _ _ | .bfi _ _ _ _ | .pand _ _ _ _ | .por _ _ _ _
  | .pxor _ _ _ _ | .movp _ _ _ => some .cr
  | .addi _ _ _ | .andi _ _ _ | .ori _ _ _ | .xori _ _ _ | .shli _ _ _ | .shri _ _ _ | .srai _ _ _ | .muli _ _ _ | .cmpeqi _ _ _ | .cmplti _ _ _
  | .cmpltui _ _ _ | .mini _ _ _ | .maxi _ _ _ => some .ci
  | .movi _ _ | .movl _ _ | .movlh _ _ => some .cm
  | .ldb _ _ _ | .ldbu _ _ _ | .ldh _ _ _ | .ldhu _ _ _ | .ldw _ _ _ | .ldwu _ _ _ | .ldd _ _ _ | .stb _ _ _ | .sth _ _ _ | .stw _ _ _ | .std _ _ _
  | .ldg _ _ _ | .stg _ _ _ => some .cd
  | .csrr _ _ | .csrw _ _ | .dsync | .dmrset _ _ | .vderive _ _ _ _ _ | .vnarrow _ _ | .vdrop _ | .vquery _ _ | .fmtset _ _ | .hist _ _ | .hlatch _
  | .climb | .climbFar | .climbNear | .setleave | .arwinit _ _ => some .cs
  | .vadd _ _ _ _ _ | .vsub _ _ _ _ _ | .vmul _ _ _ _ _ | .vdiv _ _ _ _ _ | .vmin _ _ _ _ _ | .vmax _ _ _ _ _ | .vabs _ _ _ _ | .vneg _ _ _ _
  | .vsqrt _ _ _ _ | .vrcp _ _ _ _ | .vrsq _ _ _ _ | .vexp2 _ _ _ _ | .vlog2 _ _ _ _ | .vcmpeq _ _ _ _ _ | .vcmplt _ _ _ _ _ | .vcmple _ _ _ _ _
  | .vand _ _ _ _ | .vor _ _ _ _ | .vxor _ _ _ _ | .vnot _ _ _ | .vshl _ _ _ _ | .vshr _ _ _ _ | .vsra _ _ _ _ | .vmov _ _ _ | .vselm _ _ _ _
  | .vcvt _ _ _ _ _ | .vmulhi _ _ _ _ => some .vr
  | .vfma _ _ _ _ _ | .vfms _ _ _ _ _ | .vnfma _ _ _ _ _ | .vnfms _ _ _ _ _ => some .v4
  | .vfmak _ _ _ _ _ | .vaddk _ _ _ _ _ | .vmulk _ _ _ _ _ | .vmovk _ _ _ _ | .vfmal _ _ _ _ _ | .vaddl _ _ _ _ _ | .vmull _ _ _ _ _
  | .vmovl _ _ _ _ => some .vk
  | .vmovf _ _ | .vmovn _ _ => some .vi
  | .vld _ _ _ | .vst _ _ _ | .vldp _ _ _ | .vstp _ _ _ | .vrotm _ _ _ | .vpop _ | .vpush _ | .vldkb _ _ | .amovi _ _ | .aadd _ _
  | .aaddi _ _ => some .vm
  | .vrsum _ _ _ _ | .vrmax _ _ _ _ | .vrmin _ _ _ _ | .vperm _ _ _ _ | .vbcast _ _ _ _ | .vlutacc _ _ _ _ | .vhistacc _ _ _ _ | .vmasklen _ _
  | .vpack _ _ _ _ _ | .vunpack _ _ _ _ _ | .vscale _ _ _ _ _ | .viota _ _ => some .vx
  | .mlease | .mrel | .mcfg _ _ _ | .mzero _ _ | .mma _ _ | .mmat _ _ | .mscale _ _ | .mdrain | .accrd _ _ | .accwr _ _ => some .matrix
  | .cmovi _ _ _ | .cadd _ _ _ _ | .caddi _ _ _ _ | .csub _ _ _ _ => some .copy0
  | .seql _ _ _ | .seqb _ _ _ | .seqs _ _ _ _ | .seqgo _ _ | .seqstop _ => some .copy1
  | .cpy _ _ _ _ | .gath _ _ _ _ _ | .scatb _ _ _ _ | .bincfg _ _ | .binrd _ _ _ | .reduce _ _ _ | .pusha _ _ | .pushb _ _ | .arwset _ _ => some .copy2
  | .xsend _ _ _ _ | .xrecv _ _ | .xperm _ _ | .atom _ _ _ _ _ | .aaddnr _ _ _ | .afence | .bkload _ _ | .bkrun _ _ | .bkctx _ _
  | .bkwait _ => some .exchange
  | _ => none

/-- The classes, one by one. -/
def WordClass.all : List WordClass :=
  [.common, .cr, .ci, .cm, .cd, .cs, .vr, .v4, .vk, .vi, .vm, .vx, .matrix, .copy0, .copy1, .copy2, .exchange]

/-- CLS of a class (02 R31). -/
def WordClass.cls : WordClass → Nat
  | .common => 7
  | .cr | .vr | .matrix | .copy0 | .exchange => 0
  | .ci | .v4 | .copy1 => 1
  | .cm | .vk | .copy2 => 2
  | .cd | .vi => 3
  | .cs | .vm => 4
  | .vx => 5

/-- The engines that have a class (02 R31). -/
def WordClass.engines : WordClass → List Nat
  | .common => [0, 1, 2, 3, 4, 5]
  | .cr | .ci | .cm | .cd | .cs => [0]
  | .vr | .v4 | .vk | .vi | .vm | .vx => [1]
  | .matrix => [2]
  | .copy0 | .copy1 | .copy2 => [3, 4]
  | .exchange => [5]

/-- The decoder of a class, with `l` the word behind. -/
def WordClass.decoder (l : Word) (w : Nat) : WordClass → Except DecodeError Instr
  | .common => decodeCommon w
  | .cr => decodeCR w
  | .ci => decodeCI w
  | .cm => decodeCM w l
  | .cd => decodeCD w
  | .cs => decodeCS w
  | .vr => decodeVR w
  | .v4 => decodeV4 w
  | .vk => decodeVK w l
  | .vi => decodeVI w
  | .vm => decodeVM w
  | .vx => decodeVX w
  | .matrix => decodeMatrix w
  | .copy0 => decodeCopy0 w
  | .copy1 => decodeCopy1 w
  | .copy2 => decodeCopy2 w
  | .exchange => decodeExchange w

/-- A word of a class goes to the decoder of the class. -/
theorem decodeFrame_of_class {k : WordClass} {w : Nat} (l : Word) (he : fld w 29 3 ∈ k.engines) (hc : fld w 26 3 = k.cls) :
    decodeFrame w l = k.decoder l w := by
  rw [decodeFrame, hc]
  generalize fld w 29 3 = e at he
  cases k <;> fin_cases he <;> rfl

/-- A word that decodes is of one of the classes. -/
theorem class_of_decodeFrame {w : Nat} {l : Word} {i : Instr} (h : decodeFrame w l = .ok i) :
    ∃ k ∈ WordClass.all, fld w 29 3 ∈ k.engines ∧ fld w 26 3 = k.cls := by
  have he : fld w 29 3 < 8 := Nat.mod_lt _ (by decide)
  have hc : fld w 26 3 < 8 := Nat.mod_lt _ (by decide)
  by_contra hn
  rw [decodeFrame] at h
  generalize fld w 29 3 = e at *
  generalize fld w 26 3 = c at *
  interval_cases e <;> interval_cases c <;> contradiction

end Sys2Proof
end

section
/-!
Encoding, and decoding what has been encoded (02 R41 to R60): the ENG, CLS and FN of the word lead to its row, where each field reads what was put there.
-/

namespace Sys2Proof

/-- An opcode word has 32 bits (02 R30). -/
theorem encodeWord_lt (i : Instr) : encodeWord i < 2 ^ 32 := by
  change FitsIn 32 (encodeWord i)
  cases i
  all_goals
    unfold encodeWord
    simp only [frame_eq_raised, raised_add_put, fitsIn_raised, fitsIn_extended, fitsIn_headBits, fitsIn_headBits_toNat, fitsIn_zero, fixed_far,
      fixed_near, fixed_pop, fixed_push, Nat.reduceAdd, Nat.reduceSub, Nat.reduceLeDiff, Nat.reduceLT, Nat.reducePow, Nat.le_refl]

theorem exists_wordClass {i : Instr} (h : i.engine.isSome = true) : ∃ k, i.wordClass = some k := by
  cases hk : i.wordClass with
  | some k => exact ⟨k, rfl⟩
  | none => cases i <;> cases hk <;> cases h

/-- The word of an instruction shows its engine in ENG and the CLS of its class, and the decoder of the class gives it back: each field reads what was put there. -/
theorem encodeWord_readsBack {i : Instr} {k : WordClass} {e : Nat} (h : i.wordClass = some k) (he : i.engine = some e) :
    fld (encodeWord i) 29 3 = e ∧ fld (encodeWord i) 26 3 = k.cls ∧ k.decoder (i.literal.getD 0) (encodeWord i) = .ok i := by
  cases i <;> cases h <;> cases he
  all_goals
    unfold encodeWord
    simp only [frame_eq_raised, raised_add_put, fld_raised_extended, fld_raised_extended_self, fld_raised_low, fld_headBits_fn, fld_headBits_cls,
      fld_headBits_eng, fld_headBits_toNat, bits_raised_extended, bits_raised_extended_self, bits_headBits_eng, fixed_far, fixed_near, fixed_pop,
      fixed_push, Nat.reduceAdd, Nat.reduceSub, Nat.reduceLeDiff, Nat.reduceLT, Nat.reducePow, Nat.le_refl, Nat.zero_add, BitVec.reduceToNat,
      decide_true, Bool.and_self, if_true, true_and, Option.getD_some, Instr.literal, reserved, WordClass.cls, WordClass.decoder, decodeCommon, decodeCR,
      decodeCI, decodeCM, decodeCD, decodeCS, decodeVR, decodeV4, decodeVK, decodeVI, decodeVM, decodeVX, decodeMatrix, decodeCopy0, decodeCopy1,
      decodeCopy2, decodeExchange]

/-- A well-formed instruction belongs to an engine that has its class. -/
theorem engine_mem_engines {i : Instr} {k : WordClass} {e : Nat} (h : i.wordClass = some k) (he : i.engine = some e) (hw : i.wellFormed = true) :
    e ∈ k.engines := by
  have common (e : BitVec 3) (hl : engineLegal e = true) : e.toNat ∈ [0, 1, 2, 3, 4, 5] := by
    have := of_decide_eq_true hl
    simp only [List.mem_cons]; omega
  have copy (e : BitVec 3) (hl : copyLegal e = true) : e.toNat ∈ [3, 4] := by
    simpa [copyLegal] using hl
  cases i <;> cases h <;> cases he
  all_goals
    unfold Instr.wellFormed at hw
    simp only [Bool.and_eq_true, WordClass.engines] at hw ⊢
  all_goals simp [common, copy, hw]

/-- Only the classes CM and VK hold literal-taking forms (02 R37). -/
theorem literal_eq_none {i : Instr} {k : WordClass} (h : i.wordClass = some k) (hm : k ≠ .cm) (hv : k ≠ .vk) : i.literal = none := by
  cases i <;> cases h <;> trivial

theorem takesLiteral_eq_false {k : WordClass} {w : Nat} (he : fld w 29 3 ∈ k.engines) (hc : fld w 26 3 = k.cls) (hm : k ≠ .cm) (hv : k ≠ .vk) :
    takesLiteral w = false := by
  rw [takesLiteral, hc]
  generalize fld w 29 3 = e at he
  cases k <;> fin_cases he <;> trivial

theorem takesLiteral_encodeWord {i : Instr} (h : i.engine.isSome = true) (hw : i.wellFormed = true) : takesLiteral (encodeWord i) = i.literal.isSome := by
  obtain ⟨k, hk⟩ := exists_wordClass h
  obtain ⟨e, he⟩ := Option.isSome_iff_exists.mp h
  obtain ⟨heng, hcls, -⟩ := encodeWord_readsBack hk he
  by_cases hlit : k = .cm ∨ k = .vk
  · rw [takesLiteral, heng, hcls]
    rcases hlit with rfl | rfl
    all_goals
      cases i <;> cases hk <;> cases he
      all_goals
        unfold encodeWord
        simp only [frame_eq_raised, raised_add_put, fld_raised_extended, fld_headBits_fn, WordClass.cls, Nat.reduceAdd, Nat.reduceSub, Nat.reduceLeDiff,
          Nat.reduceLT, Nat.reducePow, Nat.le_refl]
        rfl
  · obtain ⟨hm, hv⟩ := not_or.mp hlit
    rw [takesLiteral_eq_false (heng ▸ engine_mem_engines hk he hw) hcls hm hv, literal_eq_none hk hm hv]
    rfl

end Sys2Proof
end

section
/-!
Encoding what has been decoded (02 R41 to R60): a row's fields, put where they were read, with the bits that its checks fix, give the word.
-/

namespace Sys2Proof

/-- Everything that a decoder's answer may be satisfies `P`. -/
def Yields (r : Except DecodeError Instr) (P : Instr → Prop) : Prop := ∀ i, r = .ok i → P i

@[simp] theorem yields_ok (i : Instr) (P : Instr → Prop) : Yields (.ok i) P ↔ P i :=
  ⟨fun h => h i rfl, fun h _ hi => Except.ok.inj hi ▸ h⟩

@[simp] theorem yields_error (r : DecodeError) (P : Instr → Prop) : Yields (.error r) P := fun _ h => nomatch h

@[simp] theorem yields_reserved (ok : Bool) (i : Instr) (P : Instr → Prop) : Yields (reserved ok i) P ↔ (ok = true → P i) := by
  cases ok <;> simp [reserved]

/-- What a class decodes is of the class, with the word behind for its literal; and it encodes to the word, where the word's ENG is its engine. -/
theorem decoder_yields (k : WordClass) {w : Nat} (l : Word) (hw : w < 2 ^ 32) (hc : fld w 26 3 = k.cls) :
    Yields (k.decoder l w) (fun i => i.wordClass = some k ∧ i.literal.getD l = l ∧ ∀ e, fld w 29 3 = e → i.engine = some e → encodeWord i = w) := by
  cases k
  all_goals
    simp only [WordClass.cls, WordClass.decoder, decodeCommon, decodeCR, decodeCI, decodeCM, decodeCD, decodeCS, decodeVR, decodeV4, decodeVK, decodeVI,
      decodeVM, decodeVX, decodeMatrix, decodeCopy0, decodeCopy1, decodeCopy2, decodeExchange] at hc ⊢
    repeat' split
  all_goals simp only [yields_ok, yields_error, yields_reserved, Bool.and_eq_true, decide_eq_true_eq]
  all_goals
    intros
    refine ⟨rfl, rfl, ?_⟩
    rintro e he ⟨⟩
    unfold encodeWord
    simp only [*, frame_eq_above hw, above_add_put, above_eq_self, above_add_fixed, fld_zero, Nat.reduceAdd, Nat.reduceSub,
      Nat.reduceLeDiff, Nat.le_refl, Nat.zero_add]
  -- the FMODE of CLIMB and the two unused fields side by side in VMOVL
  all_goals
    simp only [above, put, toNat_bits, fixed, fld] at *
    omega

end Sys2Proof
end

section
/-!
Decoding and encoding agree, put together from the rows of the classes; words written out from the tables.
-/

namespace Sys2Proof

open Machine

/-- A word decodes to what its class gives, where its ENG is the instruction's engine and the instruction is well formed (02 R61). -/
theorem decode_eq_ok {w : Nat} {l : Word} {i : Instr} :
    decode w l = .ok i ↔ decodeFrame w l = .ok i ∧ i.engine = some (fld w 29 3) ∧ i.wellFormed = true := by
  unfold decode
  cases decodeFrame w l with
  | error r => exact ⟨nofun, fun h => nomatch h.1⟩
  | ok j =>
    dsimp only
    cases he : j.engine with
    | none =>
      constructor
      · nofun
      · rintro ⟨⟨⟩, h, -⟩
        exact nomatch he.symm.trans h
    | some e =>
      dsimp only
      split
      case isTrue hok =>
        obtain ⟨rfl, hwf⟩ := hok
        constructor
        · rintro ⟨⟩; exact ⟨rfl, he, hwf⟩
        · rintro ⟨⟨⟩, -⟩; rfl
      case isFalse hbad =>
        constructor
        · nofun
        · rintro ⟨⟨⟩, h, hwf⟩
          exact absurd ⟨Option.some.inj (he.symm.trans h), hwf⟩ hbad

theorem decode_encodeWord {i : Instr} (h : i.engine.isSome = true) (hw : i.wellFormed = true) : decode (encodeWord i) (i.literal.getD 0) = .ok i := by
  obtain ⟨e, he⟩ := Option.isSome_iff_exists.mp h
  obtain ⟨k, hk⟩ := exists_wordClass h
  obtain ⟨heng, hcls, hdec⟩ := encodeWord_readsBack hk he
  refine decode_eq_ok.mpr ⟨?_, heng ▸ he, hw⟩
  rw [decodeFrame_of_class _ (heng ▸ engine_mem_engines hk he hw) hcls, hdec]

theorem encodeWord_decode {w : Nat} {l : Word} {i : Instr} (hw : w < 2 ^ 32) (h : decode w l = .ok i) :
    encodeWord i = w ∧ i.literal.getD l = l := by
  obtain ⟨hdec, heng, -⟩ := decode_eq_ok.mp h
  obtain ⟨k, -, he, hc⟩ := class_of_decodeFrame hdec
  rw [decodeFrame_of_class l he hc] at hdec
  obtain ⟨-, hlit, henc⟩ := decoder_yields k l hw hc i hdec
  exact ⟨henc _ rfl heng, hlit⟩

theorem leNat_leBytes_word {w : Nat} (hw : w < 2 ^ 32) (bs : List Byte) : leNat ((leBytes 4 w ++ bs).take 4) = w := by
  rw [List.take_left' (length_leBytes 4 w), leNat_leBytes]
  exact Nat.mod_eq_of_lt hw

theorem drop_leBytes (w : Nat) (bs : List Byte) : (leBytes 4 w ++ bs).drop 4 = bs := List.drop_left' (length_leBytes 4 w)

theorem decodeBytes_word {w : Nat} (hw : w < 2 ^ 32) (ht : takesLiteral w = false) (rest : List Byte) :
    decodeBytes (leBytes 4 w ++ rest) = (decode w 0).map (fun i => (i, rest)) := by
  rw [decodeBytes, if_neg (by simp), leNat_leBytes_word hw, drop_leBytes]
  dsimp only
  rw [ht]
  rfl

theorem decodeBytes_word_literal {w : Nat} (hw : w < 2 ^ 32) (ht : takesLiteral w = true) (x : Word) (rest : List Byte) :
    decodeBytes (leBytes 4 w ++ (leBytes 4 x.toNat ++ rest)) = (decode w x).map (fun i => (i, rest)) := by
  have hrest : (leBytes 4 w ++ (leBytes 4 x.toNat ++ rest)).drop 8 = rest := by
    rw [← List.drop_drop (i := 4) (j := 4), drop_leBytes, drop_leBytes]
  rw [decodeBytes, if_neg (by simp), leNat_leBytes_word hw, drop_leBytes, hrest, leNat_leBytes_word x.isLt, BitVec.ofNat_toNat, BitVec.setWidth_eq]
  dsimp only
  rw [if_pos ht, if_neg (by simp; omega)]

theorem decodeBytes_encode {i : Instr} (rest : List Byte) (he : i.engine.isSome = true) (hw : i.wellFormed = true) :
    decodeBytes (encode i ++ rest) = .ok (i, rest) := by
  have hdec := decode_encodeWord he hw
  have htakes := takesLiteral_encodeWord he hw
  rw [encode, List.append_assoc]
  cases hl : i.literal with
  | none =>
    rw [hl] at hdec htakes
    exact (decodeBytes_word (encodeWord_lt i) htakes _).trans (congrArg _ hdec)
  | some x =>
    rw [hl] at hdec htakes
    exact (decodeBytes_word_literal (encodeWord_lt i) htakes x _).trans (congrArg _ hdec)

/-- Settles O57, case by case over the instructions of a class one way, over the rows of its decoder the other. -/
theorem decodeAndEncodeAgree : Obligations.DecodeAndEncodeAgree := by
  refine ⟨fun i rest he hw => decodeBytes_encode rest he hw, fun w l i hw h => ?_⟩
  obtain ⟨hdec, heng, hwf⟩ := decode_eq_ok.mp h
  obtain ⟨henc, hlit⟩ := encodeWord_decode hw h
  have htop : fld w 29 3 = w / 2 ^ 29 := Nat.mod_eq_of_lt (by omega)
  refine ⟨henc, htop ▸ heng, hwf, ?_, fun x hx => ?_⟩
  · rw [← takesLiteral_encodeWord (Option.isSome_of_eq_some heng) hwf, henc]
  · rwa [hx] at hlit

/-- Settles O56: each word, decoded. -/
theorem writtenOutWordsDecode : Obligations.WrittenOutWordsDecode := by
  intro p hp
  fin_cases hp
  all_goals exact ⟨_, rfl, rfl⟩

end Sys2Proof
end

section
/-!
PROOF. LDG, STG and HIST at issue (03 R78 to R80, 13 R310): the commands of the control engine that are noted as they enter the queue.
-/

namespace Sys2Proof.Machine

open Sys2Proof.Safety Sys2Proof.Spec

/-- An issue in which a bank issues a command that is noted changes the commands, the records and the stream only. -/
theorem kept_issueNoted (k : Bank) (e : Nat) (l : Lease) (op : CmdOp) (n : Nat) :
    { (k.issueNoted e l op n).advance e with cmds := k.cmds, seq := k.seq, streams := k.streams, backs := k.backs } = k := by
  unfold Bank.issueNoted Bank.issueCmd Bank.setQueue Bank.advance Bank.setStream; rfl

theorem backs_issueNoted (k : Bank) (e : Nat) (l : Lease) (op : CmdOp) (n : Nat) :
    (k.issueNoted e l op n).backs = set none k.backs k.seq (some {
      t := k.stream e, s := k.s, p := k.p, sdm := k.sdm, fmt := k.fmt, csr := k.csr
      lease := l, from_ := n, request := k.job.bind (fun j => j.request) }) := rfl

theorem queue_issueNoted_self (k : Bank) (e : Nat) (l : Lease) (op : CmdOp) (n : Nat) :
    (k.issueNoted e l op n).queue e
      = k.queue e ++ [{ seq := k.seq, pc := (k.stream e).q0.addr, epoch := (k.stream e).epoch, op := op }] :=
  queue_issueCmd_self k e op

theorem queue_issueNoted_other (k : Bank) {e f : Nat} (l : Lease) (op : CmdOp) (n : Nat) (h : f ≠ e) :
    (k.issueNoted e l op n).queue f = k.queue f :=
  queue_issueCmd_other k op h

/-- The bank `k'` holds the command `op` of the control engine behind those of bank `k`, with the record of what it may change, and is otherwise as `k` but for its stream (08 R210, 09 R216). -/
structure NotedCommand (k k' : Bank) (op : CmdOp) : Prop where
  issued : Issued 0 k k'
  kept   : { k' with cmds := k.cmds, seq := k.seq, streams := k.streams, backs := k.backs } = k
  seq    : k'.seq = k.seq + 1
  others : ∀ e, e ≠ 0 → k'.queue e = k.queue e
  queue  : k'.queue 0 = k.queue 0 ++ [{ seq := k.seq, pc := (k.stream 0).q0.addr, epoch := (k.stream 0).epoch, op := op }]
  note   : get none k'.backs k.seq = some { t := k.stream 0, s := k.s, p := k.p, sdm := k.sdm, fmt := k.fmt, csr := k.csr,
                                            request := k.job.bind (fun j => j.request) }
  notes  : ∀ n, n ≠ k.seq → get none k'.backs n = get none k.backs n

theorem notedCommand_issueNoted (k : Bank) (op : CmdOp) : NotedCommand k ((k.issueNoted 0 .none op).advance 0) op where
  issued := issued_advance 0 (fun _ => rfl) rfl
  kept := kept_issueNoted k 0 .none op 0
  seq := rfl
  others _ h := queue_issueNoted_other k .none op 0 h
  queue := queue_issueNoted_self k 0 .none op 0
  note := by rw [Bank.advance_backs, backs_issueNoted, get_set_self]
  notes _ h := by rw [Bank.advance_backs, backs_issueNoted, get_set_other _ _ _ h]

/-- The control stream issues a command that is noted, with operands of its bank, and nothing else of the state changes. -/
theorem eff_issueNoted (s : State) (op : Bank → CmdOp) :
    ∃ t, s.eff 0 (fun k => k.issueNoted 0 .none (op k)) = .next t ∧ OnlyBank s t ∧ NotedCommand s.me t.me (op s.me) := by
  refine ⟨_, rfl, onlyBank_onMe s _, ?_⟩
  rw [me_onMe]
  exact notedCommand_issueNoted s.me (op s.me)

/-! ### What the three instructions come to, check by check -/

theorem exec_ldg_of_flatAt {s : State} {j : Job} (hj : s.me.job = some j) (d a : BitVec 5) (o : BitVec 12) :
    (∀ x, s.flatAt j s.cur 8 (s.me.flatAddr a o) = .ok x →
      exec (.ldg d a o) s = s.eff 0 (fun k => k.issueNoted 0 .none (.ldg d.toNat (s.me.flatAddr a o))))
    ∧ (∀ f, s.flatAt j s.cur 8 (s.me.flatAddr a o) = .error f → exec (.ldg d a o) s = s.flt 0 f) := by
  constructor <;> intro _ h <;> show execLdg d a o s = _ <;> simp only [execLdg, hj, h]

theorem exec_stg_of_flatAt {s : State} {j : Job} (hj : s.me.job = some j) (b a : BitVec 5) (o : BitVec 12) :
    (∀ x, s.flatAt j s.cur 8 (s.me.flatAddr a o) = .ok x →
      exec (.stg b a o) s = s.eff 0 (fun k => k.issueNoted 0 .none (.stg (s.me.flatAddr a o) (k.rdS b))))
    ∧ (∀ f, s.flatAt j s.cur 8 (s.me.flatAddr a o) = .error f → exec (.stg b a o) s = s.flt 0 f) := by
  constructor <;> intro _ h <;> show execStg b a o s = _ <;> simp only [execStg, hj, h]

/-- A view that passes has a form that is not stale and a tensor. -/
theorem viewOf_of_checkView {s : State} {j : Job} {u : Nat} {f : Word} {r w : Bool} {v : View} {x : Tensor}
    (h : s.checkView j u f r w = .ok (v, x)) : s.viewOf j.part f = some v ∧ s.tensor v.tid = some x := by
  unfold State.checkView at h
  cases hv : s.viewOf j.part f with
  | none => simp [hv] at h
  | some v' =>
    cases hx : s.tensor v'.tid with
    | none => simp [hv, hx] at h
    | some x' =>
      simp only [hv, hx] at h
      split at h
      · cases h
      · cases h; exact ⟨rfl, hx⟩

/-- The test of a format asks it of the tensor of a form that is not stale. -/
theorem formFmt_eq {s : State} {p : Nat} {f : Word} {v : View} {x : Tensor} (bad : Nat → Bool)
    (hv : s.viewOf p f = some v) (hx : s.tensor v.tid = some x) : s.formFmt p f bad = bad x.fmt := by
  simp [State.formFmt, hv, hx]

/-- HIST with a format that it does not take is an illegal instruction. -/
theorem exec_hist_of_format {s : State} {j : Job} (hj : s.me.job = some j) (a b : BitVec 5) {v : View} {x : Tensor}
    (hp : s.me.histPending = false) (hv : s.viewOf j.part ((s.me.rdS a).setWidth 32) = some v) (hx : s.tensor v.tid = some x)
    (h4 : x.fmt ≠ 4) (h2 : x.fmt ≠ 2) : exec (.hist a b) s = s.illegal 0 := by
  show execHist a b s = _
  simp [execHist, hp, hj, formFmt_eq _ hv hx, h4, h2]

/-- HIST whose view and run pass and whose format it takes becomes a command with the rows of its run. -/
theorem exec_hist_of_checks {s : State} {j : Job} (hj : s.me.job = some j) (a b : BitVec 5) {v : View} {x : Tensor}
    (hp : s.me.histPending = false) (hc : s.checkView j s.cur ((s.me.rdS a).setWidth 32) true false = .ok (v, x))
    (hr : (s.me.rdS b).toNat % 2 ^ 32 = 0
      ∨ v.box.runFlt ((s.me.rdS a).setWidth 32) v.box.lo ((s.me.rdS b).toNat % 2 ^ 32) = none)
    (hf : x.fmt = 4 ∨ x.fmt = 2) :
    exec (.hist a b) s = s.eff 0 (fun k => k.issueNoted 0 .none
      (.hist ((s.me.rdS b).toNat % 2 ^ 32) { form := (s.me.rdS a).setWidth 32, tid := x.id, box := v.box }
        (((s.me.rdS b).toNat % 2 ^ 32 + rowElems x.fmt - 1) / rowElems x.fmt))) := by
  obtain ⟨hv, hx⟩ := viewOf_of_checkView hc
  have hfmt : s.formFmt j.part ((s.me.rdS a).setWidth 32) (fun n => decide (n ≠ 4 ∧ n ≠ 2)) = false := by
    rw [formFmt_eq _ hv hx]; simp only [decide_eq_false_iff_not]; omega
  have hrun : (if (s.me.rdS b).toNat % 2 ^ 32 = 0 then none
      else v.box.runFlt ((s.me.rdS a).setWidth 32) v.box.lo ((s.me.rdS b).toNat % 2 ^ 32)) = none := by
    rcases hr with h0 | h0
    · exact if_pos h0
    · rw [h0, ite_self]
  show execHist a b s = _
  simp only [execHist, hp, hj, hfmt, hc, hrun, Bool.false_eq_true, if_false]

theorem rowElems_of_hist {n : Nat} (h : n = 4 ∨ n = 2) : rowElems n = if n = 4 then 512 else 128 := by
  rcases h with rfl | rfl <;> rfl

/-- Settles O15: each of the three instructions, once its checks are passed, is an issue of a command that is noted; a check that fails is a precise fault. -/
theorem ldgStgHistIssueCommands : Obligations.LdgStgHistIssueCommands := by
  unfold Obligations.LdgStgHistIssueCommands
  intro d a b o s j hj va issued noted
  -- an outcome that issues a noted command is what the statement calls issued and noted
  have hissue : ∀ {r : Out} (op : Bank → CmdOp), (r = s.eff 0 fun k => k.issueNoted 0 .none (op k)) →
      ∃ t, r = .next t ∧ issued (op s.me) t ∧ noted t := by
    intro r op hr
    obtain ⟨t, ht, hbank, hcmd⟩ := eff_issueNoted s op
    have hnote := hcmd.note
    rw [hj] at hnote
    exact ⟨t, hr.trans ht, ⟨hbank, hcmd.issued, hcmd.kept, hcmd.seq, hcmd.others, hcmd.queue⟩, hnote, hcmd.notes⟩
  obtain ⟨hldg, hldgFlt⟩ := exec_ldg_of_flatAt hj d a o
  obtain ⟨hstg, hstgFlt⟩ := exec_stg_of_flatAt hj b a o
  refine ⟨fun x hx => ⟨hissue (fun _ => .ldg d.toNat va) (hldg x hx), hissue (fun k => .stg va (k.rdS b)) (hstg x hx)⟩, fun f hf hnf i hi => ?_, ?_, ?_⟩
  · have hexec : exec i s = s.flt 0 f := by
      rcases List.mem_pair.mp hi with rfl | rfl
      · exact hldgFlt f hf
      · exact hstgFlt f hf
    rw [hexec]
    exact stoppedBy_fault s 0 f.code f.da f.db f.dc hnf
  · intro v x hp hc hr hfmt
    have hexec := exec_hist_of_checks hj a b hp hc hr hfmt
    rw [rowElems_of_hist hfmt] at hexec
    exact hissue (fun _ => .hist _ _ _) hexec
  · intro v x hp hv hx h4 h2 hnf
    obtain ⟨t, ht, hstop⟩ := stoppedBy_fault s 0 0x0001
      (BitVec.ofNat 64 ((s.me.word 0 (s.me.stream 0).q0.addr).toNat % 2 ^ 32)) 0 0 hnf
    exact ⟨t, _, (exec_hist_of_format hj a b hp hv hx h4 h2).trans ht, hstop⟩

end Sys2Proof.Machine
end

section
/-!
PROOF. The copy commands at issue (09 R216, R219 to R223, R230, R231): what the checks of each kind come to, and the command that enters the queue with what they saw.
-/

namespace Sys2Proof.Machine

open Sys2Proof.Safety Sys2Proof.Spec

/-! ### A command enters the queue -/

theorem kept_issueCmd (k : Bank) (e : Nat) (op : CmdOp) :
    { (k.issueCmd e op).advance e with cmds := k.cmds, seq := k.seq, streams := k.streams, job := k.job } = k := by
  unfold Bank.issueCmd Bank.setQueue Bank.advance Bank.setStream; rfl

/-- An instruction that issues a command has issued it in the sense of the statements. -/
theorem commandIssued_eff (s : State) (e : Nat) (op : CmdOp) :
    ∃ t, s.eff e (fun k => k.issueCmd e op) = .next t ∧ CommandIssued s t e op := by
  refine ⟨_, rfl, onlyBank_onMe s _, ?_⟩
  rw [me_onMe]
  exact ⟨issued_advance e (fun _ => rfl) rfl, kept_issueCmd s.me e op, rfl, rfl,
    fun f h => queue_issueCmd_other s.me op h, queue_issueCmd_self s.me e op⟩

/-- The checks that a copy command of engine `e` of the executing bank makes at issue (09 R219). -/
def State.issueCheck (s : State) (e : Nat) (c : CopyCmd) : Except Flt CopyCmd :=
  s.copyCheck s.cur s.curB e (s.me.iword e (s.me.stream e).q0.addr) c

theorem copyIssue_of_ok {s : State} {e : Nat} {c c' : CopyCmd} (hp : s.me.places e < 8) (h : s.issueCheck e c = .ok c') :
    ∃ t, s.copyIssue e c = .next t ∧ CommandIssued s t e (.copy c') := by
  unfold State.issueCheck at h
  have hc : s.copyIssue e c = s.eff e (fun k => k.issueCmd e (.copy c')) := by
    unfold State.copyIssue; rw [if_neg (by omega), h]
  rw [hc]
  exact commandIssued_eff s e _

theorem copyIssue_of_error {s : State} {e : Nat} {c : CopyCmd} {f : Flt} (hp : s.me.places e < 8) (hf : s.me.fault = none)
    (h : s.issueCheck e c = .error f) :
    ∃ t, s.copyIssue e c = .next t ∧ StoppedBy s t s.cur s.curB e f.code f.da f.db f.dc := by
  unfold State.issueCheck at h
  have hc : s.copyIssue e c = s.flt e f := by
    unfold State.copyIssue; rw [if_neg (by omega), h]
  rw [hc]
  exact stoppedBy_fault s e _ _ _ _ hf

/-! ### The operands that are captured -/

@[simp] theorem rdC_zero (k : Bank) (e : Nat) : k.rdC e 0 = 0 := rfl

theorem count_eq_cnt14 (n : BitVec 14) : count n = cnt14 n := by
  simp [count, cnt14, ← BitVec.toNat_inj]

theorem count_eq_cnt10 (n : BitVec 10) : count n = cnt10 n := by
  simp [count, cnt10, ← BitVec.toNat_inj]

/-- A command of a kind other than `REDUCE` captures one form. -/
theorem capture_eq (k : Bank) (e : BitVec 3) {kind : CopyKind} (h : kind ≠ .reduce) (v p i : BitVec 4) (n : Nat) :
    k.capture e.toNat kind v p i n = { captured k e kind v p n with idx := k.rdC e.toNat i } := by
  simp [Bank.capture, captured, h]

theorem capture_reduce (k : Bank) (e : BitVec 3) (v p : BitVec 4) :
    k.capture e.toNat .reduce v p 0 0 = { captured k e .reduce v p 0 with formB := k.rdC e.toNat (v + 1) } := by
  simp only [Bank.capture, captured, rdC_zero, if_true]

/-! The instructions, with what they capture. -/

theorem exec_cpy_captured (e : BitVec 3) (v p : BitVec 4) (n : BitVec 14) (s : State) :
    exec (.cpy e v p n) s = s.copyIssue e.toNat (captured s.me e .cpy v p (cnt14 n)) := by
  rw [exec_cpy, execCpy, capture_eq _ _ (by decide), count_eq_cnt14, rdC_zero]; rfl

theorem exec_gath_captured (e : BitVec 3) (v p i : BitVec 4) (n : BitVec 10) (s : State) :
    exec (.gath e v p i n) s
      = s.copyIssue e.toNat { captured s.me e .gath v p (cnt10 n) with idx := s.me.rdC e.toNat i } := by
  rw [exec_gath, execGath, capture_eq _ _ (by decide), count_eq_cnt10]

theorem exec_scatb_captured (v p i : BitVec 4) (n : BitVec 10) (s : State) (h : ∀ c ∈ s.me.queue 4, c.isBincfg = false) :
    exec (.scatb v p i n) s
      = s.copyIssue 4 { captured s.me 4 .scatb v p (cnt10 n) with idx := s.me.rdC 4 i } := by
  have hq : (s.me.queue 4).any Cmd.isBincfg = false := by simpa using h
  have hc : s.me.capture 4 .scatb v p i (count n) = _ := capture_eq s.me 4 (kind := .scatb) (by decide) v p i (count n)
  rw [exec_scatb, execScatb, hq, if_neg Bool.false_ne_true, hc, count_eq_cnt10]; rfl

theorem exec_bincfg_captured (e : BitVec 3) (p : BitVec 4) (s : State) :
    exec (.bincfg e p) s
      = s.copyIssue e.toNat { kind := .bincfg, pad := s.me.rdC e.toNat p, coord := (s.me.sq e.toNat).coords } := by
  rw [exec_bincfg, execBincfg, capture_eq _ _ (by decide)]; simp only [captured, rdC_zero]

theorem exec_reduce_captured (e : BitVec 3) (v p : BitVec 4) (s : State) :
    exec (.reduce e v p) s
      = s.copyIssue e.toNat { captured s.me e .reduce v p 0 with formB := s.me.rdC e.toNat (v + 1) } := by
  rw [exec_reduce, execReduce, capture_reduce]

/-- The instruction of a push. -/
theorem exec_push_captured (p : BitVec 4) (n : BitVec 14) (s : State) :
    ∀ x ∈ [(Instr.pusha p n, CopyKind.pusha), (Instr.pushb p n, .pushb)],
      (x.2 = .pusha ∨ x.2 = .pushb) ∧ exec x.1 s = s.copyIssue 3 { captured s.me 3 x.2 0 p (cnt14 n) with form := 0 } := by
  intro x hx
  rw [← count_eq_cnt14]
  rcases List.mem_pair.mp hx with rfl | rfl
  · exact ⟨.inl rfl, rfl⟩
  · exact ⟨.inr rfl, rfl⟩

/-! ### The checks, kind by kind -/

/-- What a passed view check leaves in a command (09 R219). -/
def seen (f : Word) (x : View × Tensor) : Chk := { form := f, tid := x.2.id, box := x.1.box }

section
variable {s : State} {j : Job} {e : Nat} {c : CopyCmd}

/-- The scratchpad rows of the window and the illegal instruction are checked first. -/
theorem issueCheck_of_rows (hj : s.me.job = some j) (hk : c.kind ≠ .reduce) (hr : s.me.rows < rowOf c.pad + c.rows) :
    s.issueCheck e c = .error (s.me.rangeFlt (512 * max (rowOf c.pad) s.me.rows)) := by
  unfold State.me at *
  unfold State.issueCheck State.copyCheck
  simp only [hj, hk, hr, decide_false, Bool.false_and, Bool.false_eq_true, if_false, if_true]

theorem issueCheck_cpy (hj : s.me.job = some j) (hk : c.kind = .cpy) (hr : rowOf c.pad + c.n ≤ s.me.rows) :
    s.issueCheck e c = (s.checkRun j s.cur c.form (decide (e = 3)) (decide (e = 4)) c.point c.n).map
      (fun x => { c with chk := some x }) := by
  unfold State.me at *
  unfold State.issueCheck State.copyCheck
  cases h : s.checkRun j s.cur c.form (decide (e = 3)) (decide (e = 4)) c.point c.n <;>
    simp [hj, hk, CopyCmd.rows, CopyCmd.indexed, Nat.not_lt.mpr hr, h, Except.map]

theorem issueCheck_gath (hj : s.me.job = some j) (hk : c.kind = .gath) (hr : rowOf c.pad + c.n ≤ s.me.rows)
    (hi : rowOf c.idx + (c.first + c.n - 1) / 128 < s.me.rows) :
    s.issueCheck e c = (s.checkView j s.cur c.form (decide (e = 3)) (decide (e = 4))).map
      (fun x => { c with chk := some (seen c.form x) }) := by
  unfold State.me at *
  unfold State.issueCheck State.copyCheck
  cases h : s.checkView j s.cur c.form (decide (e = 3)) (decide (e = 4)) <;>
    simp [hj, hk, CopyCmd.rows, CopyCmd.indexed, Nat.not_lt.mpr hr, Nat.not_le.mpr hi, h, Except.map, seen]

theorem issueCheck_scatb {x : View × Tensor} (hj : s.me.job = some j) (hk : c.kind = .scatb)
    (hr : rowOf c.pad + c.n ≤ s.me.rows) (hi : rowOf c.idx + (c.first + c.n - 1) / 128 < s.me.rows)
    (hv : s.checkView j s.cur c.form false true = .ok x) (hb : (s.me.sq e).binFlt x.2 x.1.box c = none) :
    s.issueCheck e c = .ok { c with chk := some (seen c.form x) } := by
  unfold State.me at *
  unfold State.issueCheck State.copyCheck
  simp [hj, hk, CopyCmd.rows, CopyCmd.indexed, Nat.not_lt.mpr hr, Nat.not_le.mpr hi, hv, hb, seen]

theorem issueCheck_bincfg (hj : s.me.job = some j) (hk : c.kind = .bincfg) (hr : rowOf c.pad + 5 ≤ s.me.rows) :
    s.issueCheck e c = .ok c := by
  unfold State.me at *
  unfold State.issueCheck State.copyCheck
  simp [hj, hk, CopyCmd.rows, CopyCmd.indexed, Nat.not_lt.mpr hr]

theorem issueCheck_push (hj : s.me.job = some j) (hk : c.kind = .pusha ∨ c.kind = .pushb) (hr : rowOf c.pad + c.n ≤ s.me.rows) :
    s.issueCheck e c = .ok c := by
  unfold State.me at *
  unfold State.issueCheck State.copyCheck
  rcases hk with hk | hk <;> simp [hj, hk, CopyCmd.rows, CopyCmd.indexed, Nat.not_lt.mpr hr]

/-! `REDUCE` -/

theorem issueCheck_reduceIllegal (hj : s.me.job = some j) (hk : c.kind = .reduce) (h : s.reduceIllegal j c = true) :
    s.issueCheck e c = .error { code := 0x0001, da := s.me.iword e (s.me.stream e).q0.addr } := by
  unfold State.me at *
  unfold State.issueCheck State.copyCheck
  simp [hj, hk, h, State.me]

theorem issueCheck_reduceOne {x : View × Tensor} (hj : s.me.job = some j) (hk : c.kind = .reduce)
    (h : s.reduceIllegal j c = false) (hr : rowOf c.pad + 1 ≤ s.me.rows)
    (hv : s.checkView j s.cur c.form true false = .ok x) (hB : c.formB = 0) :
    s.issueCheck e c = .ok { c with chk := some (seen c.form x) } := by
  unfold State.me at *
  unfold State.issueCheck State.copyCheck
  simp [hj, hk, h, CopyCmd.rows, CopyCmd.indexed, Nat.not_lt.mpr hr, hv, hB, seen]

theorem issueCheck_reduceTwo {x y : View × Tensor} (hj : s.me.job = some j) (hk : c.kind = .reduce)
    (h : s.reduceIllegal j c = false) (hr : rowOf c.pad + 1 ≤ s.me.rows)
    (hv : s.checkView j s.cur c.form true false = .ok x) (hB : c.formB ≠ 0)
    (hw : s.checkView j s.cur c.formB true false = .ok y) (ho : (x.1.box.region c.point).firstOut y.1.box = none) :
    s.issueCheck e c = .ok { c with chk := some (seen c.form x), chkB := some (seen c.formB y) } := by
  unfold State.me at *
  unfold State.issueCheck State.copyCheck
  have hB' : ¬ c.formB = 0#32 := hB
  simp [hj, hk, h, CopyCmd.rows, CopyCmd.indexed, Nat.not_lt.mpr hr, hv, hB', hw, ho, seen]

end

/-! ### When a `REDUCE` is illegal -/

theorem reduceBad_eq_false {n : Nat} (h : n ∉ [2, 3, 4]) : reduceBad n = false := by
  simpa [reduceBad] using h

theorem reduceBad_eq_true {n : Nat} (h : n ∈ [2, 3, 4]) : reduceBad n = true := by
  simpa [reduceBad] using h

/-- A `REDUCE` of one view is legal when the format of that view is. -/
theorem reduceIllegal_one {s : State} {j : Job} {u : Nat} {c : CopyCmd} {x : View × Tensor}
    (hv : s.checkView j u c.form true false = .ok x) (hf : x.2.fmt ∉ [2, 3, 4]) (hB : c.formB = 0) :
    s.reduceIllegal j c = false := by
  obtain ⟨h1, h2⟩ := viewOf_of_checkView hv
  simp [State.reduceIllegal, formFmt_eq _ h1 h2, reduceBad_eq_false hf, hB]

/-- A `REDUCE` of two views is legal when both formats are. -/
theorem reduceIllegal_two {s : State} {j : Job} {u : Nat} {c : CopyCmd} {x y : View × Tensor}
    (hv : s.checkView j u c.form true false = .ok x) (hf : x.2.fmt ∉ [2, 3, 4])
    (hw : s.checkView j u c.formB true false = .ok y) (hg : y.2.fmt ∉ [2, 3, 4]) :
    s.reduceIllegal j c = false := by
  obtain ⟨h1, h2⟩ := viewOf_of_checkView hv
  obtain ⟨h3, h4⟩ := viewOf_of_checkView hw
  simp [State.reduceIllegal, formFmt_eq _ h1 h2, formFmt_eq _ h3 h4, reduceBad_eq_false hf, reduceBad_eq_false hg]

/-- Settles O27: each command finds a place, so its outcome is that of its checks. -/
theorem copyCommandsIssueWithTheirChecks : Obligations.CopyCommandsIssueWithTheirChecks := by
  unfold Obligations.CopyCommandsIssueWithTheirChecks
  intro e v p i n m s j k row rd wr lastIdx hj hp
  have hrd : rd = decide (e.toNat = 3) := by simp [rd, ← BitVec.toNat_inj]
  have hwr : wr = decide (e.toNat = 4) := by simp [wr, ← BitVec.toNat_inj]
  have hlast : row i + (0 + cnt10 m - 1) / 128 = lastIdx := by simp [lastIdx]
  -- what CPY and GATH come to once their rows lie in the window
  have hcpy (hr : row p + cnt14 n ≤ k.rows) :=
    issueCheck_cpy (e := e.toNat) (c := captured k e .cpy v p (cnt14 n)) hj rfl hr
  have hgath (hr : row p + cnt10 m ≤ k.rows) (hi : lastIdx < k.rows) :=
    issueCheck_gath (e := e.toNat) (c := { captured k e .gath v p (cnt10 m) with idx := k.rdC e.toNat i }) hj rfl hr (hlast ▸ hi)
  rw [← hrd, ← hwr] at hcpy hgath
  refine ⟨?cpy, ?gath, ?scatb, ?bincfg, ?reduceOne, ?reduceTwo, ?push, fun hf => ⟨?rows, ?cpyFault, ?gathFault, ?illegal⟩⟩
  case cpy =>
    intro x hr hx
    rw [exec_cpy_captured]
    exact copyIssue_of_ok hp ((hcpy hr).trans (congrArg _ hx))
  case gath =>
    intro w t hr hi hv
    rw [exec_gath_captured]
    exact copyIssue_of_ok hp ((hgath hr hi).trans (congrArg _ hv))
  case scatb =>
    rintro w t rfl hr hi hv hq hb
    rw [exec_scatb_captured _ _ _ _ _ hq]
    exact copyIssue_of_ok hp (issueCheck_scatb (x := (w, t)) hj rfl hr (hlast ▸ hi) hv hb)
  case bincfg =>
    intro hr
    rw [exec_bincfg_captured]
    exact copyIssue_of_ok hp (issueCheck_bincfg hj rfl hr)
  case reduceOne =>
    intro w t hr hB hv h2 h3 h4
    have hfmt : t.fmt ∉ [2, 3, 4] := by simp [h2, h3, h4]
    rw [exec_reduce_captured, hB]
    exact copyIssue_of_ok hp
      (issueCheck_reduceOne (x := (w, t)) hj rfl (reduceIllegal_one hv hfmt rfl) hr hv rfl)
  case reduceTwo =>
    intro w t w2 t2 hr hB hv hv2 hfmt hfmt2 ho
    rw [exec_reduce_captured]
    exact copyIssue_of_ok hp
      (issueCheck_reduceTwo (x := (w, t)) (y := (w2, t2)) hj rfl (reduceIllegal_two hv hfmt hv2 hfmt2) hr hv hB hv2 ho)
  case push =>
    rintro rfl hr x hx
    obtain ⟨hkind, hexec⟩ := exec_push_captured p n s x hx
    rw [hexec]
    exact copyIssue_of_ok hp (issueCheck_push hj hkind hr)
  case rows =>
    intro hr
    rw [exec_cpy_captured]
    exact copyIssue_of_error hp hf
      (issueCheck_of_rows (c := captured k e .cpy v p (cnt14 n)) hj CopyKind.noConfusion hr)
  case cpyFault =>
    intro f hr hx
    rw [exec_cpy_captured]
    exact copyIssue_of_error hp hf ((hcpy hr).trans (congrArg _ hx))
  case gathFault =>
    intro f hr hi hv
    rw [exec_gath_captured]
    exact copyIssue_of_error hp hf ((hgath hr hi).trans (congrArg _ hv))
  case illegal =>
    intro w t hv ht hfmt
    rw [exec_reduce_captured]
    obtain ⟨u, hu, hstop⟩ := copyIssue_of_error hp hf (issueCheck_reduceIllegal (e := e.toNat)
      (c := { captured k e .reduce v p 0 with formB := k.rdC e.toNat (v + 1) }) hj rfl
      (by simp [State.reduceIllegal, captured, k, formFmt_eq reduceBad hv ht, reduceBad_eq_true hfmt]))
    exact ⟨u, _, hu, hstop⟩

end Sys2Proof.Machine
end

section
/-!
PROOF. The answer of a management command (22 R417, R429): when a command is carried out, and what its result, the head of the ring and the interrupt change.
-/

namespace Sys2Proof.Machine

open Sys2Proof.Safety Sys2Proof.Spec

/-! ### A command that may be carried out -/

/-- The state with the module awake, in which a command is carried out (22 R440). -/
def State.awake (s : State) : State := { s with power := 0 }

/-- A command that is ready is carried out, with the module awake. -/
theorem command_ready {s : State} {f op : Nat} (h : Ready s f op) (hop : commandCodes.contains op = true) (run : MCmd → State → State) :
    s.command f op run = .next (run (headCmd s f) s.awake) := by
  obtain ⟨⟨hboot, hrun, htail, hring, hstamp⟩, hzero, hcode, hphys, hreset⟩ := h
  unfold headCmd at hstamp hcode
  have hperm : ¬ (0x20 ≤ op ∧ op < 0x30 ∧ f ≠ 0) := fun ⟨h1, h2, h3⟩ => h3 (hphys h1 h2)
  simp only [State.command, headCmd, hboot, hrun, htail, hring, hstamp, hzero, hcode, hop, hperm, hreset, ne_eq, not_true_eq_false,
    or_self, if_false, Bool.true_eq_false, Bool.not_true, Bool.false_eq_true]
  rfl

/-! ### The interrupt -/

/-- An interrupt changes the remapping table, what has been sent and the counters at most. -/
theorem irq_kept (s : State) (f v : Nat) : ∃ a b c, s.irq f v = { s with remap := a, sent := b, errs := c } := by
  unfold State.irq
  simp only
  split
  · exact ⟨s.remap, s.sent, _, rfl⟩
  · split
    · exact ⟨_, s.sent, s.errs, rfl⟩
    · exact ⟨s.remap, _, s.errs, rfl⟩

theorem signalled_irq {s r : State} (hr : r.remap = s.remap) (hs : r.sent = s.sent) (he : r.errs = s.errs) (f v : Nat) :
    Signalled s (r.irq f v) f v := by
  unfold Signalled State.irq
  rw [hr, hs, he]
  generalize hx : (get {} s.remap (2048 * f + v) : Remap) = x
  refine ⟨fun hv => ?_, fun hv hm => ?_, fun hv hm => ?_⟩
  · simp [hv]
  · simp [hv, hm]
  · simp only [hv, hm, Bool.true_eq_false, if_false, if_true, true_and]
    exact ⟨get_set_self _ _ _ _, fun i hi => get_set_other _ _ _ hi⟩

/-! ### The result -/

/-- The 32 bytes of a result (22 R429). -/
def resultBytes (m : MCmd) (status : Nat) (vals : List Byte) : List Byte :=
  (leBytes 2 m.stamp ++ leBytes 2 status ++ vals ++ List.replicate 28 0).take 32

/-- The state in which the result stands and the ring has moved on, before the interrupt. -/
def State.answered (s : State) (f status : Nat) (vals : List Byte) : State :=
  (s.hostPut (headCmd s f).res (resultBytes (headCmd s f) status vals)).onFunc f (fun x => { x with head := x.head + 1, stale := none })

theorem finish_eq (s : State) (f status : Nat) (vals : List Byte) : s.finish f status vals = (s.answered f status vals).irq f 0 := rfl

/-- The end of a command changes host memory, the functions, the remapping table, what has been sent and the counters at most. -/
theorem finish_kept (s : State) (f status : Nat) (vals : List Byte) :
    ∃ m fs a b c, s.finish f status vals = { s with mem := m, funcs := fs, remap := a, sent := b, errs := c } := by
  obtain ⟨a, b, c, h⟩ := irq_kept (s.answered f status vals) f 0
  exact ⟨_, _, a, b, c, h⟩

@[simp] theorem units_finish (s : State) (f status : Nat) (vals : List Byte) : (s.finish f status vals).units = s.units := by
  obtain ⟨m, fs, a, b, c, h⟩ := finish_kept s f status vals
  rw [h]

@[simp] theorem parts_finish (s : State) (f status : Nat) (vals : List Byte) : (s.finish f status vals).parts = s.parts := by
  obtain ⟨m, fs, a, b, c, h⟩ := finish_kept s f status vals
  rw [h]

@[simp] theorem tensors_finish (s : State) (f status : Nat) (vals : List Byte) : (s.finish f status vals).tensors = s.tensors := by
  obtain ⟨m, fs, a, b, c, h⟩ := finish_kept s f status vals
  rw [h]

@[simp] theorem views_finish (s : State) (f status : Nat) (vals : List Byte) : (s.finish f status vals).views = s.views := by
  obtain ⟨m, fs, a, b, c, h⟩ := finish_kept s f status vals
  rw [h]

@[simp] theorem crossings_finish (s : State) (f status : Nat) (vals : List Byte) : (s.finish f status vals).crossings = s.crossings := by
  obtain ⟨m, fs, a, b, c, h⟩ := finish_kept s f status vals
  rw [h]

theorem mem_finish (s : State) (f status : Nat) (vals : List Byte) :
    (s.finish f status vals).mem = wrBytes s.mem (hostAddr (headCmd s f).res) (resultBytes (headCmd s f) status vals) := by
  obtain ⟨a, b, c, h⟩ := irq_kept (s.answered f status vals) f 0
  rw [finish_eq, h]; rfl

theorem func_finish (s : State) (f status : Nat) (vals : List Byte) (g : Nat) :
    (s.finish f status vals).func g = if g = f then { s.func f with head := (s.func f).head + 1, stale := none } else s.func g := by
  obtain ⟨a, b, c, h⟩ := irq_kept (s.answered f status vals) f 0
  rw [finish_eq, h]
  exact get_set _ _ _ _ _

/-- The bytes written at a host address stand there, and no others have changed. -/
theorem hostBytes_of_mem {s t : State} {a : Nat} {r : List Byte} (h : t.mem = wrBytes s.mem (hostAddr a) r) : HostBytes s t a r := by
  unfold HostBytes OnlyBytes
  rw [h]
  exact ⟨fun x hx => rdByte_wrBytes_out _ _ _ _ (by omega), rdBytes_wrBytes_same _ _ _⟩

/-- What the end of a command reads of `s` stands in `r` as in `s`. -/
structure SameEdge (s r : State) : Prop where
  mem   : r.mem = s.mem
  funcs : r.funcs = s.funcs
  remap : r.remap = s.remap
  sent  : r.sent = s.sent
  errs  : r.errs = s.errs

theorem ended_finish {s r : State} (hm : r.mem = s.mem) (hf : r.funcs = s.funcs) (f status : Nat) (vals : List Byte) :
    Ended s (r.finish f status vals) f status vals := by
  have hfunc : ∀ g, r.func g = s.func g := fun g => by unfold State.func; rw [hf]
  have hhead : headCmd r f = headCmd s f := by unfold headCmd State.hostGet; rw [hfunc, hm]
  refine ⟨hostBytes_of_mem ?_, ?_⟩
  · rw [mem_finish, hhead, hm]; rfl
  · rw [func_finish, if_pos rfl, hfunc]; exact ⟨rfl, rfl, rfl⟩

theorem signalled_finish {s r : State} (h : SameEdge s r) (f status : Nat) (vals : List Byte) :
    Signalled s (r.finish f status vals) f 0 :=
  signalled_irq (r := r.answered f status vals) h.remap h.sent h.errs f 0

theorem headOnly_finish {s r : State} (h : r.funcs = s.funcs) (f status : Nat) (vals : List Byte) :
    HeadOnly s (r.finish f status vals) f := by
  have hfunc : ∀ g, r.func g = s.func g := fun g => by unfold State.func; rw [h]
  refine ⟨?_, fun g hg => ?_⟩
  · rw [func_finish, if_pos rfl, hfunc]
  · rw [func_finish, if_neg hg, hfunc]

/-- A command that ends in `r`, which differs from `s` in what `u` takes back, is done. -/
theorem done_finish {s r u : State} (h : SameEdge s r) (f status : Nat) (vals : List Byte)
    (hu : { u with mem := s.mem, funcs := s.funcs, remap := s.remap, sent := s.sent, errs := s.errs, power := s.power } = s) :
    Done s (r.finish f status vals) u f status vals :=
  ⟨ended_finish h.mem h.funcs f status vals, signalled_finish h f status vals, hu⟩

theorem sameEdge_awake (s : State) : SameEdge s s.awake := ⟨rfl, rfl, rfl, rfl, rfl⟩

/-- A command that is refused in `r` changes nothing more than the end of a command does. -/
theorem denied_of {s r : State} {i : Instr} {f status : Nat} {vals : List Byte}
    (h : exec i s = .next (r.awake.finish f status vals)) : ∃ t, exec i s = .next t ∧ Denied r t f status vals := by
  refine ⟨_, h, done_finish (sameEdge_awake r) f status vals ?_, headOnly_finish rfl f status vals⟩
  obtain ⟨m, fs, a, b, c, hk⟩ := finish_kept r.awake f status vals
  rw [hk]; rfl

end Sys2Proof.Machine
end

section
/-!
PROOF. LOAD_IMAGE (02 R35 to R40, 22 R429, 24 R462): the words that the splitter places, the image that they make, the handle that it gets, the descriptors behind it.
-/

namespace Sys2Proof.Machine

open Sys2Proof.Safety Sys2Proof.Spec

/-! ### Entries of a folded map -/

/-- Entries written one after the other: one whose number is written with one value only holds that. -/
theorem get_foldl_set {α β : Type} [DecidableEq β] (d : β) (key : α → Nat) (val : α → β) (l : List α) (m : Map β) {x : α}
    (hx : x ∈ l) (h : ∀ y ∈ l, key y = key x → val y = val x) :
    get d (l.foldl (fun m y => set d m (key y) (val y)) m) (key x) = val x := by
  have hkeep : ∀ (l : List α) (m : Map β), (∀ y ∈ l, key y = key x → val y = val x) → get d m (key x) = val x →
      get d (l.foldl (fun m y => set d m (key y) (val y)) m) (key x) = val x := by
    intro l
    induction l with
    | nil => exact fun _ _ h0 => h0
    | cons y l ih =>
      intro m hl h0
      refine ih _ (fun z hz => hl z (List.mem_cons_of_mem _ hz)) ?_
      rw [get_set]
      split
      · exact hl y List.mem_cons_self (Eq.symm ‹_›)
      · exact h0
  induction l generalizing m with
  | nil => simp at hx
  | cons y l ih =>
    rcases List.mem_cons.mp hx with rfl | hx
    · exact hkeep l _ (fun z hz => h z (List.mem_cons_of_mem _ hz)) (get_set_self _ _ _ _)
    · exact ih _ hx (fun z hz => h z (List.mem_cons_of_mem _ hz))

/-! ### The splitter (02 R36, R37) -/

/-- The words before word `i` that go to engine `e`. -/
def wordsBefore (ws : List Nat) (e i : Nat) : Nat := ((List.range i).filter (fun j => decide (engineAt ws j = e))).length

/-- Word `i` of a stream as R36 and R37 place it. -/
def placedAt (ws : List Nat) (i : Nat) : Placed :=
  { idx := i, eng := engineAt ws i, addr := wordsBefore ws (engineAt ws i) i, word := ws.getD i 0, tagged := literalAt ws i }

theorem wordsBefore_succ (ws : List Nat) (e i : Nat) :
    wordsBefore ws e (i + 1) = wordsBefore ws e i + if engineAt ws i = e then 1 else 0 := by
  unfold wordsBefore
  rw [List.range_succ, List.filter_append, List.length_append]
  by_cases h : engineAt ws i = e <;> simp [h]

theorem wordsBefore_eq_count (ws : List Nat) (e i : Nat) : wordsBefore ws e i = Nat.count (fun j => engineAt ws j = e) i := by
  induction i with
  | zero => rfl
  | succ i ih => rw [wordsBefore_succ, Nat.count_succ, ih]

/-- The literal expected behind the first `i` words: its engine is that of its opcode word. -/
def literalDue (ws : List Nat) (i : Nat) : Option Nat := if literalAt ws i then some (engineAt ws (i - 1)) else none

/-- The engine of a word is the one that the splitter has in hand. -/
theorem literalDue_getD (ws : List Nat) (i : Nat) : (literalDue ws i).getD (fld (ws.getD i 0) 29 3) = engineAt ws i := by
  unfold literalDue
  cases h : literalAt ws i
  · simp [engineAt, h]
  · cases i with
    | zero => simp [literalAt] at h
    | succ i =>
      have hi : literalAt ws i = false := by
        simp only [literalAt, Bool.and_eq_true, Bool.not_eq_true'] at h; exact h.1
      simp [engineAt, h, hi]

theorem literalDue_isSome (ws : List Nat) (i : Nat) : (literalDue ws i).isSome = literalAt ws i := by
  unfold literalDue; cases literalAt ws i <;> rfl

theorem literalDue_succ (ws : List Nat) (i : Nat) :
    literalDue ws (i + 1) = if (literalDue ws i).isNone ∧ takesLiteral (ws.getD i 0) then some (engineAt ws i) else none := by
  have hn : (literalDue ws i).isNone = !literalAt ws i := by rw [← literalDue_isSome]; cases literalDue ws i <;> rfl
  rw [hn, literalDue, literalAt]
  cases literalAt ws i <;> cases takesLiteral (ws.getD i 0) <;> rfl

/-- The splitter places the words that are left as R36 and R37 say, when it has the counts of those before and the literal that is due. -/
theorem split_eq_range' (ws : List Nat) (rest : List Nat) (i : Nat) (m : Map Nat) (hrest : ws.drop i = rest)
    (hm : ∀ e, get 0 m e = wordsBefore ws e i) :
    split m (literalDue ws i) i rest = (List.range' i rest.length).map (placedAt ws) := by
  induction rest generalizing i m with
  | nil => rfl
  | cons w rest ih =>
    have hw : ws.getD i 0 = w := by rw [List.getD_eq_getElem?_getD, ← List.head?_drop, hrest]; rfl
    have hnext : ws.drop (i + 1) = rest := by rw [← List.tail_drop, hrest]; rfl
    have heng : (literalDue ws i).getD (fld w 29 3) = engineAt ws i := hw ▸ literalDue_getD ws i
    have hlit : (if (literalDue ws i).isNone ∧ takesLiteral w then some (engineAt ws i) else none) = literalDue ws (i + 1) := by
      rw [literalDue_succ, hw]
    have hcount : ∀ e, get 0 (set 0 m (engineAt ws i) (get 0 m (engineAt ws i) + 1)) e = wordsBefore ws e (i + 1) := by
      intro e
      rw [get_set, wordsBefore_succ, hm]
      by_cases h : e = engineAt ws i
      · simp [h]
      · simp [h, Ne.symm h, hm]
    simp only [split, heng, hlit, ih (i + 1) _ hnext hcount, List.length_cons, List.range'_succ, List.map_cons]
    rw [hm, ← hw, literalDue_isSome]; rfl

theorem split_eq (ws : List Nat) : split [] none 0 ws = (List.range ws.length).map (placedAt ws) := by
  rw [List.range_eq_range']
  exact split_eq_range' ws ws 0 [] rfl (fun _ => rfl)

/-! ### What an image without a fault is -/

theorem firstBad_eq_none {ws : List Placed} {f : Placed → Bool} (h : firstBad ws f = none) : ∀ x ∈ ws, f x = false := by
  simpa [firstBad] using h

/-- An image that passes the checks of R40 has a good header, and its words fit their engines' memories. -/
theorem of_imageFault_none {bs : List Byte} {ws : List Placed} (h : imageFault bs ws = none) :
    badHeader bs = false ∧ ∀ x ∈ ws, x.addr < 2 ^ addrWidth x.eng := by
  have hrest : imageFault.rest bs ws = none → ∀ x ∈ ws, x.addr < 2 ^ addrWidth x.eng := by
    intro hr
    unfold imageFault.rest at hr
    split at hr
    · cases hr
    · rename_i hn
      intro x hx
      simpa using firstBad_eq_none hn x hx
  unfold imageFault at h
  split at h
  · cases h
  · rename_i hb
    refine ⟨by simpa using hb, ?_⟩
    simp only at h
    split at h
    · cases h
    · split at h
      · cases h
      · split at h
        · split at h
          · cases h
          · exact hrest h
        · exact hrest h

theorem two_pow_addrWidth_le (e : Nat) : 2 ^ addrWidth e ≤ 8192 := by
  unfold addrWidth; split <;> decide

/-- Two words at one place of the instruction memories are one word. -/
theorem eq_of_place_eq {ws : List Nat} {i j : Nat} (hi : (placedAt ws i).addr < 8192) (hj : (placedAt ws j).addr < 8192)
    (h : 8192 * (placedAt ws j).eng + (placedAt ws j).addr = 8192 * (placedAt ws i).eng + (placedAt ws i).addr) : j = i := by
  have heng : engineAt ws j = engineAt ws i := by
    show (placedAt ws j).eng = (placedAt ws i).eng
    omega
  have haddr : wordsBefore ws (engineAt ws j) j = wordsBefore ws (engineAt ws i) i := by
    show (placedAt ws j).addr = (placedAt ws i).addr
    omega
  rw [heng, wordsBefore_eq_count, wordsBefore_eq_count] at haddr
  exact Nat.count_injective (p := fun k => engineAt ws k = engineAt ws i) heng rfl haddr

/-- The words of an image whose addresses fit stand at their places. -/
theorem wordsPlaced_imageOf (p : Nat) (bs : List Byte) (ws : List Nat)
    (h : ∀ x ∈ split [] none 0 ws, x.addr < 2 ^ addrWidth x.eng) : WordsPlaced (imageOf p bs (split [] none 0 ws)) ws := by
  intro i w hw
  rw [split_eq] at h ⊢
  have hi : i < ws.length := (List.getElem?_eq_some_iff.mp hw).1
  have hget : ws.getD i 0 = w := by rw [List.getD_eq_getElem?_getD, hw]; rfl
  have hmem : ∀ {j}, j < ws.length → placedAt ws j ∈ (List.range ws.length).map (placedAt ws) :=
    fun hj => List.mem_map_of_mem (List.mem_range.mpr hj)
  have hfit : ∀ {j}, j < ws.length → (placedAt ws j).addr < 8192 :=
    fun hj => lt_of_lt_of_le (h _ (hmem hj)) (two_pow_addrWidth_le _)
  have hplace := get_foldl_set 0 (fun x : Placed => 8192 * x.eng + x.addr)
    (fun x => BitVec.ofNat 33 (x.word + if x.tagged then 2 ^ 32 else 0)) _ [] (hmem hi) (by
      intro y hy hkey
      obtain ⟨j, hj, rfl⟩ := List.mem_map.mp hy
      rw [eq_of_place_eq (hfit hi) (hfit (List.mem_range.mp hj)) hkey])
  rw [← hget]
  exact hplace

/-- The flags of a good header name at most one of a climbable and a static image. -/
theorem flags_of_badHeader {bs : List Byte} (h : badHeader bs = false) : leAt bs 7 1 < 4 ∧ leAt bs 7 1 ≠ 3 := by
  unfold badHeader at h
  simp only [Bool.or_eq_false_iff, decide_eq_false_iff_not] at h
  omega

theorem climb_imageOf {p : Nat} {bs : List Byte} {ws : List Placed} (h : badHeader bs = false) :
    (imageOf p bs ws).climb = true ↔ leAt bs 7 1 = 1 := by
  obtain ⟨h4, h3⟩ := flags_of_badHeader h
  simp only [imageOf, decide_eq_true_eq]
  omega

theorem static_imageOf {p : Nat} {bs : List Byte} {ws : List Placed} (h : badHeader bs = false) :
    (imageOf p bs ws).static = true ↔ leAt bs 7 1 = 2 := by
  obtain ⟨h4, h3⟩ := flags_of_badHeader h
  simp only [imageOf, decide_eq_true_eq]
  omega

theorem entry_imageOf (p : Nat) (bs : List Byte) (ws : List Placed) {e : Nat} (h : e < 6) :
    (imageOf p bs ws).entry[e]? = some (BitVec.ofNat 13 (leAt bs (10 + 2 * e) 2)) := by
  simp [imageOf, h]

/-! ### The handle of a new image -/

/-- The least of some numbers, none of them 0, is one of them. -/
theorem foldl_least_mem (l : List Nat) (hne : l ≠ []) (h0 : ∀ x ∈ l, x ≠ 0) :
    l.foldl (fun m h => if m = 0 then h else min m h) 0 ∈ l := by
  have hstep : ∀ (l : List Nat) (m : Nat), m ≠ 0 → (∀ x ∈ l, x ≠ 0) →
      l.foldl (fun m h => if m = 0 then h else min m h) m ∈ m :: l := by
    intro l
    induction l with
    | nil => exact fun m _ _ => List.mem_singleton.mpr rfl
    | cons x l ih =>
      intro m hm hl
      have hx := hl x List.mem_cons_self
      have hmin := ih (min m x) (by omega) (fun y hy => hl y (List.mem_cons_of_mem _ hy))
      rw [List.foldl_cons, if_neg hm]
      rcases List.mem_cons.mp hmin with h | h
      · rcases min_choice m x with hc | hc <;> rw [h, hc] <;> simp
      · simp [h]
  obtain ⟨x, l, rfl⟩ := List.exists_cons_of_ne_nil hne
  rw [List.foldl_cons, if_pos rfl]
  exact hstep l x (h0 x List.mem_cons_self) (fun y hy => h0 y (List.mem_cons_of_mem _ hy))

/-- An entry that is not listed reads as the default. -/
theorem get_of_not_mem {α : Type} (d : α) {m : Map α} {k : Nat} (h : ∀ p ∈ m, p.1 ≠ k) : get d m k = d := by
  induction m with
  | nil => rfl
  | cons p m ih =>
    rw [get, if_neg (h p List.mem_cons_self)]
    exact ih (fun q hq => h q (List.mem_cons_of_mem _ hq))

/-- A bound of some numbers, which is one of them or the start. -/
theorem foldl_max_bound (l : List Nat) (a : Nat) :
    (a ≤ l.foldl max a ∧ ∀ x ∈ l, x ≤ l.foldl max a) ∧ (l.foldl max a = a ∨ l.foldl max a ∈ l) := by
  induction l generalizing a with
  | nil => simp
  | cons y l ih =>
    obtain ⟨⟨h1, h2⟩, h3⟩ := ih (max a y)
    rw [List.foldl_cons]
    refine ⟨⟨by omega, fun x hx => ?_⟩, ?_⟩
    · rcases List.mem_cons.mp hx with rfl | hx
      · omega
      · exact h2 x hx
    · rcases h3 with h | h
      · rcases max_choice a y with hc | hc <;> rw [h, hc] <;> simp
      · exact .inr (List.mem_cons_of_mem _ h)

/-- The number behind the last one of a map is not used. -/
theorem get_foldl_max_succ {α : Type} (d : α) (m : Map α) : get d m ((m.map Prod.fst).foldl max 0 + 1) = d := by
  refine get_of_not_mem d (fun p hp => ?_)
  have := (foldl_max_bound (m.map Prod.fst) 0).1.2 p.1 (List.mem_map_of_mem hp)
  omega

/-- Whether a handle may name a new image. -/
def State.codeUnused (s : State) (h : Nat) : Bool := decide (1 ≤ h) && decide (h < 2 ^ 64) && decide (get none s.images h = none)

theorem codeUnused_iff (s : State) (h : Nat) : s.codeUnused h = true ↔ 1 ≤ h ∧ h < 2 ^ 64 ∧ get none s.images h = none := by
  simp [State.codeUnused, and_assoc]

theorem newCode_eq (s : State) : s.newCode = if s.codeUnused (Config.freeCode s.free) then Config.freeCode s.free
    else ((1 :: s.images.map (fun x => x.1 + 1)).filter s.codeUnused).foldl (fun m h => if m = 0 then h else min m h) 0 := rfl

/-- A new image gets an unused handle, as long as one of 64 bits is left. -/
theorem newCode_unused {s : State} (h : ∀ x ∈ s.images, x.1 + 1 < 2 ^ 64) : s.codeUnused s.newCode = true := by
  rw [newCode_eq]
  split
  · assumption
  · -- the number behind the last one is a candidate
    have hcand : (s.images.map Prod.fst).foldl max 0 + 1 ∈ (1 :: s.images.map (fun x => x.1 + 1)).filter s.codeUnused := by
      have hfree := get_foldl_max_succ none s.images
      rcases (foldl_max_bound (s.images.map Prod.fst) 0).2 with h0 | hmem
      · rw [h0] at hfree ⊢
        exact List.mem_filter.mpr ⟨List.mem_cons_self, (codeUnused_iff s 1).mpr ⟨le_refl 1, by decide, hfree⟩⟩
      · obtain ⟨x, hx, hmax⟩ := List.mem_map.mp hmem
        rw [← hmax] at hfree ⊢
        exact List.mem_filter.mpr ⟨List.mem_cons_of_mem _ (List.mem_map.mpr ⟨x, hx, rfl⟩),
          (codeUnused_iff s _).mpr ⟨by omega, h x hx, hfree⟩⟩
    refine (List.mem_filter.mp (foldl_least_mem _ (List.ne_nil_of_mem hcand) fun x hx => ?_)).2
    have := ((codeUnused_iff s x).mp (List.mem_filter.mp hx).2).1
    omega

/-! ### The descriptors behind an image -/

theorem makeView_awake (s : State) (h : Nat) (v : View) : s.awake.makeView h v = (s.makeView h v).awake := rfl

theorem addTensor_awake (s : State) (t : Tensor) (h : Nat) (w : Holder) : s.awake.addTensor t h w = (s.addTensor t h w).awake := rfl

theorem formOf_awake (s : State) (h : Nat) : s.awake.formOf h = s.formOf h := rfl

theorem createTensor_awake (s : State) (p : Nat) (bs : List Byte) :
    s.awake.createTensor p bs = (s.createTensor p bs).map (fun x => (x.1.awake, x.2)) := by
  have hf : s.awake.tensorFault bs (tensorOf p bs) = s.tensorFault bs (tensorOf p bs) := rfl
  have ht : s.awake.takeHandle p = s.takeHandle p := rfl
  unfold State.createTensor
  simp only [hf, ht, addTensor_awake, formOf_awake]
  cases s.tensorFault bs (tensorOf p bs) with
  | some st => rfl
  | none =>
    cases s.takeHandle p with
    | none => rfl
    | some h => rfl

theorem loadTensors_zero (s : State) (p a : Nat) : s.loadTensors p a 0 = (s, none) := by
  delta State.loadTensors; rfl

theorem loadTensors_succ (s : State) (p a n : Nat) : s.loadTensors p a (n + 1) = match s.createTensor p (s.hostGet a 128) with
    | .error st => (s, some st)
    | .ok (s1, _, form) => (s1.hostPut (a + 124) (leBytes 4 form.toNat)).loadTensors p (a + 128) n := by
  delta State.loadTensors; rfl

theorem loadTensors_of_error {s : State} {p a : Nat} (n : Nat) {st : Nat} (h : s.createTensor p (s.hostGet a 128) = .error st) :
    s.loadTensors p a (n + 1) = (s, some st) := by
  rw [loadTensors_succ, h]

theorem loadTensors_of_ok {s : State} {p a : Nat} (n : Nat) {x : State × Tensor × Word} (h : s.createTensor p (s.hostGet a 128) = .ok x) :
    s.loadTensors p a (n + 1) = (x.1.hostPut (a + 124) (leBytes 4 x.2.2.toNat)).loadTensors p (a + 128) n := by
  rw [loadTensors_succ, h]

/-- The descriptors behind an image do not depend on the power level. -/
theorem loadTensors_awake {s r : State} {p a n : Nat} {st : Option Nat} (h : s.loadTensors p a n = (r, st)) :
    s.awake.loadTensors p a n = (r.awake, st) := by
  induction n generalizing s a with
  | zero =>
    rw [loadTensors_zero] at h ⊢
    cases h; rfl
  | succ n ih =>
    have hawake := createTensor_awake s p (s.awake.hostGet a 128)
    cases hc : s.createTensor p (s.hostGet a 128) with
    | error e =>
      rw [loadTensors_of_error n hc] at h
      cases h
      exact loadTensors_of_error n (hawake.trans (congrArg (Except.map _) hc))
    | ok x =>
      rw [loadTensors_of_ok n hc] at h
      rw [loadTensors_of_ok n (hawake.trans (congrArg (Except.map _) hc))]
      exact ih h

end Sys2Proof.Machine
end

section
namespace Sys2Proof.Machine

open Sys2Proof.Safety Sys2Proof.Spec

/-! ### The effect of LOAD_IMAGE -/

theorem drop_rdBytes (m : List Host.Cell) (a n i : Nat) : (rdBytes m a n).drop i = rdBytes m (a + i) (n - i) := by
  induction i generalizing a n with
  | zero => rfl
  | succ i ih =>
    cases n with
    | zero => simp [rdBytes]
    | succ n => rw [rdBytes, List.drop_succ_cons, ih, Nat.add_right_comm, Nat.add_assoc, Nat.succ_sub_succ]

theorem take_rdBytes (m : List Host.Cell) (a n i : Nat) (h : i ≤ n) : (rdBytes m a n).take i = rdBytes m a i := by
  induction i generalizing a n with
  | zero => rfl
  | succ i ih =>
    cases n with
    | zero => omega
    | succ n => rw [rdBytes, List.take_succ_cons, ih _ _ (by omega), rdBytes]

/-- A field of bytes of memory is read at its own address. -/
theorem leAt_rdBytes (m : List Host.Cell) (a n lo k : Nat) (h : lo + k ≤ n) :
    leAt (rdBytes m a n) lo k = leNat (rdBytes m (a + lo) k) := by
  rw [leAt, drop_rdBytes, take_rdBytes _ _ _ _ (by omega)]

/-- The header of the image that a command names. -/
def State.imageHeader (s : State) (m : MCmd) : List Byte := s.hostGet m.arg 64

/-- The words of its stream. -/
def State.imageWords (s : State) (m : MCmd) : List Nat :=
  (List.range (leAt (s.imageHeader m) 28 4)).map (fun i => leNat (rdBytes s.mem (hostAddr (m.arg + 64) + 4 * i) 4))

/-- The address of the argument record of its descriptors, behind the stream. -/
def State.behindImage (s : State) (m : MCmd) : Nat := m.arg + 64 + 4 * leAt (s.imageHeader m) 28 4

/-- What the descriptors behind an image come to. -/
def State.loadBehind (s : State) (f : Nat) (m : MCmd) : State × Option Nat :=
  s.loadTensors (s.fnPart f) (s.behindImage m + 4) (leNat (s.hostGet (s.behindImage m) 4))

/-- The words of a stream are those that the loader reads. -/
theorem imageWords_eq (s : State) (m : MCmd) :
    (List.range (leAt (s.hostGet m.arg 64) 28 4)).map (fun i => leAt (s.hostGet (m.arg + 64) (4 * leAt (s.hostGet m.arg 64) 28 4)) (4 * i) 4)
      = s.imageWords m := by
  refine List.map_congr_left fun i hi => leAt_rdBytes _ _ _ _ _ ?_
  have := List.mem_range.mp hi
  omega

section
variable {s : State} {f : Nat} {m : MCmd}

theorem loadImage_of_fault {st loc : Nat} (h : imageFault (s.imageHeader m) (split [] none 0 (s.imageWords m)) = some (st, loc)) :
    s.loadImage f m = s.finish f st (leBytes 4 loc) := by
  unfold State.loadImage
  simp only [imageWords_eq]
  unfold State.imageHeader at h
  rw [h]

theorem loadImage_of_tensors {s1 : State} {st : Nat}
    (h : imageFault (s.imageHeader m) (split [] none 0 (s.imageWords m)) = none) (ht : s.loadBehind f m = (s1, some st)) :
    s.loadImage f m = s1.finish f st := by
  unfold State.loadImage
  simp only [imageWords_eq]
  unfold State.loadBehind State.behindImage at ht
  unfold State.imageHeader at h ht
  rw [h]
  simp only [ht]

/-- The state in which an image is stored under a new handle. -/
def State.addImage (s : State) (im : Image) : State :=
  { s with images := set none s.images s.newCode (some im), free := s.free + 1 }

theorem loadImage_of_ok {s1 : State}
    (h : imageFault (s.imageHeader m) (split [] none 0 (s.imageWords m)) = none) (ht : s.loadBehind f m = (s1, none)) :
    s.loadImage f m = (s1.addImage (imageOf (s1.fnPart f) (s.imageHeader m) (split [] none 0 (s.imageWords m)))).finish f 0
      (leBytes 8 s1.newCode ++ leBytes 2 (leAt (s.imageHeader m) 8 2)) := by
  unfold State.loadImage
  simp only [imageWords_eq]
  unfold State.loadBehind State.behindImage at ht
  unfold State.imageHeader at h ht
  rw [h]
  simp only [ht]
  rfl

end

theorem exec_loadImage_ready {s : State} {f : Nat} (h : Ready s f 0x10) :
    exec (.loadImage f) s = .next (s.awake.loadImage f (headCmd s f)) := by
  rw [exec_loadImage, execLoadImage, command_ready h rfl]

/-- LOAD_IMAGE: the first failing check ends it. -/
theorem loadImage_refuses {s : State} {f st loc : Nat} (h : Ready s f 0x10)
    (hf : imageFault (s.imageHeader (headCmd s f)) (split [] none 0 (s.imageWords (headCmd s f))) = some (st, loc)) :
    ∃ t, exec (.loadImage f) s = .next t ∧ Denied s t f st (leBytes 4 loc) :=
  denied_of ((exec_loadImage_ready h).trans (congrArg _ (loadImage_of_fault (s := s.awake) hf)))

end Sys2Proof.Machine
end

section
/-!
PROOF. The commands on tensors: FREE_TENSOR, INVALIDATE, MOVE_TILE (12 R287, 14 R346, 19 R379).
-/

namespace Sys2Proof.Machine

open Sys2Proof.Safety Sys2Proof.Spec

/-! ### The tensor that a command names -/

theorem withTensor_none {s : State} {tid : Nat} (f : Nat) (act : Tensor → State) (h : s.tensor tid = none) :
    s.withTensor f tid act = s.finish f 0x0502 := by
  simp only [State.withTensor, h]

theorem withTensor_other {s : State} {f tid : Nat} {y : Tensor} (act : Tensor → State) (h : s.tensor tid = some y)
    (hp : y.part ≠ s.fnPart f) : s.withTensor f tid act = s.finish f 0x0508 := by
  simp only [State.withTensor, h, hp, ne_eq, not_false_eq_true, if_true]

theorem withTensor_own {s : State} {f tid : Nat} {y : Tensor} (act : Tensor → State) (h : s.tensor tid = some y)
    (hp : y.part = s.fnPart f) : s.withTensor f tid act = act y := by
  simp only [State.withTensor, h, hp, ne_eq, not_true_eq_false, if_false]

/-- A command on a tensor, with what it does to one of the function's partition. -/
theorem exec_withTensor {s : State} {f op : Nat} {i : Instr}
    (hi : i = .freeTensor f ∧ op = 0x12 ∨ (∃ lo n, i = .invalidate f lo n) ∧ op = 0x13 ∨ (∃ n a b, i = .moveTile f n a b) ∧ op = 0x14
      ∨ i = .destroyCrossing f ∧ op = 0x16) (h : Ready s f op) :
    ∃ act, exec i s = .next (s.awake.withTensor f (headCmd s f).target act) := by
  rcases hi with ⟨rfl, rfl⟩ | ⟨⟨lo, n, rfl⟩, rfl⟩ | ⟨⟨n, a, b, rfl⟩, rfl⟩ | ⟨rfl, rfl⟩
  · exact ⟨_, (exec_freeTensor ..).trans (command_ready h rfl _)⟩
  · exact ⟨_, (exec_invalidate ..).trans (command_ready h rfl _)⟩
  · exact ⟨_, (exec_moveTile ..).trans (command_ready h rfl _)⟩
  · exact ⟨_, (exec_destroyCrossing ..).trans (command_ready h rfl _)⟩

/-! ### Views that are freed -/

theorem used_freeView (s : State) (h k : Nat) :
    (get {} (s.freeView h).views k : View).used = (decide (k ≠ h) && (get {} s.views k : View).used) := by
  show (get {} (set {} s.views h _) k : View).used = _
  rw [get_set]
  by_cases hk : k = h <;> simp [hk]

theorem foldl_freeView_kept (hs : List Nat) (s : State) : ∃ vs, hs.foldl State.freeView s = { s with views := vs } :=
  List.foldlRecOn hs State.freeView (motive := fun r : State => ∃ vs, r = { s with views := vs }) ⟨s.views, rfl⟩
    (fun _ ⟨_, hr⟩ _ _ => hr ▸ ⟨_, rfl⟩)

/-- Of the views, those freed are no longer in use, and the others are as they were. -/
theorem used_foldl_freeView (hs : List Nat) (s : State) (k : Nat) :
    (get {} (hs.foldl State.freeView s).views k : View).used = (decide (k ∉ hs) && (get {} s.views k : View).used) := by
  induction hs generalizing s with
  | nil => simp
  | cons h hs ih =>
    rw [List.foldl_cons, ih, used_freeView]
    by_cases hk : k = h <;> by_cases hm : k ∈ hs <;> simp [hk, hm]

theorem noteUncov_kept (s r : State) (tid : Nat) : ∃ us, s.noteUncov r tid = { r with uncovs := us } := by
  unfold State.noteUncov
  split
  · exact ⟨r.uncovs, rfl⟩
  · simp only
    split
    · exact ⟨r.uncovs, rfl⟩
    · exact ⟨_, rfl⟩

theorem slotCheck_kept (s : State) (tid : Nat) : ∃ cs, s.slotCheck tid = { s with crossings := cs } := by
  unfold State.slotCheck
  split
  · exact ⟨s.crossings, rfl⟩
  · exact ⟨_, rfl⟩

/-- Dropping views changes, beside the views, what has been uncovered and the Crossings at most. -/
theorem dropViews_kept (s : State) (hs : List Nat) :
    ∃ us cs, s.dropViews hs = { s with views := (hs.foldl State.freeView s).views, uncovs := us, crossings := cs } := by
  obtain ⟨vs, hv⟩ := foldl_freeView_kept hs s
  unfold State.dropViews
  rw [hv]
  refine List.foldlRecOn _ _ (motive := fun r : State => ∃ us cs, r = { s with views := vs, uncovs := us, crossings := cs })
    ⟨s.uncovs, s.crossings, rfl⟩ ?_
  rintro _ ⟨us, cs, rfl⟩ tid -
  obtain ⟨us', hu⟩ := noteUncov_kept s { s with views := vs, uncovs := us, crossings := cs } tid
  obtain ⟨cs', hc⟩ := slotCheck_kept { s with views := vs, uncovs := us', crossings := cs } tid
  exact ⟨us', cs', by rw [hu]; exact hc⟩

/-- An entry that does not read as the default is listed. -/
theorem mem_of_get_ne {α : Type} {d : α} {m : Map α} {k : Nat} (h : get d m k ≠ d) : (k, get d m k) ∈ m := by
  induction m with
  | nil => exact absurd rfl h
  | cons p m ih =>
    obtain ⟨i, v⟩ := p
    by_cases hk : i = k
    · subst hk; simp [get]
    · simp only [get, hk, if_false] at h ⊢
      exact List.mem_cons_of_mem _ (ih h)

/-- A view in use on a tensor is among the views of that tensor. -/
theorem mem_viewsOn {s : State} {tid h : Nat} (hu : (get {} s.views h : View).used = true) (ht : (get {} s.views h : View).tid = tid) :
    h ∈ s.viewsOn tid := by
  have hne : (get {} s.views h : View) ≠ {} := fun e => by rw [e] at hu; cases hu
  exact List.mem_map.mpr ⟨_, List.mem_filter.mpr ⟨mem_of_get_ne hne, by rw [hu, ht, decide_eq_true rfl]; rfl⟩, rfl⟩

/-! ### A tensor freed -/

theorem toScrub_kept (s : State) (t : Tensor) (e : Tile) (slot : Option (Nat × Nat)) :
    ∃ fr sc, s.toScrub t e slot = { s with frames := fr, scrubs := sc } := by
  unfold State.toScrub
  split
  · exact ⟨s.frames, s.scrubs, rfl⟩
  · exact ⟨_, _, rfl⟩

/-- A tensor deleted is gone; its frames go to the scrub, its tiles leave the buffers. -/
theorem deleteTensor_kept (s : State) (t : Tensor) : ∃ fr sc us,
    s.deleteTensor t = { s with frames := fr, scrubs := sc, units := us, tensors := set none s.tensors t.id none } := by
  have hfold : ∀ l : List (Nat × Tile), ∃ fr sc, l.foldl (fun s (p : Nat × Tile) =>
      if s.frames.any (fun g => decide (g.tier = p.2.tier.toNat) && decide (g.stack = p.2.stack.toNat) && decide (g.fsz = t.fsz) && decide (g.base = p.2.fbase.toNat))
      then s.toScrub t p.2 none else s) s = { s with frames := fr, scrubs := sc } := by
    intro l
    refine List.foldlRecOn l _ (motive := fun r : State => ∃ fr sc, r = { s with frames := fr, scrubs := sc }) ⟨s.frames, s.scrubs, rfl⟩ ?_
    rintro _ ⟨fr, sc, rfl⟩ p -
    split
    · obtain ⟨fr', sc', h⟩ := toScrub_kept { s with frames := fr, scrubs := sc } t p.2 none
      exact ⟨fr', sc', h⟩
    · exact ⟨fr, sc, rfl⟩
  obtain ⟨fr, sc, h⟩ := hfold t.tiles
  unfold State.deleteTensor
  rw [h]
  exact ⟨fr, sc, _, rfl⟩

/-- The tensors of a state in which `tn` stand after tensor `y` has been freed (14 R346). -/
structure FreedIn (s : State) (y : Tensor) (tn : Map (Option Tensor)) : Prop where
  self   : get none tn y.id = if y.covered then some y else if s.tensorBusy y.id then some { y with freed := true } else none
  others : ∀ i, i ≠ y.id → get none tn i = s.tensor i

/-- Freeing a tensor drops its views and takes it out of the tensors, marks it, or leaves it to the elision. -/
theorem freeTensor_kept {s : State} {y : Tensor} (hy : s.tensor y.id = some y) : ∃ cs fr sc un us tn,
    s.freeTensor y = { s with views := ((s.viewsOn y.id).foldl State.freeView s).views, uncovs := un, crossings := cs
                              frames := fr, scrubs := sc, units := us, tensors := tn } ∧ FreedIn s y tn := by
  obtain ⟨un, cs, hd⟩ := dropViews_kept s (s.viewsOn y.id)
  unfold State.freeTensor
  by_cases hc : y.covered = true
  · refine ⟨cs, s.frames, s.scrubs, un, s.units, s.tensors, ?_, by rw [if_pos hc]; exact hy, fun i _ => rfl⟩
    rw [if_pos hc, hd]
  · by_cases hb : s.tensorBusy y.id = true
    · refine ⟨cs, s.frames, s.scrubs, un, s.units, set none s.tensors y.id ((s.tensor y.id).map (fun t => { t with freed := true })),
        ?_, ?_, fun i hi => get_set_other _ _ _ hi⟩
      · rw [if_neg hc, if_pos hb, hd]; rfl
      · rw [get_set_self, if_neg hc, if_pos hb, hy]; rfl
    · obtain ⟨fr, sc, us, h⟩ := deleteTensor_kept (s.dropViews (s.viewsOn y.id)) y
      refine ⟨cs, fr, sc, un, us, set none s.tensors y.id none, ?_, ?_, fun i hi => get_set_other _ _ _ hi⟩
      · rw [if_neg hc, if_neg hb, h, hd]
      · rw [get_set_self, if_neg hc, if_neg hb]

/-- A unit whose buffer has lost the translations of tiles `lo` to `lo + n - 1` of a tensor (12 R287). -/
def Core.forgetTiles (c : Core) (tid lo n : Nat) : Core :=
  { c with ttb := c.ttb.filter (fun x => !(decide (x.tid = tid) && decide (lo ≤ x.tile) && decide (x.tile < lo + n))) }

theorem mem_ttb_forgetTiles (c : Core) (tid lo n : Nat) (x : Ttb) :
    x ∈ (c.forgetTiles tid lo n).ttb ↔ x ∈ c.ttb ∧ ¬ (x.tid = tid ∧ lo ≤ x.tile ∧ x.tile < lo + n) := by
  simp [Core.forgetTiles, imp_iff_not_or, or_assoc]

/-- The units whose buffers have all lost them. -/
theorem get_forgetTiles (us : Map Core) (tid lo n u : Nat) :
    get {} (us.map (fun p => (p.1, p.2.forgetTiles tid lo n))) u = (get {} us u : Core).forgetTiles tid lo n :=
  get_map_snd {} (fun c => c.forgetTiles tid lo n) rfl us u

section
variable {s : State} {f : Nat} {y : Tensor}

theorem exec_freeTensor_own (h : Ready s f 0x12) (hy : s.tensor (headCmd s f).target = some y) (hp : y.part = s.fnPart f) :
    exec (.freeTensor f) s = .next (if y.version.isSome ∨ (s.slotOf y.id 0).isSome then s.awake.finish f 0x0508
      else (s.awake.freeTensor y).finish f 0) :=
  ((exec_freeTensor f s).trans (command_ready h rfl _)).trans (congrArg _ (withTensor_own (s := s.awake) _ hy hp))

theorem exec_invalidate_own {lo n : Nat} (h : Ready s f 0x13) (hy : s.tensor (headCmd s f).target = some y) (hp : y.part = s.fnPart f) :
    exec (.invalidate f lo n) s
      = .next (({ s.awake with units := s.units.map (fun p => (p.1, p.2.forgetTiles y.id lo n)) } : State).finish f 0) :=
  ((exec_invalidate f lo n s).trans (command_ready h rfl _)).trans (congrArg _ (withTensor_own (s := s.awake) _ hy hp))

theorem exec_moveTile_own {n tier stack : Nat} (h : Ready s f 0x14) (hy : s.tensor (headCmd s f).target = some y) (hp : y.part = s.fnPart f) :
    exec (.moveTile f n tier stack) s
      = .next (if 3 ≤ tier ∨ stacksOf tier ≤ stack ∨ y.tiled = false ∨ y.tileCount ≤ n then s.awake.finish f 0x0502
          else (s.awake.askMove { tid := y.id, tile := n, tier := tier, stack := stack, part := y.part }).finish f 0) :=
  ((exec_moveTile f n tier stack s).trans (command_ready h rfl _)).trans (congrArg _ (withTensor_own (s := s.awake) _ hy hp))

end

/-! ### A move asked for -/

/-- A move that has been asked for stands at a die, and nothing but the dies has changed. -/
theorem askMove_kept (s : State) (m : PMove) : ∃ ds, s.askMove m = { s with dies := ds } ∧
    ∃ x ∈ (s.askMove m).moves_, x.tid = m.tid ∧ x.tile = m.tile ∧ x.tier = m.tier ∧ x.stack = m.stack := by
  unfold State.askMove
  split
  · rename_i h
    obtain ⟨x, hx, hm⟩ := List.any_eq_true.mp h
    refine ⟨s.dies, rfl, x, hx, ?_⟩
    simpa [PMove.sameMove, PMove.sameTile, and_assoc] using hm
  · refine ⟨_, rfl, m, ?_, rfl, rfl, rfl, rfl⟩
    generalize s.homeOf m.tid = d
    have hd : get {} (s.onDie d (fun x => { x with moves := x.moves ++ [m] })).dies d
        = { s.die d with moves := (s.die d).moves ++ [m] } := get_set_self _ _ _ _
    have hne : get {} (s.onDie d (fun x => { x with moves := x.moves ++ [m] })).dies d ≠ {} := fun h => by
      have := congrArg Die.moves (hd.symm.trans h)
      simp at this
    refine List.mem_flatMap.mpr ⟨_, mem_of_get_ne hne, ?_⟩
    rw [hd]
    exact List.mem_append_right _ List.mem_cons_self

theorem stacksOf_eq {tier : Nat} (h : tier < 3) : stacksOf tier = if tier = 0 then 8 else 24 := by
  have h3 : tier ≠ 3 := by omega
  simp [stacksOf, h3]

end Sys2Proof.Machine
end

section
/-!
PROOF. ALLOC_TENSOR (12 R280, R281; 14 R325, R337; 16 R352): the descriptor and its root view.
-/

namespace Sys2Proof.Machine

open Sys2Proof.Safety Sys2Proof.Spec

/-- A field of `n` bytes keeps a value modulo 256 to the power `n`. -/
theorem leBytes_mod (n v : Nat) : leBytes n (v % 256 ^ n) = leBytes n v := by
  induction n generalizing v with
  | zero => rfl
  | succ n ih =>
    have hlow : BitVec.ofNat 8 (v % 256 ^ (n + 1)) = BitVec.ofNat 8 v := by
      apply BitVec.eq_of_toNat_eq
      rw [BitVec.toNat_ofNat, BitVec.toNat_ofNat]
      exact Nat.mod_mod_of_dvd v (Dvd.intro_left (256 ^ n) rfl)
    have hhigh : v % 256 ^ (n + 1) / 256 = v / 256 % 256 ^ n := by
      rw [Nat.pow_succ', Nat.mod_mul_right_div_self]
    rw [leBytes, leBytes, hlow, hhigh, ih]

/-! ### The descriptor -/

/-- A new descriptor is `y` with its tiles and the stage-2 entries that the buffers hold locked (12 R286, 16 R352). -/
theorem lock_fresh_kept (s : State) (y : Tensor) :
    ∃ l, s.lock y.fresh = { y with tiles := y.fresh.tiles, locked := l } := by
  have hf : y.fresh = { y with tiles := y.fresh.tiles, locked := y.locked } := by
    unfold Tensor.fresh; split <;> rfl
  unfold State.lock
  split
  · exact ⟨y.locked, hf⟩
  · exact ⟨_, by rw [hf]⟩

theorem tiles_fresh_plain {y : Tensor} (h : y.covered = false) : y.fresh.tiles = y.tiles := by
  simp [Tensor.fresh, h]

/-- Entry `i` of a list numbered from 0. -/
theorem get_numbered {α : Type} (d : α) (g : Nat → α) (n i : Nat) (h : i < n) :
    get d ((List.range n).map (fun k => (k, g k))) i = g i := by
  have hfrom : ∀ (n a : Nat), a ≤ i → i < a + n → get d ((List.range' a n).map (fun k => (k, g k))) i = g i := by
    intro n
    induction n with
    | zero => intro a h1 h2; omega
    | succ n ih =>
      intro a h1 h2
      rw [List.range'_succ, List.map_cons, get]
      split
      · rename_i ha; rw [ha]
      · exact ih (a + 1) (by omega) (by omega)
  rw [List.range_eq_range']
  exact hfrom n 0 (Nat.zero_le _) (by omega)

theorem tile_fresh_covered {y : Tensor} {n : Nat} (h : y.covered = true) (hn : n < y.tileCount) :
    get {} y.fresh.tiles n = ({ cov := 1 } : Tile) := by
  rw [Tensor.fresh, if_pos h]
  exact get_numbered {} (fun _ => ({ cov := 1 } : Tile)) y.tileCount n hn

/-- The frames of a DIRECT tensor stand locked with their stage-2 entries. -/
theorem get_locked (s : State) {t : Tensor} {i : Nat} (ht : t.tiled = false) (h2 : stage2On t.part = true)
    (hlo : t.tbase % 2 ^ 36 / frameBytes t.fsz ≤ i) (hhi : i ≤ (t.tbase % 2 ^ 36 + t.windowBytes - 1) / frameBytes t.fsz) :
    get {} (s.lock t).locked (s2Key t.part t.fsz i) = get {} s.stage2 (s2Key t.part t.fsz i) := by
  have hne : ¬ (t.tiled = true ∨ stage2On t.part = false) := by simp [ht, h2]
  rw [State.lock, if_neg hne]
  have hget := get_foldl_set {} (fun k => s2Key t.part t.fsz (t.tbase % 2 ^ 36 / frameBytes t.fsz + k))
    (fun k => get {} s.stage2 (s2Key t.part t.fsz (t.tbase % 2 ^ 36 / frameBytes t.fsz + k)))
    (List.range ((t.tbase % 2 ^ 36 + t.windowBytes - 1) / frameBytes t.fsz - t.tbase % 2 ^ 36 / frameBytes t.fsz + 1)) []
    (x := i - t.tbase % 2 ^ 36 / frameBytes t.fsz) (List.mem_range.mpr (by omega)) (fun k _ hk => by simp only [hk])
  rw [Nat.add_sub_cancel' hlo] at hget
  exact hget

theorem fresh_fields (y : Tensor) : y.fresh.tiled = y.tiled ∧ y.fresh.part = y.part ∧ y.fresh.fsz = y.fsz ∧ y.fresh.tbase = y.tbase
    ∧ y.fresh.windowBytes = y.windowBytes := by
  unfold Tensor.fresh
  split <;> exact ⟨rfl, rfl, rfl, rfl, rfl⟩

theorem get_locked_fresh (s : State) {y : Tensor} {i : Nat} (ht : y.tiled = false) (h2 : stage2On y.part = true)
    (hlo : y.tbase % 2 ^ 36 / frameBytes y.fsz ≤ i) (hhi : i ≤ (y.tbase % 2 ^ 36 + y.windowBytes - 1) / frameBytes y.fsz) :
    get {} (s.lock y.fresh).locked (s2Key y.part y.fsz i) = get {} s.stage2 (s2Key y.part y.fsz i) := by
  obtain ⟨htiled, hpart, hfsz, hbase, hwin⟩ := fresh_fields y
  have hget := get_locked s (t := y.fresh) (i := i)
  rw [htiled, hpart, hfsz, hbase, hwin] at hget
  exact hget ht h2 hlo hhi

/-! ### The command -/

section
variable {s : State} {p : Nat} {bs : List Byte}

theorem createTensor_of_fault {st : Nat} (h : s.tensorFault bs (tensorOf p bs) = some st) : s.createTensor p bs = .error st := by
  unfold State.createTensor
  simp only [h]

theorem createTensor_of_noHandle (h : s.tensorFault bs (tensorOf p bs) = none) (hh : s.takeHandle p = none) :
    s.createTensor p bs = .error 0x0205 := by
  unfold State.createTensor
  simp only [h, hh]

theorem createTensor_of_handle {n : Nat} (h : s.tensorFault bs (tensorOf p bs) = none) (hh : s.takeHandle p = some n) :
    s.createTensor p bs = .ok (s.addTensor (tensorOf p bs).fresh n .persistent, tensorOf p bs,
      (s.addTensor (tensorOf p bs).fresh n .persistent).formOf n) := by
  unfold State.createTensor
  simp only [h, hh]

end

section
variable {s : State} {f : Nat}

theorem exec_allocTensor_of_error {st : Nat} (h : Ready s f 0x11)
    (hc : s.createTensor (s.fnPart f) (s.hostGet (headCmd s f).arg 128) = .error st) :
    exec (.allocTensor f) s = .next (s.awake.finish f st) := by
  have hc' : s.awake.createTensor (s.awake.fnPart f) (s.awake.hostGet (headCmd s f).arg 128) = .error st :=
    (createTensor_awake s _ _).trans (congrArg (Except.map _) hc)
  rw [exec_allocTensor, execAllocTensor, command_ready h rfl]
  simp only [hc']

theorem exec_allocTensor_of_ok {x : State × Tensor × Word} (h : Ready s f 0x11)
    (hc : s.createTensor (s.fnPart f) (s.hostGet (headCmd s f).arg 128) = .ok x) :
    exec (.allocTensor f) s = .next (x.1.awake.finish f 0 (leBytes 4 x.2.1.id ++ leBytes 4 x.2.2.toNat)) := by
  have hc' : s.awake.createTensor (s.awake.fnPart f) (s.awake.hostGet (headCmd s f).arg 128) = .ok (x.1.awake, x.2) :=
    (createTensor_awake s _ _).trans (congrArg (Except.map _) hc)
  rw [exec_allocTensor, execAllocTensor, command_ready h rfl]
  simp only [hc']

end

/-- The root view of a new descriptor on handle `h` (14 R325). -/
def State.rootView (s : State) (y : Tensor) (h : Nat) : View :=
  { used := true, gen := nextGen (get {} s.views h : View).gen, part := y.part, tid := y.id, box := y.whole, r := true, w := !y.ro }

theorem addTensor_eq (s : State) (y : Tensor) (h : Nat) : s.addTensor y.fresh h .persistent =
    { s with tensors := set none s.tensors y.id (some (s.lock y.fresh)), views := set {} s.views h (s.rootView y h), free := s.free + 1 } := by
  unfold Tensor.fresh; split <;> rfl

/-- The form of the root view. -/
theorem formOf_addTensor (s : State) (y : Tensor) (h : Nat) :
    leBytes 4 ((s.addTensor y.fresh h .persistent).formOf h).toNat = leBytes 4 ((s.rootView y h).gen.toNat * 2 ^ 20 + h) := by
  have hv : (get {} (s.addTensor y.fresh h .persistent).views h : View) = s.rootView y h := by
    rw [addTensor_eq]; exact get_set_self ({} : View) s.views h (s.rootView y h)
  rw [State.formOf, hv, BitVec.toNat_ofNat]
  exact leBytes_mod 4 _

end Sys2Proof.Machine
end

section
/-!
PROOF. CREATE_CROSSING and DESTROY_CROSSING (17 R363, R364): the slot views, the frames, the room in the dirty log, the table entries.
-/

namespace Sys2Proof.Machine

open Sys2Proof.Safety Sys2Proof.Spec

/-! ### The slot views -/

/-- The view of slot `i` (17 R363). -/
def slotView (p tid e rows i : Nat) : View :=
  { part := p, tid := tid, box := { lo := [0, i * rows, 0, 0, 0, 0], hi := [e, (i + 1) * rows, 1, 1, 1, 1] }, holder := .system }

theorem slotViews_succ (s : State) (p tid e rows i n : Nat) : s.slotViews p tid e rows i (n + 1)
    = (s.takeHandle p).bind (fun h => ((s.makeView h (slotView p tid e rows i)).slotViews p tid e rows (i + 1) n).map (fun x => (x.1, h :: x.2))) := by
  rw [State.slotViews]
  cases s.takeHandle p <;> rfl

/-- The slot views do not depend on the power level. -/
theorem slotViews_awake (s : State) (p tid e rows i n : Nat) :
    s.awake.slotViews p tid e rows i n = (s.slotViews p tid e rows i n).map (fun x => (x.1.awake, x.2)) := by
  induction n generalizing s i with
  | zero => rfl
  | succ n ih =>
    have ht : s.awake.takeHandle p = s.takeHandle p := rfl
    rw [slotViews_succ, slotViews_succ, ht]
    cases s.takeHandle p with
    | none => rfl
    | some h =>
      simp only [Option.bind_some, makeView_awake, ih, Option.map_map]
      rfl

/-- Taking slot views changes the views, and gives one handle for each. -/
theorem slotViews_kept {s r : State} {p tid e rows i n : Nat} {hs : List Nat} (h : s.slotViews p tid e rows i n = some (r, hs)) :
    (∃ vs k, r = { s with views := vs, free := k }) ∧ hs.length = n := by
  induction n generalizing s i hs with
  | zero => cases h; exact ⟨⟨r.views, r.free, rfl⟩, rfl⟩
  | succ n ih =>
    rw [slotViews_succ, Option.bind_eq_some_iff] at h
    obtain ⟨k, -, h⟩ := h
    obtain ⟨⟨r', hs'⟩, hrest, he⟩ := Option.map_eq_some_iff.mp h
    cases he
    obtain ⟨⟨vs, c, hr⟩, hl⟩ := ih hrest
    exact ⟨⟨vs, c, hr⟩, by rw [List.length_cons, hl]⟩

/-! ### The frames of the slots -/

theorem takeFrame_awake (s : State) (p tier stack c : Nat) :
    s.awake.takeFrame p tier stack c = (s.takeFrame p tier stack c).map (fun x => (x.1, x.2.awake)) := by
  have hq : s.awake.frameQuota p tier stack c = s.frameQuota p tier stack c := rfl
  have hh : s.awake.framesHeld p tier stack c = s.framesHeld p tier stack c := rfl
  have hf : s.awake.frameFree tier stack c = s.frameFree tier stack c := rfl
  have hl : s.awake.lowFrame tier stack c = s.lowFrame tier stack c := rfl
  unfold State.takeFrame
  simp only [hq, hh, hf, hl]
  split
  · rfl
  · have hfree : s.awake.free = s.free := rfl
    rw [hfree]
    generalize (if s.frameFree tier stack c (Config.freeFrame s.free * 4 ^ c) = true then some (Config.freeFrame s.free * 4 ^ c)
      else s.lowFrame tier stack c) = o
    cases o <;> rfl

/-- A frame taken is listed, of its partition; nothing else changes but the free choice. -/
theorem takeFrame_kept {s r : State} {p tier stack c : Nat} {x : Frame} (h : s.takeFrame p tier stack c = some (x, r)) :
    x.part = p ∧ ∃ fr k, r = { s with frames := fr, free := k } := by
  unfold State.takeFrame at h
  simp only at h
  split at h
  · cases h
  · split at h
    · cases h
    · cases h; exact ⟨rfl, _, _, rfl⟩

theorem machineBase_awake (s : State) (x : Frame) : s.awake.machineBase x = s.machineBase x := rfl

theorem dirtyFrame_awake (s : State) (p fsz ia : Nat) : s.awake.dirtyFrame p fsz ia = (s.dirtyFrame p fsz ia).awake := by
  unfold State.dirtyFrame
  simp only
  have hs : s.awake.stage2 = s.stage2 := rfl
  rw [hs]
  split <;> rfl

theorem scrubFrame_awake (s : State) (x : Frame) : s.awake.scrubFrame x = (s.scrubFrame x).awake := by
  unfold State.scrubFrame
  rw [machineBase_awake]
  cases s.machineBase x with
  | none => rfl
  | some a => exact dirtyFrame_awake (s.zeroMem (physAddr x.tier x.stack a) (frameBytes x.fsz)) _ _ _

theorem slotFrames_succ (s : State) (p stack c n : Nat) : s.slotFrames p stack c (n + 1)
    = (s.takeFrame p 2 stack c).bind (fun x => ((x.2.scrubFrame x.1).slotFrames p stack c n).map (fun y => (y.1, x.1 :: y.2))) := by
  rw [State.slotFrames]
  cases s.takeFrame p 2 stack c <;> rfl

/-- The frames of the slots do not depend on the power level. -/
theorem slotFrames_awake (s : State) (p stack c n : Nat) :
    s.awake.slotFrames p stack c n = (s.slotFrames p stack c n).map (fun x => (x.1.awake, x.2)) := by
  induction n generalizing s with
  | zero => rfl
  | succ n ih =>
    rw [slotFrames_succ, slotFrames_succ, takeFrame_awake]
    cases s.takeFrame p 2 stack c with
    | none => rfl
    | some x =>
      simp only [Option.map_some, Option.bind_some, scrubFrame_awake, ih, Option.map_map]
      rfl

/-! ### The room in the dirty log (22 R436) -/

/-- The dirty log of partition `p` has room for `n` more entries, if it is on. -/
def State.logRoom (s : State) (p n : Nat) : Prop :=
  ∀ q w k, s.part p = some q → q.dirty = some (w, k) → q.dlTail + q.dlPend.length + n ≤ 2 ^ k + q.dlHead

theorem logOver_of_logRoom {s : State} {p n : Nat} (h : s.logRoom p n) : s.logOver p = false := by
  unfold State.logOver
  cases hp : (get none s.parts p : Option Part) with
  | none => rfl
  | some q =>
    cases hd : q.dirty with
    | none => simp only [hd]
    | some x =>
      have := h q x.1 x.2 hp hd
      simp only [hd, decide_eq_false_iff_not]
      omega

/-- A frame marked dirty takes one place of the log at most. -/
theorem logRoom_dirtyFrame {s : State} {p n : Nat} (fsz ia : Nat) (h : s.logRoom p (n + 1)) : (s.dirtyFrame p fsz ia).logRoom p n := by
  unfold State.dirtyFrame
  simp only
  split
  · intro q w k hq hd
    have := h q w k hq hd
    omega
  · intro q w k hq hd
    rw [State.part] at hq
    simp only [get_set_self, Option.map_eq_some_iff] at hq
    obtain ⟨x, hx, rfl⟩ := hq
    split at hd
    · rename_i hnone; rw [hnone] at hd; cases hd
    · rename_i hon
      have := h x w k hx hd
      rw [if_neg hon]
      simp only [List.length_append, List.length_singleton]
      omega

theorem logRoom_scrubFrame {s : State} {n : Nat} (x : Frame) (h : s.logRoom x.part (n + 1)) : (s.scrubFrame x).logRoom x.part n := by
  unfold State.scrubFrame
  cases s.machineBase x with
  | none =>
    intro q w k hq hd
    have := h q w k hq hd
    omega
  | some a => exact logRoom_dirtyFrame (s := s.zeroMem (physAddr x.tier x.stack a) (frameBytes x.fsz)) _ _ h

theorem scrubFrame_kept (s : State) (x : Frame) :
    ∃ m po st ps, s.scrubFrame x = { s with mem := m, poison := po, stage2 := st, parts := ps } := by
  unfold State.scrubFrame
  cases s.machineBase x with
  | none => exact ⟨s.mem, s.poison, s.stage2, s.parts, rfl⟩
  | some a =>
    obtain ⟨st, ps, h⟩ := dirtyFrame_kept (s.zeroMem (physAddr x.tier x.stack a) (frameBytes x.fsz)) x.part x.fsz (x.base * 4096)
    exact ⟨_, _, st, ps, h⟩

/-- Taking the frames of the slots changes memory, stage 2, the partitions and the frames; it gives one frame for each, and each takes one place of the dirty log at most. -/
theorem slotFrames_kept {s r : State} {p stack c n k : Nat} {fs : List Frame} (h : s.slotFrames p stack c n = some (r, fs)) :
    (∃ m po st ps fr i, r = { s with mem := m, poison := po, stage2 := st, parts := ps, frames := fr, free := i })
      ∧ fs.length = n ∧ (s.logRoom p (k + n) → r.logRoom p k) := by
  induction n generalizing s fs with
  | zero =>
    cases h
    exact ⟨⟨r.mem, r.poison, r.stage2, r.parts, r.frames, r.free, rfl⟩, rfl, id⟩
  | succ n ih =>
    rw [slotFrames_succ, Option.bind_eq_some_iff] at h
    obtain ⟨⟨x, s1⟩, hx, h⟩ := h
    obtain ⟨⟨r', fs'⟩, hrest, he⟩ := Option.map_eq_some_iff.mp h
    cases he
    obtain ⟨hpart, fr, j, rfl⟩ := takeFrame_kept hx
    obtain ⟨⟨m, po, st, ps, fr', i, hr⟩, hl, hroom⟩ := ih hrest
    obtain ⟨m0, po0, st0, ps0, hs⟩ := scrubFrame_kept { s with frames := fr, free := j } x
    refine ⟨⟨m, po, st, ps, fr', i, ?_⟩, by rw [List.length_cons, hl], fun hk => hroom ?_⟩
    · rw [hr]; simp only [hs]
    · subst hpart
      exact logRoom_scrubFrame (s := { s with frames := fr, free := j }) x hk

/-! ### The ends of a Crossing -/

/-- The state in which the send and receive tables at the ends of a Crossing hold `v` (17 R364). -/
def State.setEnds (s : State) (c : Crossing) (v : Option Nat) : State :=
  let s1 := s.setCore c.scoreU { s.core c.scoreU with sends := set none (s.core c.scoreU).sends c.sid v }
  s1.setCore c.rcoreU { s1.core c.rcoreU with recvs := set none (s1.core c.rcoreU).recvs c.rid v }

theorem setEnds_kept (s : State) (c : Crossing) (v : Option Nat) : ∃ us, s.setEnds c v = { s with units := us } := ⟨_, rfl⟩

theorem send_setEnds (s : State) (c : Crossing) (v : Option Nat) : get none ((s.setEnds c v).core c.scoreU).sends c.sid = v := by
  unfold State.setEnds
  by_cases h : c.scoreU = c.rcoreU
  · simp [← h]
  · simp [core_setCore_other _ _ h]

theorem recv_setEnds (s : State) (c : Crossing) (v : Option Nat) : get none ((s.setEnds c v).core c.rcoreU).recvs c.rid = v := by
  simp [State.setEnds]

/-! ### A Crossing created -/

section
variable {s : State} {f : Nat} {m : MCmd} {c : Crossing} {y : Tensor}

theorem exec_createCrossing_ready (h : Ready s f 0x15) :
    exec (.createCrossing f) s = .next (s.awake.createCrossing f (headCmd s f)) :=
  (exec_createCrossing f s).trans (command_ready h rfl _)

theorem createCrossing_of_none (hc : s.crossingOf (s.fnPart f) (s.hostGet m.arg 32) = none) :
    s.createCrossing f m = s.finish f 0x0401 := by
  unfold State.createCrossing
  simp only [hc]

theorem createCrossing_of_taken (hc : s.crossingOf (s.fnPart f) (s.hostGet m.arg 32) = some (c, y))
    (ht : get none (s.core c.scoreU).sends c.sid ≠ none ∨ get none (s.core c.rcoreU).recvs c.rid ≠ none) :
    s.createCrossing f m = s.finish f 0x0402 := by
  unfold State.createCrossing
  simp only [hc, Option.isSome_iff_ne_none, ht, if_true]

/-- What CREATE_CROSSING comes to where both ends are free. -/
theorem createCrossing_of_place {st : Nat} (hc : s.crossingOf (s.fnPart f) (s.hostGet m.arg 32) = some (c, y))
    (ht : ¬ (get none (s.core c.scoreU).sends c.sid ≠ none ∨ get none (s.core c.rcoreU).recvs c.rid ≠ none))
    (hp : s.placeFault y = some st) : s.createCrossing f m = s.finish f st := by
  unfold State.createCrossing
  simp only [hc, Option.isSome_iff_ne_none, ht, if_false, hp]

theorem createCrossing_of_views (hc : s.crossingOf (s.fnPart f) (s.hostGet m.arg 32) = some (c, y))
    (ht : ¬ (get none (s.core c.scoreU).sends c.sid ≠ none ∨ get none (s.core c.rcoreU).recvs c.rid ≠ none))
    (hp : s.placeFault y = none) (hv : s.slotViews (s.fnPart f) y.id (rowElems y.fmt) c.rows 0 c.nslots = none) :
    s.createCrossing f m = s.finish f 0x0205 := by
  unfold State.createCrossing
  simp only [hc, Option.isSome_iff_ne_none, ht, if_false, hp, hv]

theorem createCrossing_of_frames {s1 : State} {hs : List Nat} (hc : s.crossingOf (s.fnPart f) (s.hostGet m.arg 32) = some (c, y))
    (ht : ¬ (get none (s.core c.scoreU).sends c.sid ≠ none ∨ get none (s.core c.rcoreU).recvs c.rid ≠ none))
    (hp : s.placeFault y = none) (hv : s.slotViews (s.fnPart f) y.id (rowElems y.fmt) c.rows 0 c.nslots = some (s1, hs))
    (hf : s1.slotFrames (s.fnPart f) (nearStack y.home) y.fsz c.nslots = none) :
    s.createCrossing f m = s.finish f 0x0206 := by
  unfold State.createCrossing
  simp only [hc, Option.isSome_iff_ne_none, ht, if_false, hp, hv, hf]

/-- The number of a new Crossing. -/
def State.newCrossing (s : State) : Nat := (s.crossings.map Prod.fst).foldl max 0 + 1

/-- The slots of a new Crossing, by the handles of their views. -/
def State.newSlots (s : State) (hs : List Nat) : Map Slot := hs.zipIdx.map (fun y => (y.2, { form := s.formOf y.1 }))

/-- The tiles of a new slot tensor, by the frames of its slots. -/
def slotTiles (fs : List Frame) : Map Tile := fs.zipIdx.map (fun y => (y.2, {
  v := true, tier := 2, stack := BitVec.ofNat 5 y.1.stack, cov := 1, fbase := BitVec.ofNat 41 y.1.base }))

/-- The state `s2`, in which the views and frames are taken, with the Crossing `x` and its tensor entered. -/
def State.enterCrossing (s2 : State) (x : Nat) (c : Crossing) (y : Tensor) (hs : List Nat) (fs : List Frame) : State :=
  ({ s2 with tensors := set none s2.tensors y.id (some { y with tiles := slotTiles fs })
             crossings := set none s2.crossings x (some { c with slots := s2.newSlots hs }), free := s2.free + 1 } : State).setEnds c (some x)

theorem createCrossing_of_ok {s1 s2 : State} {hs : List Nat} {fs : List Frame}
    (hc : s.crossingOf (s.fnPart f) (s.hostGet m.arg 32) = some (c, y))
    (ht : ¬ (get none (s.core c.scoreU).sends c.sid ≠ none ∨ get none (s.core c.rcoreU).recvs c.rid ≠ none))
    (hp : s.placeFault y = none) (hv : s.slotViews (s.fnPart f) y.id (rowElems y.fmt) c.rows 0 c.nslots = some (s1, hs))
    (hf : s1.slotFrames (s.fnPart f) (nearStack y.home) y.fsz c.nslots = some (s2, fs)) :
    s.createCrossing f m = s.ifRoom (s.fnPart f) ((s2.enterCrossing s.newCrossing c y hs fs).finish f 0
      (((hs.map (fun h => leBytes 4 (s2.formOf h).toNat)).flatten ++ List.replicate 16 0).take 16 ++ leBytes 4 y.id)) := by
  unfold State.createCrossing
  simp only [hc, Option.isSome_iff_ne_none, ht, if_false, hp, hv, hf]
  rfl

end

end Sys2Proof.Machine
end

section
/-!
PROOF. What stands after a Crossing has been created, and after it has been destroyed (17 R363, R364; 14 R345).
-/

namespace Sys2Proof.Machine

open Sys2Proof.Safety Sys2Proof.Spec

/-- Entry `i` of a list whose elements are numbered from 0. -/
theorem get_zipIdx {α β : Type} (d : β) (g : α → β) {l : List α} {i : Nat} {x : α} (h : l[i]? = some x) :
    get d (l.zipIdx.map (fun y => (y.2, g y.1))) i = g x := by
  have hfrom : ∀ (l : List α) (a j : Nat), l[j]? = some x → get d ((l.zipIdx a).map (fun y => (y.2, g y.1))) (a + j) = g x := by
    intro l
    induction l with
    | nil => intro a j hj; simp at hj
    | cons z l ih =>
      intro a j hj
      rw [List.zipIdx_cons, List.map_cons, get]
      cases j with
      | zero =>
        cases hj
        rw [if_pos (Nat.add_zero a).symm]
      | succ j =>
        rw [if_neg (by simp), ← Nat.add_assoc, Nat.add_right_comm]
        exact ih (a + 1) j hj
  simpa using hfrom l 0 i h

/-- A Crossing has at most four slots (17 R362). -/
theorem nslots_crossingOf {s : State} {p : Nat} {bs : List Byte} {c : Crossing} {y : Tensor} (h : s.crossingOf p bs = some (c, y)) :
    c.nslots ≤ 4 := by
  unfold State.crossingOf at h
  generalize (if leAt bs 7 1 = 0 then 2 else leAt bs 7 1) = n at h
  simp only at h
  split at h
  · by_cases hbad : 4 < n
    · simp only [hbad, true_or, or_true, if_true] at h
      cases h
    · rw [Option.ite_none_left_eq_some] at h
      obtain ⟨-, h⟩ := h
      cases h
      exact Nat.le_of_not_lt hbad
  · cases h

section
variable {s1 : State} {x : Nat} {c : Crossing} {y : Tensor} {hs : List Nat} {fs : List Frame}

theorem enterCrossing_kept : ∃ us, s1.enterCrossing x c y hs fs = { s1 with
    tensors := set none s1.tensors y.id (some { y with tiles := slotTiles fs })
    crossings := set none s1.crossings x (some { c with slots := s1.newSlots hs }), free := s1.free + 1, units := us } :=
  setEnds_kept _ c (some x)

/-- A slot of a new Crossing is free, holds no frame and names the view of its handle. -/
theorem slot_newSlots {i h : Nat} (hi : hs[i]? = some h) :
    ({ c with slots := s1.newSlots hs } : Crossing).slot i = { form := s1.formOf h } :=
  get_zipIdx _ (fun h => ({ form := s1.formOf h } : Slot)) hi

/-- A tile of a new slot tensor is valid, in a near stack and covered. -/
theorem tile_slotTiles {i : Nat} {g : Frame} (hi : fs[i]? = some g) :
    ({ y with tiles := slotTiles fs } : Tensor).tile i
      = { v := true, tier := 2, stack := BitVec.ofNat 5 g.stack, cov := 1, fbase := BitVec.ofNat 41 g.base } :=
  get_zipIdx _ (fun g : Frame => ({ v := true, tier := 2, stack := BitVec.ofNat 5 g.stack, cov := 1, fbase := BitVec.ofNat 41 g.base } : Tile)) hi

end

/-! ### A Crossing destroyed -/

/-- Freeing views does not depend on the rest of the state. -/
theorem foldl_freeView_views (hs : List Nat) {r s : State} (h : r.views = s.views) :
    hs.foldl State.freeView r = { r with views := (hs.foldl State.freeView s).views } := by
  induction hs generalizing r s with
  | nil => rw [List.foldl_nil, List.foldl_nil, ← h]
  | cons k hs ih =>
    have hk : (r.freeView k).views = (s.freeView k).views := by unfold State.freeView; rw [h]
    rw [List.foldl_cons, List.foldl_cons, ih hk]; rfl

/-- The frames of tiles that pass to the scrub. -/
theorem foldl_toScrub_kept (s : State) (t : Tensor) (l : List (Nat × Tile)) :
    ∃ fr sc, l.foldl (fun (s : State) (q : Nat × Tile) => if q.2.v then s.toScrub t q.2 none else s) s = { s with frames := fr, scrubs := sc } := by
  refine List.foldlRecOn l _ (motive := fun r : State => ∃ fr sc, r = { s with frames := fr, scrubs := sc }) ⟨s.frames, s.scrubs, rfl⟩ ?_
  rintro _ ⟨fr, sc, rfl⟩ q -
  split
  · obtain ⟨fr', sc', h⟩ := toScrub_kept { s with frames := fr, scrubs := sc } t q.2 none
    exact ⟨fr', sc', h⟩
  · exact ⟨fr, sc, rfl⟩

/-- The state in which the tiles of a slot tensor have passed to the scrub. -/
def State.scrubSlots (s : State) (c : Crossing) : State := match s.tensor c.tid with
  | some t => t.tiles.foldl (fun (s : State) (q : Nat × Tile) => if q.2.v then s.toScrub t q.2 none else s) s
  | none => s

theorem scrubSlots_kept (s : State) (c : Crossing) : ∃ fr sc, s.scrubSlots c = { s with frames := fr, scrubs := sc } := by
  unfold State.scrubSlots
  split
  · exact foldl_toScrub_kept s _ _
  · exact ⟨s.frames, s.scrubs, rfl⟩

/-- The state without the views of a Crossing and with the frames that are away from its tiles taken out (17 R364). -/
def State.clearSlots (s : State) (x : Nat) (c : Crossing) : State :=
  let away := c.slots.filterMap (fun y => y.2.frame)
  let s1 := (s.viewsOn c.tid).foldl State.freeView { s with crossings := set none s.crossings x none }
  { s1 with frames := s1.frames.filter (fun g => !away.any (fun f => g.same f))
            scrubs := s1.scrubs.map (fun (y : Scrub) => match y.slot with
              | some z => if z.1 = x then { y with slot := none } else y
              | none => y) }

theorem clearSlots_kept (s : State) (x : Nat) (c : Crossing) : ∃ fr sc, s.clearSlots x c = { s with
    crossings := set none s.crossings x none, views := ((s.viewsOn c.tid).foldl State.freeView s).views, frames := fr, scrubs := sc } := by
  unfold State.clearSlots
  rw [foldl_freeView_views (s.viewsOn c.tid) (r := { s with crossings := set none s.crossings x none }) (s := s) rfl]
  exact ⟨_, _, rfl⟩

theorem dropCrossing_eq (s : State) (x : Nat) (c : Crossing) : s.dropCrossing x c = (fun (s3 : State) => ({ s3 with
    tensors := set none s3.tensors c.tid none
    units := s3.units.map (fun (q : Nat × Core) => (q.1, { q.2 with ttb := q.2.ttb.filter (fun y => decide (y.tid ≠ c.tid)) })) } : State).setEnds c none)
      ((s.clearSlots x c).scrubSlots c) := rfl

/-- A Crossing destroyed is gone with its tensor, its views and the entries at its ends. -/
theorem dropCrossing_kept (s : State) (x : Nat) (c : Crossing) : ∃ fr sc us,
    s.dropCrossing x c = ({ s with
      crossings := set none s.crossings x none, views := ((s.viewsOn c.tid).foldl State.freeView s).views
      frames := fr, scrubs := sc, tensors := set none s.tensors c.tid none, units := us } : State).setEnds c none := by
  obtain ⟨fr, sc, h⟩ := clearSlots_kept s x c
  obtain ⟨fr', sc', h'⟩ := scrubSlots_kept (s.clearSlots x c) c
  rw [dropCrossing_eq, h', h]
  exact ⟨fr', sc', _, rfl⟩

theorem exec_destroyCrossing_own {s : State} {f x : Nat} {y : Tensor} {c : Crossing} (h : Ready s f 0x16)
    (hy : s.tensor (headCmd s f).target = some y) (hp : y.part = s.fnPart f) (hx : s.slotOf y.id 0 = some (x, 0))
    (hc : get none s.crossings x = some c) :
    exec (.destroyCrossing f) s = .next (if s.sending x then s.awake.onCrossing x (fun c => { c with dying := true })
      else (s.awake.dropCrossing x c).finish f 0) := by
  have hx' : s.awake.slotOf y.id 0 = some (x, 0) := hx
  have hc' : get none s.awake.crossings x = some c := hc
  rw [exec_destroyCrossing, execDestroyCrossing, command_ready h rfl, withTensor_own (s := s.awake) _ hy hp]
  simp only [hx', hc']
  rfl

end Sys2Proof.Machine
end

section
/-!
PROOF. JOB_RESTART, JOB_DISCARD and RELEASE_CONTEXT (08 R212, 21 R405, 22 R437): what stands in the bank of the job afterwards.
-/

namespace Sys2Proof.Machine

open Sys2Proof.Safety Sys2Proof.Spec

/-- Host memory and the functions stand in `r` as in `s`, and the partitions are `ps`. -/
structure KeptWith (s r : State) (ps : Map (Option Part)) : Prop where
  mem   : r.mem = s.mem
  funcs : r.funcs = s.funcs
  parts : r.parts = ps

theorem keptWith_settle {s r : State} {ps : Map (Option Part)} (u : Nat) (h : KeptWith s r ps) : KeptWith s (r.settle u) ps := by
  obtain ⟨us, hs⟩ := settle_units r u
  rw [hs]
  exact ⟨h.mem, h.funcs, h.parts⟩

theorem keptWith_onBank {s r : State} {ps : Map (Option Part)} (u b : Nat) (F : Bank → Bank) (h : KeptWith s r ps) :
    KeptWith s (r.onBank u b F) ps := ⟨h.mem, h.funcs, h.parts⟩

theorem keptWith_setBank {s r : State} {ps : Map (Option Part)} (u b : Nat) (k : Bank) (h : KeptWith s r ps) :
    KeptWith s (r.setBank u b k) ps := ⟨h.mem, h.funcs, h.parts⟩

theorem keptWith_dropLease {s r : State} {ps : Map (Option Part)} (u b : Nat) (h : KeptWith s r ps) :
    KeptWith s (r.dropLease u b) ps := ⟨h.mem, h.funcs, h.parts⟩

theorem keptWith_dropWaits {s r : State} {ps : Map (Option Part)} (u b : Nat) (h : KeptWith s r ps) :
    KeptWith s (r.dropWaits u b) ps := ⟨h.mem, h.funcs, h.parts⟩

theorem keptWith_dropFlight {s r : State} {ps : Map (Option Part)} (u b : Nat) (h : KeptWith s r ps) :
    KeptWith s (r.dropFlight u b) ps := ⟨h.mem, h.funcs, h.parts⟩

theorem keptWith_onPart {s r : State} {ps : Map (Option Part)} (p : Nat) (F : Part → Part) (h : KeptWith s r ps) :
    KeptWith s (r.onPart p F) (set none ps p ((get none ps p).map F)) :=
  ⟨h.mem, h.funcs, by rw [← h.parts]; rfl⟩

theorem keptWith_evalJobs {s r : State} {ps : Map (Option Part)} (f : Job → Bool) (h : KeptWith s r ps) : KeptWith s (r.evalJobs f) ps := by
  obtain ⟨us, he⟩ := evalJobs_units r f
  rw [he]
  exact ⟨h.mem, h.funcs, h.parts⟩

theorem KeptWith.refl (s : State) : KeptWith s s s.parts := ⟨rfl, rfl, rfl⟩

/-! ### A job restarted -/

/-- The reload of the streams leaves the job of the bank as it is. -/
theorem job_reloadStreams (k : Bank) (code : Nat) (bs : List Byte) : (k.reloadStreams code bs).job = k.job := by
  unfold Bank.reloadStreams
  refine List.foldlRecOn _ _ (motive := fun r : Bank => r.job = k.job) rfl ?_
  intro r hr e _
  simp only [apply_ite Bank.job, Bank.setQueue_job, Bank.advance_job, Bank.setStream_job, ite_self, hr]

section
variable {s : State} {u b i : Nat} {k : FaultInfo} {j : Job} {x : Part}

/-- A job whose frame holds no command restarts with a change of its bank, in which it is ready and no fault stands, and with its slot free. -/
theorem restartJob_eq (hk : (s.bank u b).fault = some k) (hi : k.slot = some i) (hj : (s.bank u b).job = some j)
    (hx : s.part j.part = some x) (h0 : leAt (s.hostGet (x.slotAddr i) 1024) 28 4 = 0) : ∃ F G : Bank → Bank,
    s.restartJob u b = ((((s.onBank u b F).dropWaits u b).onBank u b G).onPart j.part (fun p => { p with slots := set false p.slots i false })).settle u
      ∧ (G (F (s.bank u b))).fault = none ∧ (G (F (s.bank u b))).job = some { j with status := .ready } := by
  unfold State.restartJob
  simp only [hk, hj, hi, hx, h0, Nat.min_zero, List.range_zero, List.foldl_nil]
  refine ⟨_, _, rfl, rfl, ?_⟩
  simp only [Bank.setQueue_job, job_reloadStreams, Bank.onJob, hj, Option.map_some]

/-- What stands after such a restart. -/
theorem restartJob_kept (hk : (s.bank u b).fault = some k) (hi : k.slot = some i) (hj : (s.bank u b).job = some j)
    (hx : s.part j.part = some x) (h0 : leAt (s.hostGet (x.slotAddr i) 1024) 28 4 = 0) :
    KeptWith s (s.restartJob u b) (set none s.parts j.part (some { x with slots := set false x.slots i false }))
      ∧ ((s.restartJob u b).bank u b).fault = none ∧ ((s.restartJob u b).bank u b).job = some { j with status := .ready } := by
  obtain ⟨F, G, heq, hfault, hjob⟩ := restartJob_eq hk hi hj hx h0
  have hbank : (s.restartJob u b).bank u b = G (F (s.bank u b)) := by
    rw [heq, bank_settle]
    show ((((s.onBank u b F).dropWaits u b).onBank u b G).bank u b) = _
    rw [bank_onBank_self]
    exact congrArg G (bank_onBank_self s u b F)
  have hpart : (get none s.parts j.part).map (fun p => { p with slots := set false p.slots i false }) = some { x with slots := set false x.slots i false } := by
    rw [show get none s.parts j.part = some x from hx]; rfl
  refine ⟨?_, hbank ▸ hfault, hbank ▸ hjob⟩
  rw [heq, ← hpart]
  exact keptWith_settle u (keptWith_onPart _ _ (keptWith_onBank u b G (keptWith_dropWaits u b (keptWith_onBank u b F (.refl s)))))

end

/-! ### A job discarded -/

theorem tell_kept (s : State) (key : Nat) (n : FabricNews) : ∃ se, s.tell key n = { s with sent := se } := by
  unfold State.tell
  split
  · exact ⟨_, rfl⟩
  · exact ⟨s.sent, rfl⟩

/-- A job that leaves its domain changes the domains, what has been sent and its unit. -/
theorem leaveDomain_kept (s : State) (u b : Nat) : ∃ dm se us, s.leaveDomain u b = { s with domains := dm, sent := se, units := us } := by
  have hbank : ∀ (r : State) (F : Bank → Bank), (∃ dm se, r = { s with domains := dm, sent := se }) →
      ∃ dm se us, r.onBank u b F = { s with domains := dm, sent := se, units := us } := by
    rintro _ F ⟨dm, se, rfl⟩
    exact ⟨dm, se, _, rfl⟩
  unfold State.leaveDomain
  refine hbank _ _ ?_
  cases s.dmrKey u b with
  | none => exact ⟨s.domains, s.sent, rfl⟩
  | some key => exact ⟨_, tell_kept (State.onDomain s key _) key _⟩

theorem tellDone_kept (s : State) (d : Nat × Domain) : ∃ dm se, s.tellDone d = { s with domains := dm, sent := se } := by
  unfold State.tellDone
  simp only
  split
  · obtain ⟨se, h⟩ := tell_kept (s.onDomain d.1 (fun x => { x with doneBy := set 0 x.doneBy (s.fabricOf (scopeOfKey d.1)).2 d.2.tasks.length })) d.1 (.tasksDone d.2.tasks.length)
    exact ⟨_, se, h⟩
  · exact ⟨s.domains, s.sent, rfl⟩

theorem sweepDomains_kept (s : State) : ∃ dm se, s.sweepDomains = { s with domains := dm, sent := se } := by
  have hfold : ∃ dm se, (somes s.domains).foldl State.tellDone s = { s with domains := dm, sent := se } := by
    refine List.foldlRecOn _ _ (motive := fun r : State => ∃ dm se, r = { s with domains := dm, sent := se }) ⟨s.domains, s.sent, rfl⟩ ?_
    rintro _ ⟨dm, se, rfl⟩ d -
    obtain ⟨dm', se', h⟩ := tellDone_kept { s with domains := dm, sent := se } d
    exact ⟨dm', se', h⟩
  obtain ⟨dm, se, h⟩ := hfold
  unfold State.sweepDomains
  simp only
  rw [h]
  exact ⟨_, se, rfl⟩

/-- A change of a bank that keeps an empty one empty leaves an empty bank empty, whichever it changes. -/
theorem bank_onBank_empty {s : State} {u b : Nat} (v d : Nat) {F : Bank → Bank} (hF : F {} = {}) (h : s.bank u b = {}) :
    (s.onBank v d F).bank u b = {} := by
  by_cases hv : u = v
  · subst hv
    unfold State.bank at h ⊢
    rw [core_onBank_self]
    by_cases hd : d = 0 ↔ b = 0
    · have hsame : ∀ c : Core, c.bank d = c.bank b := fun c => by unfold Core.bank; simp only [hd]
      rw [← hsame, Core.bank_setBank_self]
      show F ((s.core u).bank d) = {}
      rw [hsame, h, hF]
    · rw [Core.bank_setBank_other _ _ hd, h]
  · unfold State.bank at h ⊢
    rw [core_onBank_other _ _ _ hv, h]

/-- The evaluation of jobs leaves an empty bank empty. -/
theorem bank_evalJobs_empty {s : State} {u b : Nat} (f : Job → Bool) (h : s.bank u b = {}) : (s.evalJobs f).bank u b = {} := by
  unfold State.evalJobs
  refine List.foldlRecOn _ _ (motive := fun r : State => r.bank u b = {}) h ?_
  intro r hr x _
  exact bank_onBank_empty x.1 x.2.1 rfl hr

/-- A bank that has become free is empty. -/
theorem bank_freeBank (s : State) (u b : Nat) : (s.freeBank u b).bank u b = {} := by
  unfold State.freeBank
  refine bank_evalJobs_empty _ ?_
  rw [bank_settle, bank_setBank_self]

theorem freeBank_kept (s : State) (u b : Nat) : KeptWith s (s.freeBank u b) s.parts :=
  keptWith_evalJobs _ (keptWith_settle u (keptWith_setBank u b {} (keptWith_dropFlight u b
    (keptWith_dropWaits u b (keptWith_dropLease u b (.refl s))))))

/-- A bank is read of the units alone. -/
theorem bank_of_units {s r : State} (h : r.units = s.units) (u b : Nat) : r.bank u b = s.bank u b := by
  unfold State.bank State.core; rw [h]

/-- The last part of a discard: the bank becomes free and the domains are swept. -/
theorem freeBank_sweep (s : State) (u b : Nat) :
    (s.freeBank u b).sweepDomains.bank u b = {} ∧ KeptWith s (s.freeBank u b).sweepDomains s.parts := by
  obtain ⟨dm, se, hs⟩ := sweepDomains_kept (s.freeBank u b)
  obtain ⟨hm, hf, hp⟩ := freeBank_kept s u b
  have hb : (s.freeBank u b).sweepDomains.bank u b = (s.freeBank u b).bank u b := bank_of_units (by rw [hs]) u b
  refine ⟨hb.trans (bank_freeBank s u b), ?_⟩
  rw [hs]
  exact ⟨hm, hf, hp⟩

/-- The state in which an iteration of a job counts as discarded. -/
def State.countDiscard (s : State) (j : Job) : Option Nat → State
  | some i => s.onTask j.packet i (fun t => { t with disc := t.disc + 1 })
  | none => s

theorem countDiscard_kept (s : State) (j : Job) (o : Option Nat) : ∃ pk, s.countDiscard j o = { s with packets := pk } := by
  cases o with
  | none => exact ⟨s.packets, rfl⟩
  | some i => exact ⟨_, rfl⟩

theorem discardJob_eq {s : State} {u b : Nat} {j : Job} (hj : (s.bank u b).job = some j) : ∃ o : Option Nat,
    s.discardJob u b = ((((s.leaveDomain u b).dropViews (s.jobViews j.jid)).countDiscard j o).freeBank u b).sweepDomains := by
  unfold State.discardJob
  simp only [hj]
  refine ⟨s.taskOf j, ?_⟩
  cases s.taskOf j with
  | none => rw [State.countDiscard]
  | some i => rw [State.countDiscard]

/-- A job discarded leaves its bank empty, and memory, the functions and the partitions as they are. -/
theorem discardJob_kept {s : State} {u b : Nat} {j : Job} (hj : (s.bank u b).job = some j) :
    (s.discardJob u b).bank u b = {} ∧ KeptWith s (s.discardJob u b) s.parts := by
  obtain ⟨dm, se, us, hl⟩ := leaveDomain_kept s u b
  obtain ⟨un, cs, hd⟩ := dropViews_kept (s.leaveDomain u b) (s.jobViews j.jid)
  obtain ⟨o, heq⟩ := discardJob_eq hj
  obtain ⟨pk, hc⟩ := countDiscard_kept ((s.leaveDomain u b).dropViews (s.jobViews j.jid)) j o
  obtain ⟨hbank, hkept⟩ := freeBank_sweep (((s.leaveDomain u b).dropViews (s.jobViews j.jid)).countDiscard j o) u b
  rw [← heq] at hbank hkept
  refine ⟨hbank, ?_⟩
  rw [hc, hd, hl] at hkept
  exact ⟨hkept.mem, hkept.funcs, hkept.parts⟩

/-- A stopped job discarded frees its bank and its frame slot. -/
theorem discardStopped_kept {s : State} {u b i : Nat} {k : FaultInfo} {j : Job} {x : Part} (hk : (s.bank u b).fault = some k)
    (hi : k.slot = some i) (hj : (s.bank u b).job = some j) (hx : s.part j.part = some x) :
    (s.discardStopped u b).bank u b = {}
      ∧ KeptWith s (s.discardStopped u b) (set none s.parts j.part (some { x with slots := set false x.slots i false })) := by
  have heq : s.discardStopped u b = (s.onPart j.part (fun p => { p with slots := set false p.slots i false })).discardJob u b := by
    unfold State.discardStopped
    simp only [hj, hk, Option.bind_some, hi]
  have hpart : (get none s.parts j.part).map (fun p => { p with slots := set false p.slots i false }) = some { x with slots := set false x.slots i false } := by
    rw [show get none s.parts j.part = some x from hx]; rfl
  have hj' : ((s.onPart j.part (fun p => { p with slots := set false p.slots i false })).bank u b).job = some j :=
    (congrArg Bank.job (bank_of_units rfl u b)).trans hj
  obtain ⟨hbank, hm, hf, hp⟩ := discardJob_kept hj'
  obtain ⟨hm', hf', hp'⟩ := keptWith_onPart j.part (fun p => { p with slots := set false p.slots i false }) (.refl s)
  rw [heq, ← hpart]
  exact ⟨hbank, hm.trans hm', hf.trans hf', hp.trans hp'⟩

/-! ### The commands -/

section
variable {s : State} {f u b : Nat}

theorem exec_jobRestart_of (h : Ready s f 0x17) (hb : s.frameJob (s.fnPart f) (headCmd s f).target = some (u, b)) :
    exec (.jobRestart f) s = .next (if s.partRuns (s.fnPart f) then (s.awake.restartJob u b).finish f 0 else s.awake) := by
  have hb' : s.awake.frameJob (s.awake.fnPart f) (headCmd s f).target = some (u, b) := hb
  rw [exec_jobRestart, execJobRestart, command_ready h rfl]
  simp only [hb']
  rfl

theorem exec_jobDiscard_of (h : Ready s f 0x18) (hb : s.frameJob (s.fnPart f) (headCmd s f).target = some (u, b)) :
    exec (.jobDiscard f) s = .next ((s.awake.discardStopped u b).finish f 0) := by
  have hb' : s.awake.frameJob (s.awake.fnPart f) (headCmd s f).target = some (u, b) := hb
  rw [exec_jobDiscard, execJobDiscard, command_ready h rfl]
  simp only [hb']

/-- What RELEASE_CONTEXT comes to, by the owner of the context. -/
theorem exec_releaseContext_none {k c : Nat} (h : Ready s f 0x19) (ho : ((s.bunit k).ctx c).owner = none) :
    exec (.releaseContext f k c) s = .next (s.awake.finish f 0x0502) := by
  have ho' : ((s.awake.bunit k).ctx c).owner = none := ho
  rw [exec_releaseContext, execReleaseContext, command_ready h rfl]
  simp only [ho']

theorem exec_releaseContext_some {k c p : Nat} (h : Ready s f 0x19) (ho : ((s.bunit k).ctx c).owner = some p) :
    exec (.releaseContext f k c) s = .next (if p ≠ s.fnPart f then s.awake.finish f 0x0508
      else if (s.bunit k).usesCtx c then s.awake
      else (s.awake.onBunit k (fun x => x.onCtx c (fun y => { y with owner := none }))).finish f 0) := by
  have ho' : ((s.awake.bunit k).ctx c).owner = some p := ho
  rw [exec_releaseContext, execReleaseContext, command_ready h rfl]
  simp only [ho']
  rfl

end

/-- The contexts of a bank unit after one has been released. -/
theorem ctx_release (s : State) (k c d : Nat) :
    ((s.onBunit k (fun x => x.onCtx c (fun y => { y with owner := none }))).bunit k).ctx d
      = if d = c then { (s.bunit k).ctx c with owner := none } else (s.bunit k).ctx d := by
  have hunit : (s.onBunit k (fun x => x.onCtx c (fun y => { y with owner := none }))).bunit k
      = (s.bunit k).onCtx c (fun y => { y with owner := none }) := get_set_self _ _ _ _
  rw [hunit]
  exact get_set _ _ _ _ _

/-- A bank unit is read of the bank units alone. -/
theorem bunit_of_bunits {s r : State} (h : r.bunits = s.bunits) (k : Nat) : r.bunit k = s.bunit k := by
  unfold State.bunit; rw [h]

theorem partRuns_eq {s : State} {p : Nat} {x : Part} (h : s.part p = some x) : s.partRuns p = decide (x.state = .running) := by
  simp only [State.partRuns, h]

end Sys2Proof.Machine
end

section
/-!
PROOF. The commands on images, tensors, Crossings, jobs and contexts (22 R429), clause by clause.
-/

namespace Sys2Proof.Machine

open Sys2Proof.Safety Sys2Proof.Spec

/-- LOAD_IMAGE whose descriptors fail is refused after those that were created. -/
theorem loadImage_refuses_tensors {s s1 : State} {f st : Nat} (h : Ready s f 0x10)
    (hf : imageFault (s.imageHeader (headCmd s f)) (split [] none 0 (s.imageWords (headCmd s f))) = none)
    (ht : s.loadBehind f (headCmd s f) = (s1, some st)) : ∃ t, exec (.loadImage f) s = .next t ∧ Denied s1 t f st :=
  denied_of ((exec_loadImage_ready h).trans
    (congrArg _ (loadImage_of_tensors (s := s.awake) (s1 := s1.awake) hf (loadTensors_awake ht))))

/-- An image stored: the end of the command and the images. -/
theorem done_addImage (s1 : State) (f : Nat) (im : Image) (vals : List Byte) :
    let t := (s1.awake.addImage im).finish f 0 vals
    Done s1 t { t with images := s1.images, free := s1.free } f 0 vals ∧ HeadOnly s1 t f
      ∧ t.images = set none s1.images s1.newCode (some im) := by
  have hedge : SameEdge s1 (s1.awake.addImage im) := ⟨rfl, rfl, rfl, rfl, rfl⟩
  obtain ⟨m, fs, a, b, c, hk⟩ := finish_kept (s1.awake.addImage im) f 0 vals
  refine ⟨done_finish hedge f 0 vals ?_, headOnly_finish hedge.funcs f 0 vals, ?_⟩ <;> (rw [hk]; rfl)

/-- A descriptor created: the end of the command, the tensors and the views. -/
theorem done_addTensor (s : State) (f : Nat) (y : Tensor) (h : Nat) (vals : List Byte) :
    let t := (s.addTensor y.fresh h .persistent).awake.finish f 0 vals
    Done s t { t with tensors := s.tensors, views := s.views, free := s.free } f 0 vals ∧ HeadOnly s t f
      ∧ t.tensors = set none s.tensors y.id (some (s.lock y.fresh)) ∧ t.views = set {} s.views h (s.rootView y h) := by
  rw [addTensor_eq]
  generalize hr : (State.awake { s with tensors := set none s.tensors y.id (some (s.lock y.fresh)), views := set {} s.views h (s.rootView y h), free := s.free + 1 }) = r
  have hedge : SameEdge s r := by rw [← hr]; exact ⟨rfl, rfl, rfl, rfl, rfl⟩
  obtain ⟨m, fs, a, b, c, hk⟩ := finish_kept r f 0 vals
  refine ⟨done_finish hedge f 0 vals ?_, headOnly_finish hedge.funcs f 0 vals, ?_, ?_⟩ <;> (rw [hk, ← hr]; rfl)

/-- A tensor freed: the end of the command, the tensors and the views. -/
theorem ended_freeTensor {s : State} {y : Tensor} (hy : s.tensor y.id = some y) (f : Nat) :
    let t := (s.awake.freeTensor y).finish f 0
    Ended s t f 0 [] ∧ FreedIn s y t.tensors ∧ t.views = ((s.viewsOn y.id).foldl State.freeView s).views := by
  obtain ⟨cs, fr, sc, un, us, tn, hr, hfreed⟩ := freeTensor_kept (s := s.awake) (y := y) hy
  obtain ⟨m, fs, a, b, c, hk⟩ := finish_kept (s.awake.freeTensor y) f 0 []
  have hviews := congrArg State.views (foldl_freeView_views (s.viewsOn y.id) (r := s.awake) (s := s) rfl)
  refine ⟨ended_finish (by rw [hr]; rfl) (by rw [hr]; rfl) f 0 [], ?_, ?_⟩
  · rw [hk, hr]; exact ⟨hfreed.self, hfreed.others⟩
  · rw [hk, hr]; exact hviews

/-- The end of a command that has changed the units. -/
theorem done_units (s : State) (f : Nat) (us : Map Core) :
    let t := ({ s.awake with units := us } : State).finish f 0
    Done s t { t with units := s.units } f 0 [] ∧ HeadOnly s t f ∧ t.units = us := by
  have hedge : SameEdge s { s.awake with units := us } := ⟨rfl, rfl, rfl, rfl, rfl⟩
  obtain ⟨m, fs, a, b, c, hk⟩ := finish_kept { s.awake with units := us } f 0 []
  exact ⟨done_finish hedge f 0 [] (by rw [hk]; rfl), headOnly_finish hedge.funcs f 0 [], by rw [hk]⟩

/-- The end of a command that has changed the dies. -/
theorem done_dies (s : State) (f : Nat) (ds : Map Die) :
    let t := ({ s.awake with dies := ds } : State).finish f 0
    Done s t { t with dies := s.dies } f 0 [] ∧ HeadOnly s t f ∧ t.dies = ds := by
  have hedge : SameEdge s { s.awake with dies := ds } := ⟨rfl, rfl, rfl, rfl, rfl⟩
  obtain ⟨m, fs, a, b, c, hk⟩ := finish_kept { s.awake with dies := ds } f 0 []
  exact ⟨done_finish hedge f 0 [] (by rw [hk]; rfl), headOnly_finish hedge.funcs f 0 [], by rw [hk]⟩

/-- The end of a command that has changed the bank units. -/
theorem done_bunits (s : State) (f : Nat) (bs : Map BUnit) :
    let t := ({ s.awake with bunits := bs } : State).finish f 0
    Done s t { t with bunits := s.bunits } f 0 [] ∧ HeadOnly s t f ∧ t.bunits = bs := by
  have hedge : SameEdge s { s.awake with bunits := bs } := ⟨rfl, rfl, rfl, rfl, rfl⟩
  obtain ⟨m, fs, a, b, c, hk⟩ := finish_kept { s.awake with bunits := bs } f 0 []
  exact ⟨done_finish hedge f 0 [] (by rw [hk]; rfl), headOnly_finish hedge.funcs f 0 [], by rw [hk]⟩

/-- The room in the dirty log is read of the partitions alone. -/
theorem logRoom_of_parts {s r : State} {p m n : Nat} (h : r.parts = s.parts) (hle : n ≤ m) (hs : s.logRoom p m) : r.logRoom p n := by
  intro q w k hq hd
  have := hs q w k (by rw [State.part, ← h]; exact hq) hd
  omega

/-- A unit is read of the units alone. -/
theorem core_of_units {s r : State} (h : r.units = s.units) (u : Nat) : r.core u = s.core u := by
  unfold State.core; rw [h]

section
variable {s s1 s2 : State} {f : Nat} {c : Crossing} {y : Tensor} {hs : List Nat} {fs : List Frame}

/-- A Crossing whose checks pass is entered, if the dirty log has room for the frames of its slots. -/
theorem exec_createCrossing_of_ok (h : Ready s f 0x15)
    (hc : s.crossingOf (s.fnPart f) (s.hostGet (headCmd s f).arg 32) = some (c, y))
    (ht : ¬ (get none (s.core c.scoreU).sends c.sid ≠ none ∨ get none (s.core c.rcoreU).recvs c.rid ≠ none))
    (hp : s.placeFault y = none) (hv : s.slotViews (s.fnPart f) y.id (rowElems y.fmt) c.rows 0 c.nslots = some (s1, hs))
    (hf : s1.slotFrames (s.fnPart f) (nearStack y.home) y.fsz c.nslots = some (s2, fs)) (hroom : s.logRoom (s.fnPart f) 4) :
    exec (.createCrossing f) s = .next ((s2.awake.enterCrossing s.newCrossing c y hs fs).finish f 0
      (((hs.map (fun h => leBytes 4 (s2.formOf h).toNat)).flatten ++ List.replicate 16 0).take 16 ++ leBytes 4 y.id)) := by
  have hv' := (slotViews_awake s (s.fnPart f) y.id (rowElems y.fmt) c.rows 0 c.nslots).trans (congrArg (Option.map _) hv)
  have hf' := (slotFrames_awake s1 (s.fnPart f) (nearStack y.home) y.fsz c.nslots).trans (congrArg (Option.map _) hf)
  have hexec := (exec_createCrossing_ready h).trans (congrArg _ (createCrossing_of_ok (s := s.awake) hc ht hp hv' hf'))
  -- the log has room
  obtain ⟨⟨vs, k, hs1⟩, -⟩ := slotViews_kept hv
  obtain ⟨-, -, hlog⟩ := slotFrames_kept (k := 0) hf
  have hs2 : s2.logRoom (s.fnPart f) 0 :=
    hlog (logRoom_of_parts (s := s) (by rw [hs1]) (by have := nslots_crossingOf hc; omega) hroom)
  rw [hexec, State.ifRoom, if_neg]
  · rfl
  · have hover := logOver_of_logRoom (logRoom_of_parts (s := s2) (parts_finish (s2.awake.enterCrossing s.newCrossing c y hs fs) f 0
      (((hs.map (fun h => leBytes 4 (s2.formOf h).toNat)).flatten ++ List.replicate 16 0).take 16 ++ leBytes 4 y.id)) (le_refl 0) hs2)
    exact fun htrue => Bool.false_ne_true (hover.symm.trans htrue)

/-- What stands after a Crossing has been entered: the ends, the Crossing, its tensor, the head of the ring. -/
theorem entered_finish (x f : Nat) (vals : List Byte) (hfuncs : s2.funcs = s.funcs) :
    let t := (s2.awake.enterCrossing x c y hs fs).finish f 0 vals
    (t.func f).head = (s.func f).head + 1 ∧ get none (t.core c.scoreU).sends c.sid = some x
      ∧ get none (t.core c.rcoreU).recvs c.rid = some x ∧ get none t.crossings x = some { c with slots := s2.newSlots hs }
      ∧ t.tensor y.id = some { y with tiles := slotTiles fs } := by
  intro t
  have hunits : ∀ u, t.core u = (s2.awake.enterCrossing x c y hs fs).core u := core_of_units (units_finish _ f 0 vals)
  obtain ⟨us, hr⟩ := enterCrossing_kept (s1 := s2.awake) (x := x) (c := c) (y := y) (hs := hs) (fs := fs)
  have hfunc : (s2.awake.enterCrossing x c y hs fs).func f = s.func f := by rw [hr, State.func, State.func, ← hfuncs]; rfl
  refine ⟨?_, ?_, ?_, ?_, ?_⟩
  · rw [func_finish, if_pos rfl, hfunc]
  · rw [hunits]; exact send_setEnds _ c (some x)
  · rw [hunits]; exact recv_setEnds _ c (some x)
  · rw [crossings_finish, hr]; simp only [get_set_self]; rfl
  · rw [State.tensor, tensors_finish, hr]; simp only [get_set_self]

end

/-- What stands after a Crossing has been destroyed. -/
theorem dropped_finish (s : State) (x : Nat) (c : Crossing) (f : Nat) :
    let t := (s.awake.dropCrossing x c).finish f 0
    Ended s t f 0 [] ∧ get none t.crossings x = none ∧ t.tensor c.tid = none ∧ get none (t.core c.scoreU).sends c.sid = none
      ∧ get none (t.core c.rcoreU).recvs c.rid = none ∧ t.views = ((s.viewsOn c.tid).foldl State.freeView s).views := by
  intro t
  have hunits : ∀ u, t.core u = (s.awake.dropCrossing x c).core u := core_of_units (units_finish _ f 0 [])
  have hviews := congrArg State.views (foldl_freeView_views (s.viewsOn c.tid) (r := s.awake) (s := s) rfl)
  obtain ⟨fr, sc, us, hr⟩ := dropCrossing_kept s.awake x c
  refine ⟨ended_finish (by rw [hr]; rfl) (by rw [hr]; rfl) f 0 [], ?_, ?_, ?_, ?_, ?_⟩
  · rw [crossings_finish, hr]; exact get_set_self none s.crossings x none
  · rw [State.tensor, tensors_finish, hr]; exact get_set_self none s.tensors c.tid none
  · rw [hunits, hr]; exact send_setEnds _ c none
  · rw [hunits, hr]; exact recv_setEnds _ c none
  · rw [views_finish, hr]; exact hviews

/-- What stands after the bank of a job has been changed and its frame slot freed. -/
theorem slotFreed_finish {s r : State} {f p i : Nat} {x : Part} (hr : KeptWith s r (set none s.parts p (some { x with slots := set false x.slots i false }))) :
    let t := r.finish f 0
    Ended s t f 0 [] ∧ (∀ u b, t.bank u b = r.bank u b)
      ∧ ∃ x', t.part p = some x' ∧ get false x'.slots i = false := by
  refine ⟨ended_finish hr.mem hr.funcs f 0 [], bank_of_units (units_finish r f 0 []), { x with slots := set false x.slots i false }, ?_,
    get_set_self false x.slots i false⟩
  rw [State.part, parts_finish, hr.parts, get_set_self]

/-- Settles O51: each command that is ready is carried out with the module awake; what it comes to is one of the lemmas above, and the end of a command changes nothing else. -/
theorem objectCommands : Obligations.ObjectCommands := by
  unfold Obligations.ObjectCommands
  refine ⟨?loadImage, ?allocTensor, ?noTensor, ?freeTensor, ?invalidate, ?moveTile, ?createCrossing, ?destroyCrossing, ?jobs, ?context⟩
  case loadImage =>
    intro f s s1 h himages m bs ws fault behind count
    refine ⟨fun st loc hf => loadImage_refuses h hf, fun h0 => ?_, fun st hf ht => loadImage_refuses_tensors h hf ht, fun hf ht => ?_⟩
    · rw [h0]; exact loadTensors_zero s _ _
    · obtain ⟨hgood, hfit⟩ := of_imageFault_none hf
      obtain ⟨hlo, hhi, hfree⟩ := (codeUnused_iff s1 _).mp (newCode_unused himages)
      have hexec := (exec_loadImage_ready h).trans
        (congrArg _ (loadImage_of_ok (s := s.awake) (s1 := s1.awake) hf (loadTensors_awake ht)))
      obtain ⟨hdone, hhead, hentry⟩ := done_addImage s1 f (imageOf (s1.fnPart f) bs (split [] none 0 ws))
        (leBytes 8 s1.newCode ++ leBytes 2 (leAt bs 8 2))
      refine ⟨_, s1.newCode, _, hexec, hdone, hhead, hlo, hhi, hfree, ?_, ?_, rfl, rfl, climb_imageOf hgood, static_imageOf hgood, rfl,
        fun e he => entry_imageOf _ _ _ he, rfl, rfl, wordsPlaced_imageOf _ _ _ hfit⟩
      · exact (congrArg (fun m => get none m s1.newCode) hentry).trans (get_set_self _ _ _ _)
      · exact fun i hi => (congrArg (fun m => get none m i) hentry).trans (get_set_other _ _ _ hi)
  case allocTensor =>
    intro f s h bs y
    refine ⟨fun st hf => denied_of (exec_allocTensor_of_error h (createTensor_of_fault hf)),
      fun hf hh => denied_of (exec_allocTensor_of_error h (createTensor_of_noHandle hf hh)), fun n hf hh => ?_⟩
    have hexec := exec_allocTensor_of_ok h (createTensor_of_handle hf hh)
    simp only [formOf_addTensor] at hexec
    obtain ⟨hdone, hhead, htensors, hviews⟩ := done_addTensor s f y n (leBytes 4 y.id ++ leBytes 4 ((s.rootView y n).gen.toNat * 2 ^ 20 + n))
    obtain ⟨l, hlock⟩ := lock_fresh_kept s y
    refine ⟨_, s.rootView y n, hexec, hdone, hhead, ⟨s.lock y.fresh, ?_, ?_, ?_, ?_, ?_⟩, ?_, ?_, ?_, rfl⟩
    · exact (congrArg (fun m => get none m y.id) htensors).trans (get_set_self _ _ _ _)
    · rw [hlock]
    · intro hc; rw [hlock]; exact tiles_fresh_plain hc
    · exact fun ht h2 i hlo hhi => get_locked_fresh s ht h2 hlo hhi
    · intro k hc hk; rw [hlock]; exact tile_fresh_covered hc hk
    · exact fun i hi => (congrArg (fun m => get none m i) htensors).trans (get_set_other _ _ _ hi)
    · exact (congrArg (fun m => get {} m n) hviews).trans (get_set_self _ _ _ _)
    · exact fun i hi => (congrArg (fun m => get {} m i) hviews).trans (get_set_other _ _ _ hi)
  case noTensor =>
    intro f y s op i hi h
    obtain ⟨act, hexec⟩ := exec_withTensor hi h
    exact ⟨fun hn => denied_of (hexec.trans (congrArg _ (withTensor_none (s := s.awake) f act hn))),
      fun hy hp => denied_of (hexec.trans (congrArg _ (withTensor_other (s := s.awake) act hy hp)))⟩
  case freeTensor =>
    intro f y s h hy hp hid
    have hexec := exec_freeTensor_own h hy hp
    refine ⟨fun hno => denied_of (hexec.trans (by rw [if_pos hno])), fun hv hs => ?_⟩
    rw [if_neg (by simp [hv, hs])] at hexec
    obtain ⟨hended, hfreed, hviews⟩ := ended_freeTensor (hid ▸ hy : s.tensor y.id = some y) f
    refine ⟨_, hexec, hended, fun n hu ht => ?_, hfreed.self, hfreed.others⟩
    rw [hviews, used_foldl_freeView, decide_eq_false (not_not_intro (mem_viewsOn hu ht)), Bool.false_and]
  case invalidate =>
    intro f lo n y s h hy hp
    obtain ⟨hdone, hhead, hunits⟩ := done_units s f (s.units.map (fun p => (p.1, p.2.forgetTiles y.id lo n)))
    refine ⟨_, exec_invalidate_own h hy hp, hdone, hhead, fun u => ?_⟩
    have hcore := (congrArg (fun us => get {} us u) hunits).trans (get_forgetTiles s.units y.id lo n u)
    rw [State.core, hcore]
    exact ⟨rfl, mem_ttb_forgetTiles _ _ _ _⟩
  case moveTile =>
    intro f n tier stack y s h hy hp
    have hexec := exec_moveTile_own (n := n) (tier := tier) (stack := stack) h hy hp
    refine ⟨fun ht hs htiled hn => ?_, fun hno => denied_of (hexec.trans (congrArg _ (if_pos ?_)))⟩
    · have hneg : ¬ (3 ≤ tier ∨ stacksOf tier ≤ stack ∨ y.tiled = false ∨ y.tileCount ≤ n) := by
        rw [stacksOf_eq ht, htiled]
        simp only [Bool.true_eq_false, false_or, not_or, not_le]
        exact ⟨ht, hs, hn⟩
      rw [if_neg hneg] at hexec
      obtain ⟨ds, hr, x, hx, hmove⟩ := askMove_kept s.awake { tid := y.id, tile := n, tier := tier, stack := stack, part := y.part }
      rw [hr] at hexec hx
      obtain ⟨hdone, hhead, hdies⟩ := done_dies s f ds
      exact ⟨_, hexec, hdone, hhead, x, by rw [State.moves_, hdies]; exact hx, hmove⟩
    · by_cases h3 : 3 ≤ tier
      · exact .inl h3
      · rw [stacksOf_eq (by omega)]; exact hno
  case createCrossing =>
    intro f s h p
    have hexec := exec_createCrossing_ready h
    refine ⟨fun hc => denied_of (hexec.trans (congrArg _ (createCrossing_of_none (s := s.awake) hc))), fun c y hc => ?_⟩
    intro taken
    -- the views of the slots, with the module awake
    have hawake := slotViews_awake s p y.id (rowElems y.fmt) c.rows 0 c.nslots
    refine ⟨fun ht => denied_of (hexec.trans (congrArg _ (createCrossing_of_taken (s := s.awake) hc ht))),
      fun st ht hp => denied_of (hexec.trans (congrArg _ (createCrossing_of_place (s := s.awake) hc ht hp))),
      fun ht hp hv => denied_of (hexec.trans (congrArg _ (createCrossing_of_views (s := s.awake) hc ht hp
        (hawake.trans (congrArg (Option.map _) hv))))), fun s1 hs ht hp hv hf => ?_, fun s1 hs s2 fs hsend hrecv hp hv hf hroom => ?_⟩
    · have hf' := (slotFrames_awake s1 p (nearStack y.home) y.fsz c.nslots).trans (congrArg (Option.map _) hf)
      exact denied_of (hexec.trans (congrArg _ (createCrossing_of_frames (s := s.awake) hc ht hp (hawake.trans (congrArg (Option.map _) hv)) hf')))
    · have hfree : ¬ taken := by simp only [taken, hsend, hrecv, ne_eq, not_true_eq_false, or_self, not_false_eq_true]
      obtain ⟨⟨vs, k, hs1⟩, hhs⟩ := slotViews_kept hv
      obtain ⟨⟨m, po, st, ps, fr, i, hs2⟩, hfs, -⟩ := slotFrames_kept (k := 0) hf
      obtain ⟨hhead, hsent, hrecvd, hcross, htensor⟩ := entered_finish (s := s) (s2 := s2) (c := c) (y := y) (hs := hs) (fs := fs)
        s.newCrossing f (((hs.map (fun h => leBytes 4 (s2.formOf h).toNat)).flatten ++ List.replicate 16 0).take 16 ++ leBytes 4 y.id) (by rw [hs2, hs1])
      refine ⟨_, s.newCrossing, _, _, exec_createCrossing_of_ok h hc hfree hp hv hf hroom, hhead, hsent, hrecvd,
        get_foldl_max_succ none s.crossings, hcross, rfl, fun i hi => ?_, htensor, rfl, fun i hi => ?_⟩
      · have hh := List.getElem?_eq_getElem (l := hs) (i := i) (by omega)
        rw [slot_newSlots (c := c) hh]
        exact ⟨rfl, rfl, _, hh, rfl⟩
      · have hg := List.getElem?_eq_getElem (l := fs) (i := i) (by omega)
        rw [tile_slotTiles (y := y) hg]
        exact ⟨rfl, rfl, rfl⟩
  case destroyCrossing =>
    intro f x c y s h hy hp hx hc
    have hexec := exec_destroyCrossing_own h hy hp hx hc
    refine ⟨fun hs => ?_, fun hs => ?_⟩
    · rw [if_pos hs] at hexec
      exact ⟨_, hexec, rfl, (get_set_self none s.crossings x _).trans (congrArg (Option.map _) hc)⟩
    · rw [if_neg (by simp [hs])] at hexec
      obtain ⟨hended, hcross, htensor, hsend, hrecv, hviews⟩ := dropped_finish s x c f
      refine ⟨_, hexec, hended, hcross, htensor, hsend, hrecv, fun n hu ht => ?_⟩
      rw [hviews, used_foldl_freeView, decide_eq_false (not_not_intro (mem_viewsOn hu ht)), Bool.false_and]
  case jobs =>
    intro f u b k j x s i hframe hb hk hslot hj hx hpart
    have hx' : s.part j.part = some x := hpart ▸ hx
    refine ⟨fun h hrun h0 => ?_, fun h hrun => ?_, fun h => ?_⟩
    · have hyes : s.partRuns (s.fnPart f) = true := by rw [partRuns_eq hx]; exact decide_eq_true hrun
      have hexec := exec_jobRestart_of h hframe
      rw [if_pos hyes] at hexec
      obtain ⟨hkept, hfault, hjob⟩ := restartJob_kept (s := s.awake) hk hslot hj hx' h0
      obtain ⟨hended, hbank, x', hxp, hfree⟩ := slotFreed_finish (s := s) (f := f) ⟨hkept.mem, hkept.funcs, hkept.parts⟩
      exact ⟨_, x', hexec, hended, (congrArg Bank.fault (hbank u b)).trans hfault, (congrArg Bank.job (hbank u b)).trans hjob, hpart ▸ hxp, hfree⟩
    · have hno : s.partRuns (s.fnPart f) = false := by rw [partRuns_eq hx]; exact decide_eq_false hrun
      exact ⟨s.awake, (exec_jobRestart_of h hframe).trans (by rw [hno]; rfl), rfl⟩
    · obtain ⟨hbank, hkept⟩ := discardStopped_kept (s := s.awake) hk hslot hj hx'
      obtain ⟨hended, hsame, x', hxp, hfree⟩ := slotFreed_finish (s := s) (f := f) ⟨hkept.mem, hkept.funcs, hkept.parts⟩
      exact ⟨_, x', exec_jobDiscard_of h hframe, hended, (hsame u b).trans hbank, hpart ▸ hxp, hfree⟩
  case context =>
    intro f k c s h o
    refine ⟨fun ho => denied_of (exec_releaseContext_none h ho), fun p ho hp => ?_, fun ho hu => ?_, fun ho hu => ?_⟩
    · exact denied_of ((exec_releaseContext_some h ho).trans (by rw [if_pos hp]))
    · exact ⟨s.awake, (exec_releaseContext_some h ho).trans (by rw [if_neg (not_not_intro rfl), if_pos hu]), rfl⟩
    · have hexec := exec_releaseContext_some h ho
      rw [if_neg (not_not_intro rfl), if_neg (by simp [hu])] at hexec
      obtain ⟨hdone, hhead, hbunits⟩ := done_bunits s f (s.awake.onBunit k (fun x => x.onCtx c (fun y => { y with owner := none }))).bunits
      have hctx := fun d => (congrArg (fun x : BUnit => x.ctx d) (bunit_of_bunits hbunits k)).trans (ctx_release s.awake k c d)
      refine ⟨_, hexec, hdone, hhead, ?_, fun d hd => ?_⟩
      · exact (hctx c).trans (if_pos rfl)
      · exact (hctx d).trans (if_neg hd)

end Sys2Proof.Machine
end

section
/-!
PROOF. The scalar forms of the control engine (03 R62 to R73): an issue that writes one register or one predicate, and the values written.
-/

namespace Sys2Proof.Machine

open Sys2Proof.Safety Sys2Proof.Spec

/-! ### An issue of the control stream that writes one register -/

section
variable {s : State} {f : Bank → Bank}

/-- Where `f` leaves the executing bank as it is, the control stream issues and no register changes. -/
theorem eff_of_same (h : f s.me = s.me) (d : BitVec 5) :
    ∃ t, s.eff 0 f = .next t ∧ ControlRegs s t ∧ WroteS s t d (s.me.rdS d) ∧ t.me.s = s.me.s := by
  refine ⟨_, rfl, ⟨onlyBank_onMe s _, ?_⟩, fun r h30 h31 => ?_, ?_⟩
  · rw [me_onMe, h]
    exact ⟨issued_advance 0 (fun _ => rfl) rfl, rfl⟩
  · rw [me_onMe, h, rdS_advance _ _ _ _ h30 h31]
    split
    · rename_i hr; rw [hr.1]
    · rfl
  · rw [me_onMe, h]; rfl

/-- Where `f` writes register `d` with `v`, the control stream issues and nothing else changes. -/
theorem eff_of_wrS {d : BitVec 5} {v : DWord} (h : f s.me = s.me.wrS d v) :
    ∃ t, s.eff 0 f = .next t ∧ ControlRegs s t ∧ WroteS s t d v ∧ (d = 0 ∨ d = 30 ∨ d = 31 → t.me.s = s.me.s) := by
  refine ⟨_, rfl, ⟨onlyBank_onMe s _, ?_⟩, fun r h30 h31 => ?_, fun hd => ?_⟩
  · rw [me_onMe, h]
    exact ⟨issued_advance 0 (stream_wrS s.me d v) (Bank.wrS_imem s.me d v), kept_wrS s.me 0 d v⟩
  · rw [me_onMe, h, rdS_advance _ _ _ _ h30 h31, rdS_wrS]
    refine if_congr ⟨fun ⟨hr, h0, _⟩ => ⟨hr, h0⟩, fun ⟨hr, h0⟩ => ⟨hr, h0, hr ▸ h30, hr ▸ h31⟩⟩ rfl rfl
  · rw [me_onMe, h, Bank.wrS, if_pos hd]; rfl

/-- The same under a guard: without it `f` leaves the bank as it is (03 R64). -/
theorem eff_of_guarded {d : BitVec 5} {g : BitVec 3} {v : DWord} (h : f s.me = if s.me.rdP g = true then s.me.wrS d v else s.me) :
    ∃ t, s.eff 0 f = .next t ∧ ControlRegs s t ∧ WroteS s t d (if s.me.rdP g = true then v else s.me.rdS d)
      ∧ (s.me.rdP g = false ∨ d = 0 ∨ d = 30 ∨ d = 31 → t.me.s = s.me.s) := by
  by_cases hg : s.me.rdP g = true
  · rw [if_pos hg] at h ⊢
    obtain ⟨t, ht, hregs, hwrote, hsame⟩ := eff_of_wrS h
    exact ⟨t, ht, hregs, hwrote, fun hd => hsame (hd.resolve_left (by simp [hg]))⟩
  · rw [if_neg hg] at h ⊢
    obtain ⟨t, ht, hregs, hwrote, hsame⟩ := eff_of_same h d
    exact ⟨t, ht, hregs, hwrote, fun _ => hsame⟩

/-- Where `f` writes predicate `d` with `v` if `g` holds, the control stream issues and nothing else changes. -/
theorem eff_of_wrP {d : BitVec 3} {g v : Bool} (h : f s.me = if g = true then s.me.wrP d v else s.me) :
    ∃ t, s.eff 0 f = .next t ∧ PredicateRegs s t ∧ WroteP s t g d v := by
  refine ⟨_, rfl, ⟨onlyBank_onMe s _, ?_⟩, fun r => ?_⟩ <;> rw [me_onMe, h]
  · split
    · exact ⟨issued_advance 0 (stream_wrP s.me d v) (Bank.wrP_imem s.me d v), kept_wrP s.me 0 d v⟩
    · exact ⟨issued_advance 0 (fun _ => rfl) rfl, rfl⟩
  · rw [rdP_advance]
    by_cases hg : g = true
    · rw [if_pos hg, rdP_wrP]; simp only [hg, true_and]
    · rw [if_neg hg, if_neg (fun x => hg x.1)]

end

/-! ### The values of the register forms (03 R65 to R67) -/

/-- Bits [127:64] of a product are its quotient by 2^64. -/
theorem upper_eq_ofInt (p : Int) : upper p = BitVec.ofInt 64 (p / 2 ^ 64) := by
  apply BitVec.eq_of_toNat_eq
  rw [upper, BitVec.extractLsb'_toNat, BitVec.toNat_ofInt, BitVec.toNat_ofInt, Nat.shiftRight_eq_div_pow]
  push_cast
  omega

theorem mulHS_eq_upper (x y : DWord) : mulHS x y = upper (x.toInt * y.toInt) := (upper_eq_ofInt _).symm

theorem mulHU_eq_upper (x y : DWord) : mulHU x y = upper (x.toNat * y.toNat) := by
  rw [upper_eq_ofInt, mulHU, ← BitVec.ofInt_natCast]
  push_cast
  rfl

/-- Which of two operands is the lesser may be asked with `<` or with `≤`: operands that compare as equal are the same. -/
theorem ite_lt_eq_ite_le {α β : Type} [LinearOrder β] {f : α → β} (hf : f.Injective) (x y : α) :
    ((if f x < f y then x else y) = if f x ≤ f y then x else y) ∧ (if f x < f y then y else x) = if f x ≤ f y then y else x := by
  rcases lt_trichotomy (f x) (f y) with h | h | h
  · simp [h, h.le]
  · simp [hf h]
  · simp [h.not_gt, h.not_ge]

theorem smin_eq {n : Nat} (x y : BitVec n) : smin x y = if x.toInt ≤ y.toInt then x else y := by
  simp only [smin, BitVec.slt, decide_eq_true_eq]
  exact (ite_lt_eq_ite_le (fun _ _ => BitVec.eq_of_toInt_eq) x y).1

theorem smax_eq {n : Nat} (x y : BitVec n) : smax x y = if x.toInt ≤ y.toInt then y else x := by
  simp only [smax, BitVec.slt, decide_eq_true_eq]
  exact (ite_lt_eq_ite_le (fun _ _ => BitVec.eq_of_toInt_eq) x y).2

theorem umin_eq {n : Nat} (x y : BitVec n) : umin x y = if x.toNat ≤ y.toNat then x else y := by
  simp only [umin, BitVec.ult, decide_eq_true_eq]
  exact (ite_lt_eq_ite_le (fun _ _ => BitVec.eq_of_toNat_eq) x y).1

theorem umax_eq {n : Nat} (x y : BitVec n) : umax x y = if x.toNat ≤ y.toNat then y else x := by
  simp only [umax, BitVec.ult, decide_eq_true_eq]
  exact (ite_lt_eq_ite_le (fun _ _ => BitVec.eq_of_toNat_eq) x y).2

/-- Each register form is a guarded one with the value of its rule. -/
theorem exec_regForms : ∀ p ∈ regForms, ∀ (d a b : BitVec 5) (g : BitVec 3) (s : State), exec (p.1 d a b g) s = s.alu d a b g p.2 := by
  have hmulh : mulHS = fun x y => upper (x.toInt * y.toInt) := funext₂ mulHS_eq_upper
  have hmulhu : mulHU = fun x y => upper (x.toNat * y.toNat) := funext₂ mulHU_eq_upper
  have hmin : @smin 64 = fun x y => if x.toInt ≤ y.toInt then x else y := funext₂ smin_eq
  have hmax : @smax 64 = fun x y => if x.toInt ≤ y.toInt then y else x := funext₂ smax_eq
  have hminu : @umin 64 = fun x y => if x.toNat ≤ y.toNat then x else y := funext₂ umin_eq
  have hmaxu : @umax 64 = fun x y => if x.toNat ≤ y.toNat then y else x := funext₂ umax_eq
  simp only [regForms, List.forall_mem_cons, List.not_mem_nil, false_implies, implies_true, and_true, ← hmulh, ← hmulhu, ← hmin, ← hmax, ← hminu, ← hmaxu]
  and_intros <;> intros <;> rfl

/-- Settles O1: each form is a guarded write of its value. -/
theorem scalarRegisterFormsWriteTheirResult : Obligations.ScalarRegisterFormsWriteTheirResult := by
  unfold Obligations.ScalarRegisterFormsWriteTheirResult
  intro p hp d a b g s
  rw [exec_regForms p hp]
  exact eff_of_guarded rfl

/-! ### The values of the predicate forms (03 R68) -/

/-- Each condition is the one that `CMP` evaluates for its number. -/
theorem cond_conditions : ∀ x ∈ conditions, ∀ a b : DWord, cond x.1 a b = x.2 a b := by
  simp only [conditions, List.forall_mem_cons, List.not_mem_nil, false_implies, implies_true, and_true]
  refine ⟨fun a b => rfl, fun a b => rfl, fun a b => rfl, fun a b => ?_, fun a b => rfl, fun a b => ?_⟩
  · show (!decide (a.toInt < b.toInt)) = _
    rw [← decide_not, decide_eq_decide, not_lt]
  · show (!decide (a.toNat < b.toNat)) = _
    rw [← decide_not, decide_eq_decide, not_lt]

/-- Settles O2: each form is a guarded write of its predicate. -/
theorem predicateFormsWriteTheirPredicate : Obligations.PredicateFormsWriteTheirPredicate := by
  unfold Obligations.PredicateFormsWriteTheirPredicate
  refine ⟨fun x hx d a b g s => ?_, fun d a b g s => ⟨eff_of_wrP rfl, eff_of_wrP rfl, eff_of_wrP rfl⟩, fun d a g s => eff_of_wrP rfl⟩
  rw [← cond_conditions x hx]
  exact eff_of_wrP rfl

/-! ### Counting and bit fields (03 R70, R71) -/

/-- `CLZ` counts the zero bits above the highest one bit. -/
theorem clz64_spec (x : DWord) : clz64 x ≤ 64 ∧ (x = 0 → clz64 x = 64) ∧ (x ≠ 0 → clz64 x < 64 ∧ x.getLsbD (63 - clz64 x) = true)
    ∧ ∀ i, 63 - clz64 x < i → x.getLsbD i = false := by
  by_cases h0 : x = 0
  · subst h0
    exact ⟨by decide, fun _ => rfl, fun h => absurd rfl h, fun i _ => BitVec.getLsbD_zero⟩
  · have hn : x.toNat ≠ 0 := fun h => h0 (BitVec.eq_of_toNat_eq h)
    have hlog : x.toNat.log2 < 64 := (Nat.log2_lt hn).mpr x.isLt
    have hc : clz64 x = 63 - x.toNat.log2 := if_neg h0
    have hb : 63 - clz64 x = x.toNat.log2 := by omega
    rw [hb, ← BitVec.testBit_toNat]
    refine ⟨by omega, fun h => absurd h h0, fun _ => ⟨by omega, Nat.testBit_log2 hn⟩, fun i hi => ?_⟩
    rw [← BitVec.testBit_toNat]
    exact Nat.testBit_lt_two_pow ((Nat.log2_lt hn).mp hi)

/-- `POPC` counts the one bits. -/
theorem popc_eq_countP (n x : Nat) : popc n x = (List.range n).countP (fun i => x.testBit i) := by
  induction n generalizing x with
  | zero => rfl
  | succ n ih =>
    have hshift : (fun i => x.testBit i) ∘ Nat.succ = fun i => (x / 2).testBit i := funext (Nat.testBit_succ x)
    rw [popc, ih, List.range_succ_eq_map, List.countP_cons, List.countP_map, hshift, Nat.testBit_zero, Nat.add_comm]
    rcases Nat.mod_two_eq_zero_or_one x with h | h <;> simp [h]

/-- `BFX` takes the bits of the field, with zeros above. -/
theorem getLsbD_bfxVal (a b : DWord) {j : Nat} (h : j < 64) :
    (bfxVal a b).getLsbD j = (decide (j < fieldWidth b) && a.getLsbD (fieldPos b + j)) := by
  rw [bfxVal, BitVec.getLsbD_ofNat, Nat.testBit_mod_two_pow, Nat.testBit_div_two_pow, BitVec.testBit_toNat, decide_eq_true h, Bool.true_and,
    Nat.add_comm j]

/-- `BFI` replaces the bits of the field and no other. -/
theorem getLsbD_bfiVal (d a b : DWord) {j : Nat} (h : j < 64) : (bfiVal d a b).getLsbD j
    = if fieldPos b ≤ j ∧ j < fieldPos b + fieldWidth b then a.getLsbD (j - fieldPos b) else d.getLsbD j := by
  simp only [bfiVal, BitVec.getLsbD_or, BitVec.getLsbD_and, BitVec.getLsbD_not, BitVec.getLsbD_ofNat, Nat.testBit_mul_two_pow,
    Nat.testBit_two_pow_sub_one, BitVec.testBit_toNat, h, decide_true, Bool.true_and]
  by_cases hp : fieldPos b ≤ j
  · by_cases hw : j < fieldPos b + fieldWidth b
    · have hj : j - fieldPos b < fieldWidth b := by omega
      simp [hp, hw, hj]
    · have hj : ¬ j - fieldPos b < fieldWidth b := by omega
      simp [hp, hw, hj]
  · simp [hp]

/-- Settles O3: SEL writes one of its sources, the others write under their guard the value that the lemmas above describe. -/
theorem selectionCountingAndBitFields : Obligations.SelectionCountingAndBitFields := by
  unfold Obligations.SelectionCountingAndBitFields
  intro d a b g s x pos w
  have guarded : ∀ {f : Bank → Bank} {v : DWord}, (f s.me = if s.me.rdP g = true then s.me.wrS d v else s.me) →
      ∃ t, s.eff 0 f = .next t ∧ ControlRegs s t ∧ WroteS s t d (if s.me.rdP g = true then v else s.me.rdS d) := by
    intro f v h
    obtain ⟨t, ht, hregs, hwrote, -⟩ := eff_of_guarded h
    exact ⟨t, ht, hregs, hwrote⟩
  refine ⟨?_, ⟨clz64 x, ?_⟩, ?_, ⟨bfxVal x (s.me.rdS b), ?_⟩, bfiVal (s.me.rdS d) x (s.me.rdS b), ?_⟩
  · obtain ⟨t, ht, hregs, hwrote, -⟩ := eff_of_wrS (s := s) (f := fun k => k.wrS d (if k.rdP g then k.rdS a else k.rdS b)) rfl
    exact ⟨t, ht, hregs, hwrote⟩
  · obtain ⟨hle, hzero, hbit, hhigh⟩ := clz64_spec x
    exact ⟨hle, hzero, hbit, hhigh, guarded rfl⟩
  · have hpop : popc 64 x.toNat = (List.range 64).countP (fun i => x.getLsbD i) := popc_eq_countP 64 x.toNat
    rw [← hpop]
    exact guarded rfl
  · obtain ⟨t, ht, hregs, hwrote⟩ := guarded (v := bfxVal x (s.me.rdS b)) (f := fun k => if k.rdP g then k.wrS d (bfxVal (k.rdS a) (k.rdS b)) else k) rfl
    exact ⟨t, ht, hregs, hwrote, fun j hj => getLsbD_bfxVal x _ hj⟩
  · obtain ⟨t, ht, hregs, hwrote⟩ := guarded (v := bfiVal (s.me.rdS d) x (s.me.rdS b))
      (f := fun k => if k.rdP g then k.wrS d (bfiVal (k.rdS d) (k.rdS a) (k.rdS b)) else k) rfl
    exact ⟨t, ht, hregs, hwrote, fun j hj => getLsbD_bfiVal _ x _ hj⟩

/-! ### Immediates and moves (03 R72, R73) -/

/-- Each immediate form writes the value of its rule for the sign-extended immediate. -/
theorem exec_immForms : ∀ p ∈ immForms, ∀ (d a : BitVec 5) (i : BitVec 12) (s : State),
    exec (p.1 d a i) s = s.aluI d a (fun x => p.2 x (i.signExtend 64)) := by
  have hmin : @smin 64 = fun x y => if x.toInt ≤ y.toInt then x else y := funext₂ smin_eq
  have hmax : @smax 64 = fun x y => if x.toInt ≤ y.toInt then y else x := funext₂ smax_eq
  simp only [immForms, List.forall_mem_cons, List.not_mem_nil, false_implies, implies_true, and_true, ← hmin, ← hmax]
  and_intros <;> intros <;> rfl

theorem exec_shiftForms : ∀ p ∈ shiftForms, ∀ (d a : BitVec 5) (i : BitVec 6) (s : State),
    exec (p.1 d a i) s = s.aluI d a (fun x => p.2 x i.toNat) := by
  simp only [shiftForms, List.forall_mem_cons, List.not_mem_nil, false_implies, implies_true, and_true]
  and_intros <;> intros <;> rfl

/-- `MOVLH` puts its literal over the low half of the register. -/
theorem movlh_value (lit : Word) (x : DWord) : BitVec.ofNat 64 (lit.toNat * 2 ^ 32 + x.toNat % 2 ^ 32) = lit ++ x.extractLsb' 0 32 := by
  apply BitVec.eq_of_toNat_eq
  rw [BitVec.toNat_ofNat, BitVec.toNat_append, BitVec.extractLsb'_toNat, Nat.shiftRight_zero,
    ← Nat.shiftLeft_add_eq_or_of_lt (Nat.mod_lt _ (Nat.two_pow_pos 32)), Nat.shiftLeft_eq]
  have := lit.isLt
  omega

/-- Settles O4: each form is a write of its value, unguarded. -/
theorem immediateFormsAndMoves : Obligations.ImmediateFormsAndMoves := by
  unfold Obligations.ImmediateFormsAndMoves
  have writes : ∀ {s : State} {f : Bank → Bank} {d : BitVec 5} {v : DWord}, f s.me = s.me.wrS d v →
      ∃ t, s.eff 0 f = .next t ∧ ControlRegs s t ∧ WroteS s t d v := by
    intro s f d v h
    obtain ⟨t, ht, hregs, hwrote, -⟩ := eff_of_wrS h
    exact ⟨t, ht, hregs, hwrote⟩
  refine ⟨fun p hp d a i s => ?_, fun p hp d a i s => ?_, fun d a i s => ⟨eff_of_wrP rfl, ?_, eff_of_wrP rfl⟩,
    fun d i lit s => ⟨writes rfl, writes rfl, ?_⟩⟩
  · rw [exec_immForms p hp]
    exact writes rfl
  · rw [exec_shiftForms p hp]
    exact writes rfl
  · have hlt : decide ((s.me.rdS a).toInt < i.toInt) = (s.me.rdS a).slt (sx i) := by
      rw [BitVec.slt, sx, BitVec.toInt_signExtend_of_le (by decide)]
    rw [hlt]
    exact eff_of_wrP rfl
  · rw [← movlh_value]
    exact writes rfl

end Sys2Proof.Machine
end

section
/-!
PROOF. Scalar data memory (03 R74 to R77): the checks of an access, and its effect where they pass.
-/

namespace Sys2Proof.Machine

open Sys2Proof.Safety Sys2Proof.Spec

/-- The number that `n` bytes of the little-endian form of a number hold, byte by byte. -/
theorem getElem_leBytes (n v i : Nat) (h : i < (leBytes n v).length) : (leBytes n v)[i] = BitVec.ofNat 8 (v / 256 ^ i) := by
  induction n generalizing v i with
  | zero => cases h
  | succ n ih =>
    cases i with
    | zero => simp [leBytes]
    | succ i =>
      simp only [leBytes, List.getElem_cons_succ]
      rw [ih, Nat.div_div_eq_div_mul, Nat.pow_succ']

/-- The bytes of a number that has been written. -/
theorem rdByte_wrBytes_leBytes (m : List Host.Cell) (a v : Nat) {n i : Nat} (h : i < n) :
    rdByte (wrBytes m a (leBytes n v)) (a + i) = BitVec.ofNat 8 (v / 256 ^ i) :=
  (rdByte_wrBytes_in m a i (leBytes n v) (by rwa [length_leBytes])).trans (getElem_leBytes _ _ _ _)

/-! ### The checks of an access -/

theorem ea_eq_toNat (k : Bank) (a : BitVec 5) (o : BitVec 12) (n : Nat) : ea k a o n = (k.cdAddr a o n).toNat := rfl

theorem cd_of_fits (s : State) {x : DWord} {n : Nat} (f : Bank → Bank) (hn : 0 < n) (hr : x.toNat + n ≤ 0x10000) (ha : x.toNat % n = 0) :
    s.cd x n f = s.eff 0 f := by
  rw [State.cd, if_neg (by omega), if_neg (not_not_intro ha)]

theorem cd_of_range (s : State) {x : DWord} {n : Nat} (f : Bank → Bank) (hn : n ≤ 0x10000) (hr : 0x10000 < x.toNat + n) :
    s.cd x n f = s.fault 0 0x0004 x 0 := by
  rw [State.cd, if_pos (by omega)]

theorem cd_of_misaligned (s : State) {x : DWord} {n : Nat} (f : Bank → Bank) (hn : 0 < n) (hr : x.toNat + n ≤ 0x10000) (ha : x.toNat % n ≠ 0) :
    s.cd x n f = s.fault 0 0x0005 x 0 := by
  rw [State.cd, if_neg (by omega), if_pos ha]

/-! ### Loads and stores -/

/-- The sizes of an access: 1, 2, 4 or 8 bytes. -/
theorem sizes_memForms : ∀ p ∈ loadForms.map (fun x => (x.1, x.2.1)) ++ storeForms, 0 < p.2 ∧ p.2 ≤ 0x10000 := by
  simp only [loadForms, storeForms, List.map_cons, List.map_nil, List.cons_append, List.nil_append, List.forall_mem_cons, List.not_mem_nil,
    false_implies, implies_true, and_true]
  decide

theorem exec_loadForms : ∀ p ∈ loadForms, ∀ (d a : BitVec 5) (o : BitVec 12) (s : State),
    exec (p.1 d a o) s = s.load d a o p.2.1 p.2.2 := by
  simp only [loadForms, List.forall_mem_cons, List.not_mem_nil, false_implies, implies_true, and_true]
  and_intros <;> intros <;> rfl

theorem exec_storeForms : ∀ p ∈ storeForms, ∀ (v a : BitVec 5) (o : BitVec 12) (s : State), exec (p.1 v a o) s = s.store v a o p.2 := by
  simp only [storeForms, List.forall_mem_cons, List.not_mem_nil, false_implies, implies_true, and_true]
  and_intros <;> intros <;> rfl

/-- A load and a store make the same checks before their effect. -/
theorem exec_memForms {p : (BitVec 5 → BitVec 5 → BitVec 12 → Instr) × Nat} (hp : p ∈ loadForms.map (fun x => (x.1, x.2.1)) ++ storeForms)
    (d a : BitVec 5) (o : BitVec 12) (s : State) : ∃ f, exec (p.1 d a o) s = s.cd (s.me.cdAddr a o p.2) p.2 f := by
  rcases List.mem_append.mp hp with h | h
  · obtain ⟨q, hq, rfl⟩ := List.mem_map.mp h
    exact ⟨_, exec_loadForms q hq d a o s⟩
  · exact ⟨_, exec_storeForms p h d a o s⟩

theorem scalarLoadReadsItsBytes : ScalarLoadReadsItsBytes := by
  intro p hp d a o s hr ha
  rw [ea_eq_toNat] at hr ha
  have hsize := (sizes_memForms (p.1, p.2.1) (List.mem_append_left _ (List.mem_map_of_mem hp))).1
  rw [exec_loadForms p hp, State.load, cd_of_fits s _ hsize hr ha]
  obtain ⟨t, ht, hregs, hwrote, -⟩ := eff_of_wrS (s := s) (d := d)
    (f := fun k => k.wrS d (p.2.2 (leNat (k.sdmBytes (k.cdAddr a o p.2.1).toNat p.2.1)))) rfl
  exact ⟨t, ht, hregs, hwrote⟩

theorem scalarStoreWritesItsBytes : ScalarStoreWritesItsBytes := by
  intro p hp v a o s hr ha
  rw [ea_eq_toNat] at hr ha ⊢
  have hsize := (sizes_memForms p (List.mem_append_right _ hp)).1
  rw [exec_storeForms p hp, State.store, cd_of_fits s _ hsize hr ha]
  refine ⟨_, rfl, onlyBank_onMe s _, ?_⟩
  rw [me_onMe]
  refine ⟨issued_advance 0 (fun _ => rfl) rfl, rfl, fun i hi => ?_, fun x hx => ?_⟩
  · exact rdByte_wrBytes_leBytes s.me.sdm (s.me.cdAddr a o p.2).toNat (s.me.rdS v).toNat hi
  · exact rdByte_wrBytes_out s.me.sdm (s.me.cdAddr a o p.2).toNat x (leBytes p.2 (s.me.rdS v).toNat) (by rwa [length_leBytes])

theorem scalarMemoryFaultsChangeNothing : ScalarMemoryFaultsChangeNothing := by
  intro p hp d a o s hf
  obtain ⟨hpos, hle⟩ := sizes_memForms p hp
  obtain ⟨f, hexec⟩ := exec_memForms hp d a o s
  rw [hexec, ea_eq_toNat, BitVec.ofNat_toNat, BitVec.setWidth_eq]
  refine ⟨fun hr => ?_, fun hr ha => ?_⟩
  · rw [cd_of_range s f hle hr]
    exact stoppedBy_fault s 0 _ _ _ _ hf
  · rw [cd_of_misaligned s f hpos hr ha]
    exact stoppedBy_fault s 0 _ _ _ _ hf

/-- Settles O5, from the loads, the stores and the two faults. -/
theorem scalarMemoryAccesses : Obligations.ScalarMemoryAccesses :=
  ⟨scalarLoadReadsItsBytes, scalarStoreWritesItsBytes, scalarMemoryFaultsChangeNothing⟩

end Sys2Proof.Machine
end

section
/-!
PROOF. The CSRs (03 R81 to R92) and the checks of a write of DMR (13 R315, 19 R376).
-/

namespace Sys2Proof.Machine

open Sys2Proof.Safety Sys2Proof.Spec

/-! ### Reading -/

theorem toNat_ofNat_of_eq {x y : Nat} (h : x = y) (hy : y < 2 ^ 64) : (BitVec.ofNat 64 x).toNat = y := by
  rw [h, BitVec.toNat_ofNat, Nat.mod_eq_of_lt hy]

theorem toNat_zx {n : Nat} (x : BitVec n) (h : n ≤ 64) : (zx x).toNat = x.toNat :=
  (BitVec.toNat_setWidth 64 x).trans (Nat.mod_eq_of_lt (Nat.lt_of_lt_of_le x.isLt (Nat.pow_le_pow_right (by decide) h)))

/-- An entry of EPCQ reads as its address with the nullify flag above it. -/
theorem QEnt.toNat_bits (q : QEnt) : (BitVec.ofNat 64 q.bits).toNat = q.null.toNat * 2 ^ 13 + q.addr.toNat := by
  have ha := q.addr.isLt
  have hn := q.null.toNat_lt
  refine toNat_ofNat_of_eq ?_ (by omega)
  rw [QEnt.bits]
  cases q.null <;> simp [Nat.add_comm]

theorem toNat_statusCsr (s : State) (u : Nat) (k : Bank) : (BitVec.ofNat 64 (s.statusCsr u k)).toNat
    = k.csr.frz.toNat * 2 ^ 48 + 8 * k.csr.th.toNat + 4 * (s.tp u k).toNat + 2 * k.csr.tie.toNat := by
  have hfrz := k.csr.frz.isLt
  have hth := k.csr.th.toNat_lt
  have htp := (s.tp u k).toNat_lt
  have htie := k.csr.tie.toNat_lt
  exact toNat_ofNat_of_eq (by rw [State.statusCsr]; omega) (by omega)

theorem toNat_clst (c : Csr) : (BitVec.ofNat 64 c.clst).toNat
    = c.aborts.toNat * 2 ^ 32 + c.climbs.toNat * 2 ^ 16 + c.tier.toNat * 2 ^ 8 + c.last.toNat := by
  have haborts := c.aborts.isLt
  have hclimbs := c.climbs.isLt
  have htier := c.tier.isLt
  have hlast := c.last.isLt
  exact toNat_ofNat_of_eq rfl (by omega)

/-- Each CSR reads as the number that its field map gives. -/
theorem toNat_csr (s : State) : ∀ x ∈ csrValues s, (s.csr s.cur s.curB x.1.toNat).toNat = x.2 := by
  have hcode := s.me.csr.causeCode.isLt
  have hkind := s.me.csr.causeKind.isLt
  have hlevel := s.me.csr.dmrLevel.isLt
  have hid := s.me.csr.dmrId.isLt
  have hleave := s.me.leaveFlag.toNat_lt
  simp only [csrValues, List.forall_mem_cons, List.not_mem_nil, false_implies, implies_true, and_true]
  and_intros
  all_goals simp only [State.csr, BitVec.reduceToNat]
  · exact toNat_statusCsr s s.cur s.me
  · exact toNat_ofNat_of_eq rfl (by omega)
  · exact toNat_zx _ (by decide)
  · exact QEnt.toNat_bits _
  · exact QEnt.toNat_bits _
  · exact QEnt.toNat_bits _
  · rfl
  · exact toNat_ofNat_of_eq rfl (by omega)
  · exact toNat_zx _ (by decide)
  · exact toNat_zx _ (by decide)
  · exact toNat_clst _
  · rfl
  · rfl
  · exact BitVec.toNat_ofNat _ _
  · exact toNat_ofNat_of_eq rfl (Nat.lt_trans hleave (by decide))
  · exact BitVec.toNat_ofNat _ _
  · rfl

/-! ### Writing -/

/-- A field of a doubleword, as the model cuts it out. -/
theorem ofNat_div_eq_extractLsb' (v : DWord) (lo n : Nat) : BitVec.ofNat n (v.toNat / 2 ^ lo) = v.extractLsb' lo n := by
  rw [← Nat.shiftRight_eq_div_pow]; rfl

theorem setWidth_eq_field (v : DWord) (n : Nat) : v.setWidth n = v.extractLsb' 0 n := by
  rw [← ofNat_div_eq_extractLsb', pow_zero, Nat.div_one]; exact (BitVec.ofNat_toNat n v).symm

/-- A write of a CSR takes the bits of its RW fields. -/
theorem write_csrWrites (c : Csr) (v : DWord) : ∀ x ∈ csrWrites c v, c.write x.1.toNat v = x.2 := by
  simp only [csrWrites, List.forall_mem_cons, List.not_mem_nil, false_implies, implies_true, and_true, ← ofNat_div_eq_extractLsb' v 48,
    ← ofNat_div_eq_extractLsb' v 32, ← setWidth_eq_field]
  and_intros <;> rfl

/-- A write of a CSR other than DMR and TICK issues with those fields taken. -/
theorem exec_csrw_of_csrWrites {s : State} {a : BitVec 5} : ∀ x ∈ csrWrites s.me.csr (s.me.rdS a),
    exec (.csrw a x.1) s = s.eff 0 (fun k => { k with csr := k.csr.write x.1.toNat (s.me.rdS a) }) := by
  simp only [csrWrites, List.forall_mem_cons, List.not_mem_nil, false_implies, implies_true, and_true]
  and_intros <;> rfl

/-! ### A write of TICK -/

/-- A map whose entries have all been changed by an `f` that keeps the default, and that may ask for the number of the entry. -/
theorem get_map_key {α : Type} (d : α) (f : Nat → α → α) (hd : ∀ i, f i d = d) (m : Map α) (k : Nat) :
    get d (m.map (fun p => (p.1, f p.1 p.2))) k = f k (get d m k) := by
  induction m with
  | nil => exact (hd k).symm
  | cons p m ih =>
    obtain ⟨i, v⟩ := p
    simp only [List.map_cons, get]
    split
    · subst_vars; rfl
    · exact ih

/-- Where the records of a bank are noted by `f`, each of them is an old one, as it was or changed by `f`. -/
theorem get_backs_note (k : Bank) (e : Nat) (f : Back → Back) {n : Nat} {y : Back} (h : get none (k.note e f).backs n = some y) :
    ∃ x, get none k.backs n = some x ∧ (y = x ∨ y = f x) := by
  have hkey := get_map_key none (fun i v => if (k.queue e).any (fun c => decide (c.seq = i)) then Option.map f v else v)
    (fun i => by split <;> rfl) k.backs n
  rw [show get none (k.note e f).backs n = _ from hkey] at h
  split at h
  · obtain ⟨x, hx, hy⟩ := Option.map_eq_some_iff.mp h
    exact ⟨x, hx, .inr hy.symm⟩
  · exact ⟨y, h, .inl rfl⟩

section
variable (s : State) (x : DWord)

/-- The state in which the count of the executing core stands at `x`. -/
def State.setTick : State := s.setCore s.cur { s.core s.cur with tick := x }

theorem core_setTick : (s.setTick x).core s.cur = { s.core s.cur with tick := x } := core_setCore_self s s.cur _

theorem curB_setTick : (s.setTick x).curB = s.curB := by
  unfold State.curB
  rw [show (s.setTick x).cur = s.cur from rfl, core_setTick]

theorem me_setTick : (s.setTick x).me = s.me := by
  unfold State.me State.bank
  rw [curB_setTick, show (s.setTick x).cur = s.cur from rfl, core_setTick]; rfl

/-- The executing core after a change of its bank in that state. -/
theorem core_onMe_setTick (f : Bank → Bank) :
    ((s.setTick x).onMe f).core s.cur = ({ s.core s.cur with tick := x }).setBank s.curB (f s.me) := by
  have h := core_onMe_self (s.setTick x) f
  rwa [me_setTick, curB_setTick, show (s.setTick x).cur = s.cur from rfl, core_setTick] at h

theorem onMe_setTick_rest (f : Bank → Bank) : { (s.setTick x).onMe f with units := s.units } = s := rfl

/-- A record with what a write has added to TICK (08 R210). -/
def Back.addTick (n : DWord) (y : Back) : Back := { y with tickBy := y.tickBy + n }

/-- A write of TICK sets the count of the core, so that TICK reads as written, notes by how much, and issues. -/
theorem exec_csrw_tick (a : BitVec 5) : ∃ x n, BitVec.ofNat 64 (unitClock s.cur s.now) + x = s.me.rdS a
    ∧ exec (.csrw a 12) s = (s.setTick x).eff 0 (fun k => k.note 0 (Back.addTick n)) :=
  ⟨_, _, (BitVec.add_comm _ _).trans (BitVec.sub_add_cancel _ _), rfl⟩

end

/-- Settles O11: a read is a write of the register with the value of the field map, a write one of the fields of its CSR or of the count of the core. -/
theorem csrsReadAndWriteTheirFields : Obligations.CsrsReadAndWriteTheirFields := by
  unfold Obligations.CsrsReadAndWriteTheirFields
  refine ⟨fun d s x hx => ?_, fun a s x hx => ?_, fun a s => ?_⟩
  · obtain ⟨t, ht, hregs, hwrote, -⟩ := eff_of_wrS (s := s) (d := d) (f := fun k => k.wrS d (s.csr s.cur s.curB x.1.toNat)) rfl
    exact ⟨t, _, ht, hregs, hwrote, toNat_csr s x hx⟩
  · rw [exec_csrw_of_csrWrites x hx]
    refine ⟨_, rfl, onlyBank_onMe s _, ?_⟩
    rw [me_onMe]
    exact ⟨issued_advance 0 (fun _ => rfl) rfl, rfl, write_csrWrites _ _ x hx⟩
  · obtain ⟨x, n, hx, hexec⟩ := exec_csrw_tick s a
    refine ⟨_, hexec, ?_⟩
    have hme : ((s.setTick x).onMe fun k => (k.note 0 (Back.addTick n)).advance 0).me = (s.me.note 0 (Back.addTick n)).advance 0 := by
      rw [me_onMe, me_setTick]
    have hcore := core_onMe_setTick s x (fun k => (k.note 0 (Back.addTick n)).advance 0)
    rw [RecordsKept, hme]
    refine ⟨?_, ?_, rfl, fun m y hy => ?_, onMe_setTick_rest s x _, issued_advance 0 (fun _ => rfl) rfl,
      fun u hu => (core_onMe_other (s.setTick x) _ hu).trans (core_setCore_other s _ hu), ⟨x, hcore⟩, fun _ => rfl⟩
    · rw [State.tickOf, hcore, Core.setBank_tick]; exact hx
    · rw [State.cycleOf, hcore, Core.setBank_cycle]; rfl
    · obtain ⟨z, hz, hyz⟩ := get_backs_note s.me 0 _ hy
      exact ⟨z, hz, by rcases hyz with rfl | rfl <;> rfl⟩

/-! ### DMR -/

/-- An illegal instruction of the control engine stops the job and changes nothing else. -/
theorem illegal_stops (s : State) (h : s.me.fault = none) :
    ∃ t da, s.illegal 0 = .next t ∧ StoppedBy s t s.cur s.curB 0 0x0001 da 0 0 := by
  obtain ⟨t, ht, hstop⟩ := stoppedBy_fault s 0 0x0001 (BitVec.ofNat 64 ((s.me.word 0 (s.me.stream 0).q0.addr).toNat % 2 ^ 32)) 0 0 h
  exact ⟨t, _, ht, hstop⟩

/-- Settles O12: the fields that a write of DMR cuts out are those of DMRSET, whose two checks come before everything else. -/
theorem csrwToDmrActsAsDmrset : Obligations.CsrwToDmrActsAsDmrset := by
  unfold Obligations.CsrwToDmrActsAsDmrset
  refine ⟨fun a s => ?_, fun l i s hf hbad => ?_, fun l i s j hf hj hclimb hl => ?_⟩
  · rw [← ofNat_div_eq_extractLsb', ← setWidth_eq_field]; rfl
  · rw [exec_dmrset, execDmrset, State.dmrSet, if_pos hbad]
    exact illegal_stops s hf
  · have hill : s.dmrSet l i = s.illegal 0 := by
      rw [State.dmrSet, hj]
      split
      · rfl
      · exact if_pos ⟨hclimb, hl⟩
    rw [exec_dmrset, execDmrset, hill]
    exact illegal_stops s hf

end Sys2Proof.Machine
end

section
/-!
SUPPORT. Commands that leave their queue, and accesses of global memory: the bank, the unit and the rest of the state behind them (08 R210; 09 R216, R226; 10 R258; 12 R286 to R288; 13 R318).
-/

namespace Sys2Proof.Machine

open Sys2Proof.Safety Sys2Proof.Spec

/-! ### A command leaves its queue -/

theorem mem_of_mem_dropNests {run : Option Nat} {c : Cmd} {l : List Cmd} : ∀ {inst : Bool}, c ∈ dropNests run inst l → c ∈ l := by
  induction l with
  | nil => exact fun h => h
  | cons d l ih =>
    intro inst h
    unfold dropNests at h
    split at h
    · split at h
      · exact List.mem_cons.mpr ((List.mem_cons.mp h).imp_right ih)
      · exact List.mem_cons_of_mem d (ih h)
    · exact List.mem_cons.mpr ((List.mem_cons.mp h).imp_right ih)

/-- Only entries of nests are dropped. -/
theorem mem_dropNests {run : Option Nat} {c : Cmd} (hc : c.isNest = false) {l : List Cmd} : ∀ {inst : Bool}, c ∈ l → c ∈ dropNests run inst l := by
  induction l with
  | nil => exact fun h => h
  | cons d l ih =>
    intro inst h
    unfold dropNests
    rcases List.mem_cons.mp h with rfl | h
    · rw [if_neg (by simp [hc])]
      exact List.mem_cons_self
    · split
      · split
        · exact List.mem_cons_of_mem d (ih h)
        · exact ih h
      · exact List.mem_cons_of_mem d (ih h)

theorem queue_finish_self (k : Bank) (e : Nat) (c : Cmd) : (k.finish e c).queue e
    = dropNests ((k.nest e).map (fun n => n.seq)) false ((k.queue e).filter (fun d => decide (d.seq ≠ c.seq))) := by
  show ((k.retire e c.seq).tidy e).queue e = _
  rw [Bank.tidy, queue_setQueue_self, Bank.retire, queue_setQueue_self]; rfl

theorem queue_finish_other (k : Bank) {e f : Nat} (c : Cmd) (h : f ≠ e) : (k.finish e c).queue f = k.queue f := by
  show ((k.retire e c.seq).tidy e).queue f = _
  rw [Bank.tidy, queue_setQueue_other _ _ h, Bank.retire, queue_setQueue_other _ _ h]

/-- A bank with the commands and departures of one in which a command has finished has lost that command. -/
theorem left_of_finish {k k' : Bank} {e : Nat} {c : Cmd} (hc : k'.cmds = (k.finish e c).cmds) (hd : k'.departed = (k.finish e c).departed) :
    Left k k' e c.seq := by
  have hq : ∀ f, k'.queue f = (k.finish e c).queue f := fun f => congrArg (fun m => get [] m f) hc
  refine ⟨?_, fun d hm hs hn => ?_, fun f hf => ?_, fun d hm => ?_⟩
  · rw [Bank.cmd, hq, queue_finish_self, List.find?_eq_none]
    intro d hm hs
    have h := (List.mem_filter.mp (mem_of_mem_dropNests hm)).2
    simp only [decide_eq_true_eq] at h hs
    exact h hs
  · rw [hq, queue_finish_self]
    exact mem_dropNests hn (List.mem_filter.mpr ⟨hm, decide_eq_true hs⟩)
  · rw [hq, queue_finish_other k c hf]
  · rw [hd] at hm
    exact of_decide_eq_true (List.mem_filter.mp hm).2

/-- A command found by its number has that number. -/
theorem seq_of_cmd {k : Bank} {e n : Nat} {c : Cmd} (h : k.cmd e n = some c) : c.seq = n := by
  simpa using List.find?_some h

/-! ### The records of a bank -/

theorem get_backs_forget (k : Bank) (n m : Nat) : get none (k.forget n).backs m = if m = n then none else get none k.backs m :=
  get_set none k.backs n m none

/-- The registers of a record of a command with number `m` as a load with number `n` leaves them: a later command finds its value there. -/
theorem get_backs_returned (k : Bank) (n : Nat) (d : BitVec 5) (v : DWord) (m : Nat) :
    get none (k.returned n d v).backs m = if m = n then none else (get none k.backs m).map (fun x =>
      if n < m then { x with s := ({ k with s := x.s }.wrS d v).s } else x) := by
  have hkey := get_map_key none (fun i y => if n < i then Option.map (fun x => { x with s := ({ k with s := x.s }.wrS d v).s }) y else y)
    (fun i => by split <;> rfl) ((k.wrS d v).forget n).backs m
  rw [show get none (k.returned n d v).backs m = _ from hkey, get_backs_forget, Bank.wrS_backs]
  by_cases hm : m = n
  · rw [if_pos hm, if_pos hm]; split <;> rfl
  · rw [if_neg hm, if_neg hm]
    split
    · simp only [*]
    · simp only [*, Option.map_id']

/-! ### A bank set, and nothing else of the units -/

/-- From `s` to `t` bank `b` of unit `u` has become `k`, and no other bank, row or unit has changed. -/
structure BankSet (s t : State) (u b : Nat) (k : Bank) : Prop where
  others : ∀ v, v ≠ u → t.core v = s.core v
  own    : t.core u = (s.core u).setBank b k

theorem Core.setBank_bank (c : Core) (b : Nat) : c.setBank b (c.bank b) = c := by
  unfold Core.setBank Core.bank; split <;> rfl

theorem Core.setBank_setBank (c : Core) (b : Nat) (k k' : Bank) : (c.setBank b k).setBank b k' = c.setBank b k' := by
  unfold Core.setBank; split <;> rfl

section
variable {s t r : State} {u b : Nat} {k k' : Bank}

theorem BankSet.refl (s : State) (u b : Nat) : BankSet s s u b (s.bank u b) := ⟨fun _ _ => rfl, (Core.setBank_bank _ b).symm⟩

theorem BankSet.bank (h : BankSet s t u b k) : t.bank u b = k := by
  rw [State.bank, h.own, Core.bank_setBank_self]

theorem BankSet.pad (h : BankSet s t u b k) : (t.core u).pad = (s.core u).pad := by rw [h.own, Core.setBank_pad]

theorem BankSet.trans (h : BankSet s t u b k) (h' : BankSet t r u b k') : BankSet s r u b k' :=
  ⟨fun v hv => (h'.others v hv).trans (h.others v hv), by rw [h'.own, h.own, Core.setBank_setBank]⟩

theorem BankSet.onBank (h : BankSet s t u b k) (f : Bank → Bank) : BankSet s (t.onBank u b f) u b (f k) :=
  h.trans ⟨fun _ hv => core_onBank_other t b f hv, by rw [core_onBank_self, h.bank]⟩

/-- What is said of the units holds of every state with these units. -/
theorem BankSet.of_units (h : BankSet s t u b k) (hu : r.units = t.units) : BankSet s r u b k := by
  have hcore : ∀ v, r.core v = t.core v := fun v => congrArg (fun m => get ({} : Core) m v) hu
  exact ⟨fun v hv => (hcore v).trans (h.others v hv), (hcore u).trans h.own⟩

/-! ### The buffer lent and taken back -/

theorem core_lend (s : State) (u b n i : Nat) : ∃ x, (s.lend u b n i).core u = { s.core u with ttb := x } :=
  ⟨_, core_setCore_self s u _⟩

@[simp] theorem bank_lend (s : State) (u b n i v d : Nat) : (s.lend u b n i).bank v d = s.bank v d := by
  unfold State.bank
  by_cases h : v = u
  · subst h
    obtain ⟨x, hx⟩ := core_lend s v b n i
    rw [hx]; rfl
  · rw [show (s.lend u b n i).core v = s.core v from core_setCore_other s _ h]

/-- With the buffer of the unit taken back, what a state behind a lent buffer has set of a bank is all that differs. -/
theorem BankSet.unlend {n i : Nat} (h : BankSet (s.lend u b n i) t u b k) : BankSet s (t.unlend s u) u b k := by
  refine ⟨fun v hv => ?_, ?_⟩
  · rw [show (t.unlend s u).core v = t.core v from core_setCore_other t _ hv, h.others v hv]
    exact core_setCore_other s _ hv
  · obtain ⟨x, hx⟩ := core_lend s u b n i
    rw [show (t.unlend s u).core u = { t.core u with ttb := (s.core u).ttb } from core_setCore_self t u _, h.own, hx]
    unfold Core.setBank; split <;> rfl

end

/-! ### The race step and the marks of an access -/

theorem Tensor.stamp_setStamp (z : Tensor) (n : Nat) (x : Stamp) : (z.setStamp n x).stamp n = x := by
  unfold Tensor.setStamp Tensor.stamp
  split
  · simp only [Tensor.tile, get_set_self]
  · rename_i h; simp only [h, Bool.false_eq_true, if_false, Tensor.granule, get_set_self]

/-- A tile marked dirty keeps every stamp. -/
theorem Tensor.stamp_dirty (z : Tensor) (n m : Nat) : ({ z with tiles := set {} z.tiles n { z.tile n with d := true } } : Tensor).stamp m = z.stamp m := by
  unfold Tensor.stamp
  split
  · unfold Tensor.tile
    simp only [get_set]
    split
    · subst_vars; rfl
    · rfl
  · rfl

theorem tensor_onTensor_self (s : State) (n : Nat) (f : Tensor → Tensor) : (s.onTensor n f).tensor n = (s.tensor n).map f :=
  get_set_self none s.tensors n _

section
variable {s t : State} {u b e : Nat} {ep : BitVec 13} {y : Tensor} {n : Nat} {a : AccKind}

/-- What a race step of a job that finds no race comes to: the tile is stamped, unless the access reads, and a tile tag of the bank may be marked. -/
theorem raceTile_ok {j : Job} (hj : (s.bank u b).job = some j) (h : s.raceTile u b e ep y n a = .ok t) :
    ∃ s1, (t = s1 ∨ ∃ f : Bank → Map Tag, t = s1.onBank u b (fun k => { k with ttags := f k }))
      ∧ (∃ tn, s1 = { s with tensors := tn }) ∧ (a = .read → s1 = s)
      ∧ (a = .write → s1 = s.onTensor y.id (fun z => z.setStamp n (s.stampOf j (s.bank u b)))) := by
  have tagged : ∀ {p : Prop} [Decidable p] {s1 : State} {f : Bank → Map Tag},
      Except.ok (ε := Flt) (if p then s1.onBank u b (fun k => { k with ttags := f k }) else s1) = .ok t →
      t = s1 ∨ ∃ f : Bank → Map Tag, t = s1.onBank u b (fun k => { k with ttags := f k }) := by
    intro p _ s1 f h
    split at h
    · exact .inr ⟨f, (Except.ok.inj h).symm⟩
    · exact .inl (Except.ok.inj h).symm
  cases a
  all_goals
    simp only [State.raceTile, hj, reduceCtorEq, if_true, if_false] at h
    split at h
    · cases h
    split at h
    · cases h
  · exact ⟨s, tagged h, ⟨s.tensors, rfl⟩, fun _ => rfl, nofun⟩
  · exact ⟨_, tagged h, ⟨_, rfl⟩, nofun, fun _ => rfl⟩
  · exact ⟨_, tagged h, ⟨_, rfl⟩, nofun, nofun⟩

/-- A race step that finds no race changes tile tags of the bank and, unless the access reads, tensors at most. -/
theorem raceTile_kept (h : s.raceTile u b e ep y n a = .ok t) :
    (∃ x, BankSet s t u b { s.bank u b with ttags := x }) ∧ ∃ us tn, t = { s with units := us, tensors := tn } ∧ (a = .read → tn = s.tensors) := by
  cases hj : (s.bank u b).job with
  | none =>
    have ht : s = t := by simpa only [State.raceTile, hj, Except.ok.injEq] using h
    subst ht
    exact ⟨⟨_, BankSet.refl s u b⟩, s.units, s.tensors, rfl, fun _ => rfl⟩
  | some j =>
    obtain ⟨s1, ht, ⟨tn, hs1⟩, hread, -⟩ := raceTile_ok hj h
    have hset : BankSet s s1 u b (s.bank u b) := (BankSet.refl s u b).of_units (by rw [hs1])
    have htn : a = .read → s1.tensors = s.tensors := fun ha => by rw [hread ha]
    rcases ht with rfl | ⟨f, rfl⟩
    · exact ⟨⟨_, hset⟩, t.units, t.tensors, by rw [hs1], htn⟩
    · exact ⟨⟨_, hset.onBank _⟩, _, s1.tensors, by rw [hs1]; rfl, htn⟩

/-- A plain write of a job stamps its tile (13 R318). -/
theorem raceTile_stamps {j : Job} {z : Tensor} (hj : (s.bank u b).job = some j) (hz : s.tensor y.id = some z)
    (h : s.raceTile u b e ep y n .write = .ok t) : t.tensor y.id = some (z.setStamp n (s.stampOf j (s.bank u b))) := by
  obtain ⟨s1, ht, -, -, hwrite⟩ := raceTile_ok hj h
  have hs1 : s1.tensor y.id = some (z.setStamp n (s.stampOf j (s.bank u b))) := by
    rw [hwrite rfl, tensor_onTensor_self, hz]; rfl
  rcases ht with rfl | ⟨f, rfl⟩ <;> exact hs1

/-- A dirty mark of a tile keeps its tensor with its stamps. -/
theorem tensor_dirtyVia {z : Tensor} (via : Nat × Nat) (hz : s.tensor y.id = some z) :
    ∃ z', (s.dirtyVia y n via).tensor y.id = some z' ∧ ∀ m, z'.stamp m = z.stamp m := by
  have hframe : ∀ r : State, (if via.1 = 3 then r else r.dirtyFrame y.part y.fsz via.2).tensor y.id = r.tensor y.id := by
    intro r
    split
    · rfl
    · obtain ⟨x, p, h⟩ := dirtyFrame_kept r y.part y.fsz via.2
      rw [h]; rfl
  rw [State.dirtyVia, hframe]
  split
  · rw [tensor_onTensor_self, hz]
    exact ⟨_, rfl, z.stamp_dirty n⟩
  · exact ⟨z, hz, fun _ => rfl⟩

/-! ### An access that reaches its tile -/

variable {offs : List Nat} {f : Nat}

/-- An access reaches its tile where the race step finds no race; one that changes it marks it dirty. -/
theorem reach_ok (h : s.reach u b e ep y n a offs = .ok (f, t)) :
    ∃ s1, s.raceTile u b e ep y n a = .ok s1 ∧ t = if a = .read then s1 else s1.dirtyVia y n (s.iaOf u y n) := by
  cases htrans : s.transAt u y n (s.bank u b).pasid (decide (a ≠ .read)) offs with
  | miss st => simp only [State.reach, htrans, reduceCtorEq] at h
  | held => simp only [State.reach, htrans, reduceCtorEq] at h
  | noWrite => simp only [State.reach, htrans, reduceCtorEq] at h
  | frame T S B =>
    cases hrace : s.raceTile u b e ep y n a with
    | error x => simp only [State.reach, htrans, hrace, reduceCtorEq] at h
    | ok s1 =>
      simp only [State.reach, htrans, hrace] at h
      refine ⟨s1, rfl, ?_⟩
      split at h
      · rename_i ha
        rw [if_pos ha]; cases h; rfl
      · rename_i ha
        split at h
        · cases h
        · rw [if_neg ha]; cases h; rfl

/-- An access that reaches its tile to read it changes tile tags of the bank at most. -/
theorem reach_read_kept (h : s.reach u b e ep y n .read offs = .ok (f, t)) :
    (∃ x, BankSet s t u b { s.bank u b with ttags := x }) ∧ ∃ us, t = { s with units := us } := by
  obtain ⟨s1, hrace, rfl⟩ := reach_ok h
  obtain ⟨hset, us, tn, ht, htn⟩ := raceTile_kept hrace
  exact ⟨hset, us, by rw [ht, htn rfl]⟩

/-- An access that reaches its tile changes tile tags of the bank at most, and no byte of memory. -/
theorem reach_change_kept (ha : a ≠ .read) (h : s.reach u b e ep y n a offs = .ok (f, t)) :
    (∃ x, BankSet s t u b { s.bank u b with ttags := x }) ∧ t.mem = s.mem := by
  obtain ⟨s1, hrace, rfl⟩ := reach_ok h
  rw [if_neg ha]
  obtain ⟨⟨x, hset⟩, us, tn, hs1, -⟩ := raceTile_kept hrace
  obtain ⟨w, p, q, hd⟩ := dirtyVia_kept s1 y n (s.iaOf u y n)
  rw [hd]
  exact ⟨⟨x, hset.of_units rfl⟩, by rw [hs1]⟩

/-- A plain write that reaches its tile stamps it (13 R318). -/
theorem reach_write_stamps {j : Job} {z : Tensor} (hj : (s.bank u b).job = some j) (hz : s.tensor y.id = some z)
    (h : s.reach u b e ep y n .write offs = .ok (f, t)) : ∃ z', t.tensor y.id = some z' ∧ z'.stamp n = s.stampOf j (s.bank u b) := by
  obtain ⟨s1, hrace, rfl⟩ := reach_ok h
  obtain ⟨z', hz', hstamp⟩ := tensor_dirtyVia (n := n) (s.iaOf u y n) (raceTile_stamps hj hz hrace)
  exact ⟨z', hz', (hstamp n).trans (Tensor.stamp_setStamp z n _)⟩

end

end Sys2Proof.Machine
end

section
/-!
PROOF. LDG, STG, ATOM, AADDNR and HIST performed (03 R79, 09 R236, R237, 13 R310): each reaches its tile under the frames that its requests departed with, takes its effect, and leaves its queue.
-/

namespace Sys2Proof.Machine

open Sys2Proof.Safety Sys2Proof.Spec

/-! ### What the bank keeps -/

/-- A command that finishes takes itself, its departures and what it missed from the bank. -/
theorem Bank.finish_kept (k : Bank) (e : Nat) (c : Cmd) : ∃ q dp ms, k.finish e c = { k with cmds := q, departed := dp, missed := ms } := ⟨_, _, _, rfl⟩

/-- A command that finishes asks nothing of the tile tags. -/
theorem Bank.finish_ttags (k : Bank) (x : Map Tag) (e : Nat) (c : Cmd) : ({ k with ttags := x } : Bank).finish e c = { k.finish e c with ttags := x } := rfl

/-- A command that finishes asks nothing of the address registers. -/
theorem Bank.finish_regs (k : Bank) (y : Map DWord) (e : Nat) (c : Cmd) : ({ k with e := y } : Bank).finish e c = { k.finish e c with e := y } := rfl

/-- A bank in which a command has finished, with other tags, registers and records. -/
def Bank.leave (k : Bank) (e : Nat) (c : Cmd) (x : Map Tag) (sr er : Map DWord) (bs : Map (Option Back)) : Bank :=
  { k.finish e c with ttags := x, s := sr, e := er, backs := bs }

section
variable (k : Bank) (x : Map Tag) (e : Nat) (c : Cmd)

theorem finish_eq_leave (er : Map DWord) : ({ k with ttags := x, e := er } : Bank).finish e c = k.leave e c x k.s er k.backs := by
  obtain ⟨q, dp, ms, hfin⟩ := k.finish_kept e c
  rw [show ({ k with ttags := x, e := er } : Bank) = { ({ k with ttags := x } : Bank) with e := er } from rfl, Bank.finish_regs, Bank.finish_ttags,
    Bank.leave, hfin]

theorem finish_forget_eq_leave (n : Nat) :
    (({ k with ttags := x } : Bank).finish e c).forget n = k.leave e c x k.s k.e (k.forget n).backs := by
  obtain ⟨q, dp, ms, hfin⟩ := k.finish_kept e c
  rw [Bank.finish_ttags, Bank.leave, hfin]; rfl

theorem finish_returned_eq_leave (n : Nat) (d : BitVec 5) (v : DWord) :
    (({ k with ttags := x } : Bank).finish e c).returned n d v = k.leave e c x (k.wrS d v).s k.e (k.returned n d v).backs := by
  obtain ⟨q, dp, ms, hfin⟩ := k.finish_kept e c
  rw [Bank.finish_ttags, Bank.leave, hfin]
  unfold Bank.returned Bank.wrS
  split <;> rfl

end

/-- What performing a flat access leaves unchanged: every other unit, the scratchpad, and of the bank all but registers, records and requests. -/
def KeptByAccess (s t : State) (u b : Nat) : Prop :=
  OnlyUnit s t u
    ∧ { t.bank u b with s := (s.bank u b).s, e := (s.bank u b).e, cmds := (s.bank u b).cmds, departed := (s.bank u b).departed,
                        missed := (s.bank u b).missed, ttags := (s.bank u b).ttags, backs := (s.bank u b).backs } = s.bank u b
    ∧ (t.core u).pad = (s.core u).pad

/-- Where a bank has become that which a command has left: the frame of the statements, and what has left. -/
theorem kept_of_leave {s t : State} {u b e : Nat} {c : Cmd} {x : Map Tag} {sr er : Map DWord} {bs : Map (Option Back)}
    (h : BankSet s t u b ((s.bank u b).leave e c x sr er bs)) :
    KeptByAccess s t u b ∧ Left (s.bank u b) (t.bank u b) e c.seq
      ∧ (t.bank u b).s = sr ∧ (t.bank u b).e = er ∧ (t.bank u b).backs = bs := by
  have hleft : Left (s.bank u b) (t.bank u b) e c.seq := left_of_finish (by rw [h.bank, Bank.leave]) (by rw [h.bank, Bank.leave])
  obtain ⟨q, dp, ms, hfin⟩ := Bank.finish_kept (s.bank u b) e c
  rw [Bank.leave, hfin] at h
  refine ⟨⟨h.others, ?_, h.pad⟩, hleft, ?_, ?_, ?_⟩ <;> rw [h.bank]

theorem rdS_congr {k k' : Bank} (h : k'.s = k.s) {r : BitVec 5} (h30 : r ≠ 30) (h31 : r ≠ 31) : k'.rdS r = k.rdS r := by
  unfold Bank.rdS; rw [if_neg h30, if_neg h31, if_neg h30, if_neg h31, h]

/-- A returned load has written its register. -/
theorem rdS_returned (k : Bank) (n : Nat) (d : BitVec 5) (v : DWord) {r : BitVec 5} (h30 : r ≠ 30) (h31 : r ≠ 31) :
    (k.returned n d v).rdS r = if r = d ∧ r ≠ 0 then v else k.rdS r := by
  rw [show (k.returned n d v).rdS r = (k.wrS d v).rdS r from rdS_congr rfl h30 h31, rdS_wrS]
  refine if_congr ⟨fun ⟨hr, h0, _⟩ => ⟨hr, hr ▸ h0⟩, fun ⟨hr, h0⟩ => ?_⟩ rfl rfl
  subst hr
  exact ⟨rfl, h0, h30, h31⟩

/-! ### A flat access under the frames lent -/

section
variable {s t l : State} {u b e : Nat} {ep : BitVec 13} {y : Tensor} {a : DWord} {f n : Nat}

/-- A flat access whose window holds a tensor that its checks pass acts on that tensor, with the frames lent as without. -/
theorem flatDo_of_window {α : Type} {write : Bool} (n i : Nat) (act : Tensor → Except Stop α) (hw : s.window (s.bank u b).part a.toNat = some y)
    (hr : ∀ j, (s.bank u b).job = some j → j.reaches y (dieOf u) = true) (hf : s.flatFlt y a write = none) :
    (s.lend u b n i).flatDo u b a write act = act y := by
  have hreach : (match (s.bank u b).job with | some j => j.reaches y (dieOf u) | none => true) = true := by
    split
    · exact hr _ ‹_›
    · rfl
  have hnow : (s.lend u b n i).flatNow u b a write = .ok y := by
    unfold State.flatNow
    rw [bank_lend]
    show (match s.window (s.bank u b).part a.toNat with | none => _ | some t => _) = _
    simp only [hw, show (s.lend u b n i).flatFlt y a write = none from hf]
    exact if_neg (fun h => Bool.noConfusion (hreach.symm.trans h))
  rw [State.flatDo, hnow]

theorem readFlat_of_reach (hf : l.flatFlt y a false = none)
    (h : l.reach u b e ep y (y.ofFlat a.toNat).1 .read [(y.ofFlat a.toNat).2] = .ok (f, t))
    (hp : l.poisoned (f + (y.ofFlat a.toNat).2) n = false) :
    l.readFlat u b e ep y a n = .ok (if y.pad (y.ofFlat a.toNat).2 then 0 else leNat (rdBytes l.mem (f + (y.ofFlat a.toNat).2) n), t) := by
  simp only [State.readFlat, hf, h, hp]; rfl

theorem writeFlat_of_reach (bs : List Byte) (hf : l.flatFlt y a true = none)
    (h : l.reach u b e ep y (y.ofFlat a.toNat).1 .write [(y.ofFlat a.toNat).2] = .ok (f, t)) (hpad : y.pad (y.ofFlat a.toNat).2 = false) :
    l.writeFlat u b e ep y a bs = .ok { t with mem := wrBytes t.mem (f + (y.ofFlat a.toNat).2) bs } := by
  simp only [State.writeFlat, hf, h, hpad]; rfl

theorem atomFlat_of_reach (g : Nat → Nat) (hf : l.flatFlt y a true = none)
    (h : l.reach u b e ep y (y.ofFlat a.toNat).1 .atomic [(y.ofFlat a.toNat).2] = .ok (f, t)) (hpad : y.pad (y.ofFlat a.toNat).2 = false)
    (hp : l.poisoned (f + (y.ofFlat a.toNat).2) n = false) :
    l.atomFlat u b e ep y a n g = .ok (leNat (rdBytes l.mem (f + (y.ofFlat a.toNat).2) n),
      { t with mem := wrBytes t.mem (f + (y.ofFlat a.toNat).2) (leBytes n (g (leNat (rdBytes l.mem (f + (y.ofFlat a.toNat).2) n)))) }) := by
  simp only [State.atomFlat, hf, h, hpad, hp]; rfl

/-! ### A command performed -/

/-- A row that may be performed, has its answer and has not been written takes its effect and is done. -/
theorem performRow_of_ok {c : Cmd} {r : Nat} {precise write : Bool} {act : State → Except Stop State} {done : Bank → Bank}
    (hmay : s.mayPerform u b e c = true) (harr : s.arrived u b e c r = true) (hwrote : (s.bank u b).wrote c.seq r = false)
    (hact : act (s.lend u b c.seq r) = .ok t) : s.performRow u b e r c precise write act done = (t.unlend s u).onBank u b done := by
  obtain ⟨hfreeze, hgo⟩ := Bool.and_eq_true_iff.mp hmay
  have hfz : decide ((s.core u).freeze = 0) = true := hfreeze
  simp only [State.performRow, hgo, hwrote, hfz, harr, hact]; rfl

theorem ldgReturn_of_ok {c : Cmd} {d v : Nat} (hc : (s.bank u b).cmd 0 n = some c) (hop : c.op = .ldg d a)
    (hmay : s.mayPerform u b 0 c = true) (harr : s.arrived u b 0 c 0 = true)
    (hact : (s.lend u b n 0).flatDo u b a false (fun y => (s.lend u b n 0).readFlat u b 0 c.epoch y a 8) = .ok (v, t)) :
    s.ldgReturn u b n = (t.unlend s u).onBank u b (fun k => (k.finish 0 c).returned c.seq (BitVec.ofNat 5 d) (BitVec.ofNat 64 v)) := by
  simp only [State.ldgReturn, hc, hop, hmay, harr, hact]; rfl

theorem stgPerform_of_ok {c : Cmd} {v : DWord} (hc : (s.bank u b).cmd 0 n = some c) (hop : c.op = .stg a v)
    (hmay : s.mayPerform u b 0 c = true) (harr : s.arrived u b 0 c 0 = true) (hwrote : (s.bank u b).wrote c.seq 0 = false)
    (hact : (s.lend u b c.seq 0).flatDo u b a true (fun y => (s.lend u b c.seq 0).writeFlat u b 0 c.epoch y a (leBytes 8 v.toNat)) = .ok t) :
    s.stgPerform u b n = (t.unlend s u).onBank u b (fun k => (k.finish 0 c).forget c.seq) := by
  simp only [State.stgPerform, hc, hop]
  exact performRow_of_ok hmay harr hwrote hact

theorem atomPerform_of_ok {c : Cmd} {op w d old : Nat} {v x : DWord} (hc : ((s.bank u b).queue 5).find? Cmd.isAtom = some c)
    (hop : c.op = .atom op w d a v x) (hmay : s.mayPerform u b 5 c = true) (harr : s.arrived u b 5 c 0 = true)
    (hwrote : (s.bank u b).wrote c.seq 0 = false)
    (hact : (s.lend u b c.seq 0).flatDo u b a true (fun y => (s.lend u b c.seq 0).atomFlat u b 5 c.epoch y a (if w = 1 then 8 else 4)
      (fun old => atomNew op (if w = 1 then 8 else 4) old (v.toNat % 2 ^ (8 * if w = 1 then 8 else 4)) (x.toNat % 2 ^ (8 * if w = 1 then 8 else 4))))
      = .ok (old, t)) :
    s.atomPerform u b
      = ((t.onBank u b (fun k => k.wrE (BitVec.ofNat 3 d) (BitVec.ofNat 64 old))).unlend s u).onBank u b (fun k => k.finish 5 c) := by
  simp only [State.atomPerform, hc, hop]
  refine performRow_of_ok (t := t.onBank u b (fun k => k.wrE (BitVec.ofNat 3 d) (BitVec.ofNat 64 old))) hmay harr hwrote ?_
  rw [hact]; rfl

theorem aaddnrPerform_of_ok {c : Cmd} {int : Bool} {old : Nat} {v : Word} (hc : (s.bank u b).cmd 5 n = some c) (hop : c.op = .aaddnr int a v)
    (hmay : s.mayPerform u b 5 c = true) (harr : s.arrived u b 5 c 0 = true) (hwrote : (s.bank u b).wrote c.seq 0 = false)
    (hact : (s.lend u b c.seq 0).flatDo u b a true
      (fun y => (s.lend u b c.seq 0).atomFlat u b 5 c.epoch y a 4 (fun old => addnr int old v.toNat)) = .ok (old, t)) :
    s.aaddnrPerform u b n = (t.unlend s u).onBank u b (fun k => k.finish 5 c) := by
  simp only [State.aaddnrPerform, hc, hop]
  refine performRow_of_ok (t := t) hmay harr hwrote ?_
  rw [hact]; rfl

end

/-! ### Atomics -/

/-- The operations of `ATOM` on 4 and on 8 bytes are those of the model. -/
theorem atomNew_atomOps {n : Nat} (hn : n = 8 ∨ n = 4) (old x : Nat) {v : Nat} (hv : v < 2 ^ (8 * n)) :
    ∀ q ∈ atomOps n old v x, atomNew q.1 n old v x = q.2 := by
  have hb : (BitVec.ofNat (8 * n) v).toNat = v := by rw [BitVec.toNat_ofNat, Nat.mod_eq_of_lt hv]
  simp only [atomOps, List.forall_mem_cons, List.not_mem_nil, false_implies, implies_true, and_true, ← smin_eq, ← smax_eq, ← umin_eq, ← umax_eq]
  rcases hn with rfl | rfl <;> exact ⟨rfl, rfl, rfl, rfl, rfl, rfl, rfl, rfl, hb.symm, by rw [hb]; rfl⟩

/-! ### The histogram -/

/-- Whether a value is counted in bin `i` (13 R310). -/
def inBin (i : Nat) (v : Int) : Bool := if i = 256 then decide (v < 0 ∨ 256 ≤ v) else decide (v = (i : Int))

theorem histAdd_bin (m : Map Word) (v : Int) {i : Nat} (hi : i ≤ 256) :
    (get 0 (histAdd m v) i : Word).toNat = min ((get 0 m i : Word).toNat + (inBin i v).toNat) (2 ^ 32 - 1) := by
  have hlt := (get 0 m i : Word).isLt
  have hbin : inBin i v = decide (i = if 0 ≤ v ∧ v < 256 then v.toNat else 256) := by
    unfold inBin
    split <;> rw [decide_eq_decide] <;> split <;> omega
  rw [hbin, histAdd]
  generalize (if 0 ≤ v ∧ v < 256 then v.toNat else 256) = k
  rw [get_set]
  by_cases h : i = k
  · subst h
    rw [if_pos rfl, decide_eq_true rfl, Bool.toNat_true]
    split
    · rename_i hmax
      rw [hmax]; rfl
    · rename_i hmax
      have hne : (get 0 m i : Word).toNat ≠ 0xFFFFFFFF := fun h => hmax (BitVec.eq_of_toNat_eq h)
      rw [BitVec.toNat_add, show (1 : Word).toNat = 1 from rfl]
      omega
  · rw [if_neg h, decide_eq_false h, Bool.toNat_false]
    omega

/-- The values counted into a bank of bins one after the other. -/
theorem foldl_histAdd_bin (vs : List Int) (m : Map Word) {i : Nat} (hi : i ≤ 256) :
    (get 0 (vs.foldl histAdd m) i : Word).toNat = min ((get 0 m i : Word).toNat + (vs.filter (inBin i)).length) (2 ^ 32 - 1) := by
  induction vs generalizing m with
  | nil =>
    have hlt := (get 0 m i : Word).isLt
    simp only [List.foldl_nil, List.filter_nil, List.length_nil]
    omega
  | cons v vs ih =>
    rw [List.foldl_cons, ih, histAdd_bin m v hi]
    cases h : inBin i v <;> simp [h] <;> omega

/-- What the reads of a `HIST` change: tile tags of the bank. -/
theorem histRead_kept {u b : Nat} {ep : BitVec 13} {y : Tensor} {box : Box} (m : Nat) : ∀ {i : Nat} {s t : State} {vs : List Int},
    s.histRead u b ep y box i m = .ok (vs, t) → (∃ x, BankSet s t u b { s.bank u b with ttags := x }) ∧ ∃ us, t = { s with units := us } := by
  induction m with
  | zero =>
    intro i s t vs h
    cases h
    exact ⟨⟨_, BankSet.refl s u b⟩, s.units, rfl⟩
  | succ m ih =>
    intro i s t vs h
    cases hreach : s.reach u b 0 ep y (y.loc (box.at i dims)).1 .read [(y.loc (box.at i dims)).2 / 8] with
    | error z => simp only [State.histRead, hreach, reduceCtorEq] at h
    | ok p =>
      simp only [State.histRead, hreach] at h
      split at h
      · cases h
      split at h
      · cases h
      · rename_i vs' t' hrest
        cases h
        obtain ⟨⟨x, hset⟩, us, hp⟩ := reach_read_kept hreach
        obtain ⟨⟨x', hset'⟩, us', ht⟩ := ih hrest
        rw [hset.bank] at hset'
        exact ⟨⟨x', hset.trans hset'⟩, us', by rw [ht, hp]⟩

/-! ### The five instructions -/

/-- The bytes of a number that has been written, and every other byte. -/
theorem bytes_of_written {s t : State} {p n v : Nat} (h : t.mem = wrBytes s.mem p (leBytes n v)) :
    (∀ i, i < n → rdByte t.mem (p + i) = BitVec.ofNat 8 (v / 256 ^ i)) ∧ OnlyBytes s t p n := by
  unfold OnlyBytes
  rw [h]
  exact ⟨fun i hi => rdByte_wrBytes_leBytes s.mem p v hi, fun q hq => rdByte_wrBytes_out s.mem p q _ (by rwa [length_leBytes])⟩

section
variable {s s1 : State} {u b src : Nat} {c : Cmd} {y : Tensor} {a : DWord} {f : Nat}

theorem ldgReturn_performed {d : Nat} (hc : (s.bank u b).cmd 0 src = some c) (hop : c.op = .ldg d a)
    (hw : s.window (s.bank u b).part a.toNat = some y) (hr : ∀ j, (s.bank u b).job = some j → j.reaches y (dieOf u) = true)
    (hmay : s.mayPerform u b 0 c = true) (harr : s.arrived u b 0 c 0 = true) (hf : s.flatFlt y a false = none)
    (hreach : (s.lend u b src 0).reach u b 0 c.epoch y (y.ofFlat a.toNat).1 .read [(y.ofFlat a.toNat).2] = .ok (f, s1))
    (hp : s.poisoned (f + (y.ofFlat a.toNat).2) 8 = false) :
    let k := s.bank u b
    let w := BitVec.ofNat 64 (if y.pad (y.ofFlat a.toNat).2 then 0 else leNat (rdBytes s.mem (f + (y.ofFlat a.toNat).2) 8))
    ∃ x us, BankSet s (s.ldgReturn u b src) u b (k.leave 0 c x (k.wrS (BitVec.ofNat 5 d) w).s k.e (k.returned c.seq (BitVec.ofNat 5 d) w).backs)
      ∧ s.ldgReturn u b src = { s with units := us } := by
  intro k w
  have hact := (flatDo_of_window src 0 (fun y => (s.lend u b src 0).readFlat u b 0 c.epoch y a 8) hw hr hf).trans
    (readFlat_of_reach (l := s.lend u b src 0) hf hreach hp)
  obtain ⟨⟨x, hset⟩, us, hs1⟩ := reach_read_kept hreach
  rw [bank_lend] at hset
  rw [ldgReturn_of_ok hc hop hmay harr hact]
  refine ⟨x, _, ?_, by rw [hs1]; rfl⟩
  rw [← finish_returned_eq_leave]
  exact hset.unlend.onBank _

theorem stgPerform_performed {v : DWord} (hc : (s.bank u b).cmd 0 src = some c) (hop : c.op = .stg a v)
    (hw : s.window (s.bank u b).part a.toNat = some y) (hr : ∀ j, (s.bank u b).job = some j → j.reaches y (dieOf u) = true)
    (hmay : s.mayPerform u b 0 c = true) (harr : s.arrived u b 0 c 0 = true) (hwrote : (s.bank u b).wrote src 0 = false)
    (hf : s.flatFlt y a true = none)
    (hreach : (s.lend u b src 0).reach u b 0 c.epoch y (y.ofFlat a.toNat).1 .write [(y.ofFlat a.toNat).2] = .ok (f, s1))
    (hpad : y.pad (y.ofFlat a.toNat).2 = false) :
    (∃ x, BankSet s (s.stgPerform u b src) u b ((s.bank u b).leave 0 c x (s.bank u b).s (s.bank u b).e ((s.bank u b).forget c.seq).backs))
      ∧ (s.stgPerform u b src).mem = wrBytes s.mem (f + (y.ofFlat a.toNat).2) (leBytes 8 v.toNat)
      ∧ (s.stgPerform u b src).tensors = s1.tensors := by
  have hseq := seq_of_cmd hc
  subst hseq
  have hact := (flatDo_of_window c.seq 0 (fun y => (s.lend u b c.seq 0).writeFlat u b 0 c.epoch y a (leBytes 8 v.toNat)) hw hr hf).trans
    (writeFlat_of_reach (l := s.lend u b c.seq 0) _ hf hreach hpad)
  obtain ⟨⟨x, hset⟩, hmem⟩ := reach_change_kept (by decide) hreach
  rw [bank_lend] at hset
  rw [stgPerform_of_ok hc hop hmay harr hwrote hact]
  have hwrite : BankSet (s.lend u b c.seq 0) { s1 with mem := wrBytes s1.mem (f + (y.ofFlat a.toNat).2) (leBytes 8 v.toNat) } u b
      { s.bank u b with ttags := x } := hset.of_units rfl
  refine ⟨⟨x, ?_⟩, congrArg (fun m => wrBytes m _ _) hmem, rfl⟩
  rw [← finish_forget_eq_leave]
  exact hwrite.unlend.onBank _

/-- A read-modify-write of `n` bytes performed: act on the tensor of its window, under the frames lent. -/
theorem atomic_act {n e : Nat} (g : Nat → Nat)
    (hw : s.window (s.bank u b).part a.toNat = some y) (hr : ∀ j, (s.bank u b).job = some j → j.reaches y (dieOf u) = true)
    (hf : s.flatFlt y a true = none)
    (hreach : (s.lend u b src 0).reach u b e c.epoch y (y.ofFlat a.toNat).1 .atomic [(y.ofFlat a.toNat).2] = .ok (f, s1))
    (hpad : y.pad (y.ofFlat a.toNat).2 = false) (hp : s.poisoned (f + (y.ofFlat a.toNat).2) n = false) :
    ∃ t x, (s.lend u b src 0).flatDo u b a true (fun z => (s.lend u b src 0).atomFlat u b e c.epoch z a n g)
        = .ok (leNat (rdBytes s.mem (f + (y.ofFlat a.toNat).2) n), t)
      ∧ BankSet (s.lend u b src 0) t u b { s.bank u b with ttags := x }
      ∧ t.mem = wrBytes s.mem (f + (y.ofFlat a.toNat).2) (leBytes n (g (leNat (rdBytes s.mem (f + (y.ofFlat a.toNat).2) n)))) := by
  have hact := (flatDo_of_window src 0 (fun z => (s.lend u b src 0).atomFlat u b e c.epoch z a n g) hw hr hf).trans
    (atomFlat_of_reach (l := s.lend u b src 0) g hf hreach hpad hp)
  obtain ⟨⟨x, hset⟩, hmem⟩ := reach_change_kept (by decide) hreach
  rw [bank_lend] at hset
  exact ⟨_, x, hact, hset.of_units rfl, congrArg (fun m => wrBytes m _ _) hmem⟩

theorem atomPerform_performed {op w d : Nat} {v x : DWord} (hc : ((s.bank u b).queue 5).find? Cmd.isAtom = some c)
    (hop : c.op = .atom op w d a v x) (hw : s.window (s.bank u b).part a.toNat = some y)
    (hr : ∀ j, (s.bank u b).job = some j → j.reaches y (dieOf u) = true)
    (hmay : s.mayPerform u b 5 c = true) (harr : s.arrived u b 5 c 0 = true) (hwrote : (s.bank u b).wrote c.seq 0 = false)
    (hf : s.flatFlt y a true = none)
    (hreach : (s.lend u b c.seq 0).reach u b 5 c.epoch y (y.ofFlat a.toNat).1 .atomic [(y.ofFlat a.toNat).2] = .ok (f, s1))
    (hpad : y.pad (y.ofFlat a.toNat).2 = false) {n : Nat} (hn : n = if w = 1 then 8 else 4)
    (hp : s.poisoned (f + (y.ofFlat a.toNat).2) n = false) :
    (∃ z, BankSet s (s.atomPerform u b) u b ((s.bank u b).leave 5 c z (s.bank u b).s ((s.bank u b).wrE (BitVec.ofNat 3 d)
        (BitVec.ofNat 64 (leNat (rdBytes s.mem (f + (y.ofFlat a.toNat).2) n)))).e (s.bank u b).backs))
      ∧ (s.atomPerform u b).mem = wrBytes s.mem (f + (y.ofFlat a.toNat).2) (leBytes n
          (atomNew op n (leNat (rdBytes s.mem (f + (y.ofFlat a.toNat).2) n)) (v.toNat % 2 ^ (8 * n)) (x.toNat % 2 ^ (8 * n)))) := by
  subst hn
  obtain ⟨t, z, hact, hset, hmem⟩ := atomic_act
    (fun old => atomNew op (if w = 1 then 8 else 4) old (v.toNat % 2 ^ (8 * if w = 1 then 8 else 4)) (x.toNat % 2 ^ (8 * if w = 1 then 8 else 4)))
    hw hr hf hreach hpad hp
  rw [atomPerform_of_ok hc hop hmay harr hwrote hact]
  refine ⟨⟨z, ?_⟩, hmem⟩
  rw [← finish_eq_leave]
  exact (hset.onBank _).unlend.onBank _

theorem aaddnrPerform_performed {int : Bool} {v : Word} (hc : (s.bank u b).cmd 5 src = some c) (hop : c.op = .aaddnr int a v)
    (hw : s.window (s.bank u b).part a.toNat = some y) (hr : ∀ j, (s.bank u b).job = some j → j.reaches y (dieOf u) = true)
    (hmay : s.mayPerform u b 5 c = true) (harr : s.arrived u b 5 c 0 = true) (hwrote : (s.bank u b).wrote src 0 = false)
    (hf : s.flatFlt y a true = none)
    (hreach : (s.lend u b src 0).reach u b 5 c.epoch y (y.ofFlat a.toNat).1 .atomic [(y.ofFlat a.toNat).2] = .ok (f, s1))
    (hpad : y.pad (y.ofFlat a.toNat).2 = false) (hp : s.poisoned (f + (y.ofFlat a.toNat).2) 4 = false) :
    (∃ x, BankSet s (s.aaddnrPerform u b src) u b ((s.bank u b).leave 5 c x (s.bank u b).s (s.bank u b).e (s.bank u b).backs))
      ∧ (s.aaddnrPerform u b src).mem = wrBytes s.mem (f + (y.ofFlat a.toNat).2)
          (leBytes 4 (addnr int (leNat (rdBytes s.mem (f + (y.ofFlat a.toNat).2) 4)) v.toNat)) := by
  have hseq := seq_of_cmd hc
  subst hseq
  obtain ⟨t, x, hact, hset, hmem⟩ := atomic_act (fun old => addnr int old v.toNat) hw hr hf hreach hpad hp
  rw [aaddnrPerform_of_ok hc hop hmay harr hwrote hact]
  refine ⟨⟨x, ?_⟩, hmem⟩
  rw [← finish_eq_leave]
  exact hset.unlend.onBank _

end

/-! ### The bins of a die -/

/-- The bins of partition `p` on die `d`. -/
def State.bins (s : State) (d p : Nat) : Map Word := get [] (get {} s.dies d : Die).hist p

/-- With values counted into the bins of partition `p` on die `d`. -/
def State.count (s : State) (d p : Nat) (vs : List Int) : State :=
  { s with dies := set {} s.dies d { (get {} s.dies d : Die) with hist := set [] (get {} s.dies d : Die).hist p (vs.foldl histAdd (s.bins d p)) } }

theorem bins_count (s : State) (d p : Nat) (vs : List Int) (d' p' : Nat) :
    (s.count d p vs).bins d' p' = if d' = d ∧ p' = p then vs.foldl histAdd (s.bins d p) else s.bins d' p' := by
  simp only [State.bins, State.count, get_set]
  by_cases hd : d' = d
  · subst hd
    simp only [if_pos, get_set, true_and]
  · simp only [hd, false_and, if_false]

section
variable {s s1 : State} {u b : Nat} {c : Cmd} {y : Tensor}

theorem histPerform_of_ok {m rows : Nat} {chk : Chk} {j : Job} {vs : List Int}
    (hc : ((s.bank u b).queue 0).find? (fun c => match c.op with | .hist _ _ _ => true | _ => false) = some c) (hop : c.op = .hist m chk rows)
    (hj : (s.bank u b).job = some j) (hy : s.tensor chk.tid = some y) (hmay : s.mayPerform u b 0 c = true)
    (harr : s.allArrived u b 0 c = true) (hread : s.histRead u b c.epoch y chk.box 0 m = .ok (vs, s1)) :
    s.histPerform u b = (s1.count j.die j.part vs).onBank u b (fun k => (k.finish 0 c).forget c.seq) := by
  have hready : ¬ (s.mayPerform u b 0 c = false ∨ s.allArrived u b 0 c = false) := by simp [hmay, harr]
  simp only [State.histPerform, hj]
  generalize hfind : List.find? _ ((s.bank u b).queue 0) = o
  have ho : o = some c := hfind.symm.trans hc
  subst ho
  simp only [hop, hy, if_neg hready, hread]; rfl

theorem histPerform_performed {m rows : Nat} {chk : Chk} {j : Job} {vs : List Int}
    (hc : ((s.bank u b).queue 0).find? (fun c => match c.op with | .hist _ _ _ => true | _ => false) = some c) (hop : c.op = .hist m chk rows)
    (hj : (s.bank u b).job = some j) (hy : s.tensor chk.tid = some y) (hmay : s.mayPerform u b 0 c = true)
    (harr : s.allArrived u b 0 c = true) (hread : s.histRead u b c.epoch y chk.box 0 m = .ok (vs, s1)) :
    (∃ x, BankSet s (s.histPerform u b) u b ((s.bank u b).leave 0 c x (s.bank u b).s (s.bank u b).e ((s.bank u b).forget c.seq).backs))
      ∧ { s.histPerform u b with units := s.units, dies := s.dies } = s
      ∧ ∀ d p, (s.histPerform u b).bins d p = if d = j.die ∧ p = j.part then vs.foldl histAdd (s.bins j.die j.part) else s.bins d p := by
  obtain ⟨⟨x, hset⟩, us, hs1⟩ := histRead_kept m hread
  have hcount : BankSet s (s1.count j.die j.part vs) u b { s.bank u b with ttags := x } := hset.of_units rfl
  have hbins : ∀ d p, s1.bins d p = s.bins d p := fun d p => by rw [hs1]; rfl
  rw [histPerform_of_ok hc hop hj hy hmay harr hread]
  refine ⟨⟨x, ?_⟩, by rw [hs1]; rfl, fun d p => ?_⟩
  · rw [← finish_forget_eq_leave]
    exact hcount.onBank _
  · rw [← hbins, ← hbins]
    exact bins_count s1 j.die j.part vs d p

end

/-- Settles O32: each access reaches its tile with the frames lent, so it finds its bytes there, and what it leaves is the bank with its command finished. -/
theorem flatAccessesPerform : Obligations.FlatAccessesPerform := by
  unfold Obligations.FlatAccessesPerform
  intro u b src s c y k l reached word kept
  refine ⟨?ldg, ?stg, ?atom, ?aaddnr, ?hist⟩
  case ldg =>
    intro d a f s1 hc hop hw hr hmay harr hf hreach hp
    obtain ⟨x, us, hset, hs⟩ := ldgReturn_performed hc hop hw hr hmay harr hf hreach hp
    obtain ⟨hkept, hleft, hsr, he, hbacks⟩ := kept_of_leave hset
    rw [seq_of_cmd hc] at hleft hbacks
    refine ⟨_, rfl, hkept, by rw [hs], hleft, he,
      ⟨_, fun n => (congrArg (fun m => get none m n) hbacks).trans (get_backs_returned k src (BitVec.ofNat 5 d) _ n)⟩, fun r h30 h31 => ?_⟩
    rw [← rdS_returned k src (BitVec.ofNat 5 d) _ h30 h31]
    exact rdS_congr hsr h30 h31
  case stg =>
    intro a v f s1 hc hop hw hr hmay harr hwrote hf hreach hpad
    obtain ⟨⟨x, hset⟩, hmem, htens⟩ := stgPerform_performed hc hop hw hr hmay harr hwrote hf hreach hpad
    obtain ⟨hkept, hleft, hsr, he, hbacks⟩ := kept_of_leave hset
    obtain ⟨hbytes, honly⟩ := bytes_of_written hmem
    rw [seq_of_cmd hc] at hleft hbacks
    refine ⟨_, rfl, hkept, hleft, hsr, he, fun n => ?_, hbytes, honly, fun j hj hy => ?_⟩
    · rw [hbacks]
      exact get_backs_forget k src n
    · obtain ⟨z, hz, hstamp⟩ := reach_write_stamps (s := l) (j := j) ((congrArg Bank.job (bank_lend s u b src 0 u b)).trans hj) hy hreach
      exact ⟨z, (congrArg (fun m => get none m y.id) htens).trans hz, by rw [hstamp, bank_lend]; rfl⟩
  case atom =>
    intro op w d a v x f s1 hc hseq hop hw hr hmay harr hwrote hf hreach hpad n p hp q hq hqop
    subst hseq
    obtain ⟨⟨z, hset⟩, hmem⟩ := atomPerform_performed hc hop hw hr hmay harr hwrote hf hreach hpad (n := n) rfl hp
    obtain ⟨hkept, hleft, hsr, he, hbacks⟩ := kept_of_leave hset
    have hn : n = 8 ∨ n = 4 := by
      show (if w = 1 then 8 else 4) = 8 ∨ (if w = 1 then 8 else 4) = 4
      split <;> simp
    have hq2 := atomNew_atomOps hn (word p n) (x.toNat % 2 ^ (8 * n)) (Nat.mod_lt v.toNat (Nat.two_pow_pos (8 * n))) q hq
    rw [hqop] at hq2
    rw [show atomNew op n (leNat (rdBytes s.mem (f + (y.ofFlat a.toNat).2) n)) _ _ = q.2 from hq2] at hmem
    obtain ⟨hbytes, honly⟩ := bytes_of_written hmem
    refine ⟨_, rfl, hkept, hbacks, hleft, hsr, fun r => ?_, hbytes, honly⟩
    rw [← rdE_wrE, Bank.rdE, he]; rfl
  case aaddnr =>
    intro int a v f s1 hc hop hw hr hmay harr hwrote hf hreach hpad hp p new
    obtain ⟨⟨x, hset⟩, hmem⟩ := aaddnrPerform_performed hc hop hw hr hmay harr hwrote hf hreach hpad hp
    obtain ⟨hkept, hleft, hsr, he, hbacks⟩ := kept_of_leave hset
    obtain ⟨hbytes, honly⟩ := bytes_of_written hmem
    rw [seq_of_cmd hc] at hleft
    exact ⟨_, rfl, hkept, hbacks, hleft, hsr, he, hbytes, honly⟩
  case hist =>
    intro m chk rows j vs s1 hc hop hj hy hmay harr hread bins hits
    obtain ⟨⟨x, hset⟩, hrest, hbins⟩ := histPerform_performed hc hop hj hy hmay harr hread
    obtain ⟨hkept, hleft, hsr, he, hbacks⟩ := kept_of_leave hset
    refine ⟨_, rfl, hkept, fun n => ?_, hrest, hleft, hsr, he, fun i hi => ?_, fun d p i hdp => ?_⟩
    · rw [hbacks]
      exact get_backs_forget k c.seq n
    · show (get 0 ((s.histPerform u b).bins j.die j.part) i : Word).toNat = _
      rw [hbins, if_pos ⟨rfl, rfl⟩]
      exact foldl_histAdd_bin vs _ hi
    · show get 0 ((s.histPerform u b).bins d p) i = _
      rw [hbins, if_neg (not_and_or.mpr hdp)]; rfl

end Sys2Proof.Machine
end

section
/-!
SUPPORT. Branch targets and the queue behind a branch (01 R18, R22; 04 R94 to R99).
-/

namespace Sys2Proof.Machine

open Sys2Proof.Safety Sys2Proof.Spec

/-! ### A change of one stream -/

/-- A change of the executing bank that concerns the stream of engine `e` alone. -/
theorem streamOnly_onMe (s : State) (e : Nat) (F : Bank → Bank) (hother : ∀ f, f ≠ e → (F s.me).stream f = s.me.stream f)
    (hkept : { F s.me with streams := s.me.streams } = s.me) : StreamOnly e s (s.onMe F) := by
  refine ⟨onlyBank_onMe s F, fun f hf => ?_, ?_⟩
  · rw [me_onMe]; exact hother f hf
  · rw [me_onMe]; exact hkept

theorem QEnt.or_false (q : QEnt) : ({ addr := q.addr, null := q.null || false } : QEnt) = q := by
  rw [Bool.or_false]

/-- A stream whose queue and levels are those of another stands as that one does. -/
theorem queueAs_of_eq {t a : Stream} (h0 : t.q0 = a.q0) (h1 : t.q1 = a.q1) (h2 : t.q2 = a.q2) (hl0 : t.lp0 = a.lp0) (hl1 : t.lp1 = a.lp1)
    (hx : t.exits = a.exits) : QueueAs t a false :=
  ⟨h0.trans a.q0.or_false.symm, h1.trans a.q1.or_false.symm, h2, hl0, hl1, hx⟩

/-! ### Branch targets -/

/-- A bank with other streams. -/
def Bank.withStreams (k : Bank) (m : Map Stream) : Bank := { k with streams := m }

theorem onStream_withStreams (k : Bank) (e : Nat) (f : Stream → Stream) (m : Map Stream) : (k.onStream e f).withStreams m = k.withStreams m := rfl

theorem advance_withStreams (k : Bank) (e : Nat) (x : Option (BitVec 13)) (m : Map Stream) : (k.advance e x).withStreams m = k.withStreams m := rfl

theorem rdB_congr {k k' : Bank} {e : Nat} (h : (k'.stream e).b = (k.stream e).b) (r : BitVec 3) : k'.rdB e r = k.rdB e r := by
  unfold Bank.rdB; rw [h]

theorem rdB_advance (k : Bank) (e : Nat) (x : Option (BitVec 13)) (r : BitVec 3) : (k.advance e x).rdB e r = k.rdB e r := by
  refine rdB_congr ?_ r
  rw [stream_advance_self]
  exact (advanced_kept k e x).1

theorem rdB_wrB (k : Bank) (e : Nat) (n r : BitVec 3) (v : Nat) : (k.wrB e n v).rdB e r = if r = n then wrapAddr e v else k.rdB e r := by
  unfold Bank.rdB Bank.wrB
  rw [stream_onStream_self, get_set]
  simp only [BitVec.toNat_inj]

/-- A stream with other branch targets. -/
def Stream.withTargets (t : Stream) (m : Map (BitVec 13)) : Stream := { t with b := m }

theorem setLp_withTargets (t : Stream) (m : Map (BitVec 13)) (l : Nat) (p : Loop) : (t.withTargets m).setLp l p = (t.setLp l p).withTargets m := by
  unfold Stream.setLp
  rw [apply_ite (Stream.withTargets · m)]
  rfl

theorem noLevel_withTargets (t : Stream) (m : Map (BitVec 13)) : (t.withTargets m).noLevel = t.noLevel.withTargets m := by
  unfold Stream.noLevel
  rw [apply_ite (Stream.withTargets · m)]
  rfl

/-- The levels behind an entry do not depend on the branch targets. -/
theorem loopEnd_withTargets (t : Stream) (m : Map (BitVec 13)) (x : BitVec 13) : (t.withTargets m).loopEnd x = (t.loopEnd x).withTargets m := by
  unfold Stream.loopEnd
  rw [← noLevel_withTargets]
  simp only [setLp_withTargets, ← apply_ite (Stream.withTargets · m)]
  rfl

theorem fill_withTargets (k : Bank) (e : Nat) (t : Stream) (m : Map (BitVec 13)) (ahead : List QEnt) :
    k.fill e (t.withTargets m) ahead = k.fill e t ahead := rfl

theorem takesExit_withTargets (t : Stream) (m : Map (BitVec 13)) (x : BitVec 13) : (t.withTargets m).takesExit x = t.takesExit x := rfl

theorem succ_onStream (k : Bank) (e : Nat) (f : Stream → Stream) (a : BitVec 13) : (k.onStream e f).succ e a = k.succ e a := rfl

theorem fill_onStream (k : Bank) (e : Nat) (f : Stream → Stream) (t : Stream) (ahead : List QEnt) :
    (k.onStream e f).fill e t ahead = k.fill e t ahead := rfl

theorem refill_onStream (k : Bank) (e : Nat) (f : Stream → Stream) (t : Stream) (a : BitVec 13) :
    (k.onStream e f).refill e t a = k.refill e t a := rfl

/-- An issue takes the same entries whatever the branch targets are. -/
theorem advanced_withTargets (k : Bank) (e : Nat) (m : Stream → Map (BitVec 13)) (x : Option (BitVec 13)) :
    (k.onStream e (fun t => t.withTargets (m t))).advanced e x = (k.advanced e x).withTargets (m (k.stream e)) := by
  unfold Bank.advanced
  rw [stream_onStream_self]
  generalize k.stream e = t
  simp only [loopEnd_withTargets, takesExit_withTargets, succ_onStream, fill_onStream, refill_onStream, fill_withTargets]
  rw [apply_ite (Stream.withTargets · (m t))]
  generalize m t = b
  rfl

/-- A branch target written does not change what its stream issues. -/
theorem queueAs_advanced_wrB (k : Bank) (e : Nat) (n : BitVec 3) (v : Nat) (x : Option (BitVec 13)) :
    QueueAs ((k.wrB e n v).advanced e x) (k.advanced e x) false := by
  have h : (k.wrB e n v).advanced e x = (k.advanced e x).withTargets _ :=
    advanced_withTargets k e (fun t => set 0 t.b n.toNat (wrapAddr e v)) x
  rw [h]
  exact queueAs_of_eq rfl rfl rfl rfl rfl rfl

/-- The outcome of an instruction that writes a branch target and issues (04 R94, R95). -/
theorem eff_of_wrB (s : State) (e : Nat) (n : BitVec 3) (v : Nat) {F : Bank → Bank} (hF : F s.me = s.me.wrB e n v) :
    ∃ t, s.eff e F = .next t ∧ StreamOnly e s t ∧ QueueAs (t.me.stream e) (s.me.advanced e none) false
      ∧ ∀ r, t.me.rdB e r = if r = n then wrapAddr e v else s.me.rdB e r := by
  refine ⟨_, rfl, streamOnly_onMe s e _ (fun f hf => ?_) ?_, ?_, fun r => ?_⟩
  · simp only [hF]; rw [stream_advance_other _ _ hf]; exact stream_onStream_other _ _ hf
  · simp only [hF]; exact (advance_withStreams _ e _ _).trans (onStream_withStreams _ e _ _)
  · rw [me_onMe, hF, stream_advance_self]; exact queueAs_advanced_wrB s.me e n v none
  · rw [me_onMe, hF, rdB_advance, rdB_wrB]

theorem prepareToBranchWritesItsTarget : PrepareToBranchWritesItsTarget := by
  intro e n o x s
  exact ⟨eff_of_wrB s e.toNat n _ rfl, eff_of_wrB s e.toNat n _ rfl⟩

/-! ### Branches -/

/-- A stream whose delay slots are annulled (04 R97). -/
def Stream.annulled (t : Stream) : Stream := { t with q0 := { t.q0 with null := true }, q1 := { t.q1 with null := true } }

section
variable (k : Bank) (e : Nat) (n : BitVec 3) (taken : Bool) (u : BitVec 2) (link : Bool)

/-- The entry that the queue takes at a branch: the target of one that is taken. -/
def Bank.branchTo : Option (BitVec 13) := if taken then some (k.rdB e n) else none

/-- The bank of a branch before its delay slots are annulled: advanced, with the link written. -/
def Bank.linked : Bank :=
  if taken && link then (k.advance e (k.branchTo e n taken)).wrB e 7 (k.advanced e none).q2.addr.toNat else k.advance e (k.branchTo e n taken)

theorem branch_eq : k.branch e n taken u link = if annuls u taken then (k.linked e n taken link).onStream e Stream.annulled else k.linked e n taken link := by
  have h : annuls u taken = true ↔ (u = 1 ∧ taken = false) ∨ (u = 2 ∧ taken = true) := by simp [annuls]
  simp only [h]
  rfl

theorem branch_kept (m : Map Stream) : (k.branch e n taken u link).withStreams m = k.withStreams m := by
  rw [branch_eq]
  simp only [Bank.linked, apply_ite (Bank.withStreams · m), Bank.wrB, onStream_withStreams, advance_withStreams, ite_self]

theorem stream_branch_other {f : Nat} (hf : f ≠ e) : (k.branch e n taken u link).stream f = k.stream f := by
  rw [branch_eq]
  simp only [Bank.linked, apply_ite (Bank.stream · f), Bank.wrB, stream_onStream_other _ _ hf, stream_advance_other _ _ hf, ite_self]

theorem queueAs_branch : QueueAs ((k.branch e n taken u link).stream e) (k.advanced e (k.branchTo e n taken)) (annuls u taken) := by
  have hlinked : ∃ m, (k.linked e n taken link).stream e = (k.advanced e (k.branchTo e n taken)).withTargets m := by
    unfold Bank.linked
    split
    · exact ⟨_, by rw [Bank.wrB, stream_onStream_self, stream_advance_self]; rfl⟩
    · exact ⟨(k.advanced e (k.branchTo e n taken)).b, stream_advance_self _ _ _⟩
  obtain ⟨m, hm⟩ := hlinked
  rw [branch_eq]
  cases annuls u taken with
  | false => simp only [Bool.false_eq_true, if_false, hm]; exact queueAs_of_eq rfl rfl rfl rfl rfl rfl
  | true => simp only [if_true, stream_onStream_self, hm]; exact ⟨by rw [Bool.or_true]; rfl, by rw [Bool.or_true]; rfl, rfl, rfl, rfl, rfl⟩

theorem rdB_branch (r : BitVec 3) : (k.branch e n taken u link).rdB e r
    = if taken = true ∧ link = true ∧ r = 7 then wrapAddr e (k.advanced e none).q2.addr.toNat else k.rdB e r := by
  have hannul : (k.branch e n taken u link).rdB e r = (k.linked e n taken link).rdB e r := by
    rw [branch_eq]
    split
    · exact rdB_congr (by rw [stream_onStream_self]; rfl) r
    · rfl
  rw [hannul, Bank.linked]
  cases taken <;> cases link <;> simp [rdB_wrB, rdB_advance]

end

/-- The outcome of a branch of engine `e` (04 R97). -/
theorem branch_outcome (s : State) (e : Nat) (n : BitVec 3) (taken : Bool) (u : BitVec 2) (link : Bool) {F : Bank → Bank}
    (hF : F s.me = s.me.branch e n taken u link) :
    StreamOnly e s (s.onMe F) ∧ QueueAs ((s.onMe F).me.stream e) (s.me.advanced e (s.me.branchTo e n taken)) (annuls u taken)
      ∧ ∀ r, (s.onMe F).me.rdB e r = if taken = true ∧ link = true ∧ r = 7 then wrapAddr e (s.me.advanced e none).q2.addr.toNat else s.me.rdB e r := by
  refine ⟨streamOnly_onMe s e F (fun f hf => ?_) ?_, ?_, fun r => ?_⟩
  · rw [hF]; exact stream_branch_other _ _ _ _ _ _ hf
  · rw [hF]; exact branch_kept _ _ _ _ _ _ _
  · rw [me_onMe, hF]; exact queueAs_branch _ _ _ _ _ _
  · rw [me_onMe, hF]; exact rdB_branch _ _ _ _ _ _ _

/-- The conditions that `BRQ` observes (04 R98). -/
theorem fifoCond_queueConds (k : Bank) (q : BitVec 4) : ∀ c ∈ queueConds k q, k.fifoCond q c.1 = c.2 := by
  simp only [queueConds, List.forall_mem_cons, List.not_mem_nil, false_implies, implies_true, and_true]
  unfold Bank.fifoCond
  generalize (k.tokF q.toNat).toks.length = n
  have hsome : decide (1 ≤ n) = decide (n ≠ 0) := decide_eq_decide.mpr Nat.one_le_iff_ne_zero
  cases (k.dfifo q.toNat).rows with
  | nil => exact ⟨rfl, hsome, rfl, rfl, rfl, rfl, rfl, rfl⟩
  | cons r rs => exact ⟨rfl, hsome, rfl, rfl, rfl, decide_eq_true (Nat.le_add_left 1 rs.length), rfl, rfl⟩

theorem branchesFollowTheirCondition : BranchesFollowTheirCondition := by
  refine ⟨fun e n k p u lk s => ?_, fun e n q u s c hc _ => ?_⟩
  · obtain ⟨honly, hqueue, htargets⟩ := branch_outcome s e.toNat n (Bool.xor (s.me.rdP k) (decide (p = 1))) u (decide (lk = 1))
      (F := fun b => b.branch e.toNat n (b.rdP k != decide (p = 1)) u (decide (lk = 1))) rfl
    exact ⟨_, rfl, honly, hqueue, fun r => (htargets r).trans (by simp only [decide_eq_true_eq])⟩
  · obtain ⟨honly, hqueue, htargets⟩ := branch_outcome s e.toNat n c.2 u false
      (F := fun b => b.branch e.toNat n (b.fifoCond q c.1) u false) (by rw [fifoCond_queueConds s.me q c hc])
    exact ⟨_, rfl, honly, hqueue, fun r => (htargets r).trans (if_neg (by simp))⟩

/-- Settles O6: a branch is an advance of its queue with a link and annulled slots, PBR and PBRR are a write of a target. -/
theorem branchesAndTheirTargets : Obligations.BranchesAndTheirTargets :=
  ⟨branchesFollowTheirCondition, prepareToBranchWritesItsTarget⟩

end Sys2Proof.Machine
end

section
/-!
PROOF. Taking a trap and returning from it (04 R108, R109).
-/

namespace Sys2Proof.Machine

open Sys2Proof.Safety Sys2Proof.Spec

/-- The issue of an entry changes the levels and the pending exits of its stream at most (04 R103). -/
theorem Stream.loopEnd_kept (t : Stream) (x : BitVec 13) : ∃ p0 p1 n, t.loopEnd x = { t with lp0 := p0, lp1 := p1, exits := n } := by
  have hset : ∀ (r : Stream) (l : Nat) (p : Loop), (∃ p0 p1 n, r = { t with lp0 := p0, lp1 := p1, exits := n }) →
      ∃ p0 p1 n, r.setLp l p = { t with lp0 := p0, lp1 := p1, exits := n } := by
    rintro _ l p ⟨p0, p1, n, rfl⟩
    unfold Stream.setLp
    split
    · exact ⟨p, p1, n, rfl⟩
    · exact ⟨p0, p, n, rfl⟩
  have hlevel : ∀ r : Stream, (∃ p0 p1 n, r = { t with lp0 := p0, lp1 := p1, exits := n }) →
      ∃ p0 p1 n, r.noLevel = { t with lp0 := p0, lp1 := p1, exits := n } := by
    rintro _ ⟨p0, p1, n, rfl⟩
    unfold Stream.noLevel
    split
    · exact ⟨p0, p1, 0, rfl⟩
    · exact ⟨p0, p1, n, rfl⟩
  have hite : ∀ (c : Prop) [Decidable c] (r : Stream) (l : Nat) (p : Loop), (∃ p0 p1 n, r = { t with lp0 := p0, lp1 := p1, exits := n }) →
      ∃ p0 p1 n, (if c then r.setLp l p else r) = { t with lp0 := p0, lp1 := p1, exits := n } := by
    intro c _ r l p hr
    split
    · exact hset r l p hr
    · exact hr
  unfold Stream.loopEnd
  refine hlevel _ ?_
  obtain ⟨p0, p1, n, h⟩ := hite (t.ends 1 x) _ 1 (t.lp1.turn (t.exitFor 1)) (hite (t.ends 0 x) t 0 (t.lp0.turn (t.exitFor 0)) ⟨t.lp0, t.lp1, t.exits, rfl⟩)
  simp only [h]
  exact ⟨p0, p1, _, rfl⟩

/-! ### The bank after a trap and after a return -/

/-- The CSRs of a trap taken with the queue of stream `t` (04 R108). -/
def Csr.trapped (c : Csr) (t : Stream) (code : BitVec 16) (kind : BitVec 8) : Csr :=
  { c with epcqA := t.q0, epcqB := t.q1, epcqC := t.q2, causeCode := code, causeKind := kind, th := true }

/-- A stream whose queue is the one saved in the CSRs, with the count of a wait that a trap broke off (04 R109, 08 R209). -/
def Stream.restored (t : Stream) (c : Csr) : Stream :=
  { t with q0 := c.epcqA, q1 := c.epcqB, q2 := c.epcqC, wait := .none, waited := t.kept, kept := 0 }

/-- A bank with other CSRs. -/
def Bank.withCsr (k : Bank) (c : Csr) : Bank := { k with csr := c }

theorem stream_withCsr (k : Bank) (c : Csr) (f : Nat) : (k.withCsr c).stream f = k.stream f := rfl

theorem enterTrap_eq (k : Bank) (code : BitVec 16) (kind : BitVec 8) :
    k.enterTrap code kind = (k.withCsr (k.csr.trapped (k.stream 0) code kind)).setStream 0 (k.refill 0 (k.stream 0) k.csr.tvec) := rfl

theorem leaveTrap_eq (k : Bank) : k.leaveTrap = (k.withCsr { k.csr with th := false }).onStream 0 (fun t => t.restored k.csr) := rfl

/-- TRET in a handler changes the stream of its engine and TH, and nothing else (04 R109). -/
theorem tret_returns (s : State) (h : s.me.csr.th = true) :
    ∃ t, exec .tret s = .next t ∧ OnlyBank s t ∧ (∀ f, f ≠ 0 → t.me.stream f = s.me.stream f)
      ∧ { t.me with csr := s.me.csr, streams := s.me.streams } = s.me ∧ t.me.csr = { s.me.csr with th := false }
      ∧ t.me.stream 0 = ((s.me.stream 0).loopEnd (s.me.stream 0).q0.addr).restored s.me.csr := by
  have hexec : exec .tret s = .next (s.onMe (fun k => (k.onStream 0 (fun t => t.loopEnd t.q0.addr)).leaveTrap)) := if_neg (by simp [h])
  refine ⟨_, hexec, onlyBank_onMe s _, fun f hf => ?_, ?_, ?_, ?_⟩
  · rw [me_onMe, leaveTrap_eq, stream_onStream_other _ _ hf, stream_withCsr, stream_onStream_other _ _ hf]
  · rw [me_onMe]; rfl
  · rw [me_onMe]; rfl
  · rw [me_onMe, leaveTrap_eq, stream_onStream_self, stream_withCsr, stream_onStream_self]; rfl

/-- TRAP of the control stream outside a handler (04 R108). -/
theorem trap_enters (c : BitVec 16) (s : State) (h : s.me.csr.th = false) :
    ∃ t, exec (.trap 0 c) s = .next t ∧ OnlyBank s t ∧ (∀ f, f ≠ 0 → t.me.stream f = s.me.stream f)
      ∧ { t.me with csr := s.me.csr, streams := s.me.streams } = s.me ∧ t.me.csr = s.me.csr.trapped (s.me.advanced 0 none) c 2
      ∧ t.me.stream 0 = s.me.refill 0 (s.me.advanced 0 none) s.me.csr.tvec := by
  have hexec : exec (.trap 0 c) s = .next (s.onMe (fun k => (k.advance 0).enterTrap c 2)) := if_neg (by simp [h])
  refine ⟨_, hexec, onlyBank_onMe s _, fun f hf => ?_, ?_, ?_, ?_⟩
  · rw [me_onMe, enterTrap_eq, stream_setStream_other _ _ hf, stream_withCsr, stream_advance_other _ _ hf]
  · rw [me_onMe]; rfl
  · rw [me_onMe, enterTrap_eq, stream_advance_self]; rfl
  · rw [me_onMe, enterTrap_eq, stream_setStream_self, stream_advance_self]; rfl

/-- Settles O8: a TRET restores the queue that its CSRs hold, which behind a TRAP is the one that the TRAP saved. -/
theorem trapEntrySavesAndTretRestores : Obligations.TrapEntrySavesAndTretRestores := by
  refine ⟨fun s h => ?_, fun c s h => ?_⟩
  · obtain ⟨t, hexec, honly, hother, hkept, hcsr, hstream⟩ := tret_returns s h
    have hlevel : ∀ l, (t.me.stream 0).lp l = ((s.me.stream 0).loopEnd (s.me.stream 0).q0.addr).lp l := fun l => by rw [hstream]; rfl
    obtain ⟨p0, p1, n, hend⟩ := (s.me.stream 0).loopEnd_kept (s.me.stream 0).q0.addr
    rw [hend] at hstream
    refine ⟨t, hexec, honly, hother, hkept, hcsr, by rw [hstream]; rfl, by rw [hstream]; rfl, by rw [hstream]; rfl,
      rdB_congr (by rw [hstream]; rfl), by rw [hstream]; rfl, by rw [hstream]; rfl, by rw [hstream]; rfl, fun l hl hx => (hlevel l).trans ?_⟩
    refine Stream.lp_loopEnd_of_not_ends _ _ hl ?_
    rcases hx with hact | hstop
    · rw [Stream.ends, hact]; rfl
    · rw [Stream.ends, decide_eq_false hstop, Bool.and_false]
  · obtain ⟨t, hexec, honly, hother, hkept, hcsr, hstream⟩ := trap_enters c s h
    obtain ⟨r, hret, honly', hother', hkept', hcsr', hstream'⟩ := tret_returns t (by rw [hcsr]; rfl)
    have hb : (t.me.stream 0).b = (s.me.stream 0).b := by rw [hstream]; exact (advanced_kept s.me 0 none).1
    have hqueue : t.me.csr.epcqA = (s.me.advanced 0 none).q0 ∧ t.me.csr.epcqB = (s.me.advanced 0 none).q1
        ∧ t.me.csr.epcqC = (s.me.advanced 0 none).q2 := by rw [hcsr]; exact ⟨rfl, rfl, rfl⟩
    obtain ⟨hq0, hq1, hq2⟩ := hqueue
    refine ⟨t, hexec, honly, hother, hkept, hcsr, by rw [hstream]; rfl, by rw [hstream]; rfl, rdB_congr hb,
      by rw [hstream]; exact refilledFrom_refill _ _ _ _,
      r, hret, honly', fun f hf => (hother' f hf).trans (hother f hf), hkept', hcsr', ?_, ?_, ?_⟩
    · rw [hstream']; exact hq0
    · rw [hstream']; exact hq1
    · rw [hstream']; exact hq2

end Sys2Proof.Machine
end

section
/-!
PROOF. JOIN, CLAUSE and SETLEAVE, and the faults of the system forms of the stream class (04 R105, R109; 08 R201, R206, R207; 13 R310).
-/

namespace Sys2Proof.Machine

open Sys2Proof.Safety Sys2Proof.Spec

/-- An instruction that waits changes the wait of its stream and nothing else (10 R245). -/
theorem waits_outcome (s : State) (e : Nat) (w : WaitOn) :
    ∃ t, s.waits e w = .next t ∧ StreamOnly e s t ∧ t.me.stream e = { s.me.stream e with wait := w, waited := (t.me.stream e).waited } := by
  refine ⟨_, rfl, streamOnly_onMe s e _ (fun f hf => stream_onStream_other _ _ hf) rfl, ?_⟩
  rw [me_onMe, stream_onStream_self]

/-! ### The other streams of a job -/

/-- A stream that `atClause` finds waits at that `CLAUSE`. -/
theorem atClause_eq_some {k : Bank} {e : Nat} {n : BitVec 16} (h : k.atClause e = some n) : ∃ f, f ≠ e ∧ (k.stream f).phase = .clause n := by
  obtain ⟨f, -, hf⟩ := List.exists_of_findSome?_eq_some h
  by_cases hfe : f = e
  · rw [if_pos hfe] at hf; cases hf
  · rw [if_neg hfe] at hf
    refine ⟨f, hfe, ?_⟩
    split at hf
    · rename_i m hm; cases hf; exact hm
    · cases hf

theorem atClause_eq_none {k : Bank} {e : Nat} : k.atClause e = none ↔ ∀ f, f < 6 → f ≠ e → ∀ n, (k.stream f).phase ≠ .clause n := by
  unfold Bank.atClause
  rw [List.findSome?_eq_none_iff]
  refine ⟨fun h f hf hne n hn => ?_, fun h f hf => ?_⟩
  · have := h f (List.mem_range.mpr hf)
    rw [if_neg hne, hn] at this
    cases this
  · by_cases hfe : f = e
    · exact if_pos hfe
    · rw [if_neg hfe]
      split
      · exact absurd ‹_› (h f (List.mem_range.mp hf) hfe _)
      · rfl

/-- Where every other stream that waits at a `CLAUSE` waits at `CLAUSE n`, `atClause` finds that one or none. -/
theorem atClause_of_all {k : Bank} {e : Nat} {n : BitVec 16} (h : ∀ f, f ≠ e → ∀ x, (k.stream f).phase = .clause x → x = n) :
    k.atClause e = none ∨ k.atClause e = some n := by
  cases hk : k.atClause e with
  | none => exact .inl rfl
  | some m =>
    obtain ⟨f, hf, hm⟩ := atClause_eq_some hk
    exact .inr (congrArg some (h f hf m hm))

theorem otherJoined_eq_true {k : Bank} {e : Nat} : k.otherJoined e = true ↔ ∃ f, f < 6 ∧ f ≠ e ∧ (k.stream f).phase = .joined := by
  simp [Bank.otherJoined, anyBelow]

/-! ### JOIN and CLAUSE outside a handler -/

section
variable {s : State} {e : BitVec 3} (hh : ¬ (e = 0 ∧ s.me.csr.th = true))
include hh

theorem join_mismatch {n : BitVec 16} (h : s.me.atClause e.toNat = some n) : exec (.join e) s = s.fault e.toNat 0x000F (zx n) noClause := by
  rw [exec_join, execJoin, if_neg hh]; simp only [h]

theorem join_free (h : s.me.atClause e.toNat = none) : exec (.join e) s = if s.me.histPending = true then s.waits e.toNat .inner
    else .next (s.onMe (fun k => (k.advance e.toNat).onStream e.toNat (fun t => { t with phase := .joined }))) := by
  rw [exec_join, execJoin, if_neg hh]; simp only [h]

theorem clause_mismatch {n m : BitVec 16} (h : s.me.atClause e.toNat = some n) (hm : m ≠ n) :
    exec (.clause e m) s = s.fault e.toNat 0x000F (zx n) (zx m) := by
  rw [exec_clause, execClause, if_neg hh]; simp only [h, if_neg hm.symm]

theorem clause_behindJoin {m : BitVec 16} (h : s.me.atClause e.toNat = none) (hj : s.me.otherJoined e.toNat = true) :
    exec (.clause e m) s = s.fault e.toNat 0x000F noClause (zx m) := by
  rw [exec_clause, execClause, if_neg hh]; simp only [h, if_pos hj]

theorem clause_halts {n : BitVec 16} (h : s.me.atClause e.toNat = none ∨ s.me.atClause e.toNat = some n) (hj : s.me.otherJoined e.toNat = false) :
    exec (.clause e n) s = .next (s.onMe (fun k => k.onStream e.toNat (fun t => { t with phase := .clause n }))) := by
  rw [exec_clause, execClause, if_neg hh]
  rcases h with h | h
  · simp only [h, hj, Bool.false_eq_true, if_false]
  · simp only [h, if_true]

end

theorem trapAndClauseFaults : TrapAndClauseFaults := by
  intro s hf
  have hout : ∀ {e : BitVec 3}, e ≠ 0 ∨ s.me.csr.th = false → ¬ (e = 0 ∧ s.me.csr.th = true) := by
    rintro e (he | hth) ⟨he', hth'⟩
    · exact he he'
    · rw [hth] at hth'; cases hth'
  have hstops := fun e code da db => stoppedBy_fault s e code da db 0 hf
  refine ⟨fun hth => ?_, fun c hth => ?_, fun e c he => ?_, fun n hth i hi => ?_, fun e n m he hat hall => ?_, fun e m he hjoined hnone => ?_⟩
  · rw [exec_tret, execTret, if_pos hth]; exact illegal_stops s hf
  · rw [exec_trap, execTrap, if_neg (by simp), if_pos hth]; exact hstops _ _ _ _
  · rw [exec_trap, execTrap, if_pos he]; exact hstops _ _ _ _
  · rcases List.mem_pair.mp hi with rfl | rfl
    · rw [exec_join, execJoin, if_pos ⟨rfl, hth⟩]; exact illegal_stops s hf
    · rw [exec_clause, execClause, if_pos ⟨rfl, hth⟩]; exact illegal_stops s hf
  · obtain ⟨f, hf6, hfe, hphase⟩ := hat
    have hsome : s.me.atClause e.toNat = some n :=
      (atClause_of_all hall).resolve_left (fun h => atClause_eq_none.mp h f hf6 hfe n hphase)
    exact ⟨join_mismatch (hout he) hsome ▸ hstops _ _ _ _, fun hm => clause_mismatch (hout he) hsome hm ▸ hstops _ _ _ _⟩
  · rw [clause_behindJoin (hout he) (atClause_eq_none.mpr (fun f _ hfe => hnone f hfe)) (otherJoined_eq_true.mpr hjoined)]
    exact hstops _ _ _ _

/-! ### SETLEAVE -/

/-- A further pending exit changes the exits of a stream and nothing else. -/
theorem addExit_exits (t : Stream) (n : Nat) : { t.addExit with exits := n } = { t with exits := n } := by
  unfold Stream.addExit; split <;> rfl

/-- A stream gets a further exit where it is in use and has an active level (04 R105). -/
theorem addExit_eq (t : Stream) :
    t.addExit = if (t.lp0.act = true ∨ t.lp1.act = true) ∧ t.phase ≠ .idle then { t with exits := t.exits + 1 } else t := by
  have h : t.inner = none ∨ t.phase = .idle ↔ ¬ ((t.lp0.act = true ∨ t.lp1.act = true) ∧ t.phase ≠ .idle) := by
    rw [t.inner_eq_none, not_and_or, not_or, not_not, Bool.not_eq_true, Bool.not_eq_true]
  unfold Stream.addExit
  rw [if_congr h rfl rfl, ite_not]

/-- A stream of a bank whose streams have all been changed by an `f` that keeps the default one. -/
theorem stream_map_streams (k : Bank) (f : Stream → Stream) (hf : f {} = {}) (e : Nat) :
    Bank.stream { k with streams := k.streams.map (fun p => (p.1, f p.2)) } e = f (k.stream e) := get_map_snd ({} : Stream) f hf k.streams e

/-- The state in which a `SETLEAVE` has issued (04 R105). -/
theorem setleave_issues (s : State) (h : s.me.accesses = false) : exec .setleave s = .next (s.onMe (fun k =>
    { (k.note 2 (fun x => { x with t := x.t.addExit })).advance 0 with
      streams := ((k.note 2 (fun x => { x with t := x.t.addExit })).advance 0).streams.map (fun p => (p.1, p.2.addExit)) })) :=
  if_neg (by simp [h])

theorem joinClauseAndSetleave : JoinClauseAndSetleave := by
  have hout : ∀ {e : BitVec 3} {s : State}, (e = 0 → s.me.csr.th = false) → ¬ (e = 0 ∧ s.me.csr.th = true) := by
    rintro e s hth ⟨he, hth'⟩
    rw [hth he] at hth'; cases hth'
  refine ⟨fun e s hh hat => ?_, fun e n s hh hother => ?_, fun s h => ?_, fun s h => ?_⟩
  · rw [join_free (hout hh) (atClause_eq_none.mpr (fun f _ hf => hat f hf))]
    cases hp : s.me.histPending with
    | true =>
      obtain ⟨t, hexec, honly, hstream⟩ := waits_outcome s e.toNat .inner
      exact ⟨t, hexec, honly, nofun, fun _ => hstream⟩
    | false =>
      refine ⟨_, rfl, streamOnly_onMe s _ _ (fun f hf => ?_) ((onStream_withStreams _ _ _ _).trans (advance_withStreams _ _ _ _)), fun _ => ?_, nofun⟩
      · rw [stream_onStream_other _ _ hf, stream_advance_other _ _ hf]
      · rw [me_onMe, stream_onStream_self, stream_advance_self]
        exact ⟨rfl, queueAs_of_eq rfl rfl rfl rfl rfl rfl⟩
  · have hjoined : s.me.otherJoined e.toNat = false := by
      rw [← Bool.not_eq_true, otherJoined_eq_true]
      rintro ⟨f, -, hf, hj⟩
      exact (hother f hf).1 hj
    rw [clause_halts (hout hh) (atClause_of_all (fun f hf => (hother f hf).2)) hjoined]
    refine ⟨_, rfl, streamOnly_onMe s _ _ (fun f hf => stream_onStream_other _ _ hf) rfl, ?_⟩
    rw [me_onMe, stream_onStream_self]
  · rw [exec_setleave, execSetleave, if_pos h]; exact waits_outcome s 0 (.remote 0)
  · rw [setleave_issues s h]
    refine ⟨_, rfl, onlyBank_onMe s _, ?_, fun m y hy => ?_, fun f => ?_⟩
    · rw [me_onMe]; rfl
    · rw [me_onMe] at hy
      obtain ⟨x, hx, hxy⟩ := get_backs_note s.me 2 (fun x => { x with t := x.t.addExit }) hy
      refine ⟨x, hx, ?_⟩
      rcases hxy with rfl | rfl
      · rfl
      · simp only [addExit_exits]
    · have hissued : ((s.me.note 2 (fun x => { x with t := x.t.addExit })).advance 0).stream f = (s.me.advance 0).stream f := by
        by_cases hf : f = 0
        · subst hf; rw [stream_advance_self, stream_advance_self]; exact advanced_congr 0 none rfl rfl
        · rw [stream_advance_other _ _ hf, stream_advance_other _ _ hf]; rfl
      rw [me_onMe, stream_map_streams _ Stream.addExit rfl, hissued, addExit_eq]

/-- Settles O9, from the faults and from what the three instructions do without one. -/
theorem faultsJoinClauseAndSetleave : Obligations.FaultsJoinClauseAndSetleave :=
  ⟨trapAndClauseFaults, joinClauseAndSetleave⟩

end Sys2Proof.Machine
end

section
/-!
The end of a job, refuted: the statement lets every ready job with all its streams joined end whose DONE misses no translation. A frame that stage 2 lets the job read and not write is no miss; there the add to DONE is the address fault, which stops the job in its bank (12 R288; log entry 97).
-/

namespace Sys2Proof.Machine

/-- A fault leaves its bank stopped. -/
theorem bank_stopJob (s : State) (u b : Nat) (f : FaultInfo) :
    (s.stopJob u b f).bank u b = Bank.stopped { f with cyc := s.cycleOf u } (s.bank u b) := by
  unfold State.stopJob; rw [bank_yieldBank, bank_onBank_self]

/-- A bank whose job a fault has stopped is not free. -/
theorem stopped_ne_empty (f : FaultInfo) (k : Bank) : Bank.stopped f k ≠ {} := by
  intro h
  have hfault : (Bank.stopped f k).fault = none := congrArg Bank.fault h
  unfold Bank.stopped at hfault
  split at hfault
  · rename_i g hg
    rw [hg] at hfault; cases hfault
  · cases hfault

/-- A job of partition 1 that uses the control engine alone; its task record lies at 0x10000. -/
def barredJob : Job := { probeJob with part := 1, task := 0x10000, mask := 1 }

/-- A tensor of partition 1 of one tile, at 0x10000, in the frame at page 8 of near stack 0. -/
def barredTensor : Tensor :=
  { id := 5, part := 1, home := 0, tiled := true, covered := false, ro := false, scale := false, fmt := 0, ndim := 1, fsz := 0, order := [0, 0, 0, 0, 0, 0]
    ext := [1024, 1, 1, 1, 1, 1], tsh := [1024, 1, 1, 1, 1, 1], wbase := 0x10000, tbase := 0, stride := [], scid := 0
    tiles := [(0, { v := true, tier := 2, fbase := 8 })] }

/-- That job, ready in bank 0 of unit 0 with its stream joined; the stage-2 entry of the frame with its record is valid, with W = 0. -/
def barredDone : State where
  units := [(0, { b0 := { job := some barredJob, streams := [(0, { phase := .joined })] } })]
  tensors := [(5, some barredTensor)]
  stage2 := [(s2Key 1 0 8, { v := true, tier := 2, mbase := 8 })]
  parts := [(1, some { cfg := { (default : PartRecord) with units := [0] } })]

/-- No byte of DONE misses: a read of each is translated. -/
theorem barredDone_translates : barredDone.doneMiss barredJob = none := by decide +kernel

/-- A write of DONE is forbidden, and JOB_END stops the job. -/
theorem barredDone_jobEnd : barredDone.jobEnd 0 0 = barredDone.stopJob 0 0 barredJob.doneFault := by decide +kernel

/-- Refutes O38, in the clause of JOB_END: in `barredDone` every condition of the clause holds, and the bank is not free afterwards. -/
theorem not_jobsEndPauseFreezeAndTick : ¬ Obligations.JobsEndPauseFreezeAndTick := by
  unfold Obligations.JobsEndPauseFreezeAndTick
  rintro ⟨hend, -⟩
  obtain ⟨hfree, -⟩ := hend 0 0 barredDone barredJob rfl
  have hroom : ∀ q w n, barredDone.part barredJob.part = some q → q.dirty = some (w, n) → q.dlTail + q.dlPend.length + 4 ≤ 2 ^ n + q.dlHead := by
    intro q w n hq hdirty
    cases hq; cases hdirty
  obtain ⟨t, hexec, hempty, -⟩ := hfree (by decide) rfl rfl (by decide) (by decide) (by decide) barredDone_translates hroom
  have ht : t = barredDone.stopJob 0 0 barredJob.doneFault := by
    rw [← barredDone_jobEnd]
    cases hexec; rfl
  rw [ht, bank_stopJob] at hempty
  exact stopped_ne_empty _ _ hempty

end Sys2Proof.Machine
end

section
/-!
PROOF. The vector engine (06, 07): an issue of the vector stream that writes one register, element by element, and the type that its code resolves to.
-/

namespace Sys2Proof.Machine

open Sys2Proof.Safety Sys2Proof.Spec

theorem anyBelow_iff (n : Nat) (f : Nat → Bool) : anyBelow n f = true ↔ ∃ i, i < n ∧ f i = true := by
  simp only [anyBelow, List.any_eq_true, List.mem_range]

/-! ### An issue of the vector stream that writes registers -/

section
variable {s : State} {F : Bank → Bank}

/-- Where `F` changes the vector registers alone, the vector stream issues and nothing else changes. -/
theorem eff_of_regs {m : Map Row} (h : F s.me = { s.me with v := m }) : ∃ u, s.eff 1 F = .next u ∧ OnlyBank s u ∧ Issued 1 s.me u.me
    ∧ { u.me with v := s.me.v, streams := s.me.streams } = s.me ∧ ∀ r, u.me.rdV r = (F s.me).rdV r := by
  refine ⟨_, rfl, onlyBank_onMe s _, ?_⟩
  rw [me_onMe, h]
  exact ⟨issued_advance 1 (fun _ => rfl) rfl, rfl, fun _ => rfl⟩

/-- Where `F` writes register `d` with `r`, the vector stream issues and nothing else changes. -/
theorem eff_of_wrV {d : BitVec 5} {r : Row} (h : F s.me = s.me.wrV d r) :
    ∃ u, s.eff 1 F = .next u ∧ VectorReg s u d ∧ u.me.rdV d = r := by
  obtain ⟨u, hu, honly, hissued, hkept, hrd⟩ := eff_of_regs h
  refine ⟨u, hu, ⟨honly, hissued, hkept, fun x hx => ?_⟩, ?_⟩
  · rw [hrd, h, rdV_wrV, if_neg hx]
  · rw [hrd, h, rdV_wrV, if_pos rfl]

variable {d : BitVec 5} {w : Nat} {gov : Nat → Bool} {f : Nat → Nat} {bad : Nat → Bool}

theorem wroteElements_of_write {u : State} (h : u.me.rdV d = (s.me.rdV d).write w gov f bad) : WroteElements s u d w gov f bad := by
  unfold WroteElements
  rw [h]
  exact ⟨fun j hj => el_write _ w gov f bad j hj, fun g hg => by rw [poison_write _ w gov f bad g hg, anyBelow_iff]⟩

/-- Where `F` writes the governed elements of register `d`, the vector stream issues and nothing else changes. -/
theorem eff_of_write (h : F s.me = s.me.wrV d ((s.me.rdV d).write w gov f bad)) :
    ∃ u, s.eff 1 F = .next u ∧ VectorReg s u d ∧ WroteElements s u d w gov f bad := by
  obtain ⟨u, hu, hreg, hrow⟩ := eff_of_wrV h
  exact ⟨u, hu, hreg, wroteElements_of_write hrow⟩

end

/-! ### The type of an instruction (06 R138) -/

section
variable {s : State} {t : BitVec 2} {ok : VT → Bool} {F : VT → Bank → Bank}

theorem vec_of_ok {ty : VT} (h : s.me.vtype t = some ty) (hok : ok ty = true) : s.vec t ok F = s.eff 1 (F ty) := by
  unfold State.vec; rw [h]; exact if_pos hok

theorem vec_of_not_ok (h : ∀ ty, s.me.vtype t = some ty → ok ty = false) : s.vec t ok F = s.illegal 1 := by
  unfold State.vec
  split
  · rfl
  · rename_i ty hty; rw [h ty hty]; exact if_neg Bool.false_ne_true

/-- The illegal-instruction fault stops the job and changes nothing else. -/
theorem illegal_stoppedBy (s : State) (e : Nat) (h : s.me.fault = none) :
    ∃ u da, s.illegal e = .next u ∧ StoppedBy s u s.cur s.curB e 0x0001 da 0 0 := by
  obtain ⟨u, hu, hstop⟩ := stoppedBy_fault s e 0x0001 (BitVec.ofNat 64 ((s.me.word e (s.me.stream e).q0.addr).toNat % 2 ^ 32)) 0 0 h
  exact ⟨u, _, hu, hstop⟩

theorem vec_stoppedBy (hf : s.me.fault = none) (h : ∀ ty, s.me.vtype t = some ty → ok ty = false) :
    ∃ u da, s.vec t ok F = .next u ∧ StoppedBy s u s.cur s.curB 1 0x0001 da 0 0 := by
  rw [vec_of_not_ok h]; exact illegal_stoppedBy s 1 hf

/-- A form whose type is allowed and that writes the governed elements of `d`. -/
theorem vec_of_write {ty : VT} {d : BitVec 5} {w : Nat} {gov : Nat → Bool} {f : Nat → Nat} {bad : Nat → Bool} (h : s.me.vtype t = some ty)
    (hok : ok ty = true) (hF : F ty s.me = s.me.wrV d ((s.me.rdV d).write w gov f bad)) :
    ∃ u, s.vec t ok F = .next u ∧ VectorReg s u d ∧ WroteElements s u d w gov f bad := by
  rw [vec_of_ok h hok]; exact eff_of_write hF

end

/-- The types of a form: every type where INT32 is one of them, else the float types. -/
def allowed (int : Bool) : VT → Bool := if int then anyType else floatOnly

theorem allowed_eq_true {int : Bool} {ty : VT} (h : int = true ∨ ty ≠ .i32) : allowed int ty = true := by
  cases int with
  | true => rfl
  | false => exact decide_eq_true (h.resolve_left Bool.false_ne_true)

/-! ### Arithmetic of one and two sources (06 R143 to R145) -/

theorem ite_msb_eq (x : Word) : (if x.msb then -x else x) = if x.toInt < 0 then -x else x :=
  if_congr (by rw [BitVec.msb_eq_toInt, decide_eq_true_eq]) rfl rfl

/-- Each form of two sources writes its element, where its type is allowed. -/
theorem exec_binForms (s : State) (ty : VT) : ∀ p ∈ binForms s.me ty, p.2.1 = true ∨ ty ≠ .i32 → ∀ (d a b : BitVec 5) (m : BitVec 3) (t : BitVec 2),
    ∃ F : VT → Bank → Bank, exec (p.1 d a b m t) s = s.vec t (allowed p.2.1) F ∧ F ty s.me = s.me.map2 ty d a b (s.me.rdM m) p.2.2 := by
  simp only [binForms, List.forall_mem_cons, List.not_mem_nil, false_implies, implies_true, and_true, ← smin_eq, ← smax_eq]
  refine ⟨?vadd, ?vsub, ?vmul, ?vdiv, ?vmin, ?vmax⟩ <;> intro hty d a b m t
  case vdiv =>
    refine ⟨_, rfl, ?_⟩
    cases ty with
    | i32 => simp at hty
    | f32 | b16 | f64 => rfl
  all_goals exact ⟨_, rfl, rfl⟩

/-- Each form of one source writes its element, where its type is allowed. -/
theorem exec_unForms (s : State) (ty : VT) : ∀ p ∈ unForms s.me ty, p.2.1 = true ∨ ty ≠ .i32 → ∀ (d a : BitVec 5) (m : BitVec 3) (t : BitVec 2),
    ∃ F : VT → Bank → Bank, exec (p.1 d a m t) s = s.vec t (allowed p.2.1) F ∧ F ty s.me = s.me.map1 ty d a (s.me.rdM m) p.2.2 := by
  simp only [unForms, List.forall_mem_cons, List.not_mem_nil, false_implies, implies_true, and_true, ← ite_msb_eq]
  refine ⟨?vabs, ?vneg, ?vsqrt, ?vrcp, ?vrsq, ?vexp2, ?vlog2⟩ <;> intro hty d a m t
  case vabs | vneg => exact ⟨_, rfl, rfl⟩
  all_goals
    refine ⟨_, rfl, ?_⟩
    cases ty with
    | i32 => simp at hty
    | f32 | b16 | f64 => rfl

/-- Settles O17: each form writes the governed elements, where its type resolves to an allowed one, and else is illegal. -/
theorem vectorArithmeticWritesGovernedElements : Obligations.VectorArithmeticWritesGovernedElements := by
  unfold Obligations.VectorArithmeticWritesGovernedElements
  intro d a b m t s
  refine ⟨fun ty hty => ⟨fun p hp hok => ?_, fun p hp hok => ?_, fun hi hf => ?_⟩, fun hnone hf => ?_⟩
  · obtain ⟨F, hexec, hF⟩ := exec_binForms s ty p hp hok d a b m t
    rw [hexec]
    exact vec_of_write hty (allowed_eq_true hok) hF
  · obtain ⟨F, hexec, hF⟩ := exec_unForms s ty p hp hok d a m t
    rw [hexec]
    exact vec_of_write hty (allowed_eq_true hok) hF
  · have hill : ∀ F, ∃ u da, s.vec t floatOnly F = .next u ∧ StoppedBy s u s.cur s.curB 1 0x0001 da 0 0 := fun F =>
      vec_stoppedBy hf (fun ty' h => by rw [hty, hi] at h; cases h; rfl)
    simp only [List.forall_mem_cons, List.not_mem_nil, false_implies, implies_true, and_true]
    and_intros <;> exact hill _
  · have hill : ∀ ok F, ∃ u da, s.vec t ok F = .next u ∧ StoppedBy s u s.cur s.curB 1 0x0001 da 0 0 := fun ok F =>
      vec_stoppedBy hf (fun ty h => by rw [hnone] at h; cases h)
    simp only [List.forall_mem_cons, List.not_mem_nil, false_implies, implies_true, and_true]
    and_intros <;> exact hill _ _

end Sys2Proof.Machine
end

section
/-!
PROOF. Operations on the 32-bit lanes of vector registers, comparisons and masks (06 R146 to R148, R160).
-/

namespace Sys2Proof.Machine

open Sys2Proof.Safety Sys2Proof.Spec

theorem el_lt (r : Row) (w j : Nat) : r.el w j < 2 ^ w := Nat.mod_lt _ (Nat.two_pow_pos w)

/-! ### Lanes (06 R147, R148) -/

/-- Bits [63:32] of a product are its quotient by 2^32. -/
theorem ofInt_div_eq_extractLsb' (p : Int) : BitVec.ofInt 32 (p / 2 ^ 32) = (BitVec.ofInt 64 p).extractLsb' 32 32 := by
  apply BitVec.eq_of_toNat_eq
  rw [BitVec.extractLsb'_toNat, BitVec.toNat_ofInt, BitVec.toNat_ofInt, Nat.shiftRight_eq_div_pow]
  push_cast
  omega

/-- The complement of a lane. -/
theorem toNat_not_w32 (r : Row) (j : Nat) : (~~~w32 (r.el 32 j)).toNat = 2 ^ 32 - 1 - r.el 32 j := by
  rw [BitVec.toNat_not, w32, BitVec.toNat_ofNat, Nat.mod_eq_of_lt (el_lt r 32 j)]

/-- Each operation on lanes writes the word of its rule. -/
theorem exec_bitForms : ∀ p ∈ bitForms, ∀ (d a b : BitVec 5) (m : MaskType) (s : State), exec (p.1 d a b m) s = s.vbit d a b m p.2 := by
  simp only [bitForms, List.forall_mem_cons, List.not_mem_nil, false_implies, implies_true, and_true, ← ofInt_div_eq_extractLsb']
  and_intros <;> intros <;> rfl

theorem laneOperationsWriteGovernedLanes : LaneOperationsWriteGovernedLanes := by
  intro d a b m t s M va vb
  refine ⟨fun hty p hp => ?_, fun hty => ?_, fun hty => vec_of_write hty rfl rfl, eff_of_write rfl, fun hty => ?_, fun hty hf => ?_⟩
  · rw [exec_bitForms p hp]
    exact vec_of_write hty rfl rfl
  · rw [← funext (toNat_not_w32 va)]
    exact vec_of_write hty rfl rfl
  · refine vec_of_write hty rfl (congrArg (s.me.wrV d) ?_)
    exact congrArg₂ ((s.me.rdV d).write 32 (fun _ => true)) (funext fun j => apply_ite (Row.el · 32 j) _ va vb)
      (funext fun j => apply_ite (Row.bad · 32 j) _ va vb)
  · have hill : ∀ F, ∃ u da, s.vec t intOnly F = .next u ∧ StoppedBy s u s.cur s.curB 1 0x0001 da 0 0 := fun F =>
      vec_stoppedBy hf (fun ty h => decide_eq_false (fun hi => hty (hi ▸ h)))
    intro i hi
    rcases List.mem_append.mp hi with hi | hi
    · obtain ⟨p, hp, rfl⟩ := List.mem_map.mp hi
      rw [exec_bitForms p hp]
      exact hill _
    · simp only [List.mem_cons, List.not_mem_nil, or_false] at hi
      rcases hi with rfl | rfl | rfl <;> exact hill _

/-! ### Masks (06 R146, R160) -/

/-- Where `F` writes mask `d` with bits `f`, the vector stream issues and nothing else changes; a write to m0 is discarded. -/
theorem eff_of_wrM {s : State} {F : Bank → Bank} {d : BitVec 3} {f : Nat → Bool} (h : F s.me = s.me.wrM d (ofMask f)) :
    ∃ u, s.eff 1 F = .next u ∧ MaskRegs s u ∧ (∀ r, r ≠ d ∨ r = 0 → u.me.rdM r = s.me.rdM r)
      ∧ (d ≠ 0 → ∀ i, i < 128 → (u.me.rdM d).getLsbD i = f i) := by
  refine ⟨_, rfl, ⟨onlyBank_onMe s _, ?_⟩, fun r hr => ?_, fun hd i hi => ?_⟩ <;> rw [me_onMe, h]
  · exact ⟨issued_advance 1 (stream_wrM s.me d _) (Bank.wrM_imem s.me d _), kept_wrM s.me 1 d _⟩
  · rw [rdM_advance, rdM_wrM, if_neg (fun ⟨e, h0⟩ => hr.elim (fun hne => hne e) (fun hz => h0 (e ▸ hz)))]
  · rw [rdM_advance, rdM_wrM, if_pos ⟨rfl, hd⟩, getLsbD_ofMask f i hi]

/-- Each comparison is one of elements, with the truth of its rule. -/
theorem exec_cmpForms (s : State) (ty : VT) : ∀ p ∈ cmpForms s.me ty, ∀ (d : BitVec 3) (a b : BitVec 5) (m : BitVec 3) (t : BitVec 2),
    ∃ ff fi, exec (p.1 d a b m t) s = s.vcmp d a b m t ff fi ∧ s.me.cmpEl ty ff fi = p.2 := by
  simp only [cmpForms, List.forall_mem_cons, List.not_mem_nil, false_implies, implies_true, and_true]
  refine ⟨?vcmpeq, ?vcmplt, ?vcmple⟩ <;> intro d a b m t <;> refine ⟨_, _, rfl, ?_⟩ <;> funext x y <;> unfold Bank.cmpEl <;> cases ty.fmt
  case vcmpeq.none => exact decide_eq_decide.mpr BitVec.toInt_inj.symm
  case vcmple.none =>
    show (!decide ((w32 y).toInt < (w32 x).toInt)) = _
    rw [← decide_not, decide_eq_decide, not_lt]
  all_goals rfl

theorem vectorComparisonsWriteMasks : VectorComparisonsWriteMasks := by
  refine ⟨fun d a b m t s ty hty p hp => ?_, fun d a s => eff_of_wrM rfl⟩
  obtain ⟨ff, fi, hexec, hcmp⟩ := exec_cmpForms s ty p hp d a b m t
  rw [hexec, ← hcmp, State.vcmp, vec_of_ok hty rfl]
  cases ty <;> exact eff_of_wrM rfl

/-- Settles O18, from the lanes and the masks. -/
theorem lanesAndComparisons : Obligations.LanesAndComparisons :=
  ⟨laneOperationsWriteGovernedLanes, vectorComparisonsWriteMasks⟩

end Sys2Proof.Machine
end

section
/-!
PROOF. Multiply-adds, conversion, scaling, constants and literals of the vector engine (06 R149, R150, R161; 07 R170 to R175).
-/

namespace Sys2Proof.Machine

open Sys2Proof.Safety Sys2Proof.Spec

/-! ### Fused, converted and scaled elements (06 R149, R150, R161) -/

theorem ne_i32_of_fmt {ty : VT} {f : Fmt} (h : ty.fmt = some f) : ty ≠ .i32 := by
  rintro rfl; cases h

/-- A mask of ones governs every element of a register. -/
theorem gov_allOnes {ty : VT} {j : Nat} (h : j < 4096 / ty.bits) : ty.gov (BitVec.allOnes 128) j = true := by
  cases ty <;> simp only [VT.gov, VT.bits, BitVec.getLsbD_allOnes, decide_eq_true_eq] at h ⊢ <;> omega

/-- Elements written under one mask are written under another that governs the same elements of the register. -/
theorem wroteElements_congr_gov {s u : State} {d : BitVec 5} {ty : VT} {gov gov' : Nat → Bool} {f : Nat → Nat} {bad : Nat → Bool}
    (h : ∀ j, j < 4096 / ty.bits → gov' j = gov j) (hw : WroteElements s u d ty.bits gov f bad) : WroteElements s u d ty.bits gov' f bad := by
  have hin : ∀ g i, g < 32 → i < 128 / ty.bits → 128 / ty.bits * g + i < 4096 / ty.bits := by
    intro g i hg hi
    cases ty <;> simp only [VT.bits] at hi ⊢ <;> omega
  obtain ⟨hel, hpoison⟩ := hw
  refine ⟨fun j hj => ?_, fun g hg => (hpoison g hg).trans (exists_congr fun i => and_congr_right fun hi => ?_)⟩
  · rw [h j hj]; exact hel j hj
  · rw [h _ (hin g i hg hi)]

theorem exec_fmaForms : ∀ p ∈ fmaForms, ∀ (d a b c : BitVec 5) (t : BitVec 2) (s : State), exec (p.1 d a b c t) s = s.vfma4 d a b c t p.2.1 p.2.2 := by
  simp only [fmaForms, List.forall_mem_cons, List.not_mem_nil, false_implies, implies_true, and_true]
  and_intros <;> intros <;> rfl

/-- The lane of exponents that belongs to an element lies at the bits of the element. -/
theorem expLane_eq (ty : VT) (j : Nat) : ty.expLane j = j * ty.bits / 32 := by
  cases ty <;> simp only [VT.expLane, VT.bits] <;> omega

theorem fusedConvertedAndScaledElements : FusedConvertedAndScaledElements := by
  intro d a b c m cs t s ty hty va vb vc
  refine ⟨fun p hp f hf => ?_, fun src hsrc => ?_, fun f hf => ?_, fun hi hf => ?_⟩
  · rw [exec_fmaForms p hp, State.vfma4]
    have hgov : ∀ j, j < 4096 / ty.bits → true = ty.gov (BitVec.allOnes 128) j := fun _ hj => (gov_allOnes hj).symm
    refine Exists.imp (fun u => And.imp_right (And.imp_right (wroteElements_congr_gov hgov))) (vec_of_write hty (decide_eq_true (ne_i32_of_fmt hf)) ?_)
    simp only [hf]
    rfl
  · rw [exec_vcvt, execVcvt, hsrc]
    exact vec_of_write hty rfl rfl
  · rw [exec_vscale, execVscale]
    refine vec_of_write hty (decide_eq_true (ne_i32_of_fmt hf)) ?_
    simp only [hf, expLane_eq]
    rfl
  · have hill : ∀ F, ∃ u da, s.vec t floatOnly F = .next u ∧ StoppedBy s u s.cur s.curB 1 0x0001 da 0 0 := fun F =>
      vec_stoppedBy hf (fun ty' h => by rw [hty, hi] at h; cases h; rfl)
    simp only [List.forall_mem_cons, List.not_mem_nil, false_implies, implies_true, and_true]
    and_intros <;> exact hill _

/-! ### Constants and literals (07 R170 to R175) -/

/-- An immediate of 20 bits at the top of a word. -/
theorem ofNat_mul_eq_append (i : BitVec 20) : BitVec.ofNat 32 (i.toNat * 4096) = i ++ (0 : BitVec 12) := by
  apply BitVec.eq_of_toNat_eq
  rw [BitVec.toNat_ofNat, BitVec.toNat_append, show (0 : BitVec 12).toNat = 0 from rfl, Nat.or_zero, Nat.shiftLeft_eq]
  have := i.isLt
  omega

/-- Where `F` writes a clean register of lanes `f`, the vector stream issues and nothing else changes. -/
theorem eff_of_lanes {s : State} {F : Bank → Bank} {d : BitVec 5} {f : Nat → Word} (h : F s.me = s.me.wrV d { data := ofLanes f }) :
    ∃ u, s.eff 1 F = .next u ∧ VectorReg s u d ∧ (u.me.rdV d).poison = 0 ∧ ∀ j, j < 128 → lane (u.me.rdV d).data j = f j := by
  obtain ⟨u, hu, hreg, hrow⟩ := eff_of_wrV h
  refine ⟨u, hu, hreg, ?_, fun j hj => ?_⟩ <;> rw [hrow]
  exact lane_ofLanes f j hj

theorem constantAndLiteralForms : ConstantAndLiteralForms := by
  refine ⟨fun d a i m t lit s ty hty => ⟨?_, ?_⟩, fun d i s => ⟨?_, eff_of_lanes rfl⟩⟩
  · simp only [constForms, List.forall_mem_cons, List.not_mem_nil, false_implies, implies_true, and_true, Bool.true_and, Bool.false_and, Bool.or_false]
    refine ⟨?fmak, ?fmal, ?addk, ?addl, ?mulk, ?mull⟩
    case fmak | fmal =>
      simp only [Bool.or_comm ((s.me.rdV a).bad _ _)]
      exact vec_of_write hty rfl rfl
    all_goals exact vec_of_write hty rfl rfl
  · simp only [List.forall_mem_cons, List.not_mem_nil, false_implies, implies_true, and_true]
    cases ty <;> exact ⟨vec_of_write hty rfl rfl, vec_of_write hty rfl rfl⟩
  · rw [← ofNat_mul_eq_append]
    exact eff_of_lanes rfl

/-- Settles O19, from the elements and the constants. -/
theorem fusedConvertedAndConstantForms : Obligations.FusedConvertedAndConstantForms :=
  ⟨fusedConvertedAndScaledElements, constantAndLiteralForms⟩

end Sys2Proof.Machine
end

section
/-!
PROOF. Address registers, and moves of lanes and bytes between vector registers (06 R151, R153, R154, R159).
-/

namespace Sys2Proof.Machine

open Sys2Proof.Safety Sys2Proof.Spec

/-! ### Address registers (06 R151) -/

/-- Where `F` writes address register `d` with `v`, the vector stream issues and nothing else changes; a write to a6 or a7 is discarded. -/
theorem eff_of_wrA {s : State} {F : Bank → Bank} {d : BitVec 3} {v : Word} (h : F s.me = s.me.wrA d v) :
    ∃ u, s.eff 1 F = .next u ∧ AddressRegs s u ∧ ∀ r, r ≠ 6 → r ≠ 7 → u.me.rdA r = if r = d then v else s.me.rdA r := by
  refine ⟨_, rfl, ⟨onlyBank_onMe s _, ?_⟩, fun r h6 h7 => ?_⟩ <;> rw [me_onMe, h]
  · exact ⟨issued_advance 1 (stream_wrA s.me d v) (Bank.wrA_imem s.me d v), kept_wrA s.me 1 d v⟩
  · rw [rdA_advance _ _ _ _ h6 h7, rdA_wrA]
    exact if_congr ⟨fun ⟨hr, _⟩ => hr, fun hr => ⟨hr, hr ▸ h6, hr ▸ h7⟩⟩ rfl rfl

/-! ### Rows whose bytes have been moved (06 R153) -/

section
variable {f : Nat → Option (Row × Nat)}

theorem el_moveBytes_of_some {i j : Nat} {r : Row} (hi : i < 512) (h : f i = some (r, j)) : (moveBytes f).el 8 i = r.el 8 j := by
  rw [el_eq_elem, byte_moveBytes f i hi, h, el_eq_elem]

theorem el_moveBytes_of_none {i : Nat} (hi : i < 512) (h : f i = none) : (moveBytes f).el 8 i = 0 := by
  rw [el_eq_elem, byte_moveBytes f i hi, h]; rfl

/-- A granule of such a row is poisoned where a byte of it came from a poisoned granule. -/
theorem poison_moveBytes_iff {g : Nat} (hg : g < 32) : (moveBytes f).poison.getLsbD g = true ↔
    ∃ c, c < 16 ∧ ∃ x, f (16 * g + c) = some x ∧ x.1.poison.getLsbD (x.2 / 16) = true := by
  rw [moveBytes, getLsbD_ofGran _ _ hg, anyBelow_iff]
  refine exists_congr fun c => and_congr_right fun _ => ?_
  cases f (16 * g + c) with
  | none => simp
  | some x => simp

end

/-- Settles O20: a write of an address register, two moves of lanes and one of bytes. -/
theorem addressesLanesAndBytesMove : Obligations.AddressesLanesAndBytesMove := by
  unfold Obligations.AddressesLanesAndBytesMove
  refine ⟨fun a b i s => ?_, fun d a b x m s => ⟨eff_of_write rfl, eff_of_write rfl⟩, fun v w a s => ?_⟩
  · simp only [List.forall_mem_cons, List.not_mem_nil, false_implies, implies_true, and_true]
    exact ⟨eff_of_wrA rfl, eff_of_wrA rfl, eff_of_wrA rfl⟩
  · intro n from_
    have hmoved : ∃ u, exec (.vrotm v a w) s = .next u ∧ VectorReg s u v ∧ u.me.rdV v = moveBytes fun i => some (from_ i) :=
      eff_of_wrV (congrArg (fun f => s.me.wrV v (moveBytes f)) (funext fun i => (apply_ite some _ _ _).symm))
    obtain ⟨u, hu, hreg, hrow⟩ := hmoved
    refine ⟨u, hu, hreg, fun i hi => ?_, fun g hg => ?_⟩ <;> rw [hrow]
    · exact el_moveBytes_of_some hi rfl
    · rw [poison_moveBytes_iff hg]
      simp only [Option.some.injEq, exists_eq_left']

end Sys2Proof.Machine
end

section
/-!
PROOF. Scratchpad rows read and written, and the row accesses of the vector engine (06 R152; 08 R186, R189, R196; 10 R248).
-/

namespace Sys2Proof.Machine

open Sys2Proof.Safety Sys2Proof.Spec

/-! ### A scratchpad changed -/

/-- From `s` to `t` nothing differs but the scratchpad of the executing unit, which is `p`, and its race tags, which are `x`. -/
structure PadSet (s t : State) (p : Map Row) (x : Map Tag) : Prop where
  rest   : { t with units := s.units } = s
  others : ∀ v, v ≠ s.cur → t.core v = s.core v
  own    : t.core s.cur = { s.core s.cur with pad := p, tags := x }

section
variable {s t : State} {p : Map Row} {x : Map Tag}

theorem PadSet.refl (s : State) : PadSet s s (s.core s.cur).pad (s.core s.cur).tags := ⟨rfl, fun _ _ => rfl, rfl⟩

theorem PadSet.setRow (h : PadSet s t p x) (b r : Nat) (v : Row) :
    PadSet s (t.setRow s.cur b r v) (set {} p ((t.bank s.cur b).base + r) v) x where
  rest := h.rest
  others u hu := (core_setRow_other t b r v hu).trans (h.others u hu)
  own := by rw [core_setRow_self, h.own]

theorem PadSet.setRowTag (h : PadSet s t p x) (b r : Nat) (y : Tag) :
    PadSet s (t.setRowTag s.cur b r y) p (set {} x ((t.bank s.cur b).base + r) y) where
  rest := h.rest
  others u hu := (core_setCore_other t _ hu).trans (h.others u hu)
  own := by rw [State.setRowTag, core_setCore_self, h.own]

theorem PadSet.cur (h : PadSet s t p x) : t.cur = s.cur := by
  show ({ t with units := s.units } : State).cur = s.cur; rw [h.rest]

theorem PadSet.curB (h : PadSet s t p x) : t.curB = s.curB := by
  unfold State.curB; rw [h.cur, h.own]

theorem PadSet.bank (h : PadSet s t p x) (b : Nat) : t.bank s.cur b = s.bank s.cur b := by
  unfold State.bank; rw [h.own]; rfl

theorem PadSet.me (h : PadSet s t p x) : t.me = s.me := by
  rw [State.me, h.cur, h.curB, h.bank]; rfl

theorem PadSet.row (h : PadSet s t p x) (r : Nat) : t.row s.cur s.curB r = get {} p (s.me.base + r) := by
  unfold State.row; rw [h.own, h.bank]; rfl

theorem PadSet.rowTag (h : PadSet s t p x) (r : Nat) : t.rowTag s.cur s.curB r = get {} x (s.me.base + r) := by
  unfold State.rowTag; rw [h.own, h.bank]; rfl

/-- An instruction that has changed the scratchpad and then changes its bank by `F` and issues. -/
theorem PadSet.eff (h : PadSet s t p x) (e : Nat) (F : Bank → Bank) : ∃ u, t.eff e F = .next u ∧ OnlyPad s u
    ∧ u.me = (F s.me).advance e ∧ u.bank s.cur s.curB = (F s.me).advance e ∧ (u.core s.cur).pad = p ∧ (u.core s.cur).tags = x := by
  have hme : (t.onMe fun k => (F k).advance e).me = (F s.me).advance e := by rw [me_onMe, h.me]
  have hcore : (t.onMe fun k => (F k).advance e).core s.cur = ({ s.core s.cur with pad := p, tags := x }).setBank s.curB ((F s.me).advance e) := by
    rw [← h.own, ← h.cur, core_onMe_self, h.me, h.curB]
  refine ⟨_, rfl, ⟨h.rest, fun v hv => ?_, ?_, fun a => ?_⟩, hme, ?_, ?_, ?_⟩
  · rw [core_onMe_other t _ (h.cur ▸ hv)]; exact h.others v hv
  · rw [hcore, hme]; unfold Core.setBank; split <;> rfl
  · show rdByte ({ t with units := s.units } : State).mem a = rdByte s.mem a; rw [h.rest]
  · rw [State.bank, hcore, Core.bank_setBank_self]
  · rw [hcore, Core.setBank_pad]
  · rw [hcore, Core.setBank_tags]

/-! ### Rows read and written (08 R189, R196; 10 R248) -/

/-- A read of a row of the window that the race check lets pass, or that holds a live arrival word. -/
theorem PadSet.readRow (h : PadSet s t p x) {e r : Nat} (ep : BitVec 13) (hr : r < s.me.rows)
    (hfree : s.me.arrRow r = true ∨ (get {} x (s.me.base + r)).race (s.me.stream e).know e false = none) :
    ∃ t' x', t.readRow s.cur s.curB e ep r = .ok (get {} p (s.me.base + r), t') ∧ PadSet s t' p x'
      ∧ ∀ n, n ≠ s.me.base + r → get {} x' n = get {} x n := by
  have hk : t.bank s.cur s.curB = s.me := h.bank _
  unfold State.readRow
  simp only [hk, if_neg (Nat.not_le.mpr hr), h.row, h.rowTag]
  by_cases ha : s.me.arrRow r = true
  · exact ⟨t, x, if_pos ha, h, fun _ _ => rfl⟩
  · rw [if_neg ha, hfree.resolve_left ha]
    exact ⟨_, _, rfl, h.setRowTag _ _ _, fun n hn => get_set_other _ _ _ (hk ▸ hn)⟩

end

section
variable {s : State} {e r g : Nat} (ep : BitVec 13) (v : Row)

theorem readRow_of_race (hr : r < s.me.rows) (ha : s.me.arrRow r = false)
    (hrace : (s.rowTag s.cur s.curB r).race (s.me.stream e).know e false = some g) : s.readRow s.cur s.curB e ep r = .error (raceFlt r g e) := by
  have hk : s.bank s.cur s.curB = s.me := rfl
  simp only [State.readRow, hk, if_neg (Nat.not_le.mpr hr), ha, Bool.false_eq_true, if_false, hrace]

theorem writeRow_of_arrRow (hr : r < s.me.rows) (ha : s.me.arrRow r = true) :
    s.writeRow s.cur s.curB e ep r v = .error { code := 0x0012, da := BitVec.ofNat 64 r } := by
  have hk : s.bank s.cur s.curB = s.me := rfl
  simp only [State.writeRow, hk, if_neg (Nat.not_le.mpr hr), ha, if_true]

theorem writeRow_of_race (hr : r < s.me.rows) (ha : s.me.arrRow r = false)
    (hrace : (s.rowTag s.cur s.curB r).race (s.me.stream e).know e true = some g) : s.writeRow s.cur s.curB e ep r v = .error (raceFlt r g e) := by
  have hk : s.bank s.cur s.curB = s.me := rfl
  simp only [State.writeRow, hk, if_neg (Nat.not_le.mpr hr), ha, Bool.false_eq_true, if_false, hrace]

/-- A write of a row of the window without a live arrival word that the race check lets pass. -/
theorem writeRow_of_free (hr : r < s.me.rows) (ha : s.me.arrRow r = false)
    (hrace : (s.rowTag s.cur s.curB r).race (s.me.stream e).know e true = none) :
    ∃ t, s.writeRow s.cur s.curB e ep r v = .ok t ∧ PadSet s t (set {} (s.core s.cur).pad (s.me.base + r) v)
      (set {} (s.core s.cur).tags (s.me.base + r) ((s.rowTag s.cur s.curB r).mark e ep true)) := by
  have hk : s.bank s.cur s.curB = s.me := rfl
  have hbase : (s.setRow s.cur s.curB r v).bank s.cur s.curB = s.me := bank_setRow s s.cur s.curB r v s.cur s.curB
  refine ⟨(s.setRow s.cur s.curB r v).setRowTag s.cur s.curB r ((s.rowTag s.cur s.curB r).mark e ep true), ?_, ?_⟩
  · simp only [State.writeRow, hk, if_neg (Nat.not_le.mpr hr), ha, Bool.false_eq_true, if_false, hrace]
  · have hset := ((PadSet.refl s).setRow s.curB r v).setRowTag s.curB r ((s.rowTag s.cur s.curB r).mark e ep true)
    rwa [hbase] at hset

end

/-! ### Row accesses (06 R152) -/

/-- A bank whose address register `a` has moved behind an access, where the form moves it. -/
def Bank.moved (k : Bank) (post : Bool) (a : BitVec 3) (i : BitVec 14) : Bank := if post then k.wrA a (rowAt k a i) else k

section
variable (k : Bank) (post : Bool) (a : BitVec 3) (i : BitVec 14)

theorem moved_eq : ∃ m, k.moved post a i = { k with a := m } := by
  unfold Bank.moved Bank.wrA
  split
  · split
    · exact ⟨_, rfl⟩
    · exact ⟨_, rfl⟩
  · exact ⟨_, rfl⟩

theorem kept_moved : { k.moved post a i with a := k.a, streams := k.streams } = k := by
  obtain ⟨m, hm⟩ := moved_eq k post a i
  rw [hm]

theorem kept_moved_wrV (v : BitVec 5) (r : Row) :
    { (k.moved post a i).wrV v r with v := k.v, a := k.a, streams := k.streams } = k := by
  obtain ⟨m, hm⟩ := moved_eq k post a i
  rw [hm]; rfl

theorem rdA_moved (x : BitVec 3) (h6 : x ≠ 6) (h7 : x ≠ 7) : (k.moved post a i).rdA x = if post = true ∧ x = a then rowAt k a i else k.rdA x := by
  unfold Bank.moved
  cases post with
  | false => simp
  | true =>
    rw [if_pos rfl, rdA_wrA]
    exact if_congr ⟨fun ⟨hx, _⟩ => ⟨rfl, hx⟩, fun ⟨_, hx⟩ => ⟨hx, hx ▸ h6, hx ▸ h7⟩⟩ rfl rfl

end

section
variable {s : State} {v : BitVec 5} {addr : Word} {upd : Bank → Bank} {f : Flt}

theorem vload_of_range (h : s.me.rows ≤ rowOf addr) : s.vload v addr upd = s.flt 1 (s.me.rangeFlt addr.toNat) := if_pos h

theorem vload_of_error (hr : rowOf addr < s.me.rows) (h : s.readRow s.cur s.curB 1 s.me.vep (rowOf addr) = .error f) : s.vload v addr upd = s.flt 1 f := by
  rw [State.vload, if_neg (Nat.not_le.mpr hr), h]

theorem vload_of_ok {row : Row} {t : State} (hr : rowOf addr < s.me.rows) (h : s.readRow s.cur s.curB 1 s.me.vep (rowOf addr) = .ok (row, t)) :
    s.vload v addr upd = t.eff 1 (fun k => (upd k).wrV v row) := by
  rw [State.vload, if_neg (Nat.not_le.mpr hr), h]

theorem vstore_of_range (h : s.me.rows ≤ rowOf addr) : s.vstore v addr upd = s.flt 1 (s.me.rangeFlt addr.toNat) := if_pos h

theorem vstore_of_error (hr : rowOf addr < s.me.rows) (h : s.writeRow s.cur s.curB 1 s.me.vep (rowOf addr) (s.me.rdV v) = .error f) :
    s.vstore v addr upd = s.flt 1 f := by
  rw [State.vstore, if_neg (Nat.not_le.mpr hr), h]

theorem vstore_of_ok {t : State} (hr : rowOf addr < s.me.rows) (h : s.writeRow s.cur s.curB 1 s.me.vep (rowOf addr) (s.me.rdV v) = .ok t) :
    s.vstore v addr upd = t.eff 1 upd := by
  rw [State.vstore, if_neg (Nat.not_le.mpr hr), h]

end

/-- The loads and stores of a row, with the address register that they move. -/
theorem exec_rowLoads (v : BitVec 5) (a : BitVec 3) (i : BitVec 14) (s : State) :
    ∀ p ∈ [(Instr.vld v a i, rowAt s.me a i, false), (Instr.vldp v a i, s.me.rdA a, true)],
      exec p.1 s = s.vload v p.2.1 (fun k => k.moved p.2.2 a i) := by
  simp only [List.forall_mem_cons, List.not_mem_nil, false_implies, implies_true, and_true]
  exact ⟨rfl, rfl⟩

theorem exec_rowStores (v : BitVec 5) (a : BitVec 3) (i : BitVec 14) (s : State) :
    ∀ p ∈ [(Instr.vst v a i, rowAt s.me a i, false), (Instr.vstp v a i, s.me.rdA a, true)],
      exec p.1 s = s.vstore v p.2.1 (fun k => k.moved p.2.2 a i) := by
  simp only [List.forall_mem_cons, List.not_mem_nil, false_implies, implies_true, and_true]
  exact ⟨rfl, rfl⟩

theorem vectorRowAccesses : VectorRowAccesses := by
  intro v a i s
  refine ⟨fun p hp => ?_, fun p hp => ?_⟩
  · rw [exec_rowLoads v a i s p hp]
    generalize p.2.1 = addr, p.2.2 = post
    refine ⟨fun row hrow hr hfree => ?_, fun hr hf => ?_, fun g hr ha hrace hf => ?_⟩
    · subst hrow
      obtain ⟨t, x, hread, hset, htags⟩ := (PadSet.refl s).readRow s.me.vep hr hfree
      obtain ⟨u, hu, honly, hme, -, hpad, hx⟩ := hset.eff 1 (fun k => (k.moved post a i).wrV v (s.row s.cur s.curB (rowOf addr)))
      obtain ⟨m, hm⟩ := moved_eq s.me post a i
      refine ⟨u, (vload_of_ok hr hread).trans hu, honly, ?_, ?_, fun y => ?_, fun y h6 h7 => ?_, hpad, fun n hn => ?_⟩
      · rw [hme, hm]; exact issued_advance 1 (fun _ => rfl) rfl
      · rw [hme]; exact kept_moved_wrV s.me post a i v (s.row s.cur s.curB (rowOf addr))
      · rw [hme, rdV_advance, rdV_wrV, hm]; rfl
      · rw [hme, rdA_advance _ _ _ _ h6 h7]; exact rdA_moved s.me post a i y h6 h7
      · rw [hx]; exact htags n hn
    · rw [vload_of_range hr]
      exact stoppedBy_fault s 1 _ _ _ _ hf
    · rw [vload_of_error hr (readRow_of_race _ hr ha hrace)]
      exact stoppedBy_fault s 1 _ _ _ _ hf
  · rw [exec_rowStores v a i s p hp]
    generalize p.2.1 = addr, p.2.2 = post
    refine ⟨fun hr ha hrace => ?_, fun hr hf => ?_, fun hr ha hf => ?_, fun g hr ha hrace hf => ?_⟩
    · obtain ⟨t, hwrite, hset⟩ := writeRow_of_free s.me.vep (s.me.rdV v) hr ha hrace
      obtain ⟨u, hu, honly, hme, hbank, hpad, hx⟩ := hset.eff 1 (fun k => k.moved post a i)
      obtain ⟨m, hm⟩ := moved_eq s.me post a i
      have hbase : (u.bank s.cur s.curB).base = s.me.base := by rw [hbank, hm]; rfl
      refine ⟨u, (vstore_of_ok hr hwrite).trans hu, honly, ?_, ?_, fun y h6 h7 => ?_, ?_, fun n hn => ?_, fun n hn => ?_, ?_, ?_⟩
      · rw [hme, hm]; exact issued_advance 1 (fun _ => rfl) rfl
      · rw [hme]; exact kept_moved s.me post a i
      · rw [hme, rdA_advance _ _ _ _ h6 h7]; exact rdA_moved s.me post a i y h6 h7
      · rw [State.row, hpad, hbase, get_set_self]
      · rw [hpad, get_set_other _ _ _ hn]
      · rw [hx, get_set_other _ _ _ hn]
      · rw [State.rowTag, hx, hbase, get_set_self]; rfl
      · rw [State.rowTag, hx, hbase, get_set_self]; rfl
    · rw [vstore_of_range hr]
      exact stoppedBy_fault s 1 _ _ _ _ hf
    · rw [vstore_of_error hr (writeRow_of_arrRow _ _ hr ha)]
      exact stoppedBy_fault s 1 _ _ _ _ hf
    · rw [vstore_of_error hr (writeRow_of_race _ _ hr ha hrace)]
      exact stoppedBy_fault s 1 _ _ _ _ hf

end Sys2Proof.Machine
end

section
/-!
PROOF. The FIFOs of the vector engine and the constant bank (06 R155, R156; 07 R177; 10 R247).
-/

namespace Sys2Proof.Machine

open Sys2Proof.Safety Sys2Proof.Spec

/-! ### The FIFOs (06 R155, R156) -/

/-- A stream that knows other epochs. -/
def Stream.withKnow (t : Stream) (n : Know) : Stream := { t with know := n }

theorem know_withKnow (t : Stream) (n : Know) : (t.withKnow n).know = n := rfl

theorem queueAs_withKnow (t : Stream) (n : Know) : QueueAs (t.withKnow n) t false := queueAs_of_eq rfl rfl rfl rfl rfl rfl

/-- The levels behind an entry do not depend on what the stream knows. -/
theorem loopEnd_withKnow (t : Stream) (n : Know) (x : BitVec 13) : (t.withKnow n).loopEnd x = (t.loopEnd x).withKnow n := by
  have hset : ∀ (t : Stream) (l : Nat) (p : Loop), (t.withKnow n).setLp l p = (t.setLp l p).withKnow n := fun t l p => by
    unfold Stream.setLp; rw [apply_ite (Stream.withKnow · n)]; rfl
  have hlevel : ∀ t : Stream, (t.withKnow n).noLevel = t.noLevel.withKnow n := fun t => by
    unfold Stream.noLevel; rw [apply_ite (Stream.withKnow · n)]; rfl
  unfold Stream.loopEnd
  rw [← hlevel]
  simp only [hset, ← apply_ite (Stream.withKnow · n)]
  rfl

/-- An issue takes the same entries whatever the stream has learned. -/
theorem advanced_learn (k : Bank) (e f : Nat) (p : BitVec 13) (x : Option (BitVec 13)) :
    (k.learn e f p).advanced e x = (k.advanced e x).withKnow (merge (k.stream e).know f p) := by
  have hs : (k.learn e f p).stream e = (k.stream e).withKnow (merge (k.stream e).know f p) := stream_onStream_self _ _ _
  unfold Bank.advanced
  rw [hs]
  generalize k.stream e = t
  generalize merge t.know f p = n
  have hfill : ∀ (u : Stream) q, (k.learn e f p).fill e (u.withKnow n) q = k.fill e u q := fun u q => rfl
  have hrefill : ∀ (u : Stream) a, (k.learn e f p).refill e u a = k.refill e u a := fun u q => rfl
  have hsucc : ∀ a, (k.learn e f p).succ e a = k.succ e a := fun a => rfl
  have htakes : ∀ a, (t.withKnow n).takesExit a = t.takesExit a := fun a => rfl
  simp only [loopEnd_withKnow, hfill, hrefill, hsucc, htakes]
  rw [apply_ite (Stream.withKnow · n)]
  rfl

/-- A bank that has taken the head `r` of fv into register `v`, with `rs` left (06 R155). -/
def Bank.popped (k : Bank) (v : BitVec 5) (r : FRow) (rs : List FRow) : Bank :=
  ((k.setFifo 2 { k.dfifo 2 with rows := rs }).learn 1 r.eng r.epoch).wrV v r.row

theorem advanced_popped (k : Bank) (v : BitVec 5) (r : FRow) (rs : List FRow) :
    (k.popped v r rs).advanced 1 none = (k.advanced 1 none).withKnow (merge (k.stream 1).know r.eng r.epoch) := by
  have hlearn := advanced_learn (k.setFifo 2 { k.dfifo 2 with rows := rs }) 1 r.eng r.epoch none
  rw [advanced_congr (k := k) 1 none (stream_setFifo k 2 _ 1) rfl] at hlearn
  exact (advanced_congr 1 none (stream_wrV _ v r.row 1) rfl).trans hlearn

/-- A push changes the FIFOs alone. -/
theorem kept_append (k : Bank) (f : Nat) (r : FRow) : { k.append f r with fifo := k.fifo, streams := k.streams } = k := by rfl

/-- A pop changes the vector registers, the FIFOs and the vector stream alone. -/
theorem kept_popped (k : Bank) (v : BitVec 5) (r : FRow) (rs : List FRow) :
    { k.popped v r rs with v := k.v, fifo := k.fifo, streams := k.streams } = k := by rfl

theorem stream_popped_other (k : Bank) (v : BitVec 5) (r : FRow) (rs : List FRow) {f : Nat} (hf : f ≠ 1) : (k.popped v r rs).stream f = k.stream f :=
  (stream_wrV _ v r.row f).trans ((stream_onStream_other _ _ hf).trans (stream_setFifo k 2 _ f))

theorem exec_vpop_of_cons {v : BitVec 5} {s : State} {r : FRow} {rs : List FRow} (h : (s.me.dfifo 2).rows = r :: rs) :
    exec (.vpop v) s = s.eff 1 (fun k => k.popped v r rs) := by
  rw [exec_vpop, execVpop, h]; rfl

/-! ### The constant bank (07 R177) -/

/-- A bank whose constants below `n` are `f`. -/
def Bank.loadK (k : Bank) (f : Nat → Word) (n : Nat) : Bank := (List.range n).foldl (fun acc j => { acc with k := set 0 acc.k j (f j) }) k

theorem loadK_eq (k : Bank) (f : Nat → Word) (n : Nat) : ∃ m, k.loadK f n = { k with k := m } ∧ ∀ j, get 0 m j = if j < n then f j else get 0 k.k j := by
  induction n with
  | zero => exact ⟨k.k, rfl, fun j => (if_neg (Nat.not_lt_zero j)).symm⟩
  | succ n ih =>
    obtain ⟨m, hm, hget⟩ := ih
    refine ⟨set 0 m n (f n), ?_, fun j => ?_⟩
    · rw [Bank.loadK, List.range_succ, List.foldl_append]
      exact congrArg (fun acc : Bank => { acc with k := set 0 acc.k n (f n) }) hm
    · rw [get_set, hget]
      by_cases hj : j = n
      · rw [if_pos hj, if_pos (by omega), hj]
      · rw [if_neg hj]; exact if_congr (by omega) rfl rfl

/-- Lane `j` of two rows that follow one another. -/
def laneOf (x y : Row) (j : Nat) : Word := if j < 128 then lane x.data j else lane y.data (j - 128)

/-- `VLDKB` behind its two reads (log entry 49). -/
theorem vldkb_of_reads {s s1 s2 : State} {a : BitVec 3} {i : BitVec 14} {x y : Row} (hr : rowOf (rowAt s.me a i) + 1 < s.me.rows)
    (h1 : s.readRow s.cur s.curB 1 s.me.vep (rowOf (rowAt s.me a i)) = .ok (x, s1))
    (h2 : s1.readRow s.cur s.curB 1 s.me.vep (rowOf (rowAt s.me a i) + 1) = .ok (y, s2)) :
    exec (.vldkb a i) s = if x.poison ≠ 0 ∨ y.poison ≠ 0 then
        s.fault 1 0x000A (BitVec.ofNat 64 (512 * rowOf (rowAt s.me a i))) (BitVec.ofNat 64 (x.poison.toNat + 2 ^ 32 * y.poison.toNat))
      else s2.eff 1 (fun k => k.loadK (laneOf x y) 256) := by
  have hrow : s.me.rowAddr a i = rowAt s.me a i := rfl
  rw [exec_vldkb]
  simp only [execVldkb, hrow, if_neg (Nat.not_le.mpr hr), h1, h2]
  rfl

/-- `VLDKB` on two rows of the window that the race checks let pass: where both are clean they fill the constant bank, else it is the machine check. -/
theorem vldkb_outcome (a : BitVec 3) (i : BitVec 14) (s : State) {r : Nat} {x y : Row} (hrow : r = rowOf (rowAt s.me a i))
    (hx : x = s.row s.cur s.curB r) (hy : y = s.row s.cur s.curB (r + 1)) (hr : r + 1 < s.me.rows)
    (hfree1 : s.me.arrRow r = true ∨ (s.rowTag s.cur s.curB r).race (s.me.stream 1).know 1 false = none)
    (hfree2 : s.me.arrRow (r + 1) = true ∨ (s.rowTag s.cur s.curB (r + 1)).race (s.me.stream 1).know 1 false = none) :
    ∃ t z, exec (.vldkb a i) s = (if x.poison ≠ 0 ∨ y.poison ≠ 0 then
        s.fault 1 0x000A (BitVec.ofNat 64 (512 * r)) (BitVec.ofNat 64 (x.poison.toNat + 2 ^ 32 * y.poison.toNat))
      else t.eff 1 (fun k => k.loadK (laneOf x y) 256)) ∧ PadSet s t (s.core s.cur).pad z := by
  subst hrow hx hy
  obtain ⟨s1, x1, hread1, hset1, htags1⟩ := (PadSet.refl s).readRow s.me.vep (Nat.lt_of_succ_lt hr) hfree1
  obtain ⟨s2, x2, hread2, hset2, -⟩ := hset1.readRow s.me.vep hr (by rw [htags1 _ (by omega)]; exact hfree2)
  exact ⟨s2, x2, vldkb_of_reads hr hread1 hread2, hset2⟩

theorem vldkb_issues {s t : State} {z : Map Tag} (f : Nat → Word) (h : PadSet s t (s.core s.cur).pad z) :
    ∃ u, t.eff 1 (fun k => k.loadK f 256) = .next u ∧ OnlyPad s u ∧ Issued 1 s.me u.me ∧ { u.me with k := s.me.k, streams := s.me.streams } = s.me
      ∧ (∀ n : BitVec 8, u.me.rdK n = f n.toNat) ∧ (u.core s.cur).pad = (s.core s.cur).pad := by
  obtain ⟨u, hu, honly, hme, -, hpad, -⟩ := h.eff 1 (fun k => k.loadK f 256)
  obtain ⟨m, hm, hget⟩ := loadK_eq s.me f 256
  rw [hm] at hme
  refine ⟨u, hu, honly, ?_, ?_, fun n => ?_, hpad⟩ <;> rw [hme]
  · exact issued_advance 1 (fun _ => rfl) rfl
  · generalize s.me = k; rfl
  · exact (hget n.toNat).trans (if_pos n.isLt)

theorem vpop_outcome (v : BitVec 5) (s : State) (r : FRow) (rs : List FRow) (h : (s.me.dfifo 2).rows = r :: rs) :
    ∃ u, exec (.vpop v) s = .next u ∧ OnlyBank s u ∧ u.me = (s.me.popped v r rs).advance 1 :=
  ⟨_, exec_vpop_of_cons h, onlyBank_onMe s _, me_onMe s _⟩

theorem vpush_outcome (v : BitVec 5) (s : State) (h : (s.me.dfifo 3).rows.length < 16) :
    ∃ u, exec (.vpush v) s = .next u ∧ OnlyBank s u ∧ u.me = (s.me.append 3 { row := s.me.rdV v, eng := 1, epoch := s.me.vep }).advance 1 := by
  have hexec : exec (.vpush v) s = s.eff 1 (fun k => k.append 3 { row := k.rdV v, eng := 1, epoch := k.vep }) := if_neg (Nat.not_le.mpr h)
  exact ⟨_, hexec, onlyBank_onMe s _, me_onMe s _⟩

theorem vectorFifosAndConstantBank : VectorFifosAndConstantBank := by
  refine ⟨fun v s r rs hrows => ?_, fun v s hlen => ?_, fun a i s => ?_⟩
  · obtain ⟨u, hu, honly, hme⟩ := vpop_outcome v s r rs hrows
    refine ⟨u, hu, honly, ?_⟩
    rw [hme, stream_advance_self, advanced_popped]
    generalize s.me = k
    refine ⟨fun f hf => ?_, ?_, fun x => ?_, ?_, fun f hf => ?_, ?_, queueAs_withKnow _ _⟩
    · rw [stream_advance_other _ _ hf]; exact stream_popped_other k v r rs hf
    · exact kept_popped k v r rs
    · exact rdV_wrV _ v x r.row
    · exact congrArg DFifo.rows (dfifo_setFifo_self k 2 _)
    · exact dfifo_setFifo_other k _ hf
    · exact know_withKnow _ _
  · obtain ⟨u, hu, honly, hme⟩ := vpush_outcome v s hlen
    refine ⟨u, hu, honly, ?_⟩
    rw [hme]
    generalize s.me = k
    refine ⟨issued_advance 1 (fun _ => rfl) rfl, kept_append k 3 { row := k.rdV v, eng := 1, epoch := k.vep }, ?_, fun f hf => dfifo_setFifo_other k _ hf⟩
    exact congrArg DFifo.rows (dfifo_setFifo_self k 3 _)
  · intro r x y hr hfree1 hfree2
    obtain ⟨t, z, hexec, hset⟩ := vldkb_outcome a i s (r := r) (x := x) (y := y) rfl rfl rfl hr hfree1 hfree2
    refine ⟨fun hx hy => ?_, fun hf hpoison => ?_⟩
    · rw [hexec, if_neg (fun h => h.elim (fun h => h hx) (fun h => h hy))]
      exact vldkb_issues (laneOf x y) hset
    · rw [hexec, if_pos hpoison]
      exact stoppedBy_fault s 1 _ _ _ _ hf

/-- Settles O21, from the rows, the FIFOs and the constant bank. -/
theorem vectorMemoryAndFifos : Obligations.VectorMemoryAndFifos :=
  ⟨vectorRowAccesses, vectorFifosAndConstantBank⟩

end Sys2Proof.Machine
end

section
/-!
PROOF. Reductions, table look-ups and histograms of the vector engine (06 R157, R158, R162, R163; 05 R134, R135).
-/

namespace Sys2Proof.Machine

open Sys2Proof.Safety Sys2Proof.Spec

/-! ### A register filled with one value (06 R157) -/

theorem el_allElems (ty : VT) (x : Nat) (b : Bool) {j : Nat} (h : j < ty.count) : (allElems ty x b).el ty.bits j = x % 2 ^ ty.bits :=
  elem_ofNat_gatherN ty.bits ty.count 4096 (fun _ => x) j h (Nat.mul_div_le 4096 ty.bits)

theorem anyBad_iff (ty : VT) (va : Row) (m : BitVec 128) :
    anyBad ty va m = true ↔ ∃ j, j < ty.count ∧ ty.gov m j = true ∧ va.bad ty.bits j = true := by
  simp only [anyBad, anyBelow_iff, Bool.and_eq_true]

/-- The poison of such a register is that of a governed element. -/
theorem poison_allElems (ty : VT) (x : Nat) (va : Row) (m : BitVec 128)
    [Decidable (∃ j, j < ty.count ∧ ty.gov m j = true ∧ va.bad ty.bits j = true)] : (allElems ty x (anyBad ty va m)).poison
      = if (∃ j, j < ty.count ∧ ty.gov m j = true ∧ va.bad ty.bits j = true) then BitVec.allOnes 32 else 0 :=
  if_congr (anyBad_iff ty va m) rfl rfl

/-! ### Sums and extremes of words (06 R157, R158) -/

/-- Terms left out of a sum count as zeros. -/
theorem sum_map_ite_zero (p : Nat → Bool) (f : Nat → Nat) (l : List Nat) :
    (l.map (fun j => if p j then f j else 0)).sum = ((l.filter p).map f).sum := by
  induction l with
  | nil => rfl
  | cons j l ih => cases h : p j <;> simp [h, ih]

/-- The first of a list in the order of a key is an entry of the greatest key. -/
theorem bestOf_greatest {before : Nat → Nat → Bool} {key : Nat → Int} (hb : ∀ y z, before y z = decide (key z < key y)) (x : Nat) (xs : List Nat) :
    (∀ y ∈ x :: xs, key y ≤ key (bestOf before x xs)) ∧ bestOf before x xs ∈ x :: xs := by
  induction xs generalizing x with
  | nil => simp [bestOf]
  | cons y xs ih =>
    by_cases hlt : key x < key y
    · have hstep : bestOf before x (y :: xs) = bestOf before y xs := by
        rw [bestOf, List.foldl_cons, hb, decide_eq_true hlt]; rfl
      obtain ⟨hge, hmem⟩ := ih y
      rw [hstep]
      exact ⟨List.forall_mem_cons.mpr ⟨hlt.le.trans (hge y List.mem_cons_self), hge⟩, List.mem_cons_of_mem x hmem⟩
    · have hstep : bestOf before x (y :: xs) = bestOf before x xs := by
        rw [bestOf, List.foldl_cons, hb, decide_eq_false hlt]; rfl
      obtain ⟨hge, hmem⟩ := ih x
      obtain ⟨hx, hxs⟩ := List.forall_mem_cons.mp hge
      rw [hstep]
      refine ⟨List.forall_mem_cons.mpr ⟨hx, List.forall_mem_cons.mpr ⟨(not_lt.mp hlt).trans hx, hxs⟩⟩, ?_⟩
      exact List.mem_cons.mpr ((List.mem_cons.mp hmem).imp_right (List.mem_cons_of_mem y))

/-- From an `x` of the least key on it is the greatest key of the entries `f j`, where there is one. -/
theorem bestOf_extreme {before : Nat → Nat → Bool} {key : Nat → Int} (hb : ∀ y z, before y z = decide (key z < key y)) {x : Nat}
    (hx : ∀ y, key x ≤ key y) (f : Nat → Nat) (js : List Nat) :
    (∀ j ∈ js, key (f j) ≤ key (bestOf before x (js.map f)))
      ∧ ((js = [] ∧ key (bestOf before x (js.map f)) = key x) ∨ ∃ j ∈ js, key (f j) = key (bestOf before x (js.map f))) := by
  obtain ⟨hge, hmem⟩ := bestOf_greatest hb x (js.map f)
  obtain ⟨-, hge⟩ := List.forall_mem_cons.mp hge
  refine ⟨fun j hj => hge _ (List.mem_map_of_mem hj), ?_⟩
  rcases List.mem_cons.mp hmem with h | h
  · rw [h] at hge ⊢
    rcases js with - | ⟨j, js⟩
    · exact .inl ⟨rfl, rfl⟩
    · exact .inr ⟨j, List.mem_cons_self, le_antisymm (hge _ List.mem_cons_self) (hx _)⟩
  · obtain ⟨j, hj, hfj⟩ := List.mem_map.mp h
    exact .inr ⟨j, hj, congrArg key hfj⟩

/-- The signed value of a word. -/
def wordKey (n : Nat) : Int := (w32 n).toInt

/-- `VRMAX` of words: the greatest governed word, with none the least word there is. -/
theorem vbest_i32_max (va : Row) (m : BitVec 128) :
    let governed := (List.range 128).filter (fun j => m.getLsbD j)
    let x := vbest true .i32 va m
    (∀ j ∈ governed, wordKey (va.el 32 j) ≤ wordKey x)
      ∧ ((governed = [] ∧ wordKey x = -2 ^ 31) ∨ (∃ j ∈ governed, wordKey (va.el 32 j) = wordKey x)) :=
  bestOf_extreme (key := wordKey) (x := 0x80000000) (fun _ _ => rfl) (fun y => (w32 y).le_toInt) (va.el 32) _

/-- `VRMIN` of words: the least governed word, with none the greatest word there is. -/
theorem vbest_i32_min (va : Row) (m : BitVec 128) :
    let governed := (List.range 128).filter (fun j => m.getLsbD j)
    let x := vbest false .i32 va m
    (∀ j ∈ governed, wordKey x ≤ wordKey (va.el 32 j))
      ∧ ((governed = [] ∧ wordKey x = 2 ^ 31 - 1) ∨ (∃ j ∈ governed, wordKey (va.el 32 j) = wordKey x)) := by
  have hb : ∀ y z : Nat, (BitVec.ofNat 32 y : Word).slt (BitVec.ofNat 32 z) = decide (-wordKey z < -wordKey y) := fun y z =>
    decide_eq_decide.mpr neg_lt_neg_iff.symm
  have h := bestOf_extreme (key := fun n => -wordKey n) (x := 0x7FFFFFFF) hb (fun y => neg_le_neg (Int.le_sub_one_of_lt (w32 y).toInt_lt)) (va.el 32)
    ((List.range 128).filter fun j => m.getLsbD j)
  simp only [neg_le_neg_iff, neg_inj] at h
  exact h

/-- A reduction fills register `d` with one value. -/
theorem vec_of_fill {s : State} {t : BitVec 2} {F : VT → Bank → Bank} {ty : VT} {d : BitVec 5} {x : Nat} {va : Row} {m : BitVec 128} {ok : Nat → Prop}
    [Decidable (∃ j, j < ty.count ∧ ty.gov m j = true ∧ va.bad ty.bits j = true)] (h : s.me.vtype t = some ty)
    (hF : F ty s.me = s.me.wrV d (allElems ty x (anyBad ty va m))) (hok : ok x) :
    ∃ u x, s.vec t anyType F = .next u ∧ VectorReg s u d ∧ ok x ∧ (∀ j, j < ty.count → (u.me.rdV d).el ty.bits j = x % 2 ^ ty.bits)
      ∧ (u.me.rdV d).poison = if (∃ j, j < ty.count ∧ ty.gov m j = true ∧ va.bad ty.bits j = true) then BitVec.allOnes 32 else 0 := by
  rw [vec_of_ok h rfl]
  obtain ⟨u, hu, hreg, hrow⟩ := eff_of_wrV hF
  refine ⟨u, x, hu, hreg, hok, fun j hj => ?_, ?_⟩ <;> rw [hrow]
  · exact el_allElems ty x _ hj
  · exact poison_allElems ty x va m

theorem reductionsFillTheRegister : ReductionsFillTheRegister := by
  intro d a m t s ty hty va M filled governed word
  refine ⟨vec_of_fill hty rfl ⟨?_, fun _ => rfl⟩, vec_of_fill hty rfl ⟨?_, fun _ => rfl⟩, vec_of_fill hty rfl ⟨?_, fun _ => rfl⟩⟩ <;> rintro rfl
  · exact congrArg (· % 2 ^ 32) (sum_map_ite_zero (fun j => M.getLsbD j) (va.el 32) (List.range 128))
  · exact vbest_i32_max va M
  · exact vbest_i32_min va M

/-! ### Tables and histograms (06 R162, R163) -/

/-- A bank whose registers from `d` on are written with `f 0` to `f (n - 1)`. -/
def Bank.wrVs (k : Bank) (d : Nat) (f : Nat → Row) (n : Nat) : Bank := (List.range n).foldl (fun acc i => acc.wrV (BitVec.ofNat 5 (d + i)) (f i)) k

section
variable (k : Bank) (d : Nat) (f : Nat → Row)

theorem wrVs_succ (n : Nat) : k.wrVs d f (n + 1) = (k.wrVs d f n).wrV (BitVec.ofNat 5 (d + n)) (f n) := by
  rw [Bank.wrVs, List.range_succ, List.foldl_append]; rfl

theorem wrVs_eq (n : Nat) : ∃ m, k.wrVs d f n = { k with v := m } := by
  induction n with
  | zero => exact ⟨k.v, rfl⟩
  | succ n ih =>
    obtain ⟨m, hm⟩ := ih
    exact ⟨_, by rw [wrVs_succ, hm]; rfl⟩

theorem rdV_wrVs {n : Nat} (h : d + n ≤ 32) (r : BitVec 5) :
    (k.wrVs d f n).rdV r = if d ≤ r.toNat ∧ r.toNat < d + n then f (r.toNat - d) else k.rdV r := by
  induction n with
  | zero => rw [if_neg (by omega)]; rfl
  | succ n ih =>
    have hreg : r = BitVec.ofNat 5 (d + n) ↔ r.toNat = d + n := by
      rw [← BitVec.toNat_inj, BitVec.toNat_ofNat, Nat.mod_eq_of_lt (by omega)]
    rw [wrVs_succ, rdV_wrV, ih (by omega)]
    by_cases hr : r.toNat = d + n
    · rw [if_pos (hreg.mpr hr), if_pos (by omega), hr, Nat.add_sub_cancel_left]
    · rw [if_neg (fun h => hr (hreg.mp h))]
      exact if_congr (by omega) rfl rfl

end

/-- The bins of `VHISTACC`: lane `l` of register `d + 2g + h` takes the weights of the lanes whose code of set `g` is 128h + l. -/
theorem el_histReg (old va vb : Row) (m : BitVec 128) (g h : Nat) {l : Nat} (hl : l < 128) :
    (histReg old va vb m g h).el 32 l = leftSum fp32 (old.el 32 l)
      (((List.range 128).filter (fun p => m.getLsbD p && decide (vb.el 8 (128 * g + p) = 128 * h + l))).map (va.el 32)) % 2 ^ 32 := by
  rw [histReg, el_write _ _ _ _ _ _ hl]; rfl

theorem poison_histReg (old va vb : Row) (m : BitVec 128) (g h : Nat) {n : Nat} (hn : n < 32) :
    (histReg old va vb m g h).poison.getLsbD n = true ↔ ∃ i, i < 4 ∧ (old.bad 32 (4 * n + i) = true
      ∨ ∃ p, p < 128 ∧ m.getLsbD p = true ∧ vb.el 8 (128 * g + p) = 128 * h + (4 * n + i) ∧ (va.bad 32 p = true ∨ vb.bad 8 (128 * g + p) = true)) := by
  rw [histReg, poison_write _ _ _ _ _ _ hn, anyBelow_iff]
  simp only [if_true, Nat.reduceDiv, Bool.or_eq_true, List.any_eq_true, List.mem_filter, List.mem_range, Bool.and_eq_true, decide_eq_true_eq, and_assoc]

/-- Register `d + i` behind `VHISTACC`. -/
def Bank.histRow (k : Bank) (d a b : BitVec 5) (m : BitVec 3) (i : Nat) : Row :=
  histReg (k.rdV (BitVec.ofNat 5 (d.toNat + i))) (k.rdV a) (k.rdV b) (k.rdM m) (i / 2) (i % 2)

theorem exec_vhistacc_eq (d a b : BitVec 5) (m : BitVec 3) (s : State) :
    exec (.vhistacc d a b m) s = s.eff 1 (fun k => k.wrVs d.toNat (k.histRow d a b m) 8) := rfl

/-- The register of half `h` of set `g`. -/
theorem histRow_eq (k : Bank) (d a b : BitVec 5) (m : BitVec 3) {g h : Nat} (hh : h < 2) : k.histRow d a b m (2 * g + h)
    = histReg (k.rdV (BitVec.ofNat 5 (d.toNat + 2 * g + h))) (k.rdV a) (k.rdV b) (k.rdM m) g h := by
  rw [Bank.histRow, ← Nat.add_assoc, show (2 * g + h) / 2 = g by omega, show (2 * g + h) % 2 = h by omega]

theorem tableAndHistogramAccumulation : TableAndHistogramAccumulation := by
  intro d a b m s M vb
  refine ⟨eff_of_write rfl, fun hd => ?_⟩
  obtain ⟨v, hv⟩ := wrVs_eq s.me d.toNat (s.me.histRow d a b m) 8
  obtain ⟨u, hu, honly, hissued, hkept, hrd⟩ := eff_of_regs (F := fun k => k.wrVs d.toNat (k.histRow d a b m) 8) hv
  have hreg : ∀ r, u.me.rdV r = _ := fun r => (hrd r).trans (rdV_wrVs s.me d.toNat _ (by omega) r)
  rw [exec_vhistacc_eq]
  refine ⟨u, hu, honly, hissued, hkept, fun r hr => (hreg r).trans (if_neg (by omega)), fun g h l hg hh hl => ?_⟩
  have hbin : u.me.rdV (BitVec.ofNat 5 (d.toNat + 2 * g + h)) = histReg (s.me.rdV (BitVec.ofNat 5 (d.toNat + 2 * g + h))) (s.me.rdV a) vb M g h := by
    have hnat : (BitVec.ofNat 5 (d.toNat + 2 * g + h)).toNat = d.toNat + (2 * g + h) := by rw [BitVec.toNat_ofNat]; omega
    rw [hreg, hnat, if_pos (by omega), Nat.add_sub_cancel_left, histRow_eq _ _ _ _ _ hh]
  simp only [hbin]
  exact ⟨el_histReg _ _ _ _ g h hl, fun n hn => poison_histReg _ _ _ _ g h hn⟩

/-- Settles O22, from the reductions, the tables and the histograms. -/
theorem vectorMovesReductionsAndTables : Obligations.VectorMovesReductionsAndTables :=
  ⟨reductionsFillTheRegister, tableAndHistogramAccumulation⟩

end Sys2Proof.Machine
end

section
/-!
PROOF. Packing and unpacking of MX blocks (06 R164 to R166; 05 R121, R125).
-/

namespace Sys2Proof.Machine

open Sys2Proof.Safety Sys2Proof.Spec

/-! ### A row moved down -/

/-- A row whose lowest `keep` bytes are the bytes from `by_` on of `r`, with zeros above. -/
def Row.down (r : Row) (keep by_ : Nat) : Row := moveBytes (fun i => if i < keep then some (r, i + by_) else none)

theorem el_down (r : Row) (keep by_ : Nat) {i : Nat} (hi : i < 512) : (r.down keep by_).el 8 i = if i < keep then r.el 8 (i + by_) else 0 := by
  split
  · exact el_moveBytes_of_some hi (if_pos ‹_›)
  · exact el_moveBytes_of_none hi (if_neg ‹_›)

theorem poison_down (r : Row) (keep by_ : Nat) {g : Nat} (hg : g < 32) :
    (r.down keep by_).poison.getLsbD g = true ↔ ∃ i, i < keep ∧ i / 16 = g ∧ r.poison.getLsbD ((i + by_) / 16) = true := by
  rw [Row.down, poison_moveBytes_iff hg]
  constructor
  · rintro ⟨c, hc, x, hx, hbad⟩
    split at hx
    · cases hx
      exact ⟨16 * g + c, ‹_›, by omega, hbad⟩
    · cases hx
  · rintro ⟨i, hi, hig, hbad⟩
    have hsplit : 16 * g + i % 16 = i := by omega
    exact ⟨i % 16, Nat.mod_lt _ (by decide), (r, i + by_), by rw [hsplit, if_pos hi], hbad⟩

/-! ### Blocks on top of a row -/

/-- Bit `b` of element `j` of a row. -/
theorem testBit_el (r : Row) (w j b : Nat) : (r.el w j).testBit b = (decide (b < w) && r.data.toNat.testBit (b + w * j)) := by
  rw [Row.el, Nat.testBit_mod_two_pow, Nat.testBit_div_two_pow]

/-- A row with `n` blocks of `w` bytes put on its lowest `keep` bytes. -/
def Row.topped (r : Row) (w keep n : Nat) (f : Nat → Nat) : Row :=
  { r with data := r.data ||| BitVec.ofNat 4096 (gatherN (8 * w) f 0 n * 2 ^ (8 * keep)) }

section
variable (r : Row) (w keep n : Nat) (f : Nat → Nat)

theorem testBit_topped {m : Nat} (hm : m < 4096) : (r.topped w keep n f).data.toNat.testBit m
    = (r.data.toNat.testBit m || (decide (8 * keep ≤ m) && (gatherN (8 * w) f 0 n).testBit (m - 8 * keep))) := by
  rw [Row.topped, BitVec.testBit_toNat, BitVec.getLsbD_or, BitVec.getLsbD_ofNat, decide_eq_true hm, Bool.true_and, Nat.testBit_mul_two_pow,
    BitVec.testBit_toNat]

/-- The bytes below the blocks stay. -/
theorem el_topped_below {i : Nat} (hi : i < keep) (h : i < 512) : (r.topped w keep n f).el 8 i = r.el 8 i := by
  refine Nat.eq_of_testBit_eq fun b => ?_
  rw [testBit_el, testBit_el]
  by_cases hb : b < 8
  · rw [testBit_topped _ _ _ _ _ (by omega), decide_eq_false (by omega : ¬ 8 * keep ≤ b + 8 * i), Bool.false_and, Bool.or_false]
  · rw [decide_eq_false hb, Bool.false_and, Bool.false_and]

variable (hzero : ∀ i, keep ≤ i → i < 512 → r.el 8 i = 0)
include hzero

/-- A bit of a byte that is zero. -/
theorem testBit_of_zero {m : Nat} (hk : 8 * keep ≤ m) (hm : m < 4096) : r.data.toNat.testBit m = false := by
  have h := testBit_el r 8 (m / 8) (m % 8)
  rw [hzero (m / 8) (by omega) (by omega), Nat.zero_testBit, decide_eq_true (Nat.mod_lt m (by decide)), Bool.true_and, Nat.mod_add_div] at h
  exact h.symm

/-- Block `t` of those put on the row. -/
theorem block_topped (hfit : keep + w * n ≤ 512) {t : Nat} (ht : t < n) :
    (r.topped w keep n f).data.toNat / 2 ^ (8 * (keep + w * t)) % 2 ^ (8 * w) = f t % 2 ^ (8 * w) := by
  have helem := gatherN_elem (8 * w) f 0 n t ht
  rw [Nat.zero_add] at helem
  rw [← helem]
  have hle : w * t + w ≤ w * n := by rw [← Nat.mul_succ]; exact Nat.mul_le_mul_left w ht
  refine Nat.eq_of_testBit_eq fun b => ?_
  have hassoc : 8 * w * t = 8 * (w * t) := Nat.mul_assoc 8 w t
  simp only [Nat.testBit_mod_two_pow, Nat.testBit_div_two_pow]
  by_cases hb : b < 8 * w
  · rw [testBit_topped _ _ _ _ _ (by omega), testBit_of_zero r keep hzero (by omega) (by omega), decide_eq_true (by omega : 8 * keep ≤ _), Bool.false_or,
      Bool.true_and, show b + 8 * (keep + w * t) - 8 * keep = b + 8 * w * t by omega]
  · rw [decide_eq_false hb, Bool.false_and, Bool.false_and]

/-- The bytes above the blocks are zero. -/
theorem el_topped_above {i : Nat} (hi : keep + w * n ≤ i) (h : i < 512) : (r.topped w keep n f).el 8 i = 0 := by
  have hassoc : 8 * w * n = 8 * (w * n) := Nat.mul_assoc 8 w n
  refine Nat.eq_of_testBit_eq fun b => ?_
  rw [testBit_el, Nat.zero_testBit]
  by_cases hb : b < 8
  · have hhigh : (gatherN (8 * w) f 0 n).testBit (b + 8 * i - 8 * keep) = false :=
      Nat.testBit_lt_two_pow (Nat.lt_of_lt_of_le (gatherN_lt _ _ _ _) (Nat.pow_le_pow_right (by decide) (by omega)))
    rw [testBit_topped _ _ _ _ _ (by omega), testBit_of_zero r keep hzero (by omega) (by omega), hhigh, Bool.and_false, Bool.or_false, Bool.and_false]
  · rw [decide_eq_false hb, Bool.false_and]

end

/-! ### Packed rows (06 R164, R165) -/

theorem bad_32 (r : Row) (j : Nat) : r.bad 32 j = r.poison.getLsbD (j / 4) := by
  rw [Row.bad, show 32 * j / 128 = j / 4 by omega]

theorem bad_8 (r : Row) (j : Nat) : r.bad 8 j = r.poison.getLsbD (j / 16) := by
  rw [Row.bad, show 8 * j / 128 = j / 16 by omega]

/-- A group is poisoned where a lane that enters its pack is. -/
theorem groupBad_iff (va : Row) (m : BitVec 128) (g : Nat) :
    groupBad va m g = true ↔ ∃ i, i < 32 ∧ m.getLsbD (32 * g + i) = true ∧ va.poison.getLsbD ((32 * g + i) / 4) = true := by
  simp only [groupBad, anyBelow_iff, Bool.and_eq_true, bad_32]

theorem rowBlocks_mul_le (fmt : Nat) : rowBlocks fmt * blockBytes fmt ≤ 512 := Nat.div_mul_le_self 512 _

/-- The bytes of a data row that the pack of `n` blocks keeps. -/
def keptBytes (fmt n : Nat) : Nat := (rowBlocks fmt - n) * blockBytes fmt

section
variable (fmt : Nat) (old : Row) (ps : List (Packed × Bool))

theorem data_packRow : (packRow fmt old ps).data = ((old.down (keptBytes fmt ps.length) (ps.length * blockBytes fmt)).topped (blockBytes fmt)
    (keptBytes fmt ps.length) ps.length (fun t => (ps.map (fun p => p.1.bits)).getD t 0)).data := by
  rw [packRow, keptBytes, Row.topped, Row.down]

theorem el_packRow (i : Nat) : (packRow fmt old ps).el 8 i = ((old.down (keptBytes fmt ps.length) (ps.length * blockBytes fmt)).topped (blockBytes fmt)
    (keptBytes fmt ps.length) ps.length (fun t => (ps.map (fun p => p.1.bits)).getD t 0)).el 8 i := by
  rw [Row.el, data_packRow, ← Row.el]

theorem packScales_eq : packScales fmt old ps = (old.down (rowBlocks fmt - ps.length) ps.length).topped
    1 (rowBlocks fmt - ps.length) ps.length (fun t => (ps.map (fun p => p.1.scale)).getD t 0) := by
  rw [packScales, Row.topped, Row.down, Nat.mul_one]

/-- A row moved down holds zeros above what it keeps. -/
theorem el_down_above (keep by_ : Nat) : ∀ i, keep ≤ i → i < 512 → (old.down keep by_).el 8 i = 0 := fun i hk hi => by
  rw [el_down old keep by_ hi, if_neg (by omega)]

theorem getD_map_of_some {α β : Type} (f : α → β) (x : β) {l : List α} {t : Nat} {y : α} (h : l[t]? = some y) : (l.map f).getD t x = f y := by
  rw [List.getD_eq_getElem?_getD, List.getElem?_map, h]; rfl

variable {fmt old ps} (hn : ps.length ≤ rowBlocks fmt)
include hn

theorem keptBytes_fit : keptBytes fmt ps.length + blockBytes fmt * ps.length = rowBlocks fmt * blockBytes fmt := by
  rw [keptBytes, Nat.mul_comm (blockBytes fmt), ← Nat.add_mul, Nat.sub_add_cancel hn]

theorem packRow_below {i : Nat} (hi : i < keptBytes fmt ps.length) : (packRow fmt old ps).el 8 i = old.el 8 (i + ps.length * blockBytes fmt) := by
  have hfit := keptBytes_fit hn
  have hle := rowBlocks_mul_le fmt
  rw [el_packRow, el_topped_below _ _ _ _ _ hi (by omega), el_down _ _ _ (by omega), if_pos hi]

theorem packRow_above {i : Nat} (hi : rowBlocks fmt * blockBytes fmt ≤ i) (h : i < 512) : (packRow fmt old ps).el 8 i = 0 := by
  rw [el_packRow, el_topped_above _ _ _ _ _ (el_down_above old _ _) ((keptBytes_fit hn).trans_le hi) h]

theorem packRow_block {t : Nat} {p : Packed × Bool} (h : ps[t]? = some p) :
    (packRow fmt old ps).data.toNat / 2 ^ (8 * (keptBytes fmt ps.length + blockBytes fmt * t)) % 2 ^ (8 * blockBytes fmt)
      = p.1.bits % 2 ^ (8 * blockBytes fmt) := by
  obtain ⟨ht, -⟩ := List.getElem?_eq_some_iff.mp h
  rw [data_packRow, block_topped _ _ _ _ _ (el_down_above old _ _) ((keptBytes_fit hn).trans_le (rowBlocks_mul_le fmt)) ht, getD_map_of_some _ _ h]

theorem packScales_below {i : Nat} (hi : i < rowBlocks fmt - ps.length) : (packScales fmt old ps).el 8 i = old.el 8 (i + ps.length) := by
  have hle : rowBlocks fmt ≤ 512 := Nat.div_le_self 512 _
  rw [packScales_eq, el_topped_below _ _ _ _ _ hi (by omega), el_down _ _ _ (by omega), if_pos hi]

theorem packScales_above {i : Nat} (hi : rowBlocks fmt ≤ i) (h : i < 512) : (packScales fmt old ps).el 8 i = 0 := by
  rw [packScales_eq, el_topped_above _ _ _ _ _ (el_down_above old _ _) (by omega) h]

theorem packScales_block {t : Nat} {p : Packed × Bool} (h : ps[t]? = some p) :
    (packScales fmt old ps).el 8 (rowBlocks fmt - ps.length + t) = p.1.scale % 2 ^ 8 := by
  obtain ⟨ht, -⟩ := List.getElem?_eq_some_iff.mp h
  have hle : rowBlocks fmt ≤ 512 := Nat.div_le_self 512 _
  have hblock := block_topped (old.down (rowBlocks fmt - ps.length) ps.length) 1 _ _ (fun t => (ps.map (fun p => p.1.scale)).getD t 0)
    (el_down_above old _ _) (by omega) ht
  rw [getD_map_of_some _ _ h, Nat.one_mul] at hblock
  rw [packScales_eq]
  exact hblock

end

/-- A granule of a packed data row is poisoned where a byte moved into it was, or a new block in it overflowed or took a poisoned lane. -/
theorem poison_packRow (fmt : Nat) (old : Row) (ps : List (Packed × Bool)) {g : Nat} (hg : g < 32) : (packRow fmt old ps).poison.getLsbD g = true ↔
    (∃ i, i < keptBytes fmt ps.length ∧ i / 16 = g ∧ old.poison.getLsbD ((i + ps.length * blockBytes fmt) / 16) = true)
    ∨ ∃ t p, ps[t]? = some p ∧ (blockBytes fmt * (rowBlocks fmt - ps.length + t) < 16 * g + 16
        ∧ 16 * g < blockBytes fmt * (rowBlocks fmt - ps.length + t + 1)) ∧ (p.2 = true ∨ p.1.ovf = true) := by
  have hlow : ∀ t, (rowBlocks fmt - ps.length) * blockBytes fmt + t * blockBytes fmt = blockBytes fmt * (rowBlocks fmt - ps.length + t) := fun t => by
    rw [← Nat.add_mul, Nat.mul_comm]
  rw [← poison_down _ _ _ hg, packRow, BitVec.getLsbD_or, getLsbD_ofGran _ _ hg, Bool.or_eq_true]
  refine or_congr Iff.rfl ?_
  simp only [List.any_eq_true, List.mem_filter, Prod.exists, List.mem_zipIdx_iff_getElem?, Bool.and_eq_true, Bool.or_eq_true, decide_eq_true_eq, hlow,
    Nat.add_assoc]
  constructor
  · rintro ⟨x, b, t, ⟨hp, hbad⟩, hin⟩
    exact ⟨t, x, b, hp, hin, hbad⟩
  · rintro ⟨t, x, b, hp, hin, hbad⟩
    exact ⟨x, b, t, ⟨hp, hbad⟩, hin⟩

theorem poison_packScales (fmt : Nat) (old : Row) (ps : List (Packed × Bool)) {g : Nat} (hg : g < 32) : (packScales fmt old ps).poison.getLsbD g = true ↔
    ∃ i, i < rowBlocks fmt - ps.length ∧ i / 16 = g ∧ old.poison.getLsbD ((i + ps.length) / 16) = true := by
  rw [packScales_eq, ← poison_down _ _ _ hg]; rfl

/-- The packs of the selected groups (06 R165). -/
def packsOf (fmt : Nat) (va : Row) (m : BitVec 128) : List (Packed × Bool) := (selected m).map (fun g => (packGroup fmt va m g, groupBad va m g))

theorem length_packsOf (fmt : Nat) (va : Row) (m : BitVec 128) : (packsOf fmt va m).length = (selected m).length := List.length_map _

theorem packsOf_getElem? {fmt : Nat} {va : Row} {m : BitVec 128} {t g : Nat} (h : (selected m)[t]? = some g) :
    (packsOf fmt va m)[t]? = some (packGroup fmt va m g, groupBad va m g) := by
  rw [packsOf, List.getElem?_map, h]; rfl

theorem exists_packsOf {fmt : Nat} {va : Row} {m : BitVec 128} {Q : Nat → Packed × Bool → Prop} : (∃ t p, (packsOf fmt va m)[t]? = some p ∧ Q t p)
    ↔ ∃ t g, (selected m)[t]? = some g ∧ Q t (packGroup fmt va m g, groupBad va m g) := by
  refine exists_congr fun t => ⟨fun ⟨p, hp, hq⟩ => ?_, fun ⟨g, hg, hq⟩ => ⟨_, packsOf_getElem? hg, hq⟩⟩
  obtain ⟨g, hg, rfl⟩ := Option.map_eq_some_iff.mp (List.getElem?_map.symm.trans hp)
  exact ⟨g, hg, hq⟩

/-- A row holds a block for each group that can be selected. -/
theorem selected_le_rowBlocks (m : BitVec 128) {x : BitVec 3} (h : x.toNat < 3) : (selected m).length ≤ rowBlocks (mxOf x) := by
  have hsel : (selected m).length ≤ 4 := (List.length_filter_le _ _).trans_eq List.length_range
  have hrow : 4 ≤ rowBlocks (mxOf x) := by
    unfold mxOf
    generalize x.toNat = n at h
    interval_cases n <;> decide
  exact hsel.trans hrow

/-- `VPACK` writes the data register and the scale register. -/
theorem vpack_outcome (d a b : BitVec 5) (m x : BitVec 3) (s : State) :
    ∃ u, exec (.vpack d a b m x) s = .next u ∧ OnlyBank s u ∧ Issued 1 s.me u.me ∧ { u.me with v := s.me.v, streams := s.me.streams } = s.me
      ∧ ∀ r, u.me.rdV r = if r = b then packScales (mxOf x) (s.me.rdV b) (packsOf (mxOf x) (s.me.rdV a) (s.me.rdM m))
          else if r = d then packRow (mxOf x) (s.me.rdV d) (packsOf (mxOf x) (s.me.rdV a) (s.me.rdM m)) else s.me.rdV r := by
  obtain ⟨u, hu, honly, hissued, hkept, hrd⟩ := eff_of_regs (s := s) (F := fun k =>
    (k.wrV d (packRow (mxOf x) (k.rdV d) (packsOf (mxOf x) (k.rdV a) (k.rdM m)))).wrV b
      (packScales (mxOf x) (k.rdV b) (packsOf (mxOf x) (k.rdV a) (k.rdM m)))) rfl
  refine ⟨u, hu, honly, hissued, hkept, fun r => ?_⟩
  rw [hrd, rdV_wrV, rdV_wrV]

/-! ### Unpacked rows (06 R166) -/

/-- A block of a row is poisoned where it shares a poisoned granule (05 R125). -/
theorem blockBad_iff (fmt : Nat) (r : Row) (t : Nat) : blockBad fmt r t = true ↔
    ∃ h, h < 32 ∧ r.poison.getLsbD h = true ∧ blockBytes fmt * t < 16 * h + 16 ∧ 16 * h < blockBytes fmt * (t + 1) := by
  simp only [blockBad, anyBelow_iff, Bool.and_eq_true, decide_eq_true_eq, and_assoc]

/-- The destination of `VUNPACK`: the lanes of the mask with the elements of their blocks. -/
def unpackRow (fmt : Nat) (old va vb : Row) (m : BitVec 128) : Row :=
  old.write 32 (fun j => m.getLsbD j)
    (fun j => fp32.round 0 (mxVal (mxBits fmt) (mxEl fmt va (rankOf (selected m) (j / 32)) (j % 32)) (vb.el 8 (rankOf (selected m) (j / 32)))))
    (fun j => blockBad fmt va (rankOf (selected m) (j / 32)) || vb.bad 8 (rankOf (selected m) (j / 32)))

/-- A granule of that destination is poisoned where a lane written in it comes from a poisoned block or has a poisoned scale, or a lane kept in it was. -/
theorem poison_unpackRow (fmt : Nat) (old va vb : Row) (m : BitVec 128) {g : Nat} (hg : g < 32) : (unpackRow fmt old va vb m).poison.getLsbD g = true ↔
    ∃ i, i < 4 ∧ if m.getLsbD (4 * g + i) then
      (∃ h, h < 32 ∧ va.poison.getLsbD h = true ∧ blockBytes fmt * rankOf (selected m) ((4 * g + i) / 32) < 16 * h + 16
        ∧ 16 * h < blockBytes fmt * (rankOf (selected m) ((4 * g + i) / 32) + 1)) ∨ vb.poison.getLsbD (rankOf (selected m) ((4 * g + i) / 32) / 16) = true
    else old.poison.getLsbD g = true := by
  rw [unpackRow, poison_write _ _ _ _ _ _ hg, anyBelow_iff]
  refine exists_congr fun i => and_congr_right fun _ => ?_
  rw [show 128 / 32 = 4 from rfl]
  split
  · rw [Bool.or_eq_true, blockBad_iff, bad_8]
  · rfl

theorem wrV_wrV_wrV (k : Bank) (d a b : BitVec 5) (x y z : Row) :
    ((k.wrV d x).wrV a y).wrV b z = { k with v := set {} (set {} (set {} k.v d.toNat x) a.toNat y) b.toNat z } := by rfl

/-- `VUNPACK` writes the destination and moves its two sources down. -/
theorem vunpack_outcome (d a b : BitVec 5) (m x : BitVec 3) (s : State) :
    ∃ u, exec (.vunpack d a b m x) s = .next u ∧ OnlyBank s u ∧ Issued 1 s.me u.me ∧ { u.me with v := s.me.v, streams := s.me.streams } = s.me
      ∧ ∀ r, u.me.rdV r =
          if r = b then (s.me.rdV b).down (rowBlocks (mxOf x) - (selected (s.me.rdM m)).length) (selected (s.me.rdM m)).length
          else if r = a then (s.me.rdV a).down (keptBytes (mxOf x) (selected (s.me.rdM m)).length) ((selected (s.me.rdM m)).length * blockBytes (mxOf x))
          else if r = d then unpackRow (mxOf x) (s.me.rdV d) (s.me.rdV a) (s.me.rdV b) (s.me.rdM m) else s.me.rdV r := by
  obtain ⟨u, hu, honly, hissued, hkept, hrd⟩ := eff_of_regs (s := s) (F := fun k =>
    ((k.wrV d (unpackRow (mxOf x) (k.rdV d) (k.rdV a) (k.rdV b) (k.rdM m))).wrV a
      ((k.rdV a).down (keptBytes (mxOf x) (selected (k.rdM m)).length) ((selected (k.rdM m)).length * blockBytes (mxOf x)))).wrV b
      ((k.rdV b).down (rowBlocks (mxOf x) - (selected (k.rdM m)).length) (selected (k.rdM m)).length)) (wrV_wrV_wrV s.me d a b _ _ _)
  refine ⟨u, hu, honly, hissued, hkept, fun r => ?_⟩
  rw [hrd, rdV_wrV, rdV_wrV, rdV_wrV]

/-- Settles O23: the registers that the two outcomes write, read byte by byte, block by block and granule by granule. -/
theorem mxPackAndUnpack : Obligations.MxPackAndUnpack := by
  unfold Obligations.MxPackAndUnpack
  intro d a b m x s hx M fmt bb gs n keep inBlock movedBad
  refine ⟨fun hdb => ?_, fun hda hdb hab => ?_⟩
  · obtain ⟨u, hu, honly, hissued, hkept, hregs⟩ := vpack_outcome d a b m x s
    have hlen : (packsOf fmt (s.me.rdV a) M).length = n := length_packsOf _ _ _
    have hn : (packsOf fmt (s.me.rdV a) M).length ≤ rowBlocks fmt := hlen.trans_le (selected_le_rowBlocks M hx)
    have hd : u.me.rdV d = packRow fmt (s.me.rdV d) (packsOf fmt (s.me.rdV a) M) := by
      rw [hregs, if_neg hdb, if_pos rfl]; rfl
    have hb : u.me.rdV b = packScales fmt (s.me.rdV b) (packsOf fmt (s.me.rdV a) M) := by
      rw [hregs, if_pos rfl]; rfl
    refine ⟨u, hu, honly, hissued, hkept, fun r hne hrb => by rw [hregs, if_neg hrb, if_neg hne], fun i hi => ?_, fun i hi => ?_, fun t g hg => ⟨?_, ?_⟩,
      fun i hi h => ?_, fun i hi h => ?_, fun g hg => ?_, fun g hg => ?_⟩
    · rw [hd, ← hlen]; exact packRow_below hn (by rw [hlen]; exact hi)
    · rw [hb, ← hlen]; exact packScales_below hn (by rw [hlen]; exact hi)
    · rw [hd, ← hlen]; exact packRow_block hn (packsOf_getElem? hg)
    · rw [hb, ← hlen]; exact packScales_block hn (packsOf_getElem? hg)
    · rw [hd]; exact packRow_above hn hi h
    · rw [hb]; exact packScales_above hn hi h
    · rw [hd, poison_packRow _ _ _ hg, hlen]
      refine or_congr Iff.rfl (exists_packsOf.trans (exists_congr fun t => exists_congr fun h => and_congr Iff.rfl (and_congr Iff.rfl ?_)))
      rw [groupBad_iff, or_comm]
    · rw [hb, poison_packScales _ _ _ hg, hlen]
  · obtain ⟨u, hu, honly, hissued, hkept, hregs⟩ := vunpack_outcome d a b m x s
    have hd : u.me.rdV d = unpackRow fmt (s.me.rdV d) (s.me.rdV a) (s.me.rdV b) M := by
      rw [hregs, if_neg hdb, if_neg hda, if_pos rfl]; rfl
    have ha : u.me.rdV a = (s.me.rdV a).down (keptBytes fmt n) (n * bb) := by rw [hregs, if_neg hab, if_pos rfl]; rfl
    have hb : u.me.rdV b = (s.me.rdV b).down (rowBlocks fmt - n) n := by rw [hregs, if_pos rfl]; rfl
    refine ⟨u, hu, honly, hissued, hkept, fun r hne hra hrb => by rw [hregs, if_neg hrb, if_neg hra, if_neg hne], fun j hj => ?_, fun i hi => ?_,
      fun i hi => ?_, fun g hg => ?_, fun g hg => ?_, fun g hg => ?_⟩
    · rw [hd, unpackRow, el_write _ _ _ _ _ _ hj]; rfl
    · rw [ha, el_down _ _ _ hi]; rfl
    · rw [hb, el_down _ _ _ hi]
    · rw [hd]; exact poison_unpackRow _ _ _ _ _ hg
    · rw [ha]; exact poison_down _ _ _ hg
    · rw [hb]; exact poison_down _ _ _ hg

end Sys2Proof.Machine
end

section
/-!
PROOF. Tokens and waits on arrival words: epochs that a stream issues and acquires, across which an issue takes the same entries (08 R195, R203, R204; 10 R242, R243).
-/

namespace Sys2Proof.Machine

open Sys2Proof.Safety Sys2Proof.Spec

/-! ### Epochs and knowledge across an issue -/

/-- A stream with its epoch and what it knows set. -/
def Stream.withEpochs (t : Stream) (ep : BitVec 13) (n : Know) : Stream := { t with epoch := ep, know := n }

theorem queueAs_withEpochs (t : Stream) (ep : BitVec 13) (n : Know) : QueueAs (t.withEpochs ep n) t false :=
  queueAs_of_eq rfl rfl rfl rfl rfl rfl

/-- The levels behind an entry do not depend on the epochs. -/
theorem loopEnd_withEpochs (t : Stream) (ep : BitVec 13) (n : Know) (x : BitVec 13) :
    (t.withEpochs ep n).loopEnd x = (t.loopEnd x).withEpochs ep n := by
  have hset : ∀ (t : Stream) (l : Nat) (p : Loop), (t.withEpochs ep n).setLp l p = (t.setLp l p).withEpochs ep n := fun t l p => by
    unfold Stream.setLp; rw [apply_ite (Stream.withEpochs · ep n)]; rfl
  have hlevel : ∀ t : Stream, (t.withEpochs ep n).noLevel = t.noLevel.withEpochs ep n := fun t => by
    unfold Stream.noLevel; rw [apply_ite (Stream.withEpochs · ep n)]; rfl
  unfold Stream.loopEnd
  rw [← hlevel]
  simp only [hset, ← apply_ite (Stream.withEpochs · ep n)]
  rfl

/-- An issue takes the same entries whatever the epochs of the stream are. -/
theorem advanced_withEpochs {k k' : Bank} {e : Nat} {ep : BitVec 13} {n : Know} (hs : k'.stream e = (k.stream e).withEpochs ep n)
    (hi : k'.imem = k.imem) (x : Option (BitVec 13)) : k'.advanced e x = (k.advanced e x).withEpochs ep n := by
  have hsucc : ∀ a, k'.succ e a = k.succ e a := fun a => by unfold Bank.succ Bank.tagged Bank.word; rw [hi]
  have hfill : ∀ (u : Stream) q, k'.fill e (u.withEpochs ep n) q = k.fill e u q := fun u q => by
    unfold Bank.fill; simp only [hsucc]; rfl
  unfold Bank.advanced
  rw [hs]
  generalize k.stream e = t
  have htakes : ∀ a, (t.withEpochs ep n).takesExit a = t.takesExit a := fun a => rfl
  have hrefill : ∀ (u : Stream) a, k'.refill e (u.withEpochs ep n) a = (k.refill e u a).withEpochs ep n := fun u a => by
    unfold Bank.refill; simp only [hfill]; rfl
  simp only [loopEnd_withEpochs, hfill, hsucc, htakes]
  rw [apply_ite (Stream.withEpochs · ep n), ← hrefill]
  rfl

/-! ### Records noted -/

/-- The records of a bank after a note, one by one. -/
theorem get_note (k : Bank) (e : Nat) (f : Back → Back) (m : Nat) :
    get none (k.note e f).backs m = (get none k.backs m).map (fun x => if ∃ y ∈ k.queue e, y.seq = m then f x else x) := by
  have hkey := get_map_key none (fun i v => if (k.queue e).any (fun c => decide (c.seq = i)) then Option.map f v else v)
    (fun i => by split <;> rfl) k.backs m
  refine hkey.trans ?_
  simp only [List.any_eq_true, decide_eq_true_eq]
  split
  · simp only [*]
  · simp only [*, Option.map_id']

theorem count_eq_eight (n : BitVec 3) : count n = if n = 0 then 8 else n.toNat :=
  if_congr (BitVec.toNat_eq (x := n) (y := 0)).symm rfl rfl

/-- A change of the executing bank counts by what it makes of that bank. -/
theorem onMe_congr {s : State} {F G : Bank → Bank} (h : F s.me = G s.me) : s.onMe F = s.onMe G := congrArg (s.setBank s.cur s.curB) h

/-! ### SIGK and WAITK (08 R203, R204) -/

/-- A bank in which the stream of engine `e` has pushed `c` tokens to FIFO `f` behind its commands, and has gone on to its next epoch. -/
def Bank.signalled (k : Bank) (e f c : Nat) : Bank :=
  (k.issueCmd e (.push f c)).onStream e (fun t => { t with epoch := t.epoch + 1 })

/-- A bank in which the stream of engine `e` has taken `c` tokens from FIFO `f`. -/
def Bank.tookTokens (k : Bank) (e f c : Nat) : Bank :=
  ((k.setTok f { k.tokF f with toks := (k.tokF f).toks.drop c }).learn e (k.tokF f).prod ((k.tokF f).toks.getD (c - 1) 0)).notePop
    e f ((k.tokF f).toks.take c)

section
variable {e : BitVec 3} {f : BitVec 4} {n : BitVec 3} {s : State}

theorem exec_sigk_of_room (hb : (s.me.tokF f.toNat).bound = true) (hp : (s.me.tokF f.toNat).prod = e.toNat) (hr : s.me.pushRoom e.toNat = true) :
    exec (.sigk e f n) s = (if (s.me.stream e.toNat).epoch = 8191 then s.rebase s.cur s.curB e.toNat else s).eff e.toNat
      (fun k => k.signalled e.toNat f.toNat (count n)) := by
  rw [exec_sigk, execSigk]
  simp only [hb, hp, hr, Bool.true_eq_false, ne_eq, not_true, or_self, if_false]
  rfl

theorem exec_waitk_of_tokens (hb : (s.me.tokF f.toNat).bound = true) (hc : (s.me.tokF f.toNat).cons = e.toNat)
    (hn : count n ≤ (s.me.tokF f.toNat).toks.length) :
    exec (.waitk e f n) s = .next (s.onMe (fun k => (k.tookTokens e.toNat f.toNat (count n)).advance e.toNat)) := by
  have hbound : ¬ ((s.me.tokF f.toNat).bound = false ∨ (s.me.tokF f.toNat).cons ≠ e.toNat) := by simp [hb, hc]
  exact (if_neg hbound).trans ((if_neg (Nat.not_lt.mpr hn)).trans (congrArg Host.Outcome.next (onMe_congr rfl)))

theorem exec_sigk_unbound (h : (s.me.tokF f.toNat).bound = false ∨ (s.me.tokF f.toNat).prod ≠ e.toNat) :
    exec (.sigk e f n) s = s.fault e.toNat 0x0010 (f.setWidth 64) 0 := if_pos h

theorem exec_waitk_unbound (h : (s.me.tokF f.toNat).bound = false ∨ (s.me.tokF f.toNat).cons ≠ e.toNat) :
    exec (.waitk e f n) s = s.fault e.toNat 0x0010 (f.setWidth 64) 0 := if_pos h

end

section
variable (k : Bank) (e f c : Nat)

theorem queue_advance (x : Option (BitVec 13)) (g : Nat) : (k.advance e x).queue g = k.queue g := rfl

theorem tokF_advance (x : Option (BitVec 13)) (g : Nat) : (k.advance e x).tokF g = k.tokF g := rfl

/-- A push changes the stream and the commands of its engine alone. -/
theorem kept_signalled : { (k.signalled e f c).advance e with streams := k.streams, cmds := k.cmds, seq := k.seq } = k := by
  unfold Bank.signalled Bank.issueCmd Bank.setQueue Bank.onStream Bank.advance Bank.setStream; rfl

/-- Tokens taken change the stream, the FIFO and the records alone. -/
theorem kept_tookTokens : { (k.tookTokens e f c).advance e with streams := k.streams, tok := k.tok, backs := k.backs } = k := by
  unfold Bank.tookTokens Bank.notePop Bank.note Bank.learn Bank.onStream Bank.setTok Bank.advance Bank.setStream; rfl

/-- The push stands behind the commands of its engine, stamped with the epoch before. -/
theorem queue_signalled_self : (k.signalled e f c).queue e
    = k.queue e ++ [{ seq := k.seq, pc := (k.stream e).q0.addr, epoch := (k.stream e).epoch, op := .push f c }] :=
  queue_issueCmd_self k e _

theorem queue_signalled_other {g : Nat} (h : g ≠ e) : (k.signalled e f c).queue g = k.queue g := queue_issueCmd_other k _ h

theorem stream_signalled_self : (k.signalled e f c).stream e = (k.stream e).withEpochs ((k.stream e).epoch + 1) (k.stream e).know :=
  stream_onStream_self _ _ _

/-- The push carries the epoch before the one in which the stream goes on. -/
theorem last_signalled : ∃ x, ((k.signalled e f c).queue e).getLast? = some x ∧ x.op = .push f c
    ∧ ((k.signalled e f c).advanced e none).epoch = x.epoch + 1 := by
  refine ⟨_, by rw [queue_signalled_self, List.getLast?_concat], rfl, ?_⟩
  rw [advanced_withEpochs (stream_signalled_self k e f c) rfl none]
  rfl

theorem stream_signalled_other {g : Nat} (h : g ≠ e) : (k.signalled e f c).stream g = k.stream g :=
  stream_onStream_other (k.issueCmd e (.push f c)) _ h

theorem stream_notePop (l : List (BitVec 13)) (g : Nat) : (k.notePop e f l).stream g = k.stream g := rfl

theorem stream_tookTokens_self : (k.tookTokens e f c).stream e = (k.stream e).withEpochs (k.stream e).epoch
    (merge (k.stream e).know (k.tokF f).prod ((k.tokF f).toks.getD (c - 1) 0)) :=
  (stream_notePop _ e f _ e).trans (stream_onStream_self _ _ _)

theorem stream_tookTokens_other {g : Nat} (h : g ≠ e) : (k.tookTokens e f c).stream g = k.stream g :=
  (stream_notePop _ e f _ g).trans (stream_onStream_other _ _ h)

theorem tokF_tookTokens_self : (k.tookTokens e f c).tokF f = { k.tokF f with toks := (k.tokF f).toks.drop c } := tokF_setTok_self k f _

theorem tokF_tookTokens_other {g : Nat} (h : g ≠ f) : (k.tookTokens e f c).tokF g = k.tokF g := tokF_setTok_other k _ h

end

theorem tokensCarryEpochs : TokensCarryEpochs := by
  intro e f n s c q
  have hc : c = count n := (count_eq_eight n).symm
  clear_value c
  subst hc
  refine ⟨fun hb hp hr hep => ?sigk, fun hb hp hr hep => ?rebased, fun hb hcons hn => ?waitk, fun hf => ⟨fun h => ?_, fun h => ?_⟩⟩
  case sigk =>
    have hexec := exec_sigk_of_room (n := n) hb hp hr
    rw [if_neg hep] at hexec
    refine ⟨_, hexec, onlyBank_onMe s _, ?_⟩
    rw [me_onMe, stream_advance_self, advanced_withEpochs (stream_signalled_self _ _ _ _) rfl none]
    exact ⟨fun g hg => (stream_advance_other _ _ hg).trans (stream_signalled_other _ _ _ _ hg), kept_signalled _ _ _ _, rfl,
      (queue_advance _ _ _ _).trans (queue_signalled_self _ _ _ _), fun g hg => (queue_advance _ _ _ _).trans (queue_signalled_other _ _ _ _ hg), rfl, queueAs_withEpochs _ _ _⟩
  case rebased =>
    have hexec := exec_sigk_of_room (n := n) hb hp hr
    rw [if_pos hep] at hexec
    obtain ⟨x, hx, hop, hepoch⟩ := last_signalled (s.rebase s.cur s.curB e.toNat).me e.toNat f.toNat (count n)
    refine ⟨_, x, hexec, ?_⟩
    rw [me_onMe, queue_advance, stream_advance_self]
    exact ⟨hx, hop, hepoch⟩
  case waitk =>
    refine ⟨_, exec_waitk_of_tokens hb hcons hn, onlyBank_onMe s _, ?_⟩
    rw [me_onMe, stream_advance_self, advanced_withEpochs (stream_tookTokens_self _ _ _ _) rfl none]
    exact ⟨fun g hg => (stream_advance_other _ _ hg).trans (stream_tookTokens_other _ _ _ _ hg), kept_tookTokens _ _ _ _,
      get_note _ _ _, (tokF_advance _ _ _ _).trans (tokF_tookTokens_self _ _ _ _),
      fun g hg => (tokF_advance _ _ _ _).trans (tokF_tookTokens_other _ _ _ _ hg), rfl, queueAs_withEpochs _ _ _⟩
  · rw [exec_sigk_unbound h]; exact stoppedBy_fault s _ _ _ _ _ hf
  · rw [exec_waitk_unbound h]; exact stoppedBy_fault s _ _ _ _ _ hf

/-! ### WAITAW (08 R195) -/

/-- A bank in which engine `e` has acquired the snapshot of word `i`, having waited for generation `g`. -/
def Bank.acquiredWord (k : Bank) (e i : Nat) (g : Word) : Bank :=
  let v := k.arrVec i
  ((k.note e (fun x => { x with gens := (i, e, get (BitVec.allOnes 32) v.gens e) :: x.gens })).setArrVec i
    { v with gens := set (BitVec.allOnes 32) v.gens e g }).onStream e (fun t => { t with know := mergeAll t.know v.s })

section
variable (k : Bank) (e i : Nat) (g : Word)

theorem kept_acquiredWord : { (k.acquiredWord e i g).advance e with streams := k.streams, arr := k.arr, backs := k.backs } = k := by
  unfold Bank.acquiredWord Bank.note Bank.setArrVec Bank.onStream Bank.advance Bank.setStream; rfl

theorem stream_acquiredWord_self : (k.acquiredWord e i g).stream e
    = (k.stream e).withEpochs (k.stream e).epoch (mergeAll (k.stream e).know (k.arrVec i).s) := stream_onStream_self _ _ _

theorem stream_acquiredWord_other {f : Nat} (h : f ≠ e) : (k.acquiredWord e i g).stream f = k.stream f := stream_onStream_other _ _ h

theorem arrVec_setArrVec_self (v : ArrVec) : (k.setArrVec i v).arrVec i = v := get_set_self _ _ _ _

theorem arrVec_setArrVec_other {j : Nat} (v : ArrVec) (h : j ≠ i) : (k.setArrVec i v).arrVec j = k.arrVec j := get_set_other _ _ _ h

theorem arrVec_advance (x : Option (BitVec 13)) (j : Nat) : (k.advance e x).arrVec j = k.arrVec j := rfl

/-- Of the hidden vectors only the generation on which the engine waited changes. -/
theorem arrVec_acquiredWord (j : Nat) : ((k.acquiredWord e i g).arrVec j).a = (k.arrVec j).a ∧ ((k.acquiredWord e i g).arrVec j).s = (k.arrVec j).s
    ∧ ((k.acquiredWord e i g).arrVec j).live = (k.arrVec j).live := by
  have hvec : (k.acquiredWord e i g).arrVec j
      = if j = i then { k.arrVec i with gens := set (BitVec.allOnes 32) (k.arrVec i).gens e g } else k.arrVec j := get_set _ _ _ _ _
  rw [hvec]
  split
  · subst_vars; exact ⟨rfl, rfl, rfl⟩
  · exact ⟨rfl, rfl, rfl⟩

end

/-- A `WAITAW` on an armed word of the window whose generation has come issues, in a job that is not static (16 R353). -/
theorem exec_waitaw_of_gen {e : BitVec 3} {x y : BitVec 5} {s : State} {a g : Word} (ha : (s.me.scal e.toNat x).setWidth 32 = a)
    (hg : (s.me.scal e.toNat y).setWidth 32 = g) (hr : rowOf a < s.me.rows) (harm : s.armed s.cur s.curB (arrOf a) = true)
    (hgen : (arrField (s.row s.cur s.curB (rowOf a)) (arrOf a % 32) 2 - g).toNat < 2 ^ 31) (hs : s.me.isStatic = false) :
    exec (.waitaw e x y) s = .next (s.onMe (fun k => (k.acquiredWord e.toNat (arrOf a) g).advance e.toNat)) := by
  subst ha hg
  refine (if_neg (Nat.not_le.mpr hr)).trans ((if_neg (by simp [harm])).trans ((if_neg ?_).trans ((if_neg (Nat.not_le.mpr hgen)).trans ?_)))
  · exact fun h => absurd (hs.symm.trans h.2) Bool.false_ne_true
  · rfl

theorem waitawAcquiresTheSnapshot : WaitawAcquiresTheSnapshot := by
  intro e x y s a g r w
  refine ⟨fun hr harm hgen hs => ?acquires, fun hf hr => ?_, fun hf hr harm => ?_⟩
  case acquires =>
    refine ⟨_, exec_waitaw_of_gen rfl rfl hr harm hgen hs, onlyBank_onMe s _, ?_⟩
    unfold RecordsKept
    rw [me_onMe, stream_advance_self, advanced_withEpochs (stream_acquiredWord_self _ _ _ _) rfl none]
    refine ⟨fun f hf => (stream_advance_other _ _ hf).trans (stream_acquiredWord_other _ _ _ _ hf), kept_acquiredWord _ _ _ _, fun m y hy => ?_,
      fun i => ?_, rfl, queueAs_withEpochs _ _ _⟩
    · obtain ⟨z, hz, rfl | rfl⟩ := get_backs_note s.me e.toNat _ hy <;> exact ⟨_, hz, rfl⟩
    · rw [arrVec_advance]; exact arrVec_acquiredWord _ _ _ _ _
  · have hexec : exec (.waitaw e x y) s = s.fault e.toNat 0x0003 (BitVec.ofNat 64 a.toNat) (BitVec.ofNat 64 s.me.rows) := if_pos hr
    rw [hexec]; exact stoppedBy_fault s _ _ _ _ _ hf
  · have hexec : exec (.waitaw e x y) s = s.fault e.toNat 0x000D (arrObj a) 3 := (if_neg (Nat.not_le.mpr hr)).trans (if_pos harm)
    rw [hexec]
    obtain ⟨t, ht, hstop⟩ := stoppedBy_fault s e.toNat 0x000D (arrObj a) 3 0 hf
    exact ⟨t, _, ht, hstop⟩

/-- Settles O10: tokens and snapshots change the epochs of a stream, across which an issue takes the same entries. -/
theorem tokensAndArrivalWaits : Obligations.TokensAndArrivalWaits := ⟨tokensCarryEpochs, waitawAcquiresTheSnapshot⟩

end Sys2Proof.Machine
end

section
/-!
PROOF. The format table, and the arming of arrival words (07 R183; 08 R192; 05 R127).
-/

namespace Sys2Proof.Machine

open Sys2Proof.Safety Sys2Proof.Spec

/-! ### The granule of an arrival word -/

/-- The lanes of a row in which word `w` has been set. -/
theorem lane_setArr (r : Row) (w : Nat) (f : List Word) {n : Nat} (hn : n < 128) :
    lane (setArr r w f).data n = if n / 4 = w then f.getD (n % 4) 0 else lane r.data n := lane_ofLanes _ n hn

theorem arrField_setArr (r : Row) {w i : Nat} (f : List Word) (hw : w < 32) (hi : i < 4) : arrField (setArr r w f) w i = f.getD i 0 := by
  have hlane := lane_setArr r w f (n := 4 * w + i) (by omega)
  rwa [if_pos (by omega), show (4 * w + i) % 4 = i by omega] at hlane

theorem lane_setArr_other (r : Row) {w n : Nat} (f : List Word) (hn : n < 128) (h : n / 4 ≠ w) : lane (setArr r w f).data n = lane r.data n :=
  (lane_setArr r w f hn).trans (if_neg h)

theorem data_initArr (r : Row) (w : Nat) (f : List Word) : (initArr r w f).data = (setArr r w f).data := rfl

theorem arrField_initArr (r : Row) {w i : Nat} (f : List Word) (hw : w < 32) (hi : i < 4) : arrField (initArr r w f) w i = f.getD i 0 := by
  rw [arrField, data_initArr]; exact arrField_setArr r f hw hi

/-- A word that is written whole leaves its granule clean and every other granule as it is (05 R127). -/
theorem poison_initArr (r : Row) (w : Nat) (f : List Word) {g : Nat} (hg : g < 32) :
    (initArr r w f).poison.getLsbD g = (decide (g ≠ w) && r.poison.getLsbD g) := getLsbD_ofGran _ g hg

/-! ### ARWINIT (08 R192) -/

/-- A bank in which the control stream has written word `i`, found in row `r`, with hidden state `v`. -/
def Bank.wroteWord (k : Bank) (i : Nat) (r : Row) (v : ArrVec) : Bank := (k.noteArw i r).setArrVec i v

section
variable (k : Bank) (i : Nat) (r : Row) (v : ArrVec)

theorem kept_wroteWord : { (k.wroteWord i r v).advance 0 with streams := k.streams, arr := k.arr, backs := k.backs } = k := by
  unfold Bank.wroteWord Bank.noteArw Bank.note Bank.setArrVec Bank.advance Bank.setStream; rfl

theorem arrVec_wroteWord_self : (k.wroteWord i r v).arrVec i = v := arrVec_setArrVec_self _ _ _

theorem arrVec_wroteWord_other {j : Nat} (h : j ≠ i) : (k.wroteWord i r v).arrVec j = k.arrVec j := arrVec_setArrVec_other _ _ _ h

end

/-- What `ARWINIT` leaves as it was, whatever it writes to word `i`, the `w`th of row `row` (08 R192). -/
structure WroteWord (s t : State) (row w i : Nat) (f : List Word) (v : ArrVec) : Prop where
  kept    : { t.me with streams := s.me.streams, arr := s.me.arr, backs := s.me.backs } = s.me
  issued  : Issued 0 s.me t.me
  records : RecordsKept (fun x y => { y with arws := x.arws }) s t
  words   : ∀ j, j ≠ i → t.me.arrVec j = s.me.arrVec j
  rows    : ∀ r, r ≠ row → t.row s.cur s.curB r = s.row s.cur s.curB r
  own     : t.row s.cur s.curB row = initArr (s.row s.cur s.curB row) w f
  rest    : { t with units := s.units } = s
  cores   : ∀ u, u ≠ s.cur → t.core u = s.core u
  vec     : t.me.arrVec i = v

/-- A write of word `i` by the control stream: row, hidden state and records, and the issue. -/
theorem wroteWord_eff (s : State) (row w i : Nat) (f : List Word) (v : ArrVec) :
    ∃ t, (s.setRow s.cur s.curB row (initArr (s.row s.cur s.curB row) w f)).eff 0
        (fun k => k.wroteWord i (s.row s.cur s.curB row) v) = .next t ∧ WroteWord s t row w i f v := by
  have hset := (PadSet.refl s).setRow s.curB row (initArr (s.row s.cur s.curB row) w f)
  obtain ⟨t, hexec, ⟨hrest, hcores, -⟩, hme, hbank, hpad, -⟩ := hset.eff 0 (fun k => k.wroteWord i (s.row s.cur s.curB row) v)
  have hbase : (t.bank s.cur s.curB).base = (s.bank s.cur s.curB).base := by rw [hbank]; rfl
  have hrow : ∀ r, t.row s.cur s.curB r
      = if r = row then initArr (s.row s.cur s.curB row) w f else s.row s.cur s.curB r := fun r => by
    rw [State.row, hbase, hpad, get_set]
    exact if_congr Nat.add_left_cancel_iff rfl rfl
  refine ⟨t, hexec, ?kept, ?issued, ?records, ?words, fun r hr => (hrow r).trans (if_neg hr), (hrow row).trans (if_pos rfl), hrest,
    hcores, ?vec⟩
  case kept => rw [hme]; exact kept_wroteWord _ _ _ _
  case issued => rw [hme]; exact issued_advance 0 (fun _ => rfl) rfl
  case records =>
    intro m y hy
    rw [hme] at hy
    obtain ⟨z, hz, rfl | rfl⟩ := get_backs_note s.me 0 _ hy <;> exact ⟨_, hz, rfl⟩
  case words => intro j hj; rw [hme, arrVec_advance]; exact arrVec_wroteWord_other _ _ _ _ hj
  case vec => rw [hme, arrVec_advance]; exact arrVec_wroteWord_self _ _ _ _

section
variable {a b : BitVec 5} {s : State} {x : Word} (hx : (s.me.rdS a).setWidth 32 = x) (hr : rowOf x < s.me.rows)
include hx hr

theorem exec_arwinit_disarm (hd : (s.me.rdS b).getLsbD 33 = true) : exec (.arwinit a b) s
    = (s.setRow s.cur s.curB (rowOf x) (initArr (s.row s.cur s.curB (rowOf x)) (arrOf x % 32) [0, 0, 0, 0])).eff 0
      (fun k => k.wroteWord (arrOf x) (s.row s.cur s.curB (rowOf x)) {}) := by
  subst hx
  exact (if_neg (Nat.not_le.mpr hr)).trans (if_pos hd)

theorem exec_arwinit_arm (hd : (s.me.rdS b).getLsbD 33 = false)
    (hroom : (s.me.arrVec (arrOf x)).live = true ∨ (s.me.arr.filter (fun p => p.2.live)).length < 32) (hbusy : s.me.tagBusy (arrOf x) = false) :
    exec (.arwinit a b) s = (s.setRow s.cur s.curB (rowOf x) (initArr (s.row s.cur s.curB (rowOf x)) (arrOf x % 32)
        [(s.me.rdS b).setWidth 32, 0, 0, armedEpf ((s.me.rdS b).getLsbD 32)])).eff 0
      (fun k => k.wroteWord (arrOf x) (s.row s.cur s.curB (rowOf x)) { live := true }) := by
  subst hx
  refine (if_neg (Nat.not_le.mpr hr)).trans ((if_neg (Bool.eq_false_iff.mp hd)).trans ((if_neg ?_).trans (if_neg (by simp [hbusy]))))
  rintro ⟨hlive, hfull⟩
  rcases hroom with h | h
  · exact absurd (hlive.symm.trans h) Bool.false_ne_true
  · omega

/-- With 32 other live words no further word is armed. -/
theorem exec_arwinit_full (hd : (s.me.rdS b).getLsbD 33 = false) (hlive : (s.me.arrVec (arrOf x)).live = false)
    (hfull : 32 ≤ (s.me.arr.filter (fun p => p.2.live)).length) : exec (.arwinit a b) s = s.fault 0 0x0011 (x.setWidth 64) 0 := by
  subst hx
  exact (if_neg (Nat.not_le.mpr hr)).trans ((if_neg (Bool.eq_false_iff.mp hd)).trans (if_pos ⟨hlive, hfull⟩))

end

theorem armedEpf_eq (remote : Bool) : armedEpf remote = BitVec.ofNat 32 (remote.toNat * 2 ^ 18 + 2 ^ 16) := by
  cases remote <;> rfl

/-- Settles O14: one rule for what a write of a word leaves as it was, and the fields that the two forms of `ARWINIT` write. -/
theorem arwinitAndFmtset : Obligations.ArwinitAndFmtset := by
  unfold Obligations.ArwinitAndFmtset
  refine ⟨?fmtset, ?arwinit⟩
  case fmtset =>
    intro q a s
    refine ⟨_, rfl, onlyBank_onMe s _, ?_⟩
    rw [me_onMe]
    exact ⟨issued_advance 0 (fun _ => rfl) rfl, rfl, fun i => get_set _ _ _ _ _⟩
  case arwinit =>
    intro a b s x v row w others
    have hw : w < 32 := Nat.mod_lt _ (by decide)
    have hothers : ∀ {t f v'}, WroteWord s t row w (x.toNat / 16) f v' → others t := fun {t f v'} h =>
      ⟨h.kept, h.issued, h.records, h.words, h.rows, fun n hn hnw => by rw [h.own, data_initArr]; exact lane_setArr_other _ _ hn hnw,
        fun g hg => by rw [h.own, poison_initArr _ _ _ hg], h.rest, h.cores⟩
    have hfield : ∀ {t f v'}, WroteWord s t row w (x.toNat / 16) f v' → ∀ i, i < 4 →
        arrField (t.row s.cur s.curB row) w i = f.getD i 0 := fun {t f v'} h i hi => by
      rw [h.own]; exact arrField_initArr _ _ hw hi
    refine ⟨fun hr hd => ?_, fun hr hd hroom hbusy => ?_, fun hf hr => ?_, fun hf hr hd hlive hfull => ?_⟩
    · obtain ⟨t, ht, hwrote⟩ := wroteWord_eff s row w (x.toNat / 16) [0, 0, 0, 0] {}
      refine ⟨t, (exec_arwinit_disarm rfl hr hd).trans ht, hothers hwrote, hwrote.vec, fun i hi => ?_⟩
      rw [hfield hwrote i hi]
      interval_cases i <;> rfl
    · obtain ⟨t, ht, hwrote⟩ := wroteWord_eff s row w (x.toNat / 16) [v.setWidth 32, 0, 0, armedEpf (v.getLsbD 32)] { live := true }
      refine ⟨t, (exec_arwinit_arm rfl hr hd hroom hbusy).trans ht, hothers hwrote, hwrote.vec, ?_, hfield hwrote 1 (by decide),
        hfield hwrote 2 (by decide), (hfield hwrote 3 (by decide)).trans (armedEpf_eq _)⟩
      rw [hfield hwrote 0 (by decide), ← setWidth_eq_field]
      rfl
    · have hexec : exec (.arwinit a b) s = s.fault 0 0x0003 (BitVec.ofNat 64 x.toNat) (BitVec.ofNat 64 s.me.rows) := if_pos hr
      rw [hexec]; exact stoppedBy_fault s _ _ _ _ _ hf
    · rw [exec_arwinit_full rfl hr hd hlive hfull]; exact stoppedBy_fault s _ _ _ _ _ hf

end Sys2Proof.Machine
end

section
/-!
PROOF. Token pushes and landings (08 R194, R204).
-/

namespace Sys2Proof.Machine

open Sys2Proof.Safety Sys2Proof.Spec

/-! ### TOKEN_PUSH (08 R204) -/

/-- A bank in which push `c` has put its `n` tokens into FIFO `f`. -/
def Bank.pushed (k : Bank) (e f n : Nat) (c : Cmd) : Bank :=
  (k.setTok f { k.tokF f with toks := (k.tokF f).toks ++ List.replicate n c.epoch }).retire e c.seq

section
variable (k : Bank) (e f n : Nat) (c : Cmd)

theorem kept_pushed : { k.pushed e f n c with tok := k.tok, cmds := k.cmds } = k := by
  unfold Bank.pushed Bank.retire Bank.setQueue Bank.setTok; rfl

theorem tokF_pushed_self : (k.pushed e f n c).tokF f = { k.tokF f with toks := (k.tokF f).toks ++ List.replicate n c.epoch } :=
  tokF_setTok_self k f _

theorem tokF_pushed_other {g : Nat} (h : g ≠ f) : (k.pushed e f n c).tokF g = k.tokF g := tokF_setTok_other k _ h

theorem queue_pushed_self : (k.pushed e f n c).queue e = (k.queue e).filter (fun x => decide (x.seq ≠ c.seq)) := queue_setQueue_self _ e _

theorem queue_pushed_other {g : Nat} (h : g ≠ e) : (k.pushed e f n c).queue g = k.queue g := queue_setQueue_other _ _ h

end

theorem tokenPush_of_room {s : State} {u b e f n : Nat} {c : Cmd} (hc : ((s.bank u b).queue e).find? Cmd.isPush = some c)
    (hop : c.op = .push f n) (hb : (s.bank u b).before e c.seq = []) (hr : ((s.bank u b).tokF f).toks.length + n ≤ 8)
    (hm : s.mayPush u b e = true) : s.tokenPush u b e = s.onBank u b (fun k => k.pushed e f n c) := by
  have hgo : ¬ ((s.bank u b).before e c.seq ≠ [] ∨ 8 < ((s.bank u b).tokF f).toks.length + n ∨ s.mayPush u b e = false) := by
    simp [hb, hm, hr]
  unfold State.tokenPush
  simp only [hc, hop]
  exact if_neg hgo

/-! ### LANDING (08 R194) -/

theorem landNext_of_row {s : State} {u b : Nat} {l : Landing} {ls : List Landing} (hl : (s.bank u b).landings = l :: ls)
    (hf : (s.core u).freeze = 0) (ht : (s.bank u b).inTransit = false) (hr : rowOf l.addr < (s.bank u b).rows) :
    s.landNext u b = (s.onBank u b (fun k => { k with landings := ls })).land u b (arrOf l.addr) l.n (l.eng.map (fun e => (e, l.epoch))) := by
  have hrows : ((s.onBank u b (fun k => { k with landings := ls })).bank u b).rows = (s.bank u b).rows := by rw [bank_onBank_self]; rfl
  unfold State.landNext
  simp only [hl, hf, ht, hrows, ne_eq, not_true, Bool.false_eq_true, or_self, if_false, Nat.not_le.mpr hr]

/-- EPF with OVF set where `sat` holds and its low half replaced by `low`. -/
def markedEpf (epf : Word) (sat : Bool) (low : Nat) : Word := BitVec.ofNat 32 ((epf.toNat / 65536 * 65536 ||| (if sat then 2 ^ 17 else 0)) + low)

/-- EPF bit by bit: the low half, then the flags, of which OVF may have been set. -/
theorem getLsbD_markedEpf (epf : Word) (sat : Bool) {low : Nat} (hlow : low < 2 ^ 16) (j : Nat) :
    (markedEpf epf sat low).getLsbD j = if j < 16 then low.testBit j else epf.getLsbD j || (sat && decide (j = 17)) := by
  have hflags : epf.toNat / 65536 * 65536 ||| (if sat then 2 ^ 17 else 0) = 2 ^ 16 * (epf.toNat / 2 ^ 16 ||| (if sat then 2 else 0)) := by
    have hshift := Nat.shiftLeft_or_distrib (a := epf.toNat / 2 ^ 16) (b := if sat then 2 else 0) (i := 16)
    simp only [Nat.shiftLeft_eq] at hshift
    refine Eq.trans ?_ (hshift.symm.trans (Nat.mul_comm _ _))
    cases sat <;> rfl
  have hbit : (if sat then 2 else 0 : Nat).testBit (j - 16) = (sat && decide (j - 16 = 1)) := by
    cases sat
    · simp
    · rw [show (if true = true then 2 else 0 : Nat) = 2 ^ 1 from rfl, Nat.testBit_two_pow, Bool.true_and]
      exact decide_eq_decide.mpr eq_comm
  rw [markedEpf, BitVec.getLsbD_ofNat, hflags, Nat.testBit_two_pow_mul_add _ hlow]
  by_cases hj : j < 16
  · simp [hj, Nat.lt_trans hj (by decide : 16 < 32)]
  · rw [if_neg hj, if_neg hj, Nat.testBit_or, hbit, Nat.testBit_div_two_pow, Nat.sub_add_cancel (by omega)]
    by_cases h32 : j < 32
    · rw [decide_eq_true h32, Bool.true_and, BitVec.getLsbD]
      congr 2
      exact decide_eq_decide.mpr (by omega)
    · rw [decide_eq_false h32, Bool.false_and, BitVec.getLsbD_of_ge epf j (by omega), Bool.false_or, decide_eq_false (by omega), Bool.and_false]

theorem toNat_low_markedEpf (epf : Word) (sat : Bool) {low : Nat} (hlow : low < 2 ^ 16) : ((markedEpf epf sat low).extractLsb' 0 16).toNat = low := by
  refine Nat.eq_of_testBit_eq fun j => ?_
  rw [← BitVec.getLsbD, BitVec.getLsbD_extractLsb', Nat.zero_add, getLsbD_markedEpf _ _ hlow]
  by_cases hj : j < 16
  · simp [hj]
  · rw [decide_eq_false hj, Bool.false_and, Nat.testBit_lt_two_pow (Nat.lt_of_lt_of_le hlow (Nat.pow_le_pow_right (by decide) (by omega)))]

/-- Whether COUNT saturates with `n` bytes more (08 R194). -/
def landSat (r : Row) (w n : Nat) : Bool := decide (0xFFFFFFFF < (arrField r w 1).toNat + n)

/-- COUNT with `n` bytes more. -/
def landCount (r : Row) (w n : Nat) : Nat := if landSat r w n then 0xFFFFFFFF else (arrField r w 1).toNat + n

/-- TARGET of a word, 0 standing for 2^32 (08 R190). -/
def landTarget (r : Row) (w : Nat) : Nat := if arrField r w 0 = 0 then 2 ^ 32 else (arrField r w 0).toNat

/-- Whether a landing of `n` bytes steps GEN. -/
def landStepped (r : Row) (w n : Nat) : Bool := decide (landTarget r w ≤ landCount r w n)

/-- The low half of EPF that a landing leaves in a word that it steps. -/
def landMark : Option (Nat × BitVec 13) → Nat
  | some (e, ep) => e * 8192 + ep.toNat
  | none => 7 * 8192

/-- A vector of a word with the epoch of a landing merged. -/
def landMerge (a : Know) : Option (Nat × BitVec 13) → Know
  | some (e, ep) => merge a e ep
  | none => a

/-- EPF after a landing of `n` bytes. -/
def landEpf (r : Row) (w n : Nat) (from_ : Option (Nat × BitVec 13)) : Word :=
  if landStepped r w n then markedEpf (arrField r w 3) (landSat r w n) (landMark from_)
  else markedEpf (arrField r w 3) (landSat r w n) ((arrField r w 3).toNat % 65536)

/-- The fields of a word after a landing of `n` bytes. -/
def landFields (r : Row) (w n : Nat) (from_ : Option (Nat × BitVec 13)) : List Word :=
  [arrField r w 0, BitVec.ofNat 32 (landCount r w n % landTarget r w), arrField r w 2 + BitVec.ofNat 32 (landCount r w n / landTarget r w),
   landEpf r w n from_]

/-- The hidden vectors of a word after a landing of `n` bytes. -/
def landVec (v : ArrVec) (r : Row) (w n : Nat) (from_ : Option (Nat × BitVec 13)) : ArrVec :=
  { v with a := landMerge v.a from_, s := if landStepped r w n then landMerge v.a from_ else v.s }

theorem landVec_eq (v : ArrVec) (r : Row) (w n : Nat) (from_ : Option (Nat × BitVec 13)) : landVec v r w n from_
    = { v with a := landMerge v.a from_, s := if landTarget r w ≤ landCount r w n then landMerge v.a from_ else v.s } := by
  unfold landVec landStepped
  simp only [decide_eq_true_eq]

theorem land_of_not_armed {s : State} {u b i : Nat} (n : Nat) (from_ : Option (Nat × BitVec 13)) (h : s.armed u b i = false) :
    s.land u b i n from_ = s := if_pos h

theorem land_of_armed {s : State} {u b i : Nat} (n : Nat) (from_ : Option (Nat × BitVec 13)) (h : s.armed u b i = true) :
    s.land u b i n from_
      = (s.setRow u b (i / 32) (setArr (s.row u b (i / 32)) (i % 32) (landFields (s.row u b (i / 32)) (i % 32) n from_))).onBank u b
        (fun k => k.setArrVec i (landVec ((s.bank u b).arrVec i) (s.row u b (i / 32)) (i % 32) n from_)) := by
  refine (if_neg (Bool.eq_false_iff.not.mpr (not_not.mpr h))).trans ?_
  cases from_ <;> rfl

theorem landCount_eq_min (r : Row) (w n : Nat) : landCount r w n = min ((arrField r w 1).toNat + n) (2 ^ 32 - 1) := by
  unfold landCount landSat
  simp only [decide_eq_true_eq]
  split <;> omega

theorem landMark_lt {from_ : Option (Nat × BitVec 13)} (h : ∀ p, from_ = some p → p.1 < 6) : landMark from_ < 2 ^ 16 := by
  cases from_ with
  | none => decide
  | some p =>
    have he := h p rfl
    have hep := p.2.isLt
    show p.1 * 8192 + p.2.toNat < 2 ^ 16
    omega

theorem landEpf_eq (r : Row) (w n : Nat) (from_ : Option (Nat × BitVec 13)) : landEpf r w n from_ = markedEpf (arrField r w 3) (landSat r w n)
    (if landTarget r w ≤ landCount r w n then landMark from_ else ((arrField r w 3).extractLsb' 0 16).toNat) := by
  have hlow : ((arrField r w 3).extractLsb' 0 16).toNat = (arrField r w 3).toNat % 65536 := by simp [BitVec.extractLsb'_toNat]
  unfold landEpf landStepped
  rw [apply_ite (markedEpf _ _), hlow]
  exact if_congr decide_eq_true_iff rfl rfl

/-- What stands in a word after a landing (08 R194). -/
theorem landFields_spec (r : Row) {w : Nat} (hw : w < 32) (n : Nat) {from_ : Option (Nat × BitVec 13)} (h : ∀ p, from_ = some p → p.1 < 6)
    (harm : (arrField r w 3).getLsbD 16 = true) :
    let new := setArr r w (landFields r w n from_)
    let low := if landTarget r w ≤ landCount r w n then landMark from_ else ((arrField r w 3).extractLsb' 0 16).toNat
    arrField new w 0 = arrField r w 0 ∧ (arrField new w 1).toNat = landCount r w n % landTarget r w
      ∧ arrField new w 2 = arrField r w 2 + BitVec.ofNat 32 (landCount r w n / landTarget r w)
      ∧ (∀ j, 18 ≤ j → (arrField new w 3).getLsbD j = (arrField r w 3).getLsbD j) ∧ (arrField new w 3).getLsbD 16 = true
      ∧ (arrField new w 3).getLsbD 17 = ((arrField r w 3).getLsbD 17 || landSat r w n)
      ∧ ((arrField new w 3).extractLsb' 0 16).toNat = low := by
  intro new low
  have hfield : ∀ i, i < 4 → arrField new w i = (landFields r w n from_).getD i 0 := fun i hi => arrField_setArr r _ hw hi
  have hlow : low < 2 ^ 16 := by
    show (if _ then _ else _) < _
    split
    · exact landMark_lt h
    · exact BitVec.isLt _
  have hepf : arrField new w 3 = markedEpf (arrField r w 3) (landSat r w n) low := (hfield 3 (by decide)).trans (landEpf_eq r w n from_)
  have hcount : landCount r w n % landTarget r w < 2 ^ 32 := by
    refine Nat.lt_of_le_of_lt (Nat.mod_le _ _) ?_
    rw [landCount_eq_min]; omega
  refine ⟨hfield 0 (by decide), ?_, hfield 2 (by decide), fun j hj => ?_, ?_, ?_, ?_⟩
  · rw [hfield 1 (by decide)]; exact Nat.mod_eq_of_lt hcount
  · rw [hepf, getLsbD_markedEpf _ _ hlow, if_neg (by omega), decide_eq_false (by omega), Bool.and_false, Bool.or_false]
  · rw [hepf, getLsbD_markedEpf _ _ hlow, if_neg (by decide), harm, Bool.true_or]
  · rw [hepf, getLsbD_markedEpf _ _ hlow, if_neg (by decide), decide_eq_true rfl, Bool.and_true]
  · rw [hepf]; exact toNat_low_markedEpf _ _ hlow

/-- A change of a bank that keeps the place of its window leaves its rows. -/
theorem row_onBank (s : State) (u b : Nat) {F : Bank → Bank} (h : (F (s.bank u b)).base = (s.bank u b).base) (r : Nat) :
    (s.onBank u b F).row u b r = s.row u b r := by
  rw [State.row, bank_onBank_self, core_onBank_self, Core.setBank_pad, h]
  rfl

/-- From `s` to `t` landing `l` of the bank, its oldest with `ls` behind it, has been counted into its word or has found none (08 R194). -/
structure Landed (s t : State) (u b : Nat) (l : Landing) (ls : List Landing) : Prop where
  unit  : OnlyUnit s t u
  rest  : { t with units := s.units } = s
  left  : (t.bank u b).landings = ls
  kept  : { t.bank u b with landings := (s.bank u b).landings, arr := (s.bank u b).arr } = s.bank u b
  rows  : ∀ x, x ≠ rowOf l.addr → t.row u b x = s.row u b x
  vecs  : ∀ x, x ≠ arrOf l.addr → (t.bank u b).arrVec x = (s.bank u b).arrVec x
  off   : s.armed u b (arrOf l.addr) = false → t.row u b (rowOf l.addr) = s.row u b (rowOf l.addr)
            ∧ (t.bank u b).arrVec (arrOf l.addr) = (s.bank u b).arrVec (arrOf l.addr)
  on    : s.armed u b (arrOf l.addr) = true →
            let r := s.row u b (rowOf l.addr)
            let w := arrOf l.addr % 32
            let from_ := l.eng.map (fun e => (e, l.epoch))
            t.row u b (rowOf l.addr) = setArr r w (landFields r w l.n from_)
            ∧ (t.bank u b).arrVec (arrOf l.addr) = landVec ((s.bank u b).arrVec (arrOf l.addr)) r w l.n from_

theorem landed_landNext {s : State} {u b : Nat} {l : Landing} {ls : List Landing} (hl : (s.bank u b).landings = l :: ls)
    (hf : (s.core u).freeze = 0) (ht : (s.bank u b).inTransit = false) (hr : rowOf l.addr < (s.bank u b).rows) :
    Landed s (s.landNext u b) u b l ls := by
  rw [landNext_of_row hl hf ht hr]
  have hcore : ∀ v, v ≠ u → (s.onBank u b (fun k => { k with landings := ls })).core v = s.core v := fun v hv => core_onBank_other s b _ hv
  have hrest : { s.onBank u b (fun k => { k with landings := ls }) with units := s.units } = s := rfl
  have hbank : (s.onBank u b (fun k => { k with landings := ls })).bank u b = { s.bank u b with landings := ls } := bank_onBank_self _ _ _ _
  have hrow : ∀ r, (s.onBank u b (fun k => { k with landings := ls })).row u b r = s.row u b r := row_onBank s u b rfl
  generalize s.onBank u b (fun k => { k with landings := ls }) = s1 at hcore hrest hbank hrow ⊢
  have hvec : ∀ i, (s1.bank u b).arrVec i = (s.bank u b).arrVec i := fun i => by rw [hbank]; rfl
  have harmed : s1.armed u b (arrOf l.addr) = s.armed u b (arrOf l.addr) := by
    unfold State.armed; rw [hvec, hrow]
  have hdiv : arrOf l.addr / 32 = rowOf l.addr := Nat.div_div_eq_div_mul _ _ _
  cases harm : s.armed u b (arrOf l.addr) with
  | false =>
    rw [land_of_not_armed _ _ (harmed.trans harm)]
    exact ⟨hcore, hrest, by rw [hbank], by rw [hbank], fun x _ => hrow x, fun x _ => hvec x,
      fun _ => ⟨hrow _, hvec _⟩, fun h => absurd (harm.symm.trans h) Bool.false_ne_true⟩
  | true =>
    rw [land_of_armed _ _ (harmed.trans harm), hdiv, hrow, hvec]
    generalize hnew : setArr (s.row u b (rowOf l.addr)) (arrOf l.addr % 32) _ = new
    generalize hav : landVec ((s.bank u b).arrVec (arrOf l.addr)) _ _ _ _ = av
    have hbank' : ((s1.setRow u b (rowOf l.addr) new).onBank u b (fun k => k.setArrVec (arrOf l.addr) av)).bank u b
        = ({ s.bank u b with landings := ls } : Bank).setArrVec (arrOf l.addr) av := by
      rw [bank_onBank_self, bank_setRow, hbank]
    have hrow' : ∀ r, ((s1.setRow u b (rowOf l.addr) new).onBank u b (fun k => k.setArrVec (arrOf l.addr) av)).row u b r
        = (s1.setRow u b (rowOf l.addr) new).row u b r := row_onBank _ u b rfl
    refine ⟨fun v hv => ?_, hrest, by rw [hbank']; rfl, by rw [hbank']; rfl, fun x hx => ?_, fun x hx => ?_,
      fun h => absurd (h.symm.trans harm) Bool.false_ne_true, fun _ => ⟨?_, ?_⟩⟩
    · rw [core_onBank_other _ _ _ hv, core_setRow_other _ _ _ _ hv]; exact hcore v hv
    · rw [hrow', row_setRow_other _ _ _ _ hx, hrow]
    · rw [hbank']; exact arrVec_setArrVec_other _ _ _ hx
    · rw [hrow', row_setRow_self]; exact hnew.symm
    · rw [hbank', arrVec_setArrVec_self]; exact hav.symm

theorem poison_setArr (r : Row) (w : Nat) (f : List Word) : (setArr r w f).poison = r.poison := by simp only [setArr]

section
variable {s t : State} {u b : Nat} {l : Landing} {ls : List Landing} (h : Landed s t u b l ls)
include h

/-- A landing leaves the poison of the row of its word. -/
theorem Landed.poison : (t.row u b (rowOf l.addr)).poison = (s.row u b (rowOf l.addr)).poison := by
  cases harm : s.armed u b (arrOf l.addr) with
  | false => rw [(h.off harm).1]
  | true => rw [(h.on harm).1]; exact poison_setArr _ _ _

/-- A landing leaves the row of its word outside the word. -/
theorem Landed.lanes {n : Nat} (hn : n < 128) (hw : n / 4 ≠ arrOf l.addr % 32) :
    lane (t.row u b (rowOf l.addr)).data n = lane (s.row u b (rowOf l.addr)).data n := by
  cases harm : s.armed u b (arrOf l.addr) with
  | false => rw [(h.off harm).1]
  | true => rw [(h.on harm).1]; exact lane_setArr_other _ _ hn hw

end

/-- An armed word has its bit set in the row that holds it. -/
theorem armed_bit {s : State} {u b : Nat} {a : Word} (h : s.armed u b (arrOf a) = true) :
    (arrField (s.row u b (rowOf a)) (arrOf a % 32) 3).getLsbD 16 = true := by
  have hdiv : arrOf a / 32 = rowOf a := Nat.div_div_eq_div_mul _ _ _
  rw [State.armed, hdiv, Bool.and_eq_true] at h
  exact h.2

end Sys2Proof.Machine
end

section
/-!
PROOF. Departures in calendar slots and as shared traffic (12 R287, R292 to R295).
-/

namespace Sys2Proof.Machine

open Sys2Proof.Safety Sys2Proof.Spec

/-! ### Departures are only added -/

/-- From `s` to `t` bank `b` of unit `u` has departures of row `r` of command `src` added, or other requests of it that missed; beside those only the buffer of the unit and the slots of stacks differ. -/
structure DepartsOnly (s t : State) (u b src r : Nat) : Prop where
  unit  : OnlyUnit s t u
  rest  : { t with units := s.units, stackSt := s.stackSt } = s
  pad   : (t.core u).pad = (s.core u).pad
  bank  : { t.bank u b with departed := (s.bank u b).departed, missed := (s.bank u b).missed } = s.bank u b
  added : ∃ ds, (t.bank u b).departed = (s.bank u b).departed ++ ds ∧ ∀ d ∈ ds, d.src = src ∧ d.row = r

theorem DepartsOnly.refl (s : State) (u b src r : Nat) : DepartsOnly s s u b src r :=
  ⟨fun _ _ => rfl, rfl, rfl, rfl, [], (List.append_nil _).symm, nofun⟩

theorem DepartsOnly.trans {s t v : State} {u b src r : Nat} (h : DepartsOnly s t u b src r) (h' : DepartsOnly t v u b src r) :
    DepartsOnly s v u b src r := by
  obtain ⟨ds, hds, hall⟩ := h.added
  obtain ⟨es, hes, hall'⟩ := h'.added
  refine ⟨fun x hx => (h'.unit x hx).trans (h.unit x hx), ?_, h'.pad.trans h.pad, ?_, ds ++ es, ?_, fun d hd => ?_⟩
  · rw [← h.rest, ← h'.rest]
  · rw [← h.bank, ← h'.bank]
  · rw [hes, hds, List.append_assoc]
  · exact (List.mem_append.mp hd).elim (hall d) (hall' d)

theorem departsOnly_useSlot (s : State) (u b src r T i n : Nat) : DepartsOnly s (s.useSlot T i n) u b src r :=
  ⟨fun _ _ => rfl, rfl, rfl, rfl, [], (List.append_nil _).symm, nofun⟩

theorem bank_setTtb (s : State) (u b : Nat) (l : List Ttb) : (s.setCore u { s.core u with ttb := l }).bank u b = s.bank u b := by
  rw [State.bank, core_setCore_self]; rfl

theorem departsOnly_setTtb (s : State) (u b src r : Nat) (l : List Ttb) : DepartsOnly s (s.setCore u { s.core u with ttb := l }) u b src r :=
  ⟨fun _ hv => core_setCore_other s _ hv, rfl, by rw [core_setCore_self], by rw [bank_setTtb], [], by rw [bank_setTtb, List.append_nil], nofun⟩

/-- The walk leaves the state or fills the buffer of the unit. -/
theorem walk_eq (s : State) (u : Nat) (t : Tensor) (n : Nat) : s.walk u t n = s ∨ ∃ l, s.walk u t n = s.setCore u { s.core u with ttb := l } := by
  unfold State.walk
  split
  · exact .inl rfl
  · split
    · exact .inr ⟨_, rfl⟩
    · exact .inl rfl

theorem departsOnly_walk (s : State) (u b src r : Nat) (t : Tensor) (n : Nat) : DepartsOnly s (s.walk u t n) u b src r := by
  obtain h | ⟨l, h⟩ := walk_eq s u t n <;> rw [h]
  · exact .refl s u b src r
  · exact departsOnly_setTtb s u b src r l

theorem bank_walk (s : State) (u b : Nat) (t : Tensor) (n : Nat) : (s.walk u t n).bank u b = s.bank u b := by
  obtain h | ⟨l, h⟩ := walk_eq s u t n <;> rw [h]
  exact bank_setTtb s u b l

/-- A bank with further departures and other missed requests. -/
def Bank.withRequests (k : Bank) (ds : List Depart) (ms : List Missed) : Bank := { k with departed := k.departed ++ ds, missed := ms }

theorem departsOnly_onBank (s : State) (u b src r : Nat) (ds : List Depart) (ms : Bank → List Missed) (h : ∀ d ∈ ds, d.src = src ∧ d.row = r) :
    DepartsOnly s (s.onBank u b (fun k => k.withRequests ds (ms k))) u b src r := by
  refine ⟨fun _ hv => core_onBank_other s b _ hv, rfl, ?_, ?_, ds, ?_, h⟩
  · rw [core_onBank_self, Core.setBank_pad]
  · rw [bank_onBank_self]; rfl
  · rw [bank_onBank_self]; rfl

theorem departsOnly_leave (s : State) (u b r : Nat) (c : Cmd) (w : Bool) (x : Ttb) (slot : Option Nat) :
    DepartsOnly s (s.leave u b r c w x slot) u b c.seq r := by
  have hbank : ∀ v : State, DepartsOnly v (v.onBank u b (fun k => k.withRequests
      [{ src := c.seq, row := r, x := x, due := slot.map (fun _ => s.now + latency c x.tier w) }]
      (k.missed.filter (fun m => !(decide (m.src = c.seq) && decide (m.row = r) && decide (m.tile = x.tile)))))) u b c.seq r := fun v =>
    departsOnly_onBank v u b c.seq r _ _ (by simp)
  cases slot with
  | none => exact hbank s
  | some n => exact (departsOnly_useSlot s u b c.seq r x.tier x.stack n).trans (hbank _)

theorem departsOnly_missSlot (s : State) (u b r : Nat) (n : Nat) (t : Tensor) (m : Missed) : DepartsOnly s (s.missSlot u b t m) u b n r := by
  have hbank := departsOnly_onBank (s.useSlot m.tier m.stack m.slot) u b n r []
    (fun k => m :: k.missed.filter (fun y => !(decide (y.src = m.src) && decide (y.row = m.row) && decide (y.tile = m.tile)))) nofun
  simp only [Bank.withRequests, List.append_nil] at hbank
  exact ((departsOnly_useSlot s u b n r m.tier m.stack m.slot).trans hbank).trans (departsOnly_walk _ u b n r t m.tile)

/-! ### One request -/

section
variable (s : State) (u b e r : Nat) (c : Cmd) (retry : Bool) (t : Tensor) (n : Nat)

/-- The slot in which a request of a core that owns slots of its stack may leave now (12 R292, R294, R295). -/
def State.slotFor : Option Nat :=
  match (s.bank u b).missedOf c.seq r n with
  | some m => if retry ∧ m.at_ < s.now ∧ (slotsAt (s.target u t n).1 s.now).contains m.slot then some m.slot else none
  | none => if retry ∨ s.earlierLeaves u b e c r (s.target u t n) then none else s.freeSlotAt u (s.target u t n).1 (s.target u t n).2 s.now

variable {s u b e r c retry t n} {offs : List Nat} {w : Bool}

theorem slotFor_of_free (hm : (s.bank u b).missedOf c.seq r n = none) (he : s.earlierLeaves u b e c r (s.target u t n) = false) :
    s.slotFor u b e r c false t n = s.freeSlotAt u (s.target u t n).1 (s.target u t n).2 s.now := by
  unfold State.slotFor
  simp only [hm, he, Bool.false_eq_true, or_self, if_false]

theorem slotFor_of_earlier (hm : (s.bank u b).missedOf c.seq r n = none) (he : s.earlierLeaves u b e c r (s.target u t n) = true) :
    s.slotFor u b e r c false t n = none := by
  unfold State.slotFor
  simp only [hm, he, or_true, if_true]

theorem slotFor_retry_of_not_missed (hm : (s.bank u b).missedOf c.seq r n = none) : s.slotFor u b e r c true t n = none := by
  unfold State.slotFor
  simp only [hm, true_or, if_true]

/-- A request that has missed its slot goes for that slot alone, one rotation later, and as a retry (12 R295). -/
theorem slotFor_of_missed {m : Missed} (hm : (s.bank u b).missedOf c.seq r n = some m) : s.slotFor u b e r c retry t n
    = if retry ∧ m.at_ < s.now ∧ m.slot ∈ slotsAt (s.target u t n).1 s.now then some m.slot else none := by
  unfold State.slotFor
  simp only [hm, List.contains_iff_mem]

theorem request_shared {x : Ttb} (ho : s.ownsSlot u (s.target u t n).1 (s.target u t n).2 = false)
    (hf : s.departFrame u t n (s.bank u b).pasid offs = some x) : s.request u b e r c retry (t, n, offs, w) = s.leave u b r c w x none := by
  unfold State.request; simp only [ho, if_true, hf]

theorem request_walks (ho : s.ownsSlot u (s.target u t n).1 (s.target u t n).2 = false)
    (hf : s.departFrame u t n (s.bank u b).pasid offs = none) : s.request u b e r c retry (t, n, offs, w) = s.walk u t n := by
  unfold State.request; simp only [ho, if_true, hf]

/-- A core that owns slots of the stack makes the request in the slot that there is for it, or not at all. -/
theorem request_owned (ho : s.ownsSlot u (s.target u t n).1 (s.target u t n).2 = true) : s.request u b e r c retry (t, n, offs, w)
    = (s.slotFor u b e r c retry t n).elim s (fun q => (s.departFrame u t n (s.bank u b).pasid offs).elim
        (s.missSlot u b t { src := c.seq, row := r, tile := n, tier := (s.target u t n).1, stack := (s.target u t n).2, slot := q, at_ := s.now })
        (fun x => s.leave u b r c w x (some q))) := by
  refine (if_neg (Bool.eq_false_iff.not.mpr (not_not.mpr ho))).trans ?_
  show (match s.slotFor u b e r c retry t n with | none => s | some q => _) = _
  cases s.slotFor u b e r c retry t n with
  | none => rfl
  | some q => cases s.departFrame u t n (s.bank u b).pasid offs <;> rfl

theorem request_waits (ho : s.ownsSlot u (s.target u t n).1 (s.target u t n).2 = true) (hs : s.slotFor u b e r c retry t n = none) :
    s.request u b e r c retry (t, n, offs, w) = s := by
  rw [request_owned ho, hs]; rfl

theorem request_slotted {x : Ttb} {q : Nat} (ho : s.ownsSlot u (s.target u t n).1 (s.target u t n).2 = true)
    (hs : s.slotFor u b e r c retry t n = some q) (hf : s.departFrame u t n (s.bank u b).pasid offs = some x) :
    s.request u b e r c retry (t, n, offs, w) = s.leave u b r c w x (some q) := by
  rw [request_owned ho, hs, hf]; rfl

theorem request_missed {q : Nat} (ho : s.ownsSlot u (s.target u t n).1 (s.target u t n).2 = true)
    (hs : s.slotFor u b e r c retry t n = some q) (hf : s.departFrame u t n (s.bank u b).pasid offs = none) :
    s.request u b e r c retry (t, n, offs, w) = s.missSlot u b t
      { src := c.seq, row := r, tile := n, tier := (s.target u t n).1, stack := (s.target u t n).2, slot := q, at_ := s.now } := by
  rw [request_owned ho, hs, hf]; rfl

/-- A request departs, misses its slot, is walked for or changes nothing. -/
theorem departsOnly_request (p : Tensor × Nat × List Nat × Bool) : DepartsOnly s (s.request u b e r c retry p) u b c.seq r := by
  obtain ⟨t, n, offs, w⟩ := p
  cases ho : s.ownsSlot u (s.target u t n).1 (s.target u t n).2 with
  | false =>
    cases hf : s.departFrame u t n (s.bank u b).pasid offs with
    | none => rw [request_walks ho hf]; exact departsOnly_walk s u b c.seq r t n
    | some x => rw [request_shared ho hf]; exact departsOnly_leave s u b r c w x none
  | true =>
    cases hs : s.slotFor u b e r c retry t n with
    | none => rw [request_waits ho hs]; exact .refl s u b c.seq r
    | some q =>
      cases hf : s.departFrame u t n (s.bank u b).pasid offs with
      | none => rw [request_missed ho hs hf]; exact departsOnly_missSlot s u b r c.seq t _
      | some x => rw [request_slotted ho hs hf]; exact departsOnly_leave s u b r c w x (some q)

end

/-! ### The requests of a row -/

theorem findCmd_seq {k : Bank} {src e : Nat} {c : Cmd} (h : k.findCmd src = some (e, c)) : c.seq = src := by
  obtain ⟨f, -, hf⟩ := List.exists_of_findSome?_eq_some h
  obtain ⟨d, hd, hdc⟩ := Option.map_eq_some_iff.mp hf
  cases hdc
  exact seq_of_cmd hd

/-- Whatever leaves of a row, only departures of it are added. -/
theorem departsOnly_depart (s : State) (u b src r : Nat) (retry : Bool) : DepartsOnly s (s.depart u b src r retry) u b src r := by
  have hfold : ∀ (e : Nat) (c : Cmd) (l : List (Tensor × Nat × List Nat × Bool)) (v : State), c.seq = src →
      DepartsOnly v (l.foldl (fun s p => s.request u b e r c retry p) v) u b src r := by
    intro e c l
    induction l with
    | nil => exact fun v _ => .refl v u b src r
    | cons p l ih =>
      rintro v rfl
      exact (departsOnly_request p).trans (ih _ rfl)
  unfold State.depart
  split
  · exact .refl s u b src r
  · rename_i e c hc
    split
    · exact .refl s u b src r
    · exact hfold e c _ s (findCmd_seq hc)

theorem depart_single {s : State} {u b src r e : Nat} {c : Cmd} {p : Tensor × Nat × List Nat × Bool} (retry : Bool)
    (hc : (s.bank u b).findCmd src = some (e, c)) (hf : c.fresh = false) (hm : s.mayPerform u b e c = true)
    (hu : s.undeparted u b e c r = [p]) : s.depart u b src r retry = s.request u b e r c retry p := by
  unfold State.depart
  simp only [hc, hf, hm, hu, Bool.true_eq_false, Bool.false_eq_true, or_self, if_false, List.foldl_cons, List.foldl_nil]

/-! ### What stands after a request -/

section
variable (s : State) (u b r : Nat) (c : Cmd) (w : Bool) (x : Ttb)

/-- A request that has left stands behind the departures, and has missed no slot any more. -/
theorem leave_gone (slot : Option Nat) : ((s.leave u b r c w x slot).bank u b).departed
      = (s.bank u b).departed ++ [{ src := c.seq, row := r, x := x, due := slot.map (fun _ => s.now + latency c x.tier w) }]
    ∧ ((s.leave u b r c w x slot).bank u b).missedOf c.seq r x.tile = none := by
  have hbank : (s.leave u b r c w x slot).bank u b = { s.bank u b with
      departed := (s.bank u b).departed ++ [{ src := c.seq, row := r, x := x, due := slot.map (fun _ => s.now + latency c x.tier w) }]
      missed := (s.bank u b).missed.filter (fun m => !(decide (m.src = c.seq) && decide (m.row = r) && decide (m.tile = x.tile))) } := by
    unfold State.leave
    rw [bank_onBank_self]
    cases slot <;> rfl
  rw [hbank]
  refine ⟨rfl, List.find?_eq_none.mpr fun m hm => ?_⟩
  simpa only [Bool.not_eq_true', Bool.not_eq_true] using (List.mem_filter.mp hm).2

theorem stackSt_leave : (s.leave u b r c w x none).stackSt = s.stackSt := rfl

/-- A request that has missed its slot keeps it. -/
theorem missSlot_kept (t : Tensor) (m : Missed) : ((s.missSlot u b t m).bank u b).departed = (s.bank u b).departed
    ∧ ((s.missSlot u b t m).bank u b).missedOf m.src m.row m.tile = some m := by
  unfold State.missSlot
  rw [bank_walk, bank_onBank_self]
  exact ⟨rfl, List.find?_cons_of_pos (by simp)⟩

end

/-- An entry put into a buffer that holds none like it is found there. -/
theorem find_ttbAdd {x : Ttb} {l : List Ttb} {p : Ttb → Bool} (hx : p x = true) (hl : l.find? p = none) : (ttbAdd x l).find? p = some x := by
  have hnone : (l.drop (l.length - 255)).find? p = none :=
    List.find?_eq_none.mpr fun y hy => List.find?_eq_none.mp hl y (List.mem_of_mem_drop hy)
  rw [ttbAdd, List.drop_append_of_le_length (Nat.sub_le _ _), List.find?_append, hnone, Option.none_or, List.find?_cons_of_pos hx]

theorem look_setTtb (s : State) (u l0 n : Nat) (l : List Ttb) : (s.setCore u { s.core u with ttb := l }).look u l0 n
    = l.find? (fun y => decide (y.tid = l0) && decide (y.tile = n)) := by
  unfold State.look; rw [core_setCore_self]

/-- The walk fills the buffer with the frame that it finds, as the youngest entry. -/
theorem walk_fills {s : State} {u n A B F : Nat} {t : Tensor} (ht : t.tiled = true) (h3 : (t.tile n).tier ≠ 3) (hl : s.look u t.id n = none)
    (htr : s.translate t n Pasid.none false = .frame A B F) :
    ∃ x, (s.walk u t n).look u t.id n = some x ∧ x.tier = A ∧ x.stack = B ∧ x.base = F ∧ x.ia = (t.tile n).fbase.toNat * 4096 := by
  have hia : (t.iaNow n).2 = (t.tile n).fbase.toNat * 4096 := by unfold Tensor.iaNow; rw [if_pos ht]; rfl
  have hfill : ∃ x, s.walk u t n = s.setCore u { s.core u with ttb := ttbAdd x (s.core u).ttb } ∧ x.tid = t.id ∧ x.tile = n
      ∧ x.tier = A ∧ x.stack = B ∧ x.base = F ∧ x.ia = (t.tile n).fbase.toNat * 4096 := by
    unfold State.walk
    simp only [ht, hl, h3, htr, Bool.true_eq_false, Option.isSome_none, Bool.false_eq_true, or_self, if_false, hia]
    exact ⟨_, rfl, rfl, rfl, rfl, rfl, rfl, rfl⟩
  obtain ⟨x, hx, htid, htile, hfields⟩ := hfill
  refine ⟨x, ?_, hfields⟩
  have hown : (decide (x.tid = t.id) && decide (x.tile = n)) = true := by simp [htid, htile]
  rw [hx, look_setTtb]
  exact find_ttbAdd (p := fun y => decide (y.tid = t.id) && decide (y.tile = n)) hown hl

/-- Settles O31: each move is the rule of its branch; that a request only ever adds departures is kept by each of them, so by all of a row. -/
theorem tokensLandingsAndDepartures : Obligations.TokensLandingsAndDepartures := by
  unfold Obligations.TokensLandingsAndDepartures
  refine ⟨?push, ?landing, ?only, ?single⟩
  case push =>
    intro u b e s c f n hc hop hb hr hm
    refine ⟨_, exec_next (exec_tokenPush u b e s) (tokenPush_of_room hc hop hb hr hm), fun v hv => core_onBank_other s b _ hv, rfl, ?_⟩
    rw [bank_onBank_self]
    exact ⟨kept_pushed _ _ _ _ _, tokF_pushed_self _ _ _ _ _, fun g hg => tokF_pushed_other _ _ _ _ _ hg, queue_pushed_self _ _ _ _ _,
      fun g hg => queue_pushed_other _ _ _ _ _ hg⟩
  case landing =>
    intro u b s l ls k r w i old hl hf ht hr
    have hland := landed_landNext hl hf ht hr
    refine ⟨_, exec_landing u b s, hland.unit, hland.rest, hland.left, hland.kept, hland.rows, ?_, fun n hn hnw => ?_, hland.vecs, hland.off,
      fun harm he => ?_⟩
    · exact hland.poison
    · exact hland.lanes hn hnw
    · intro sum T A low new
      obtain ⟨hrow, hvec⟩ := hland.on harm
      have hfrom : ∀ p, l.eng.map (fun e => (e, l.epoch)) = some p → p.1 < 6 := fun p hp => by
        obtain ⟨e, hel, rfl⟩ := Option.map_eq_some_iff.mp hp
        exact he e hel
      have hmark : landMark (l.eng.map (fun e => (e, l.epoch))) = low := by
        show _ = (match l.eng with | some e => e * 8192 + l.epoch.toNat | none => 7 * 8192)
        cases l.eng <;> rfl
      have hmerge : landMerge (k.arrVec i).a (l.eng.map (fun e => (e, l.epoch))) = A := by
        show _ = (match l.eng with | some e => merge (k.arrVec i).a e l.epoch | none => (k.arrVec i).a)
        cases l.eng <;> rfl
      have hcount : landCount old w l.n = sum := landCount_eq_min old w l.n
      have hspec := landFields_spec old (w := w) (Nat.mod_lt _ (by decide)) l.n hfrom (armed_bit harm)
      simp only [hcount, hmark] at hspec
      obtain ⟨hf0, hf1, hf2, hkept, harmed, hovf, hlow⟩ := hspec
      have hnew : new = setArr old w (landFields old w l.n (l.eng.map (fun e => (e, l.epoch)))) := hrow
      rw [hnew]
      refine ⟨hf0, hf1, hf2, hkept, harmed, hovf, hlow, ?_⟩
      refine hvec.trans ((landVec_eq (k.arrVec i) old w _ _).trans ?_)
      rw [hmerge, hcount]
      rfl
  case only =>
    intro u b src r s i hi
    have hdep : ∀ retry, ∃ t ds, Host.Outcome.next (s.depart u b src r retry) = (.next t : Out) ∧ OnlyUnit s t u
        ∧ { t with units := s.units, stackSt := s.stackSt } = s ∧ (t.core u).pad = (s.core u).pad
        ∧ { t.bank u b with departed := (s.bank u b).departed, missed := (s.bank u b).missed } = s.bank u b
        ∧ (t.bank u b).departed = (s.bank u b).departed ++ ds ∧ ∀ d ∈ ds, d.src = src ∧ d.row = r := fun retry => by
      have h := departsOnly_depart s u b src r retry
      obtain ⟨ds, hds, hall⟩ := h.added
      exact ⟨_, ds, rfl, h.unit, h.rest, h.pad, h.bank, hds, hall⟩
    rcases List.mem_pair.mp hi with rfl | rfl
    · exact hdep false
    · exact hdep true
  case single =>
    intro u b src r e n s c y offs w k T S fr gone hc hfresh hm hu
    obtain rfl : c.seq = src := findCmd_seq hc
    have htarget : s.target u y n = (T, S) := by
      show s.target u y n = (match s.look u y.id n with | some x => x.tier | none => if y.tiled then (y.tile n).tier.toNat else 2,
        match s.look u y.id n with | some x => x.stack | none => if y.tiled then (y.tile n).stack.toNat else y.tbase / 2 ^ 36 % 32)
      unfold State.target
      cases s.look u y.id n with
      | some x => rfl
      | none => cases y.tiled <;> rfl
    have howns : ∀ v, s.ownsSlot u T S = v → s.ownsSlot u (s.target u y n).1 (s.target u y n).2 = v := fun v h => by rw [htarget]; exact h
    have hdep : ∀ retry, s.depart u b c.seq r retry = s.request u b e r c retry (y, n, offs, w) := fun retry => depart_single retry hc hfresh hm hu
    have hrequest : ∀ {v}, s.request u b e r c false (y, n, offs, w) = v → exec (.requestDepart u b c.seq r) s = .next v :=
      fun hv => exec_next (exec_requestDepart u b c.seq r s) ((hdep false).trans hv)
    have hretry : ∀ {v}, s.request u b e r c true (y, n, offs, w) = v → exec (.slotMissRetry u b c.seq r) s = .next v :=
      fun hv => exec_next (exec_slotMissRetry u b c.seq r s) ((hdep true).trans hv)
    have hmoves : ∀ i ∈ [Instr.requestDepart u b c.seq r, Instr.slotMissRetry u b c.seq r], ∀ {v},
        (∀ retry, s.request u b e r c retry (y, n, offs, w) = v) → exec i s = .next v := fun i hi v hv => by
      rcases List.mem_pair.mp hi with rfl | rfl
      · exact hrequest (hv false)
      · exact hretry (hv true)
    have hT : (s.target u y n).1 = T := congrArg Prod.fst htarget
    have hS : (s.target u y n).2 = S := congrArg Prod.snd htarget
    refine ⟨fun ho i hi => ⟨fun x hx => ?departs, fun A B F hn ht h3 hl htr => ?walks⟩, fun ho hmiss hearly q hq => ?slotted, fun ho hmiss => ?waits,
      fun ho m hmiss => ?missed⟩
    case departs =>
      obtain ⟨hd, hm⟩ := leave_gone s u b r c w x none
      exact ⟨_, hmoves i hi fun retry => request_shared (howns false ho) hx, ⟨hd, hm⟩, stackSt_leave s u b r c w x⟩
    case walks =>
      obtain ⟨x, hx, hfields⟩ := walk_fills ht h3 hl htr
      exact ⟨_, x, hmoves i hi fun retry => request_walks (howns false ho) hn, bank_walk s u b y n, hx, hfields⟩
    case slotted =>
      have hslot : s.slotFor u b e r c false y n = some q := by
        rw [slotFor_of_free hmiss (by rw [htarget]; exact hearly), hT, hS]; exact hq
      refine ⟨fun x hx => ?_, fun hn => ?_⟩
      · exact ⟨_, hrequest (request_slotted (howns true ho) hslot hx), leave_gone s u b r c w x (some q)⟩
      · have hkept := missSlot_kept s u b y
          { src := c.seq, row := r, tile := n, tier := (s.target u y n).1, stack := (s.target u y n).2, slot := q, at_ := s.now }
        refine ⟨_, hrequest (request_missed (howns true ho) hslot hn), hkept.1, hkept.2.trans ?_⟩
        rw [hT, hS]
    case waits =>
      refine ⟨fun hwait => hrequest (request_waits (howns true ho) ?_), hretry (request_waits (howns true ho) (slotFor_retry_of_not_missed hmiss))⟩
      cases hearly : s.earlierLeaves u b e c r (s.target u y n) with
      | true => exact slotFor_of_earlier hmiss hearly
      | false =>
        rw [slotFor_of_free hmiss hearly, hT, hS]
        exact hwait.resolve_left fun h => Bool.false_ne_true (hearly.symm.trans ((congrArg _ htarget).trans h))
    case missed =>
      refine ⟨hrequest (request_waits (howns true ho) ((slotFor_of_missed hmiss).trans (if_neg (by simp)))), fun hat hin x hx => ?_, fun hnot => ?_⟩
      · have hslot : s.slotFor u b e r c true y n = some m.slot :=
          (slotFor_of_missed hmiss).trans (if_pos ⟨rfl, hat, by rw [hT]; exact hin⟩)
        exact ⟨_, hretry (request_slotted (howns true ho) hslot hx), leave_gone s u b r c w x (some m.slot)⟩
      · refine hretry (request_waits (howns true ho) ((slotFor_of_missed hmiss).trans (if_neg ?_)))
        rintro ⟨-, hat, hin⟩
        rw [hT] at hin
        exact hnot.elim (Nat.not_le.mpr hat) (fun h => h hin)

end Sys2Proof.Machine
end

section
/-!
PROOF. The fault range batcher: misses, flushes, deliveries and replies (08 R211, 12 R297 to R299).
-/

namespace Sys2Proof.Machine

open Sys2Proof.Safety Sys2Proof.Spec

/-! ### Dies and partitions -/

@[simp] theorem die_onDie_self (s : State) (d : Nat) (F : Die → Die) : (s.onDie d F).die d = F (s.die d) := get_set_self _ _ _ _

theorem die_onDie_other (s : State) {d x : Nat} (F : Die → Die) (h : x ≠ d) : (s.onDie d F).die x = s.die x := get_set_other _ _ _ h

theorem die_onPart (s : State) (p : Nat) (F : Part → Part) (x : Nat) : (s.onPart p F).die x = s.die x := rfl

theorem die_hostPut (s : State) (a : Nat) (bs : List Byte) (x : Nat) : (s.hostPut a bs).die x = s.die x := rfl

theorem get_onVersion (s : State) (p v q : Nat) (F : Version → Version) :
    get none (s.onVersion p v F).versions q = if q = verKey p v then (get none s.versions q).map F else get none s.versions q := by
  refine (get_set _ _ _ _ _).trans ?_
  by_cases h : q = verKey p v
  · rw [if_pos h, if_pos h, h]
  · rw [if_neg h, if_neg h]

theorem part_onPart_self (s : State) (p : Nat) (F : Part → Part) : (s.onPart p F).part p = (s.part p).map F := get_set_self _ _ _ _

/-! ### The entry that a miss takes (12 R297) -/

theorem joinIn_eq_none {p tid va stage : Nat} (w : Bool) (j : Option Waiter) {l : List Miss} (h : ∀ x ∈ l, x.covers p tid va stage = false) :
    joinIn p tid va stage w j l = none := by
  induction l with
  | nil => rfl
  | cons x l ih =>
    obtain ⟨hx, hl⟩ := List.forall_mem_cons.mp h
    rw [joinIn, hx, if_neg Bool.false_ne_true, ih hl, Option.map_none]

theorem joinIn_of_covers {p tid va stage : Nat} (w : Bool) (j : Option Waiter) {pre : List Miss} {x : Miss} (post : List Miss)
    (hpre : ∀ z ∈ pre, z.covers p tid va stage = false) (hx : x.covers p tid va stage = true) :
    joinIn p tid va stage w j (pre ++ x :: post) = some (pre ++ x.join w j :: post) := by
  induction pre with
  | nil => rw [List.nil_append, joinIn, if_pos hx, List.nil_append]
  | cons z pre ih =>
    obtain ⟨hz, hpre⟩ := List.forall_mem_cons.mp hpre
    rw [List.cons_append, joinIn, hz, if_neg Bool.false_ne_true, ih hpre, Option.map_some, List.cons_append]

/-- A miss that nothing covers is a new entry. -/
theorem receive_of_new {d : Die} {m : Miss} (now : Nat) (j : Option Waiter)
    (h : ∀ x ∈ d.batch ++ d.out ++ d.unans, x.covers m.part m.tid m.va m.stage = false) : d.receive now m j
      = { d with batch := d.batch ++ [{ m with jobs := j.toList }], timer := if d.batch.isEmpty then now else d.timer } := by
  simp only [List.forall_mem_append] at h
  obtain ⟨⟨hb, ho⟩, hu⟩ := h
  unfold Die.receive
  simp only [joinIn_eq_none m.write j hb, joinIn_eq_none m.write j ho, joinIn_eq_none m.write j hu]

theorem receive_of_covered {d : Die} {m : Miss} (now : Nat) (j : Option Waiter) {pre post : List Miss} {x : Miss} (hd : d.batch = pre ++ x :: post)
    (hpre : ∀ z ∈ pre, z.covers m.part m.tid m.va m.stage = false) (hx : x.covers m.part m.tid m.va m.stage = true) :
    d.receive now m j = { d with batch := pre ++ x.join m.write j :: post } := by
  unfold Die.receive
  simp only [hd, joinIn_of_covers m.write j post hpre hx]

section
variable (s : State) (d : Nat) (t : Tensor) (n : Nat) {stage : Nat} (w : Bool) (j : Option Waiter)

theorem report_units : (s.report d t n stage w j).units = s.units := by
  unfold State.report; split <;> rfl

theorem report_mem : (s.report d t n stage w j).mem = s.mem := by
  unfold State.report; split <;> rfl

/-- A miss that waits for no pending tile goes to its batcher. -/
theorem die_report (h : stage ≠ 4) : (s.report d t n stage w j).die d = (s.die d).receive s.now (t.missEntry n stage w) j := by
  unfold State.report
  rw [if_neg h, die_onDie_self]

theorem die_onBank (u b : Nat) (F : Bank → Bank) (x : Nat) : (s.onBank u b F).die x = s.die x := rfl

end

/-! ### The job and the command that wait (08 R211) -/

/-- A bank whose command `src` of engine `e` is held by a miss; its job waits, unless a fault has stopped it. -/
def Bank.heldFor (k : Bank) (stopped : Prop) [Decidable stopped] (e src : Nat) : Bank :=
  (if stopped then k else k.onJob (fun j => { j with status := .missing })).onCmd e src (fun c => { c with held := true })

/-- From `s` to `t` command `c` of the bank is held by a miss, and its job `j` waits. -/
structure HeldByMiss (s t : State) (u b e : Nat) (c : Cmd) (j : Job) : Prop where
  job    : ∃ j', (t.bank u b).job = some j' ∧ { j' with status := j.status } = j ∧ j'.status = (if j.status = .stopped then .stopped else .missing)
  cmd    : (t.bank u b).cmd e c.seq = some { c with held := true }
  others : ∀ f, f ≠ e → (t.bank u b).queue f = (s.bank u b).queue f
  unit   : OnlyUnit s t u
  mem    : SameMem s t

theorem queue_onCmd_self (k : Bank) (e n : Nat) (F : Cmd → Cmd) : (k.onCmd e n F).queue e = (k.queue e).map (fun c => if c.seq = n then F c else c) :=
  queue_setQueue_self k e _

theorem queue_onCmd_other (k : Bank) {e f : Nat} (n : Nat) (F : Cmd → Cmd) (h : f ≠ e) : (k.onCmd e n F).queue f = k.queue f :=
  queue_setQueue_other k _ h

/-- The command changed is found in its place. -/
theorem cmd_onCmd {k : Bank} {e n : Nat} {c : Cmd} {F : Cmd → Cmd} (hF : ∀ x, (F x).seq = x.seq) (h : k.cmd e n = some c) :
    (k.onCmd e n F).cmd e n = some (F c) := by
  have hseq : ∀ x : Cmd, (if x.seq = n then F x else x).seq = x.seq := fun x => by split <;> simp [hF]
  rw [Bank.cmd, queue_onCmd_self, List.find?_map]
  have hcomp : ((fun c => decide (c.seq = n)) ∘ fun c => if c.seq = n then F c else c) = fun c : Cmd => decide (c.seq = n) :=
    funext fun x => by rw [Function.comp_apply, hseq]
  rw [hcomp, show List.find? _ (k.queue e) = some c from h, Option.map_some, if_pos (seq_of_cmd h)]

theorem heldByMiss_heldFor {s s1 : State} {u b e : Nat} {c : Cmd} {j : Job} (hu : s1.units = s.units) (hm : s1.mem = s.mem)
    (hc : (s.bank u b).cmd e c.seq = some c) (hj : (s.bank u b).job = some j) :
    HeldByMiss s (s1.onBank u b (fun k => k.heldFor (j.status = .stopped) e c.seq)) u b e c j := by
  have hcore : ∀ v, s1.core v = s.core v := fun v => by rw [State.core, hu]; rfl
  have hbank : s1.bank u b = s.bank u b := by rw [State.bank, hcore]; rfl
  constructor
  · rw [bank_onBank_self, hbank]
    unfold Bank.heldFor
    by_cases hs : j.status = .stopped
    · exact ⟨j, by rw [if_pos hs]; exact hj, rfl, by rw [if_pos hs, hs]⟩
    · refine ⟨{ j with status := .missing }, ?_, rfl, by rw [if_neg hs]⟩
      rw [if_neg hs]
      exact (congrArg (Option.map _) hj)
  · rw [bank_onBank_self, hbank]
    exact cmd_onCmd (fun _ => rfl) (by split <;> exact hc)
  · intro f hf
    rw [bank_onBank_self, hbank]
    refine (queue_onCmd_other _ _ _ hf).trans ?_
    split <;> rfl
  · exact fun v hv => (core_onBank_other s1 b _ hv).trans (hcore v)
  · exact fun x => congrArg (rdByte · x) hm

section
variable {s : State} {u b e src r : Nat} {c : Cmd} {j : Job} {tid n stage own : Nat} {w : Bool} {y : Tensor}
  (hc : (s.bank u b).cmd e src = some c) (hj : (s.bank u b).job = some j) (hp : s.mayPerform u b e c = true)

include hc hj in
theorem rangeMiss_of_full (hf : 64 ≤ (s.die (dieOf u)).batch.length) : s.rangeMiss u b e src r = s := by
  unfold State.rangeMiss
  simp only [hc, hj]
  exact if_pos (.inr (decide_eq_true hf))

include hc hj hp in
/-- The miss of a command that may be performed is reported where the batch has room. -/
theorem rangeMiss_of_room (hm : s.missOf u b e r c = some (tid, n, stage, w, own)) (hy : s.tensor tid = some y)
    (hf : (s.die (dieOf u)).batch.length < 64) : s.rangeMiss u b e src r
      = (s.report (dieOf u) y n stage w (some { u := u, b := b, e := e, src := some src, own := own })).onBank u b
        (fun k => k.heldFor (j.status = .stopped) e src) := by
  have hroom : ¬ (s.mayPerform u b e c = false ∨ (s.die (batcherOf u)).full = true) := by
    rintro (h | h)
    · exact Bool.false_ne_true (h.symm.trans hp)
    · exact absurd (of_decide_eq_true h) (Nat.not_le.mpr hf)
  unfold State.rangeMiss
  simp only [hc, hj, hm, hy]
  exact if_neg hroom

end

/-! ### Entries merged into records (12 R297) -/

theorem sortBy_eq_insertionSort {α : Type} (le : α → α → Bool) (l : List α) : sortBy le l = l.insertionSort (fun a b => le a b = true) := by
  have hinsert : ∀ (x : α) (l : List α), insertBy le x l = l.orderedInsert (fun a b => le a b = true) x := by
    intro x l
    induction l with
    | nil => rfl
    | cons y l ih => rw [insertBy, List.orderedInsert_cons, ih]
  induction l with
  | nil => rfl
  | cons x l ih => rw [sortBy, List.insertionSort_cons, ih, hinsert]

/-- The entries of a batch in ascending address. -/
def sortedByVa (l : List Miss) : List Miss := sortBy (fun a b => decide (a.va ≤ b.va)) l

theorem sortedByVa_perm (l : List Miss) : (sortedByVa l).Perm l := by
  rw [sortedByVa, sortBy_eq_insertionSort]; exact List.perm_insertionSort _ _

theorem sortedByVa_pairwise (l : List Miss) : (sortedByVa l).Pairwise (fun a b => a.va ≤ b.va) := by
  rw [sortedByVa, sortBy_eq_insertionSort]
  simp only [decide_eq_true_eq]
  have : Std.Total (fun a b : Miss => a.va ≤ b.va) := ⟨fun a b => Nat.le_total a.va b.va⟩
  have : IsTrans Miss (fun a b => a.va ≤ b.va) := ⟨fun _ _ _ h h' => Nat.le_trans h h'⟩
  exact List.pairwise_insertionSort _ _

/-- What two records have in common that may become one (12 R297). -/
def Miss.kind (m : Miss) : Nat × Nat × Nat × Nat × Bool × Bool × Bool := (m.part, m.fsz, m.tid, m.stage, m.read, m.write, m.host)

theorem alike_iff (a b : Miss) : a.alike b = true ↔ a.kind = b.kind := by
  simp [Miss.alike, Miss.kind, and_assoc]

theorem fsz_of_kind {a b : Miss} (h : a.kind = b.kind) : a.fsz = b.fsz := congrArg (fun k => k.2.1) h

/-- The address behind the pages of a record. -/
def Miss.stop (m : Miss) : Nat := m.va + m.pages * frameBytes m.fsz

/-- Whether record `r` goes on where `m` ends, and both fit one record. -/
def Miss.Meets (m r : Miss) : Prop := m.kind = r.kind ∧ r.va = m.stop ∧ m.pages + r.pages ≤ 64

/-- Record `m` with record `r` appended. -/
def Miss.append (m r : Miss) : Miss := { m with pages := m.pages + r.pages, jobs := m.jobs ++ r.jobs }

/-- Each entry stands as a record of its own before the records of the rest, or as the start of the first of them. -/
theorem mergeRuns_cons (m : Miss) (ms : List Miss) :
    (mergeRuns (m :: ms) = m :: mergeRuns ms ∧ ∀ r ∈ (mergeRuns ms).head?, ¬ m.Meets r)
    ∨ ∃ r rs, mergeRuns ms = r :: rs ∧ m.Meets r ∧ mergeRuns (m :: ms) = m.append r :: rs := by
  rw [mergeRuns]
  cases hms : mergeRuns ms with
  | nil => exact .inl ⟨rfl, nofun⟩
  | cons r rs =>
    have hmeets : (m.alike r = true ∧ r.va = m.va + m.pages * frameBytes m.fsz ∧ m.pages + r.pages ≤ 64) ↔ m.Meets r := by
      rw [alike_iff]; rfl
    by_cases h : m.Meets r
    · exact .inr ⟨r, rs, rfl, h, if_pos (hmeets.mpr h)⟩
    · refine .inl ⟨if_neg (hmeets.not.mpr h), fun q hq => ?_⟩
      cases hq
      exact h

theorem stop_append {m r : Miss} (h : m.Meets r) : (m.append r).stop = r.stop := by
  obtain ⟨hkind, hva, -⟩ := h
  have happ : (m.append r).stop = m.va + (m.pages + r.pages) * frameBytes m.fsz := rfl
  rw [happ, Miss.stop, hva, Miss.stop, ← fsz_of_kind hkind, Nat.add_mul, Nat.add_assoc]

/-- Merging keeps what the entries sum up to. -/
theorem sum_mergeRuns (f : Miss → Nat) (hf : ∀ m r : Miss, f (m.append r) = f m + f r) (l : List Miss) :
    ((mergeRuns l).map f).sum = (l.map f).sum := by
  induction l with
  | nil => rfl
  | cons m ms ih =>
    rw [List.map_cons, List.sum_cons, ← ih]
    obtain ⟨h, -⟩ | ⟨r, rs, hms, -, h⟩ := mergeRuns_cons m ms
    · rw [h, List.map_cons, List.sum_cons]
    · rw [h, hms, List.map_cons, List.map_cons, List.sum_cons, List.sum_cons, hf, Nat.add_assoc]

theorem length_mergeRuns_le (l : List Miss) : (mergeRuns l).length ≤ l.length := by
  induction l with
  | nil => exact Nat.le_refl 0
  | cons m ms ih =>
    obtain ⟨h, -⟩ | ⟨r, rs, hms, -, h⟩ := mergeRuns_cons m ms
    · rw [h]; exact Nat.succ_le_succ ih
    · rw [h]; rw [hms] at ih; exact Nat.le_succ_of_le ih

/-- Record `r` holds the pages and the waiters of entry `m`. -/
structure Miss.Holds (r m : Miss) : Prop where
  kind : r.kind = m.kind
  low  : r.va ≤ m.va
  high : m.stop ≤ r.stop
  jobs : ∀ j ∈ m.jobs, j ∈ r.jobs

theorem Miss.Holds.refl (m : Miss) : m.Holds m := ⟨rfl, Nat.le_refl _, Nat.le_refl _, fun _ h => h⟩

theorem Miss.Holds.trans {q r m : Miss} (h : q.Holds r) (h' : r.Holds m) : q.Holds m :=
  ⟨h.kind.trans h'.kind, h.low.trans h'.low, h'.high.trans h.high, fun j hj => h.jobs j (h'.jobs j hj)⟩

theorem holds_append_left (m r : Miss) : (m.append r).Holds m :=
  ⟨rfl, Nat.le_refl _, Nat.add_le_add_left (Nat.mul_le_mul_right _ (Nat.le_add_right _ _)) _, fun _ hj => List.mem_append_left _ hj⟩

theorem holds_append_right {m r : Miss} (h : m.Meets r) : (m.append r).Holds r :=
  ⟨h.1, h.2.1 ▸ Nat.le_add_right _ _, (stop_append h).ge, fun _ hj => List.mem_append_right _ hj⟩

/-- Every entry is in a record. -/
theorem exists_holds_mergeRuns {l : List Miss} : ∀ m ∈ l, ∃ r ∈ mergeRuns l, r.Holds m := by
  induction l with
  | nil => exact nofun
  | cons m ms ih =>
    obtain ⟨h, -⟩ | ⟨r, rs, hms, hmeets, h⟩ := mergeRuns_cons m ms <;> rw [h]
    · refine List.forall_mem_cons.mpr ⟨⟨m, List.mem_cons_self, .refl m⟩, fun x hx => ?_⟩
      obtain ⟨q, hq, hhold⟩ := ih x hx
      exact ⟨q, List.mem_cons_of_mem m hq, hhold⟩
    · refine List.forall_mem_cons.mpr ⟨⟨_, List.mem_cons_self, holds_append_left m r⟩, fun x hx => ?_⟩
      obtain ⟨q, hq, hhold⟩ := ih x hx
      rw [hms] at hq
      obtain rfl | hq := List.mem_cons.mp hq
      · exact ⟨_, List.mem_cons_self, (holds_append_right hmeets).trans hhold⟩
      · exact ⟨q, List.mem_cons_of_mem _ hq, hhold⟩

theorem frameBytes_pos (c : Nat) : 0 < frameBytes c := Nat.mul_pos (by decide) (Nat.pow_pos (by decide))

/-- Entry `m` covers page `i` of record `r`. -/
def Miss.CoversPage (m r : Miss) (i : Nat) : Prop :=
  m.kind = r.kind ∧ m.va ≤ r.va + i * frameBytes r.fsz ∧ r.va + i * frameBytes r.fsz < m.stop

/-- Every page of a record is of an entry. -/
theorem exists_coversPage {l : List Miss} : ∀ r ∈ mergeRuns l, ∀ i, i < r.pages → ∃ m ∈ l, m.CoversPage r i := by
  have hself : ∀ (m : Miss) i, i < m.pages → m.CoversPage m i := fun m i hi =>
    ⟨rfl, Nat.le_add_right _ _, Nat.add_lt_add_left (Nat.mul_lt_mul_of_pos_right hi (frameBytes_pos _)) _⟩
  induction l with
  | nil => exact nofun
  | cons m ms ih =>
    have hrest : ∀ r ∈ mergeRuns ms, ∀ i, i < r.pages → ∃ x ∈ m :: ms, x.CoversPage r i := fun r hr i hi => by
      obtain ⟨x, hx, hcov⟩ := ih r hr i hi
      exact ⟨x, List.mem_cons_of_mem m hx, hcov⟩
    obtain ⟨h, -⟩ | ⟨r, rs, hms, hmeets, h⟩ := mergeRuns_cons m ms <;> rw [h]
    · exact List.forall_mem_cons.mpr ⟨fun i hi => ⟨m, List.mem_cons_self, hself m i hi⟩, hrest⟩
    · rw [hms] at hrest
      obtain ⟨hfirst, hrest⟩ := List.forall_mem_cons.mp hrest
      refine List.forall_mem_cons.mpr ⟨fun i hi => ?_, hrest⟩
      obtain hlow | hhigh := Nat.lt_or_ge i m.pages
      · exact ⟨m, List.mem_cons_self, hself m i hlow⟩
      · obtain ⟨k, rfl⟩ := Nat.exists_eq_add_of_le hhigh
        obtain ⟨x, hx, hkind, hbounds⟩ := hfirst k (Nat.lt_of_add_lt_add_left hi)
        have haddr : (m.append r).va + (m.pages + k) * frameBytes (m.append r).fsz = r.va + k * frameBytes r.fsz := by
          show m.va + (m.pages + k) * frameBytes m.fsz = _
          rw [hmeets.2.1, Miss.stop, ← fsz_of_kind hmeets.1, Nat.add_mul, Nat.add_assoc]
        exact ⟨x, hx, hkind.trans hmeets.1.symm, by rw [haddr]; exact hbounds⟩

/-- The first record starts with the first entry. -/
theorem va_head_mergeRuns (m : Miss) (ms : List Miss) : ∀ r ∈ (mergeRuns (m :: ms)).head?, r.va = m.va := by
  obtain ⟨h, -⟩ | ⟨r, rs, -, -, h⟩ := mergeRuns_cons m ms <;> rw [h] <;> rintro q ⟨⟩ <;> rfl

/-- Records in ascending address, of which none goes on where the one before it ends. -/
def Miss.Follows (q r : Miss) : Prop := q.va ≤ r.va ∧ ¬ q.Meets r

theorem isChain_mergeRuns {l : List Miss} (hs : l.Pairwise (fun a b => a.va ≤ b.va)) : (mergeRuns l).IsChain Miss.Follows := by
  induction l with
  | nil => exact .nil
  | cons m ms ih =>
    obtain ⟨hm, hms⟩ := List.pairwise_cons.mp hs
    have hchain := ih hms
    obtain ⟨h, hapart⟩ | ⟨r, rs, hrs, hmeets, h⟩ := mergeRuns_cons m ms <;> rw [h, List.isChain_cons]
    · refine ⟨fun q hq => ⟨?_, hapart q hq⟩, hchain⟩
      cases ms with
      | nil => cases hq
      | cons x xs => rw [va_head_mergeRuns x xs q hq]; exact hm x List.mem_cons_self
    · rw [hrs, List.isChain_cons] at hchain
      obtain ⟨hhead, hchain⟩ := hchain
      refine ⟨fun q hq => ?_, hchain⟩
      obtain ⟨hva, hnot⟩ := hhead q hq
      refine ⟨(holds_append_right hmeets).low.trans hva, fun hjoin => hnot ?_⟩
      obtain ⟨hkind, hat, hfit⟩ := hjoin
      exact ⟨hmeets.1.symm.trans hkind, hat.trans (stop_append hmeets), by
        have : (m.append r).pages = m.pages + r.pages := rfl
        omega⟩

/-! ### A flush (12 R297) -/

/-- A record with its number and its batch. -/
def Miss.numbered (m : Miss) (n b : Word) : Miss := { m with seq := n, batch := b }

theorem getElem?_number (n b : Word) (rs : List Miss) (i : Nat) : (number n b rs)[i]?
    = (rs[i]?).map (fun m => m.numbered (n + BitVec.ofNat 32 i) (if i + 1 = rs.length then b ||| 0x80000000 else b)) := by
  induction rs generalizing n i with
  | nil => rfl
  | cons m ms ih =>
    cases i with
    | zero =>
      have hlast : ms.isEmpty = true ↔ 0 + 1 = (m :: ms).length := by rw [List.isEmpty_iff, List.length_cons, ← List.length_eq_zero_iff]; omega
      rw [number, List.getElem?_cons_zero, List.getElem?_cons_zero, Option.map_some, BitVec.add_zero]
      exact congrArg (fun x => some (m.numbered n x)) (if_congr hlast rfl rfl)
    | succ i =>
      have hseq : n + 1 + BitVec.ofNat 32 i = n + BitVec.ofNat 32 (i + 1) := by rw [BitVec.add_assoc, BitVec.ofNat_add, BitVec.add_comm (1 : Word)]; rfl
      rw [number, List.getElem?_cons_succ, List.getElem?_cons_succ, ih, hseq, List.length_cons]
      simp only [Nat.add_right_cancel_iff]

theorem length_number (n b : Word) (rs : List Miss) : (number n b rs).length = rs.length := by
  induction rs generalizing n with
  | nil => rfl
  | cons m ms ih => rw [number, List.length_cons, List.length_cons, ih]

theorem sum_number (f : Miss → Nat) (hf : ∀ (m : Miss) (x y : Word), f (m.numbered x y) = f m) (n b : Word) (rs : List Miss) :
    ((number n b rs).map f).sum = (rs.map f).sum := by
  induction rs generalizing n with
  | nil => rfl
  | cons m ms ih => rw [number, List.map_cons, List.map_cons, List.sum_cons, List.sum_cons, ih]; exact congrArg (· + _) (hf m _ _)

theorem exists_of_getElem?_number {n b : Word} {rs : List Miss} {i : Nat} {m : Miss} (h : (number n b rs)[i]? = some m) :
    ∃ m0, rs[i]? = some m0 ∧ m = m0.numbered (n + BitVec.ofNat 32 i) (if i + 1 = rs.length then b ||| 0x80000000 else b) := by
  rw [getElem?_number] at h
  obtain ⟨m0, h0, h⟩ := Option.map_eq_some_iff.mp h
  exact ⟨m0, h0, h.symm⟩

theorem exists_of_mem_number {n b : Word} {rs : List Miss} {m : Miss} (h : m ∈ number n b rs) : ∃ m0 ∈ rs, ∃ x y, m = m0.numbered x y := by
  obtain ⟨i, hi⟩ := List.mem_iff_getElem?.mp h
  obtain ⟨m0, h0, hm⟩ := exists_of_getElem?_number hi
  exact ⟨m0, List.mem_of_getElem? h0, _, _, hm⟩

theorem exists_mem_number {n b : Word} {rs : List Miss} {m : Miss} (h : m ∈ rs) : ∃ x y, m.numbered x y ∈ number n b rs := by
  obtain ⟨i, hi⟩ := List.mem_iff_getElem?.mp h
  exact ⟨_, _, List.mem_of_getElem? ((getElem?_number n b rs i).trans (congrArg _ hi))⟩

/-- Die `E` is die `D` after a flush of its batch into the records `rs`. -/
structure FlushedInto (D E : Die) (rs : List Miss) : Prop where
  batch   : E.batch = []
  out     : E.out = D.out ++ rs
  unans   : E.unans = D.unans
  seqNo   : E.seqNo = D.seqNo + BitVec.ofNat 32 rs.length
  batchNo : E.batchNo = D.batchNo + 1
  pages   : (rs.map Miss.pages).sum = (D.batch.map Miss.pages).sum
  waiters : (rs.map (fun m => m.jobs.length)).sum = (D.batch.map (fun m => m.jobs.length)).sum
  length  : rs.length ≤ D.batch.length
  holds   : ∀ m ∈ D.batch, ∃ r ∈ rs, r.Holds m
  covers  : ∀ r ∈ rs, ∀ i, i < r.pages → ∃ m ∈ D.batch, m.CoversPage r i
  apart   : ∀ (i : Nat) q r, rs[i]? = some q → rs[i + 1]? = some r → q.Follows r
  numbers : ∀ (i : Nat) m, rs[i]? = some m → m.seq = D.seqNo + BitVec.ofNat 32 i
              ∧ m.batch = (if i + 1 = rs.length then (D.batchNo &&& 0x7FFFFFFF) ||| 0x80000000 else D.batchNo &&& 0x7FFFFFFF)

theorem flushedInto_flush (D : Die) : ∃ rs, FlushedInto D D.flush rs := by
  have hflush : D.flush = { D with
      out := D.out ++ number D.seqNo (D.batchNo &&& 0x7FFFFFFF) (mergeRuns (sortedByVa D.batch)), batch := [], timer := 0
      seqNo := D.seqNo + BitVec.ofNat 32 (mergeRuns (sortedByVa D.batch)).length, batchNo := D.batchNo + 1 } := rfl
  have hperm := sortedByVa_perm D.batch
  have hchain := isChain_mergeRuns (sortedByVa_pairwise D.batch)
  generalize hl : sortedByVa D.batch = l at hflush hperm hchain
  have hsum : ∀ f : Miss → Nat, (∀ m r : Miss, f (m.append r) = f m + f r) → (∀ (m : Miss) (x y : Word), f (m.numbered x y) = f m) →
      ((number D.seqNo (D.batchNo &&& 0x7FFFFFFF) (mergeRuns l)).map f).sum = (D.batch.map f).sum := fun f happ hnum => by
    rw [sum_number f hnum, sum_mergeRuns f happ]
    exact (hperm.map f).sum_eq
  refine ⟨number D.seqNo (D.batchNo &&& 0x7FFFFFFF) (mergeRuns l), ?_⟩
  rw [hflush]
  refine ⟨rfl, rfl, rfl, by rw [length_number], rfl, hsum _ (fun _ _ => rfl) (fun _ _ _ => rfl), hsum _ (fun _ _ => List.length_append) (fun _ _ _ => rfl),
    ?_, fun m hm => ?_, fun r hr i hi => ?_, fun i q r hq hr => ?_, fun i m hm => ?_⟩
  · rw [length_number]
    exact (length_mergeRuns_le l).trans hperm.length_eq.le
  · obtain ⟨r, hr, hhold⟩ := exists_holds_mergeRuns m (hperm.mem_iff.mpr hm)
    obtain ⟨x, y, hmem⟩ := exists_mem_number (n := D.seqNo) (b := D.batchNo &&& 0x7FFFFFFF) hr
    exact ⟨_, hmem, hhold.kind, hhold.low, hhold.high, hhold.jobs⟩
  · obtain ⟨r0, hr0, x, y, rfl⟩ := exists_of_mem_number hr
    obtain ⟨m, hm, hcov⟩ := exists_coversPage r0 hr0 i hi
    exact ⟨m, hperm.mem_iff.mp hm, hcov⟩
  · obtain ⟨q0, hq0, rfl⟩ := exists_of_getElem?_number hq
    obtain ⟨r0, hr0, rfl⟩ := exists_of_getElem?_number hr
    obtain ⟨hi, hqi⟩ := List.getElem?_eq_some_iff.mp hq0
    obtain ⟨hi', hri⟩ := List.getElem?_eq_some_iff.mp hr0
    have hfollows := hchain.getElem i hi'
    rw [hqi, hri] at hfollows
    exact hfollows
  · obtain ⟨m0, -, rfl⟩ := exists_of_getElem?_number hm
    rw [length_number]
    exact ⟨rfl, rfl⟩

/-! ### A delivery (12 R297, R298) -/

/-- The state in which record `m` has gone to the fault queue of partition `p`. -/
def State.delivered (s : State) (d : Nat) (m : Miss) (p : Part) : State :=
  (((s.hostPut (p.cfg.faultQBase + 32 * (p.fqTail % p.cfg.faultQSize)) (s.missBytes d m)).onPart m.queue (fun p => { p with fqTail := p.fqTail + 1 })).onDie d
    (fun x => { x with out := x.out.erase m, unans := x.unans ++ [m] }))

theorem die_delivered (s : State) (d : Nat) (m : Miss) (p : Part) :
    (s.delivered d m p).die d = { s.die d with out := (s.die d).out.erase m, unans := (s.die d).unans ++ [m] } := by
  unfold State.delivered
  rw [die_onDie_self, die_onPart, die_hostPut]

theorem part_delivered (s : State) (d : Nat) (m : Miss) (p : Part) :
    (s.delivered d m p).part m.queue = (s.part m.queue).map (fun p => { p with fqTail := p.fqTail + 1 }) := part_onPart_self _ _ _

theorem mem_delivered (s : State) (d : Nat) (m : Miss) (p : Part) : (s.delivered d m p).mem
    = wrBytes s.mem (hostAddr (p.cfg.faultQBase + 32 * (p.fqTail % p.cfg.faultQSize))) (s.missBytes d m) := rfl

theorem recordFits_iff (s : State) (m : Miss) : s.recordFits m = true ↔ ∃ p, s.part m.queue = some p ∧ p.fqTail - p.fqHead < p.cfg.faultQSize := by
  unfold State.recordFits
  cases s.part m.queue with
  | none => simp
  | some p => simp

section
variable {s : State} {d : Nat} {pre ms : List Miss} {m : Miss} {p : Part}
  (hout : (s.die d).out = pre ++ m :: ms) (hpre : ∀ x ∈ pre, s.recordFits x = false) (hp : s.part m.queue = some p)
  (hroom : p.fqTail - p.fqHead < p.cfg.faultQSize)
include hout hpre hp hroom

/-- The first record whose queue has room is delivered. -/
theorem recordDeliver_of_fits : s.recordDeliver d = s.delivered d m p := by
  have hfits : s.recordFits m = true := (recordFits_iff s m).mpr ⟨p, hp, hroom⟩
  have hfind : (s.die d).out.find? s.recordFits = some m := by
    rw [hout, List.find?_append, List.find?_eq_none.mpr (fun x hx => Bool.eq_false_iff.mp (hpre x hx)), Option.none_or, List.find?_cons_of_pos hfits]
  unfold State.recordDeliver State.delivered
  simp only [hfind, hp]

theorem erase_delivered : (s.die d).out.erase m = pre ++ ms := by
  have hnot : m ∉ pre := fun hm => Bool.false_ne_true ((hpre m hm).symm.trans ((recordFits_iff s m).mpr ⟨p, hp, hroom⟩))
  rw [hout, List.erase_append_right _ hnot, List.erase_cons_head]

end

/-- A field of bytes that have been written. -/
theorem field_wrBytes (m : List Host.Cell) (a : Nat) {bs : List Byte} {lo n : Nat} (h : lo + n ≤ bs.length) :
    leNat (rdBytes (wrBytes m a bs) (a + lo) n) = leAt bs lo n := by
  rw [← leAt_rdBytes _ a bs.length lo n h, rdBytes_wrBytes_same]

/-- A byte that has been written as part of a record. -/
theorem byte_wrBytes (m : List Host.Cell) (a : Nat) {bs : List Byte} {lo : Nat} (h : lo + 1 ≤ bs.length) :
    (rdByte (wrBytes m a bs) (a + lo)).toNat = leAt bs lo 1 := by
  rw [← field_wrBytes m a h]; simp [rdBytes, leNat]

theorem length_missBytes (s : State) (d : Nat) (m : Miss) : (s.missBytes d m).length = 32 := by
  simp [State.missBytes, length_leBytes]

/-- The access byte of a record (12 R298). -/
def Miss.access (m : Miss) : Nat := (if m.read then 1 else 0) + (if m.write then 2 else 0) + (if m.stage = 2 then 4 else 0) + (if m.host then 8 else 0)

theorem access_lt (m : Miss) : m.access < 256 := by
  unfold Miss.access
  split <;> split <;> split <;> split <;> decide

theorem fields_missBytes (s : State) (d : Nat) (m : Miss) : let bs := s.missBytes d m
    leAt bs 0 8 = m.va % 2 ^ 64 ∧ leAt bs 8 4 = m.pages % 2 ^ 32 ∧ leAt bs 12 1 = m.fsz % 2 ^ 8 ∧ leAt bs 13 1 = m.access
    ∧ leAt bs 14 2 = (m.jobs.map (fun j => (j.u, j.b))).eraseDups.length % 2 ^ 16 ∧ leAt bs 16 3 = m.tid % 2 ^ 24 ∧ leAt bs 19 1 = 0
    ∧ leAt bs 20 4 = m.seq.toNat ∧ leAt bs 24 2 = s.fnOf m.part % 2 ^ 16 ∧ leAt bs 26 1 = d % 2 ^ 8 ∧ leAt bs 27 1 = 0
    ∧ leAt bs 28 4 = m.batch.toNat := by
  have hbytes : s.missBytes d m = leBytes 8 m.va ++ leBytes 4 m.pages ++ leBytes 1 m.fsz ++ leBytes 1 m.access
      ++ leBytes 2 ((m.jobs.map (fun j => (j.u, j.b))).eraseDups).length ++ leBytes 3 m.tid ++ leBytes 1 0
      ++ leBytes 4 m.seq.toNat ++ leBytes 2 (s.fnOf m.part) ++ leBytes 1 d ++ leBytes 1 0 ++ leBytes 4 m.batch.toNat := rfl
  simp [hbytes, leAt_skip, leAt_head, leAt_leBytes, length_leBytes, m.seq.isLt, m.batch.isLt, Nat.mod_eq_of_lt (access_lt m)]

/-- The record in memory, field by field (12 R298). -/
theorem record_of_written {s t : State} {d a : Nat} {m : Miss} (h : t.mem = wrBytes s.mem a (s.missBytes d m)) :
    OnlyBytes s t a 32 ∧ leNat (rdBytes t.mem a 8) = m.va % 2 ^ 64 ∧ leNat (rdBytes t.mem (a + 8) 4) = m.pages % 2 ^ 32
    ∧ leNat (rdBytes t.mem (a + 12) 1) = m.fsz % 2 ^ 8 ∧ leNat (rdBytes t.mem (a + 13) 1) = m.access
    ∧ leNat (rdBytes t.mem (a + 16) 3) = m.tid % 2 ^ 24 ∧ rdByte t.mem (a + 19) = 0 ∧ leNat (rdBytes t.mem (a + 26) 1) = d % 2 ^ 8
    ∧ rdByte t.mem (a + 27) = 0 ∧ leNat (rdBytes t.mem (a + 14) 2) = (m.jobs.map (fun j => (j.u, j.b))).eraseDups.length % 2 ^ 16
    ∧ leNat (rdBytes t.mem (a + 24) 2) = s.fnOf m.part % 2 ^ 16 ∧ leNat (rdBytes t.mem (a + 20) 4) = m.seq.toNat
    ∧ leNat (rdBytes t.mem (a + 28) 4) = m.batch.toNat := by
  have hlen := length_missBytes s d m
  obtain ⟨h0, h8, h12, h13, h14, h16, h19, h20, h24, h26, h27, h28⟩ := fields_missBytes s d m
  unfold OnlyBytes
  rw [h]
  generalize s.missBytes d m = bs at *
  have hfield : ∀ {lo n v}, lo + n ≤ 32 → leAt bs lo n = v → leNat (rdBytes (wrBytes s.mem a bs) (a + lo) n) = v :=
    fun hle h => (field_wrBytes s.mem a (hle.trans_eq hlen.symm)).trans h
  have hzero : ∀ {lo}, lo + 1 ≤ 32 → leAt bs lo 1 = 0 → rdByte (wrBytes s.mem a bs) (a + lo) = 0 :=
    fun hle h => BitVec.eq_of_toNat_eq ((byte_wrBytes s.mem a (hle.trans_eq hlen.symm)).trans h)
  exact ⟨fun x hx => rdByte_wrBytes_out s.mem a x _ (by rw [hlen]; exact hx), hfield (lo := 0) (by decide) h0, hfield (by decide) h8,
    hfield (by decide) h12, hfield (by decide) h13, hfield (by decide) h16, hzero (by decide) h19, hfield (by decide) h26,
    hzero (by decide) h27, hfield (by decide) h14, hfield (by decide) h24, hfield (by decide) h20, hfield (by decide) h28⟩

/-! ### Replies (12 R299) -/

theorem rangeReply_of_unknown {s : State} {d : Nat} {n : Word} (st : Byte) (h : ∀ m ∈ (s.die d).unans, m.seq ≠ n) :
    s.rangeReply d n st = { s with errs := { s.errs with replies := s.errs.replies + 1 } } := by
  have hfind : (s.die d).unans.find? (fun m => decide (m.seq = n)) = none := List.find?_eq_none.mpr fun m hm => by simpa using h m hm
  unfold State.rangeReply
  simp only [hfind]

/-- The state in which record `m` of number `n` has been answered; its entry of the fault queue is free. -/
def State.replied (s : State) (d : Nat) (n : Word) (m : Miss) : State :=
  (s.onDie d (fun x => { x with unans := x.unans.filter (fun q => decide (q.seq ≠ n)) })).onPart m.queue (fun p => { p with fqHead := p.fqHead + 1 })

/-- A reply to a record with one waiter. -/
theorem rangeReply_of_waiter {s : State} {d : Nat} {n : Word} {m : Miss} {j : Waiter} (st : Byte)
    (hm : (s.die d).unans.find? (fun m => decide (m.seq = n)) = some m) (hj : m.jobs = [j]) :
    s.rangeReply d n st = if st = 0 then (s.replied d n m).retryJob j else (s.replied d n m).failJob j := by
  unfold State.rangeReply
  simp only [hm, hj]
  rfl

/-- From `s` to `t` record `m` of number `n` has been answered; its entry of the fault queue is free. -/
structure Replied (s t : State) (d : Nat) (n : Word) (m : Miss) : Prop where
  unans : (t.die d).unans = (s.die d).unans.filter (fun q => decide (q.seq ≠ n))
  mem   : SameMem s t
  freed : ∀ p, s.part m.queue = some p → ∃ p', t.part m.queue = some p' ∧ { p' with fqHead := p.fqHead } = p ∧ p'.fqHead = p.fqHead + 1

theorem replied_of_kept {s t : State} {d : Nat} {n : Word} {m : Miss} (h : ∃ us, t = { s.replied d n m with units := us }) : Replied s t d n m := by
  obtain ⟨us, rfl⟩ := h
  have hpart : (s.replied d n m).part m.queue = (s.part m.queue).map (fun p => { p with fqHead := p.fqHead + 1 }) := part_onPart_self _ _ _
  refine ⟨?_, fun _ => rfl, fun p hp => ⟨{ p with fqHead := p.fqHead + 1 }, ?_, rfl, rfl⟩⟩
  · show ((s.replied d n m).die d).unans = _
    unfold State.replied
    rw [die_onPart, die_onDie_self]
  · exact hpart.trans (congrArg _ hp)

/-- A bank whose waiting job is ready again. -/
def Bank.readied (k : Bank) : Bank := k.onJob (fun x => { x with status := if x.status = .missing then .ready else x.status })

section
variable (s : State) (j : Waiter)

theorem retryJob_units : ∃ us, s.retryJob j = { s with units := us } := by
  unfold State.retryJob
  simp only
  split
  · exact ⟨_, rfl⟩
  · obtain ⟨us, h⟩ := settle_units ((s.onBank j.u j.b (fun k => k.again j)).onBank j.u j.b Bank.readied) j.u
    exact ⟨us, h⟩

theorem failJob_units : ∃ us, s.failJob j = { s with units := us } := by
  unfold State.failJob
  simp only
  split
  · exact ⟨s.units, rfl⟩
  · obtain ⟨us, h⟩ := stopJob_units (s.onBank j.u j.b (fun k => k.hold j)) j.u j.b _
    rw [h]
    exact ⟨us, rfl⟩

theorem stillWaits_units (us : Map Core) (u b : Nat) : ({ s with units := us } : State).stillWaits u b = s.stillWaits u b := rfl

theorem stillWaits_retryJob (u b : Nat) : (s.retryJob j).stillWaits u b = s.stillWaits u b := by
  obtain ⟨us, h⟩ := retryJob_units s j
  rw [h, stillWaits_units]

/-- A job goes on after RETRY unless it waits on another record. -/
theorem bank_retryJob : (s.retryJob j).bank j.u j.b
    = if s.stillWaits j.u j.b then (s.bank j.u j.b).again j else ((s.bank j.u j.b).again j).readied := by
  have hstill : (s.onBank j.u j.b (fun k => k.again j)).stillWaits j.u j.b = s.stillWaits j.u j.b := rfl
  unfold State.retryJob
  simp only [hstill]
  split
  · exact bank_onBank_self _ _ _ _
  · rw [bank_settle, bank_onBank_self, bank_onBank_self]; rfl

/-- After FAIL the command is held for good, and its job stops at the address fault. -/
theorem bank_failJob (h : (s.bank j.u j.b).awaits j = true) : ∃ f, (s.failJob j).bank j.u j.b = Bank.stopped f ((s.bank j.u j.b).hold j)
    ∧ f.code = 0x0007 ∧ f.eng = j.e ∧ f.da = BitVec.ofNat 64 j.own := by
  unfold State.failJob
  simp only [h, Bool.true_eq_false, if_false]
  rw [bank_stopJob, bank_onBank_self]
  exact ⟨_, rfl, rfl, rfl, rfl⟩

end

section
variable (k : Bank) (u b e src own : Nat)

theorem fromStart_eq_afresh (o : CmdOp) : fromStart o = o.afresh := by cases o <;> rfl

theorem queue_again : (k.again { u := u, b := b, e := e, src := some src, own := own }).queue e
    = (k.queue e).map (fun c => if c.seq = src then { c with op := fromStart c.op, held := false } else c) := by
  simp only [fromStart_eq_afresh]
  exact queue_onCmd_self k e src _

theorem queue_hold : (k.hold { u := u, b := b, e := e, src := some src, own := own }).queue e
    = (k.queue e).map (fun c => if c.seq = src then { c with held := true, lost := true } else c) := queue_onCmd_self k e src _

theorem departed_again : ∀ d ∈ (k.again { u := u, b := b, e := e, src := some src, own := own }).departed, d.src ≠ src :=
  fun _ hd => of_decide_eq_true (List.mem_filter.mp hd).2

variable {k}

theorem job_readied {j : Job} (h : k.job = some j) (hs : j.status = .missing) : k.readied.job = some { j with status := .ready } := by
  rw [Bank.readied, Bank.onJob, h, Option.map_some, if_pos hs]

/-- A first fault stands in its bank, and the job is stopped. -/
theorem stopped_of_none {j : Job} (f : FaultInfo) (hf : k.fault = none) (hj : k.job = some j) :
    (Bank.stopped f k).fault = some f ∧ (Bank.stopped f k).job = some { j with status := .stopped } ∧ ∀ e, (Bank.stopped f k).queue e = k.queue e := by
  unfold Bank.stopped
  rw [hf]
  exact ⟨rfl, by rw [hj]; rfl, fun _ => rfl⟩

end

/-- Settles O45: a miss by the entry that covers its page or a new one; a flush by induction on the entries in ascending address, of which each stands alone or starts the record behind it; a delivery by the fields of its 32 bytes; a reply by its waiter. -/
theorem missesAreBatchedAndAnswered : Obligations.MissesAreBatchedAndAnswered := by
  unfold Obligations.MissesAreBatchedAndAnswered
  refine ⟨?miss, ?batcher⟩
  case miss =>
    intro u b e src r s c j tid n stage own w y k D me hc hj hp hm hy held
    obtain rfl : c.seq = src := seq_of_cmd hc
    have hmove : D.batch.length < 64 → exec (.faultRangeMiss u b e c.seq r) s = .next ((s.report (dieOf u) y n stage w (some me)).onBank u b
        (fun k => k.heldFor (j.status = .stopped) e c.seq)) := fun hroom =>
      exec_next (exec_faultRangeMiss u b e c.seq r s) (rangeMiss_of_room hc hj hp hm hy hroom)
    have hreported : held ((s.report (dieOf u) y n stage w (some me)).onBank u b (fun k => k.heldFor (j.status = .stopped) e c.seq)) :=
by
      have h := heldByMiss_heldFor (s1 := s.report (dieOf u) y n stage w (some me)) (report_units s (dieOf u) y n w (some me)) (report_mem s (dieOf u) y n w (some me)) hc hj
      obtain ⟨j', hjob, hkept, hstatus⟩ := h.job
      exact ⟨j', hjob, hkept, hstatus, h.cmd, h.others, h.unit, h.mem⟩
    refine ⟨fun hf => ?full, fun hroom h4 hnew => ?new, fun pre x post hroom h4 hd hpre hx => ?joins, fun hroom h4 => ?pending⟩
    case full => exact exec_next (exec_faultRangeMiss u b e c.seq r s) (rangeMiss_of_full hc hj hf)
    case new =>
      have hreceive := receive_of_new (m := y.missEntry n stage w) s.now (some me) hnew
      refine ⟨_, { y.missEntry n stage w with jobs := [me] }, hmove hroom, hreported, ?_⟩
      rw [die_onBank, die_report _ _ _ _ _ _ h4, hreceive]
      exact ⟨rfl, if_congr List.isEmpty_iff rfl rfl, rfl, rfl, rfl, rfl, rfl, rfl, rfl, rfl, rfl, rfl, rfl, rfl⟩
    case joins =>
      have hreceive := receive_of_covered (m := y.missEntry n stage w) s.now (some me) hd hpre hx
      refine ⟨_, hmove hroom, hreported, ?_⟩
      rw [die_onBank, die_report _ _ _ _ _ _ h4, hreceive]
      rfl
    case pending =>
      refine ⟨_, hmove hroom, hreported, ?_⟩
      rw [show s.report (dieOf u) y n stage w (some me) = _ from if_pos h4]
      exact ⟨rfl, fun p => get_onVersion s _ _ p _⟩
  case batcher =>
    intro d s D pages kind waiters flushed
    have hflushed : flushed (s.onDie d Die.flush) := by
      obtain ⟨rs, h⟩ := flushedInto_flush D
      refine ⟨rs, rfl, fun x hx => die_onDie_other s _ hx, ?_⟩
      rw [die_onDie_self]
      refine ⟨h.batch, h.out, h.unans, h.seqNo, h.batchNo, h.pages, h.waiters, h.length, fun m hm => ?_, h.covers, fun i q r hq hr => ?_, h.numbers⟩
      · obtain ⟨r, hr, hhold⟩ := h.holds m hm
        exact ⟨r, hr, hhold.kind, hhold.low, hhold.high, hhold.jobs⟩
      · exact h.apart i q r hq hr
    refine ⟨fun hf => ?full, fun hn => ?notFull, fun hb ht => ?timer, fun hn => ?notTimer, fun pre m ms p hout hpre hp hroom => ?deliver,
      fun n st hn => ?unknown, fun n st m u b e src own j hm hjobs hj hs hb hf => ?answer⟩
    case full => exact ⟨_, exec_next (exec_batchFullFlush d s) (if_pos hf), hflushed⟩
    case notFull => exact exec_next (exec_batchFullFlush d s) (if_neg (Nat.not_le.mpr hn))
    case timer => exact ⟨_, exec_next (exec_batchTimerFlush d s) (if_pos ⟨hb, ht⟩), hflushed⟩
    case notTimer =>
      refine exec_next (exec_batchTimerFlush d s) (if_neg ?_)
      rintro ⟨hb, ht⟩
      exact hn.elim hb (fun h => Nat.not_lt.mpr ht h)
    case deliver =>
      have hpre' : ∀ x ∈ pre, s.recordFits x = false := fun x hx => by
        rw [← Bool.not_eq_true, recordFits_iff]
        rintro ⟨q, hq, hlt⟩
        exact Nat.not_lt.mpr (hpre x hx q hq) hlt
      have hmove : exec (.faultRecordDeliver d) s = .next (s.delivered d m p) :=
        exec_next (exec_faultRecordDeliver d s) (recordDeliver_of_fits hout hpre' hp hroom)
      refine ⟨_, { p with fqTail := p.fqTail + 1 }, hmove, ?_, ?_, (part_delivered s d m p).trans (congrArg _ hp), rfl,
        record_of_written (mem_delivered s d m p)⟩ <;> rw [die_delivered]
      exact erase_delivered hout hpre' hp hroom
    case unknown => exact ⟨_, exec_next (exec_rangeReply d n st s) (rangeReply_of_unknown st hn), rfl, rfl⟩
    case answer =>
      intro freed
      have hmove := rangeReply_of_waiter st hm hjobs
      have hbank : (s.replied d n m).bank u b = s.bank u b := rfl
      refine ⟨fun hst => ?_, fun hst hcmd => ?_⟩
      · rw [if_pos hst] at hmove
        have hreplied := replied_of_kept (retryJob_units (s.replied d n m) { u := u, b := b, e := e, src := some src, own := own })
        have hafter := bank_retryJob (s.replied d n m) { u := u, b := b, e := e, src := some src, own := own }
        have hstill := stillWaits_retryJob (s.replied d n m) { u := u, b := b, e := e, src := some src, own := own } u b
        refine ⟨_, exec_next (exec_rangeReply d n st s) hmove, hreplied.unans, hreplied.mem, hreplied.freed, ?_, ?_, fun hnot => ?_⟩
        · rw [hafter]
          refine Eq.trans ?_ (queue_again (s.bank u b) u b e src own)
          split <;> rfl
        · rw [hafter]
          split
          · exact departed_again (s.bank u b) u b e src own
          · exact departed_again (s.bank u b) u b e src own
        · rw [hafter, if_neg (Bool.eq_false_iff.mp (hstill.symm.trans hnot))]
          exact job_readied hj hs
      · rw [if_neg hst] at hmove
        have hreplied := replied_of_kept (failJob_units (s.replied d n m) { u := u, b := b, e := e, src := some src, own := own })
        have hawaits : ((s.replied d n m).bank u b).awaits { u := u, b := b, e := e, src := some src, own := own } = true :=
          Option.isSome_iff_ne_none.mpr hcmd
        obtain ⟨f, hafter, hcode, heng, hda⟩ := bank_failJob (s.replied d n m) { u := u, b := b, e := e, src := some src, own := own } hawaits
        obtain ⟨hfault, hjob, hqueue⟩ := stopped_of_none (k := (s.bank u b).hold { u := u, b := b, e := e, src := some src, own := own }) f hf hj
        rw [← hbank, ← hafter] at hfault hjob hqueue
        exact ⟨_, f, exec_next (exec_rangeReply d n st s) hmove, hreplied.unans, hreplied.mem, hreplied.freed, (hqueue e).trans (queue_hold (s.bank u b) u b e src own), hfault, hcode, heng,
          hda, hjob⟩

end Sys2Proof.Machine
end

section
/-!
PROOF. Waits that end in a fault, the state put back, and the fault frame (08 R208 to R213; 17 R366).
-/

namespace Sys2Proof.Machine

open Sys2Proof.Safety Sys2Proof.Spec

/-! ### Waits that end in a fault (08 R208, R209) -/

section
variable {s : State} {u b : Nat}

/-- The first fault of a bank stops its job and changes nothing else. -/
theorem stoppedBy_stopJob (e code : Nat) (da db : DWord) (dc : Word) (h : (s.bank u b).fault = none) :
    StoppedBy s (s.stopJob u b { code := code, eng := e, precise := true, da := da, db := db, dc := dc }) u b e code da db dc := by
  have hbank := bank_stopJob s u b { code := code, eng := e, precise := true, da := da, db := db, dc := dc }
  rw [Bank.stopped, h] at hbank
  obtain ⟨us, hunits⟩ := stopJob_units s u b { code := code, eng := e, precise := true, da := da, db := db, dc := dc }
  constructor
  · exact ⟨s.cycleOf u, by rw [hbank]⟩
  · intro j hj
    rw [hbank] at hj
    obtain ⟨j0, -, rfl⟩ := Option.map_eq_some_iff.mp hj
    rfl
  · rw [hbank]
  · rw [hunits]
  · intro v hv
    unfold State.stopJob
    rw [core_yieldBank_other _ _ hv, core_onBank_other _ _ _ hv]
  · unfold State.stopJob
    obtain ⟨n, hn⟩ := core_yieldBank_self (s.onBank u b (Bank.stopped
      { code := code, eng := e, precise := true, da := da, db := db, dc := dc, cyc := s.cycleOf u })) u b
    rw [hn, core_onBank_self, Core.setBank_pad]
  · exact fun a => by rw [hunits]

theorem somes_eq_nil {α : Type} {m : Map (Option α)} (h : ∀ p ∈ m, p.2 = none) : somes m = [] := by
  refine List.filterMap_eq_nil_iff.mpr fun p hp => ?_
  rw [h p hp, Option.map_none]

/-- A job whose streams are all joined or in a core-local wait, and in whose bank nothing is left that could end one, stops at the first that waits. -/
theorem waitForever_stops {j : Job} {e c o : Nat} {pre post : List Nat} (hj : (s.bank u b).job = some j) (hs : j.status = .ready)
    (hwait : ∀ g ∈ j.engines, ((s.bank u b).stream g).phase = .joined ∨ s.localWait u b g ≠ none) (hheld : ∀ g, g < 6 → s.onlyHeld u b g = true)
    (hnest : ∀ p ∈ (s.bank u b).nests, p.2 = none) (hland : (s.bank u b).landings = [])
    (hall : (s.bank u b).allAt = none ∨ (∃ p ∈ (s.bank u b).tok, p.2.toks ≠ []) ∨ ∃ p ∈ (s.bank u b).cmds, p.2 ≠ [])
    (hsplit : j.engines = pre ++ e :: post) (hpre : ∀ g ∈ pre, s.localWait u b g = none) (he : s.localWait u b e = some (c, o)) :
    s.waitForever u b = s.stopJob u b { code := 0x000D, eng := e, precise := true, da := BitVec.ofNat 64 o, db := BitVec.ofNat 64 c } := by
  have hwaits : j.engines.filterMap (fun e => (s.localWait u b e).map (fun w => (e, w)))
      = (e, c, o) :: post.filterMap (fun e => (s.localWait u b e).map (fun w => (e, w))) := by
    rw [hsplit, List.filterMap_append, List.filterMap_eq_nil_iff.mpr (fun g hg => by rw [hpre g hg, Option.map_none]), List.nil_append,
      List.filterMap_cons_some (by rw [he, Option.map_some])]
  have hphases : j.engines.all (fun e => decide (((s.bank u b).stream e).phase = .joined) || (s.localWait u b e).isSome) = true :=
    List.all_eq_true.mpr fun g hg => by
      rw [Bool.or_eq_true, decide_eq_true_eq, Option.isSome_iff_ne_none]; exact hwait g hg
  have honly : (List.range 6).all (s.onlyHeld u b) = true := List.all_eq_true.mpr fun g hg => hheld g (List.mem_range.mp hg)
  have hmore : ¬ ((s.bank u b).allAt.isSome ∧ (s.bank u b).tok.all (fun p => p.2.toks.isEmpty) = true
      ∧ (s.bank u b).cmds.all (fun p => p.2.isEmpty) = true) := by
    rintro ⟨hat, htok, hcmd⟩
    rcases hall with h | ⟨p, hp, h⟩ | ⟨p, hp, h⟩
    · rw [h] at hat; cases hat
    · exact h (List.isEmpty_iff.mp (List.all_eq_true.mp htok p hp))
    · exact h (List.isEmpty_iff.mp (List.all_eq_true.mp hcmd p hp))
  unfold State.waitForever
  simp only [hj, hwaits]
  refine if_neg ?_
  rintro (h | h | h | h | h | h)
  · exact h hs
  · rw [hphases] at h; cases h
  · rw [honly] at h; cases h
  · rw [somes_eq_nil hnest] at h; cases h
  · rw [hland] at h; cases h
  · exact hmore h

end

section
variable {s : State} {u b e o : Nat} {j : Job}

theorem ready_of_status (hj : (s.bank u b).job = some j) (hs : j.status = .ready) : (s.bank u b).ready = true := by
  unfold Bank.ready
  rw [hj]
  exact decide_eq_true hs

theorem expired_iff (k : Bank) (e : Nat) : k.expired e = true ↔ k.csr.waitlim ≠ 0 ∧ k.csr.waitlim.toNat ≤ (k.stream e).waited := by
  unfold Bank.expired
  rw [Bool.and_eq_true, decide_eq_true_eq, decide_eq_true_eq]

theorem waitTimeout_stops (hw : s.remoteWait u b e = some o) (hr : (s.bank u b).ready = true) (hx : (s.bank u b).expired e = true)
    (hp : e ≠ 5 ∨ (s.bank u b).permitWait = false) : s.waitTimeout u b e
      = s.stopJob u b { code := 0x000E, eng := e, precise := true, da := BitVec.ofNat 64 o, db := (s.bank u b).csr.waitlim } := by
  unfold State.waitTimeout
  simp only [hw]
  refine if_neg ?_
  rintro (h | h | ⟨h5, h⟩)
  · rw [hr] at h; cases h
  · rw [hx] at h; cases h
  · exact hp.elim (fun hne => hne h5) (fun hno => Bool.false_ne_true (hno.symm.trans h))

theorem permitTimeout_stops (hw : s.remoteWait u b 5 = some o) (hr : (s.bank u b).ready = true) (hx : (s.bank u b).expired 5 = true)
    (hp : (s.bank u b).permitWait = true) : s.permitTimeout u b
      = s.stopJob u b { code := 0x0015, eng := 5, precise := true, da := BitVec.ofNat 64 o } := by
  unfold State.permitTimeout
  simp only [hw]
  refine if_neg ?_
  rintro (h | h | h)
  · rw [hr] at h; cases h
  · rw [hx] at h; cases h
  · rw [hp] at h; cases h

theorem waitTimeout_early (hw : s.remoteWait u b e = some o) (hx : (s.bank u b).expired e = false) : s.waitTimeout u b e = s := by
  unfold State.waitTimeout
  simp only [hw]
  exact if_pos (.inr (.inl hx))

theorem permitTimeout_early (hw : s.remoteWait u b 5 = some o) (hx : (s.bank u b).expired 5 = false) : s.permitTimeout u b = s := by
  unfold State.permitTimeout
  simp only [hw]
  exact if_pos (.inr (.inl hx))

end

/-! ### The bytes of a frame (08 R212, R213) -/

/-- A field that lies inside the bytes `xs`. -/
theorem leAt_append_left (xs zs : List Byte) {lo n : Nat} (h : lo + n ≤ xs.length) : leAt (xs ++ zs) lo n = leAt xs lo n := by
  rw [leAt, leAt, List.drop_append_of_le_length (by omega), List.take_append_of_le_length (by rw [List.length_drop]; omega)]

theorem length_flatMap_range {w : Nat} {f : Nat → List Byte} (hf : ∀ i, (f i).length = w) (n : Nat) : ((List.range n).flatMap f).length = w * n := by
  simp [List.length_flatMap, hf, Nat.mul_comm]

/-- A field of entry `i` of entries of `w` bytes, whatever stands behind them. -/
theorem leAt_flatMap_range {w : Nat} {f : Nat → List Byte} (hf : ∀ i, (f i).length = w) (zs : List Byte) {n i o len : Nat} (h : i < n)
    (ho : o + len ≤ w) : leAt ((List.range n).flatMap f ++ zs) (w * i + o) len = leAt (f i) o len := by
  induction n generalizing zs with
  | zero => omega
  | succ n ih =>
    rw [List.range_succ, List.flatMap_append, List.append_assoc, List.flatMap_singleton]
    rcases Nat.lt_succ_iff_lt_or_eq.mp h with hi | rfl
    · exact ih _ hi
    · have hlen := length_flatMap_range hf i
      rw [leAt_skip _ _ _ _ (by omega), hlen, Nat.add_sub_cancel_left, leAt_append_left _ _ (by rw [hf]; exact ho)]

theorem record_qEnt (q : QEnt) : q.record = q.addr.toNat + 2 ^ 15 * q.null.toNat := by
  unfold QEnt.record
  cases q.null <;> rfl

theorem record_qEnt_lt (q : QEnt) : q.record < 2 ^ 16 := by
  have haddr := q.addr.isLt
  rw [record_qEnt]
  cases q.null <;> simp <;> omega

theorem length_record (p : Loop) : p.record.length = 16 := by
  simp [Loop.record, length_leBytes]

theorem length_streamRecord (k : Bank) (e : Nat) (t : Stream) : (k.streamRecord e t).length = 64 := by
  unfold Bank.streamRecord
  simp only
  split
  · exact List.length_replicate
  · simp only [List.length_append, length_leBytes, length_record, List.length_replicate]
    rw [length_flatMap_range (w := 1) ?single, length_flatMap_range (w := 2) ?pair]
    case single => intro i; split <;> simp [length_leBytes]
    case pair => intro i; split <;> simp [length_leBytes]

/-- The queue and the epoch of a stream in its record. -/
theorem fields_streamRecord (k : Bank) (e : Nat) {t : Stream} (h : t.phase ≠ .idle) :
    leAt (k.streamRecord e t) 0 2 = t.q0.addr.toNat + 2 ^ 15 * t.q0.null.toNat
    ∧ leAt (k.streamRecord e t) 2 2 = t.q1.addr.toNat + 2 ^ 15 * t.q1.null.toNat
    ∧ leAt (k.streamRecord e t) 4 2 = t.q2.addr.toNat + 2 ^ 15 * t.q2.null.toNat
    ∧ leAt (k.streamRecord e t) 44 2 = t.epoch.toNat := by
  have hq : ∀ q : QEnt, q.record % 256 ^ 2 = q.addr.toNat + 2 ^ 15 * q.null.toNat := fun q =>
    (Nat.mod_eq_of_lt (record_qEnt_lt q)).trans (record_qEnt q)
  have hep : t.epoch.toNat % 256 ^ 2 = t.epoch.toNat := Nat.mod_eq_of_lt (Nat.lt_of_lt_of_le t.epoch.isLt (by decide))
  unfold Bank.streamRecord
  simp only [if_neg h, List.append_assoc]
  refine ⟨?_, ?_, ?_, ?_⟩
  · rw [leAt_head, hq]
  · rw [leAt_skip _ _ _ _ (by rw [length_leBytes]), length_leBytes, leAt_head, hq]
  · rw [leAt_skip _ _ _ _ (by rw [length_leBytes]; decide), length_leBytes, leAt_skip _ _ _ _ (by rw [length_leBytes]), length_leBytes, leAt_head, hq]
  · simp only [leAt_skip, length_leBytes, length_record, Nat.reduceSub, Nat.reduceLeDiff]
    rw [leAt_head, hep]

theorem fields_streamRecord_idle (k : Bank) (e : Nat) {t : Stream} (h : t.phase = .idle) {m : Nat} (hm : m < 64) : leAt (k.streamRecord e t) m 1 = 0 := by
  unfold Bank.streamRecord
  simp only [if_pos h]
  rw [leAt, List.drop_replicate, List.take_replicate, show min 1 (64 - m) = 1 by omega]
  rfl

/-! ### The frame as a whole (08 R212) -/

/-- The 64 bytes before the records of a frame. -/
def Bank.frameHeader (k : Bank) (b : Nat) (f : FaultInfo) (j : Job) : List Byte :=
  leBytes 4 0x46524D46 ++ leBytes 2 f.code ++ leBytes 1 f.eng ++ leBytes 1 (f.precise.toNat + 2 * b)
    ++ leBytes 8 f.da.toNat ++ leBytes 8 f.db.toNat ++ leBytes 4 f.dc.toNat ++ leBytes 4 k.flightList.length
    ++ leBytes 8 j.ord.toNat ++ leBytes 8 j.code ++ leBytes 8 f.cyc.toNat ++ leBytes 8 0

/-- The bytes behind the records of a frame: the in-flight list. -/
def Bank.frameList (k : Bank) : List Byte := k.flightList.flatten ++ List.replicate (24 * (24 - k.flightList.length)) 0

section
variable (k : Bank) (b : Nat) (f : FaultInfo) (j : Job)

theorem faultFrame_eq : k.faultFrame b f j
    = k.frameHeader b f j ++ ((List.range 6).flatMap (fun e => k.streamRecord e (k.stream e)) ++ k.frameList) := by
  unfold Bank.faultFrame Bank.frameHeader Bank.frameList
  simp only [List.append_assoc]

theorem length_frameHeader : (k.frameHeader b f j).length = 64 := by
  unfold Bank.frameHeader
  simp only [List.length_append, length_leBytes]

theorem length_flightList_le : k.flightList.length ≤ 24 := List.length_take_le _ _

/-- The fields of the header: place, width and value. -/
theorem fields_frameHeader : ∀ p ∈ [(0, 4, 0x46524D46), (4, 2, f.code % 2 ^ 16), (6, 1, f.eng % 256), (7, 1, (f.precise.toNat + 2 * b) % 256),
      (8, 8, f.da.toNat), (16, 8, f.db.toNat), (24, 4, f.dc.toNat), (28, 4, k.flightList.length), (32, 8, j.ord.toNat), (40, 8, j.code % 2 ^ 64),
      (48, 8, f.cyc.toNat), (56, 8, 0)], leAt (k.frameHeader b f j) p.1 p.2.1 = p.2.2 := by
  have hlen : k.flightList.length < 4294967296 := Nat.lt_of_le_of_lt (length_flightList_le k) (by decide)
  unfold Bank.frameHeader
  simp [leAt_skip, leAt_head, leAt_leBytes, length_leBytes, hlen, f.da.isLt, f.db.isLt, f.dc.isLt, f.cyc.isLt, j.ord.isLt]

/-- A field of the record of engine `e` in a frame. -/
theorem leAt_faultFrame {e o n : Nat} (he : e < 6) (ho : o + n ≤ 64) :
    leAt (k.faultFrame b f j) (64 + 64 * e + o) n = leAt (k.streamRecord e (k.stream e)) o n := by
  have hhead := length_frameHeader k b f j
  rw [faultFrame_eq, leAt_skip _ _ _ _ (by omega), hhead, show 64 + 64 * e + o - 64 = 64 * e + o by omega,
    leAt_flatMap_range (fun i => length_streamRecord k i (k.stream i)) _ he ho]

theorem length_faultFrame : 448 ≤ (k.faultFrame b f j).length := by
  rw [faultFrame_eq, List.length_append, List.length_append, length_frameHeader,
    length_flatMap_range (fun i => length_streamRecord k i (k.stream i))]
  omega

/-- The frame in memory, field by field. -/
theorem frame_of_written {m m' : List Host.Cell} {A : Nat} (h : m' = wrBytes m A (k.faultFrame b f j)) :
    (∀ p ∈ [(0, 4, 0x46524D46), (4, 2, f.code % 2 ^ 16), (6, 1, f.eng % 256), (7, 1, (f.precise.toNat + 2 * b) % 256),
      (8, 8, f.da.toNat), (16, 8, f.db.toNat), (24, 4, f.dc.toNat), (28, 4, k.flightList.length), (32, 8, j.ord.toNat), (40, 8, j.code % 2 ^ 64),
      (48, 8, f.cyc.toNat), (56, 8, 0)], leNat (rdBytes m' (A + p.1) p.2.1) = p.2.2)
    ∧ ∀ e, e < 6 → ((k.stream e).phase = .idle → ∀ i, i < 64 → rdByte m' (A + 64 + 64 * e + i) = 0)
      ∧ ((k.stream e).phase ≠ .idle →
        leNat (rdBytes m' (A + 64 + 64 * e) 2) = (k.stream e).q0.addr.toNat + 2 ^ 15 * (k.stream e).q0.null.toNat
        ∧ leNat (rdBytes m' (A + 64 + 64 * e + 2) 2) = (k.stream e).q1.addr.toNat + 2 ^ 15 * (k.stream e).q1.null.toNat
        ∧ leNat (rdBytes m' (A + 64 + 64 * e + 4) 2) = (k.stream e).q2.addr.toNat + 2 ^ 15 * (k.stream e).q2.null.toNat
        ∧ leNat (rdBytes m' (A + 64 + 64 * e + 44) 2) = (k.stream e).epoch.toNat) := by
  have hhead := length_frameHeader k b f j
  have hlen := length_faultFrame k b f j
  have hplace : ∀ e o, A + 64 + 64 * e + o = A + (64 + 64 * e + o) := fun e o => by omega
  have hrecord : ∀ {e o v}, e < 6 → o + 2 ≤ 64 → leAt (k.streamRecord e (k.stream e)) o 2 = v → leNat (rdBytes m' (A + 64 + 64 * e + o) 2) = v :=
    fun he ho hv => by rw [h, hplace, field_wrBytes _ _ (by omega), leAt_faultFrame k b f j he ho, hv]
  refine ⟨fun p hp => ?_, fun e he => ⟨fun hidle i hi => ?_, fun hrun => ?_⟩⟩
  · have hbound : p.1 + p.2.1 ≤ 64 := by
      revert p
      simp
    rw [h, field_wrBytes _ _ (by omega), faultFrame_eq, leAt_append_left _ _ (by rw [hhead]; exact hbound), fields_frameHeader k b f j p hp]
  · refine BitVec.eq_of_toNat_eq ?_
    rw [h, hplace, byte_wrBytes _ _ (by omega), leAt_faultFrame k b f j he (by omega), fields_streamRecord_idle k e hidle hi]
    rfl
  · obtain ⟨h0, h1, h2, h44⟩ := fields_streamRecord k e hrun
    exact ⟨hrecord (o := 0) he (by decide) h0, hrecord he (by decide) h1, hrecord he (by decide) h2, hrecord he (by decide) h44⟩

end

/-! ### The state put back (08 R210) -/

/-- From bank `k` to `k'` the stream of engine `e` stands where command `c` issued, as record `x` says; the other streams and queues stand as they did. -/
structure PutBack (k k' : Bank) (e : Nat) (c : Cmd) (x : Back) : Prop where
  stream  : ∃ w, k'.stream e = { x.t with epoch := c.epoch, phase := .running, waited := 0, kept := 0, wait := w }
  streams : ∀ g, g ≠ e → k'.stream g = k.stream g
  queue   : k'.queue e = (k.queue e).filter (fun d => !(decide (c.seq < d.seq) && d.isPush))
  queues  : ∀ g, g ≠ e → k'.queue g = k.queue g

/-- No push later than the command is pending any more. -/
theorem PutBack.pushes {k k' : Bank} {e : Nat} {c : Cmd} {x : Back} (h : PutBack k k' e c x) : ∀ d ∈ k'.queue e, d.isPush = true → d.seq ≤ c.seq := by
  intro d hd hpush
  rw [h.queue, List.mem_filter, hpush, Bool.and_true, Bool.not_eq_true', decide_eq_false_iff_not] at hd
  exact Nat.not_lt.mp hd.2

/-- A bank with the tokens that have been popped on their FIFOs again. -/
def Bank.backToks (k : Bank) (ps : List (Nat × List (BitVec 13))) : Bank :=
  ps.foldl (fun (k : Bank) p => k.setTok p.1 { k.tokF p.1 with toks := p.2 ++ (k.tokF p.1).toks }) k

/-- A bank with the generations of arrival words that have been waited on as they stood. -/
def Bank.backGens (k : Bank) (gs : List (Nat × Nat × Word)) : Bank :=
  gs.foldl (fun (k : Bank) g => k.setArrVec g.1 { k.arrVec g.1 with gens := set (BitVec.allOnes 32) (k.arrVec g.1).gens g.2.1 g.2.2 }) k

theorem backToks_eq (ps : List (Nat × List (BitVec 13))) (k : Bank) : ∃ m, k.backToks ps = { k with tok := m } := by
  induction ps generalizing k with
  | nil => exact ⟨k.tok, rfl⟩
  | cons p ps ih =>
    obtain ⟨m, h⟩ := ih (k.setTok p.1 { k.tokF p.1 with toks := p.2 ++ (k.tokF p.1).toks })
    exact ⟨m, h⟩

theorem backGens_eq (gs : List (Nat × Nat × Word)) (k : Bank) : ∃ m, k.backGens gs = { k with arr := m } := by
  induction gs generalizing k with
  | nil => exact ⟨k.arr, rfl⟩
  | cons g gs ih =>
    obtain ⟨m, h⟩ := ih (k.setArrVec g.1 { k.arrVec g.1 with gens := set (BitVec.allOnes 32) (k.arrVec g.1).gens g.2.1 g.2.2 })
    exact ⟨m, h⟩

section
variable (k : Bank) (e : Nat) (c : Cmd) (x : Back)

theorem backStream_eq : k.backStream e c x
    = (((k.backToks x.pops.reverse).backGens x.gens).setQueue e ((k.queue e).filter (fun d => !(decide (c.seq < d.seq) && d.isPush)))).setStream e
        { x.t with epoch := c.epoch, phase := .running, waited := 0, kept := 0
                   wait := if (k.stream e).phase = .running then (k.stream e).wait else .none } := rfl

theorem putBack_backStream : PutBack k (k.backStream e c x) e c x := by
  obtain ⟨m, hm⟩ := backToks_eq x.pops.reverse k
  obtain ⟨a, ha⟩ := backGens_eq x.gens (k.backToks x.pops.reverse)
  rw [backStream_eq, ha, hm]
  refine ⟨⟨_, stream_setStream_self _ _ _⟩, fun g hg => stream_setStream_other _ _ hg, queue_setQueue_self _ _ _, fun g hg => queue_setQueue_other _ _ hg⟩

/-- Outside its streams, queues, tokens and arrival words a bank keeps what it holds. -/
theorem backStream_kept : ∃ ts qs tk ar, k.backStream e c x = { k with streams := ts, cmds := qs, tok := tk, arr := ar } := by
  obtain ⟨m, hm⟩ := backToks_eq x.pops.reverse k
  obtain ⟨a, ha⟩ := backGens_eq x.gens (k.backToks x.pops.reverse)
  rw [backStream_eq, ha, hm]
  exact ⟨_, _, _, _, rfl⟩

/-- The tokens of the one FIFO that has been popped stand before those that it holds. -/
theorem tokF_backStream {g : Nat} {l : List (BitVec 13)} (h : x.pops = [(g, l)]) : ((k.backStream e c x).tokF g).toks = l ++ (k.tokF g).toks := by
  have htoks : (k.backToks x.pops.reverse).tokF g = { k.tokF g with toks := l ++ (k.tokF g).toks } := by
    rw [h]; exact tokF_setTok_self k g _
  obtain ⟨a, ha⟩ := backGens_eq x.gens (k.backToks x.pops.reverse)
  rw [backStream_eq, ha]
  exact congrArg TokFifo.toks htoks

theorem backRun_eq : ∃ m, k.backRun = { k with fifo := m, run := none } := by
  unfold Bank.backRun
  cases h : k.run with
  | none =>
    refine ⟨k.fifo, ?_⟩
    show k = { k with fifo := k.fifo, run := none }
    rw [← h]
  | some r =>
    simp only
    split <;> split <;> exact ⟨_, rfl⟩

/-- The bank of a job whose matrix stream has been put back; `w` is the FIFO on which it waits. -/
def Bank.matrixBack (w : Option Nat) : Bank := match w with
  | some f => ((k.backRun).backStream 2 c x).onStream 2 (fun t => { t with wait := .fifo f })
  | none => (k.backRun).backStream 2 c x

theorem putBack_matrixBack (w : Option Nat) : PutBack k (k.matrixBack c x w) 2 c x := by
  obtain ⟨m, hm⟩ := backRun_eq k
  have h : PutBack k (k.backRun.backStream 2 c x) 2 c x := by
    have hrun := putBack_backStream k.backRun 2 c x
    rw [hm] at hrun ⊢
    exact ⟨hrun.stream, hrun.streams, hrun.queue, hrun.queues⟩
  cases w with
  | none => exact h
  | some f =>
    obtain ⟨y, hy⟩ := h.stream
    refine ⟨⟨.fifo f, ?_⟩, fun g hg => (stream_onStream_other _ _ hg).trans (h.streams g hg), h.queue, h.queues⟩
    rw [Bank.matrixBack, stream_onStream_self, hy]

theorem matrixBack_kept (w : Option Nat) : ∃ ts qs tk ar ff, k.matrixBack c x w
    = { k with streams := ts, cmds := qs, tok := tk, arr := ar, fifo := ff, run := none } := by
  obtain ⟨m, hm⟩ := backRun_eq k
  obtain ⟨ts, qs, tk, ar, h⟩ := backStream_kept k.backRun 2 c x
  rw [hm] at h
  cases w with
  | none => exact ⟨ts, qs, tk, ar, m, by rw [Bank.matrixBack, hm, h]⟩
  | some f => exact ⟨_, qs, tk, ar, m, by rw [Bank.matrixBack, hm, h]; rfl⟩

/-- The bank of a job whose control stream has been put back. -/
def Bank.controlBack (k : Bank) (c : Cmd) (x : Back) : Bank := (k.backStream 0 c x).backRegs x

theorem putBack_controlBack : PutBack k (k.controlBack c x) 0 c x := by
  have h := putBack_backStream k 0 c x
  exact ⟨h.stream, h.streams, h.queue, h.queues⟩

theorem controlBack_kept : ∃ ts qs tk ar jo, k.controlBack c x = { k with
    streams := ts, cmds := qs, tok := tk, arr := ar, s := x.s, p := x.p, sdm := x.sdm, fmt := x.fmt, csr := { x.csr with frz := k.csr.frz }
    view := none, job := jo } ∧ (jo = none ↔ k.job = none) := by
  obtain ⟨ts, qs, tk, ar, h⟩ := backStream_kept k 0 c x
  exact ⟨ts, qs, tk, ar, _, by rw [Bank.controlBack, h, Bank.backRegs], Option.map_eq_none_iff⟩

end

/-! ### The unwinding of a stopped job -/

/-- Memory, the functions and the partitions of `r` are those of `s`, and TICK of unit `u` counts from `n`. -/
structure Unwound (s r : State) (u : Nat) (n : DWord) : Prop where
  kept : KeptWith s r s.parts
  tick : (r.core u).tick = n

theorem Unwound.trans {s r q : State} {u : Nat} {n n' : DWord} (h : Unwound s r u n) (h' : Unwound r q u n') : Unwound s q u n' := by
  obtain ⟨hm, hf, hp⟩ := h.kept
  obtain ⟨hm', hf', hp'⟩ := h'.kept
  exact ⟨⟨hm'.trans hm, hf'.trans hf, hp'.trans hp⟩, h'.tick⟩

theorem unwound_onBank (s : State) (u b : Nat) (F : Bank → Bank) : Unwound s (s.onBank u b F) u (s.core u).tick :=
  ⟨⟨rfl, rfl, rfl⟩, by rw [core_onBank_self, Core.setBank_tick]⟩

theorem unwound_clusters (s : State) (u : Nat) (cs : Map Cluster) : Unwound s { s with clusters := cs } u (s.core u).tick := ⟨⟨rfl, rfl, rfl⟩, rfl⟩

theorem unwound_setRow (s : State) (u b r : Nat) (v : Row) : Unwound s (s.setRow u b r v) u (s.core u).tick :=
  ⟨⟨rfl, rfl, rfl⟩, by rw [core_setRow_self]⟩

/-- The state with TICK of a unit put back. -/
def State.backTick (s : State) (u : Nat) (dt : DWord) : State := s.setCore u { s.core u with tick := (s.core u).tick - dt }

theorem unwound_backTick (s : State) (u : Nat) (dt : DWord) : Unwound s (s.backTick u dt) u ((s.core u).tick - dt) :=
  ⟨⟨rfl, rfl, rfl⟩, by rw [State.backTick, core_setCore_self]⟩

theorem bank_backTick (s : State) (u b : Nat) (dt : DWord) : (s.backTick u dt).bank u b = s.bank u b := by
  rw [State.backTick, State.bank, core_setCore_self]; rfl

/-- The state with an arrival word as it stood before it was armed or disarmed. -/
def State.backWord (s : State) (u b : Nat) (y : Nat × List Word × Bool × ArrVec) : State :=
  let r := initArr (s.row u b (y.1 / 32)) (y.1 % 32) y.2.1
  (s.setRow u b (y.1 / 32) { r with poison := ofGran (fun g => r.poison.getLsbD g || (decide (g = y.1 % 32) && y.2.2.1)) }).onBank u b
    (fun k => k.setArrVec y.1 y.2.2.2)

section
variable (s : State) (u b : Nat)

/-- Putting an arrival word back changes its row and its vectors alone. -/
theorem unwound_backWord (y : Nat × List Word × Bool × ArrVec) : Unwound s (s.backWord u b y) u (s.core u).tick := by
  have hset : ∀ v, Unwound s ((s.setRow u b (y.1 / 32) v).onBank u b (fun k => k.setArrVec y.1 y.2.2.2)) u (s.core u).tick := fun v => by
    have hrow := unwound_setRow s u b (y.1 / 32) v
    have hon := unwound_onBank (s.setRow u b (y.1 / 32) v) u b (fun k => k.setArrVec y.1 y.2.2.2)
    rw [hrow.tick] at hon
    exact hrow.trans hon
  exact hset _

theorem bank_backWord (y : Nat × List Word × Bool × ArrVec) : (s.backWord u b y).bank u b = (s.bank u b).setArrVec y.1 y.2.2.2 := by
  unfold State.backWord
  rw [bank_onBank_self, bank_setRow]

theorem backWords_kept (l : List (Nat × List Word × Bool × ArrVec)) : Unwound s (l.foldl (fun s y => s.backWord u b y) s) u (s.core u).tick
    ∧ ∃ ar, (l.foldl (fun s y => s.backWord u b y) s).bank u b = { s.bank u b with arr := ar } := by
  induction l generalizing s with
  | nil => exact ⟨⟨.refl s, rfl⟩, _, rfl⟩
  | cons y l ih =>
    obtain ⟨hrest, ar, hbank⟩ := ih (s.backWord u b y)
    have hword := unwound_backWord s u b y
    rw [hword.tick] at hrest
    refine ⟨hword.trans hrest, ar, ?_⟩
    rw [bank_backWord] at hbank
    exact hbank

variable (c : Cmd) (x : Back)

theorem backMatrix_eq : ∃ cs, s.backMatrix u b c x = { s.onBank u b (fun k => k.matrixBack c x (s.starvedAt u b c)) with clusters := cs } := by
  unfold State.backMatrix Bank.matrixBack
  exact ⟨_, rfl⟩

theorem backMatrix_kept : Unwound s (s.backMatrix u b c x) u (s.core u).tick
    ∧ (s.backMatrix u b c x).bank u b = (s.bank u b).matrixBack c x (s.starvedAt u b c) := by
  obtain ⟨cs, h⟩ := backMatrix_eq s u b c x
  have hon := unwound_onBank s u b (fun k => k.matrixBack c x (s.starvedAt u b c))
  have hbank := bank_onBank_self s u b (fun k => k.matrixBack c x (s.starvedAt u b c))
  generalize s.onBank u b _ = s1 at h hon hbank
  have hcs := unwound_clusters s1 u cs
  rw [hon.tick] at hcs
  rw [h]
  exact ⟨hon.trans hcs, (bank_of_units rfl u b).trans hbank⟩

theorem backControl_eq : s.backControl u b c x
    = x.arws.foldl (fun s y => s.backWord u b y) ((s.onBank u b (fun k => k.controlBack c x)).backTick u x.tickBy) := rfl

theorem backControl_kept : Unwound s (s.backControl u b c x) u ((s.core u).tick - x.tickBy)
    ∧ ∃ ar, (s.backControl u b c x).bank u b = { (s.bank u b).controlBack c x with arr := ar } := by
  have hon := unwound_onBank s u b (fun k => k.controlBack c x)
  have hbank := bank_onBank_self s u b (fun k => k.controlBack c x)
  rw [backControl_eq]
  generalize s.onBank u b _ = s1 at hon hbank
  have htick := unwound_backTick s1 u x.tickBy
  have hbank' := bank_backTick s1 u b x.tickBy
  generalize s1.backTick u x.tickBy = s2 at htick hbank'
  obtain ⟨hwords, ar, har⟩ := backWords_kept s2 u b x.arws
  rw [htick.tick, hon.tick] at hwords
  exact ⟨(hon.trans htick).trans hwords, ar, by rw [har, hbank', hbank]⟩

variable (code : Nat)

/-- The state in which the matrix stream of a stopped job has been put back. -/
def State.matrixUnwound (s : State) (u b code : Nat) : State := match (s.bank u b).undone code 2 with
  | some (c, x) => s.backMatrix u b c x
  | none => s

theorem matrixUnwound_of_none (h : (s.bank u b).undone code 2 = none) : s.matrixUnwound u b code = s := by
  unfold State.matrixUnwound; rw [h]

variable {code c x} in
theorem matrixUnwound_of_some (h : (s.bank u b).undone code 2 = some (c, x)) : s.matrixUnwound u b code = s.backMatrix u b c x := by
  unfold State.matrixUnwound; rw [h]

theorem unwind_of_none (h : ((s.matrixUnwound u b code).bank u b).undone code 0 = none) : s.unwind u b code = s.matrixUnwound u b code := by
  show (match ((s.matrixUnwound u b code).bank u b).undone code 0 with | some (c, x) => _ | none => _) = _
  rw [h]; rfl

variable {code c x} in
theorem unwind_of_some (h : ((s.matrixUnwound u b code).bank u b).undone code 0 = some (c, x)) :
    s.unwind u b code = (s.matrixUnwound u b code).backControl u b c x := by
  show (match ((s.matrixUnwound u b code).bank u b).undone code 0 with | some (c, x) => _ | none => _) = _
  rw [h]; rfl

/-- Putting the matrix stream back leaves the other queues, the records and the job of the bank. -/
theorem matrixUnwound_kept : Unwound s (s.matrixUnwound u b code) u (s.core u).tick
    ∧ (∀ g, g ≠ 2 → ((s.matrixUnwound u b code).bank u b).queue g = (s.bank u b).queue g)
    ∧ ((s.matrixUnwound u b code).bank u b).backs = (s.bank u b).backs ∧ ((s.matrixUnwound u b code).bank u b).job = (s.bank u b).job := by
  cases h : (s.bank u b).undone code 2 with
  | none => rw [matrixUnwound_of_none s u b code h]; exact ⟨⟨.refl s, rfl⟩, fun _ _ => rfl, rfl, rfl⟩
  | some p =>
    obtain ⟨c, x⟩ := p
    obtain ⟨hkept, hbank⟩ := backMatrix_kept s u b c x
    obtain ⟨ts, qs, tk, ar, ff, hk⟩ := matrixBack_kept (s.bank u b) c x (s.starvedAt u b c)
    rw [matrixUnwound_of_some s u b h, hbank]
    exact ⟨hkept, (putBack_matrixBack (s.bank u b) c x _).queues, by rw [hk], by rw [hk]⟩

theorem undone_congr {k k' : Bank} {e : Nat} (hq : k'.queue e = k.queue e) (hb : k'.backs = k.backs) : k'.undone code e = k.undone code e := by
  unfold Bank.undone; rw [hq, hb]

theorem undone_matrixUnwound : ((s.matrixUnwound u b code).bank u b).undone code 0 = (s.bank u b).undone code 0 := by
  obtain ⟨-, hq, hb, -⟩ := matrixUnwound_kept s u b code
  exact undone_congr code (hq 0 (by decide)) hb

theorem undone_of_pushes {k : Bank} {e : Nat} (h : ∀ c ∈ k.queue e, c.isPush = true) : k.undone code e = none := by
  have hfind : (k.queue e).find? (fun c => !c.isPush) = none := List.find?_eq_none.mpr fun c hc => by rw [h c hc]; decide
  unfold Bank.undone
  rw [hfind, Option.bind_none]
  exact ite_self _

variable {code c x} in
theorem undone_of_find {k : Bank} {e : Nat} (he : e ≠ 2 ∨ code ≠ 0x000C) (h : (k.queue e).find? (fun c => !c.isPush) = some c)
    (hx : get none k.backs c.seq = some x) : k.undone code e = some (c, x) := by
  unfold Bank.undone
  rw [if_neg (fun hand => he.elim (fun h => h hand.1) (fun h => h hand.2)), h, Option.bind_some, hx, Option.map_some]

theorem unwind_of_pushes (h0 : ∀ c ∈ (s.bank u b).queue 0, c.isPush = true) (h2 : ∀ c ∈ (s.bank u b).queue 2, c.isPush = true) :
    s.unwind u b code = s := by
  rw [unwind_of_none s u b code ((undone_matrixUnwound s u b code).trans (undone_of_pushes code h0)),
    matrixUnwound_of_none s u b code (undone_of_pushes code h2)]

/-- Memory, the functions and the partitions stay through an unwinding, and the bank keeps its job. -/
theorem unwind_kept : KeptWith s (s.unwind u b code) s.parts ∧ (((s.unwind u b code).bank u b).job = none ↔ (s.bank u b).job = none) := by
  obtain ⟨hm, -, -, hjob⟩ := matrixUnwound_kept s u b code
  cases h : ((s.matrixUnwound u b code).bank u b).undone code 0 with
  | none => rw [unwind_of_none s u b code h, hjob]; exact ⟨hm.kept, Iff.rfl⟩
  | some p =>
    obtain ⟨c, x⟩ := p
    obtain ⟨hc, ar, hbank⟩ := backControl_kept (s.matrixUnwound u b code) u b c x
    obtain ⟨ts, qs, tk, ar', jo, hk, hjo⟩ := controlBack_kept ((s.matrixUnwound u b code).bank u b) c x
    rw [unwind_of_some s u b h, hbank, hk, ← hjob]
    exact ⟨(hm.trans hc).kept, hjo⟩

end

/-- Stream `t` stands where command `c` issued, as record `x` says. -/
structure StandsAt (t : Stream) (c : Cmd) (x : Back) : Prop where
  q0    : t.q0 = x.t.q0
  q1    : t.q1 = x.t.q1
  q2    : t.q2 = x.t.q2
  lp0   : t.lp0 = x.t.lp0
  lp1   : t.lp1 = x.t.lp1
  b     : t.b = x.t.b
  epoch : t.epoch = c.epoch
  phase : t.phase = .running

theorem PutBack.standsAt {k k' : Bank} {e : Nat} {c : Cmd} {x : Back} (h : PutBack k k' e c x) : StandsAt (k'.stream e) c x := by
  obtain ⟨w, hw⟩ := h.stream
  rw [hw]
  exact ⟨rfl, rfl, rfl, rfl, rfl, rfl, rfl, rfl⟩

/-- In bank `k0` of a stopped job the control stream of `k` stands where command `c` issued, as record `x` says, with what the stream held then. -/
structure ControlUnwound (k k0 : Bank) (c : Cmd) (x : Back) : Prop where
  s      : k0.s = x.s
  p      : k0.p = x.p
  sdm    : k0.sdm = x.sdm
  fmt    : k0.fmt = x.fmt
  csr    : { k0.csr with frz := x.csr.frz } = x.csr
  view   : k0.view = none
  fields : StandsAt (k0.stream 0) c x
  toks   : ∀ g l, x.pops = [(g, l)] → (∀ d ∈ k.queue 2, d.isPush = true) → (k0.tokF g).toks = l ++ (k.tokF g).toks
  pushes : ∀ d ∈ k0.queue 0, d.isPush = true → d.seq ≤ c.seq
  queues : ∀ e, e ≠ 0 → e ≠ 2 → k0.queue e = k.queue e

/-- In bank `k0` of a stopped job the matrix stream stands where command `c` issued, as record `x` says; no array operation has started. -/
structure MatrixUnwound (k0 : Bank) (c : Cmd) (x : Back) : Prop where
  run    : k0.run = none
  fields : StandsAt (k0.stream 2) c x
  pushes : ∀ d ∈ k0.queue 2, d.isPush = true → d.seq ≤ c.seq

section
variable {s : State} {u b code : Nat} {c : Cmd} {x : Back}

theorem controlUnwound_unwind (h : ((s.bank u b).queue 0).find? (fun c => !c.isPush) = some c) (hx : get none (s.bank u b).backs c.seq = some x) :
    ControlUnwound (s.bank u b) ((s.unwind u b code).bank u b) c x ∧ ((s.unwind u b code).core u).tick = (s.core u).tick - x.tickBy := by
  have hundone := (undone_matrixUnwound s u b code).trans (undone_of_find (.inl (by decide)) h hx)
  obtain ⟨hm, hqueues, -, -⟩ := matrixUnwound_kept s u b code
  obtain ⟨hc, ar, hbank⟩ := backControl_kept (s.matrixUnwound u b code) u b c x
  rw [unwind_of_some s u b hundone]
  refine ⟨?_, by rw [hc.tick, hm.tick]⟩
  rw [hbank]
  have hput := putBack_controlBack ((s.matrixUnwound u b code).bank u b) c x
  have htoks : ∀ g l, x.pops = [(g, l)] → (∀ d ∈ (s.bank u b).queue 2, d.isPush = true) →
      ((((s.matrixUnwound u b code).bank u b).controlBack c x).tokF g).toks = l ++ ((s.bank u b).tokF g).toks := fun g l hpop h2 => by
    rw [matrixUnwound_of_none s u b code (undone_of_pushes code h2)]
    exact tokF_backStream (s.bank u b) 0 c x hpop
  obtain ⟨ts, qs, tk, ar', jo, hk, -⟩ := controlBack_kept ((s.matrixUnwound u b code).bank u b) c x
  generalize ((s.matrixUnwound u b code).bank u b).controlBack c x = k1 at hput htoks hk
  subst hk
  exact ⟨rfl, rfl, rfl, rfl, rfl, rfl, hput.standsAt, htoks, hput.pushes, fun e h0 h2 => (hput.queues e h0).trans (hqueues e h2)⟩

theorem matrixUnwound_unwind (hcode : code ≠ 0x000C) (h : ((s.bank u b).queue 2).find? (fun c => !c.isPush) = some c)
    (hx : get none (s.bank u b).backs c.seq = some x) : MatrixUnwound ((s.unwind u b code).bank u b) c x := by
  have hmid : MatrixUnwound ((s.matrixUnwound u b code).bank u b) c x := by
    rw [matrixUnwound_of_some s u b (undone_of_find (.inr hcode) h hx), (backMatrix_kept s u b c x).2]
    have hput := putBack_matrixBack (s.bank u b) c x (s.starvedAt u b c)
    obtain ⟨ts, qs, tk, ar, ff, hk⟩ := matrixBack_kept (s.bank u b) c x (s.starvedAt u b c)
    exact ⟨by rw [hk], hput.standsAt, hput.pushes⟩
  cases hundone : ((s.matrixUnwound u b code).bank u b).undone code 0 with
  | none => rw [unwind_of_none s u b code hundone]; exact hmid
  | some p =>
    obtain ⟨c', x'⟩ := p
    obtain ⟨-, ar, hbank⟩ := backControl_kept (s.matrixUnwound u b code) u b c' x'
    have hput := putBack_controlBack ((s.matrixUnwound u b code).bank u b) c' x'
    obtain ⟨ts, qs, tk, ar', jo, hk, -⟩ := controlBack_kept ((s.matrixUnwound u b code).bank u b) c' x'
    rw [unwind_of_some s u b hundone, hbank]
    have hrun : (((s.matrixUnwound u b code).bank u b).controlBack c' x').run = none := by rw [hk]; exact hmid.run
    have hstream := hput.streams 2 (by decide)
    have hqueue := hput.queues 2 (by decide)
    exact ⟨hrun, hstream ▸ hmid.fields, fun d hd => hmid.pushes d (hqueue ▸ hd)⟩

end

/-! ### The write of a frame (08 R212) -/

theorem notice_kept (s : State) (j : Job) (i : Nat) : ∃ fs, s.notice j i = { s with funcs := fs } := by
  unfold State.notice
  split
  · exact ⟨s.funcs, rfl⟩
  · exact ⟨_, rfl⟩

section
variable {s : State} {u b i : Nat} {x : Part} {f : FaultInfo} {j : Job}

/-- From `s` to `t` the bytes of a frame have been written to slot `i` of partition `x`, which is marked. -/
structure FrameWritten (s t : State) (frame : List Byte) (i : Nat) (x : Part) (j : Job) : Prop where
  mem  : t.mem = wrBytes s.mem (hostAddr (x.cfg.frameBase + 1024 * i)) frame
  part : t.part j.part = some { x with slots := set false x.slots i true }

theorem putFrame_kept (hx : s.part j.part = some x) :
    FrameWritten s (s.putFrame u b i x f j) (((s.unwind u b f.code).bank u b).faultFrame b f j) i x j
    ∧ (s.putFrame u b i x f j).bank u b = { (s.unwind u b f.code).bank u b with fault := some { f with slot := some i } }
    ∧ ((s.putFrame u b i x f j).core u).tick = ((s.unwind u b f.code).core u).tick := by
  obtain ⟨⟨hm, -, hp⟩, -⟩ := unwind_kept s u b f.code
  unfold State.putFrame
  simp only
  generalize s.unwind u b f.code = s0 at hm hp
  generalize (s0.bank u b).faultFrame b f j = frame
  have hpart : s0.part j.part = some x := (congrArg (get none · j.part) hp).trans hx
  have hunits : ((s0.hostPut (x.slotAddr i) frame).onPart j.part (fun p => { p with slots := set false p.slots i true })).units = s0.units := rfl
  have hmem : ((s0.hostPut (x.slotAddr i) frame).onPart j.part (fun p => { p with slots := set false p.slots i true })).mem
      = wrBytes s.mem (hostAddr (x.cfg.frameBase + 1024 * i)) frame := congrArg (wrBytes · _ frame) hm
  have hmarked : ((s0.hostPut (x.slotAddr i) frame).onPart j.part (fun p => { p with slots := set false p.slots i true })).part j.part
      = some { x with slots := set false x.slots i true } := (part_onPart_self _ _ _).trans (congrArg _ hpart)
  generalize (s0.hostPut (x.slotAddr i) frame).onPart j.part _ = s1 at hunits hmem hmarked
  obtain ⟨fs, hn⟩ := notice_kept s1 j i
  have hunits' : (s1.notice j i).units = s0.units := by rw [hn]; exact hunits
  have hmem' : (s1.notice j i).mem = s1.mem := by rw [hn]
  have hpart' : (s1.notice j i).part j.part = s1.part j.part := by rw [hn]; rfl
  generalize s1.notice j i = s2 at hunits' hmem' hpart'
  have hcore : s2.core u = s0.core u := by unfold State.core; rw [hunits']
  refine ⟨⟨hmem'.trans hmem, hpart'.trans hmarked⟩, ?_, ?_⟩
  · rw [bank_onBank_self, bank_of_units hunits' u b]
  · rw [core_onBank_self, Core.setBank_tick, hcore]

/-- The move of FAULT_FRAME_WRITE where it writes. -/
theorem frameWrite_of_slot (hf : (s.bank u b).fault = some f) (hj : (s.bank u b).job = some j) (hcode : f.code ≠ 0x0017) (hslot : f.slot = none)
    (hset : s.settled u b = true) (hx : s.part j.part = some x) (hi : s.freeSlot j.part = some i) (hr : s.resets j.part = false) :
    s.frameWrite u b = if f.code = 0x0018 ∨ j.preempt = some true then (s.putFrame u b i x f j).discardJob u b else s.putFrame u b i x f j := by
  have hgo : ¬ (f.code = 0x0017 ∨ f.slot.isSome ∨ s.settled u b = false ∨ s.resets j.part = true) := by
    simp [hcode, hslot, hset, hr]
  unfold State.frameWrite
  simp only [hf, hj, hi, hx]
  exact if_neg hgo

theorem frameWrite_waits (hf : (s.bank u b).fault = some f) (hj : (s.bank u b).job = some j)
    (h : f.code = 0x0017 ∨ f.slot ≠ none ∨ s.settled u b = false ∨ s.resets j.part = true) : s.frameWrite u b = s := by
  unfold State.frameWrite
  simp only [hf, hj]
  exact if_pos (h.imp_right (Or.imp_left Option.isSome_iff_ne_none.mpr))

theorem resets_iff (hx : s.part j.part = some x) : s.resets j.part = true ↔ ∃ n, x.state = .resetting n := by
  unfold State.resets
  rw [hx]
  cases hstate : x.state <;> simp [hstate]

theorem freeSlot_of_first (hx : s.part j.part = some x) (hi : i < x.cfg.frameSlots) (hfree : get false x.slots i = false)
    (hfirst : ∀ m, m < i → get false x.slots m = true) : s.freeSlot j.part = some i := by
  unfold State.freeSlot
  rw [hx]
  refine List.find?_range_eq_some.mpr ⟨by rw [hfree]; rfl, List.mem_range.mpr hi, fun m hm => by rw [hfirst m hm]; rfl⟩

/-- A frame that is written, with the job that is then discarded or stays. -/
theorem frameWrite_spec (hf : (s.bank u b).fault = some f) (hj : (s.bank u b).job = some j) (hcode : f.code ≠ 0x0017) (hslot : f.slot = none)
    (hset : s.settled u b = true) (hx : s.part j.part = some x) (hi : s.freeSlot j.part = some i) (hr : s.resets j.part = false) :
    FrameWritten s (s.frameWrite u b) (((s.unwind u b f.code).bank u b).faultFrame b f j) i x j
    ∧ ((f.code = 0x0018 ∨ j.preempt = some true) → (s.frameWrite u b).bank u b = {})
    ∧ (¬ (f.code = 0x0018 ∨ j.preempt = some true) →
        (s.frameWrite u b).bank u b = { (s.unwind u b f.code).bank u b with fault := some { f with slot := some i } }
        ∧ ((s.frameWrite u b).core u).tick = ((s.unwind u b f.code).core u).tick) := by
  obtain ⟨hput, hbank, htick⟩ := putFrame_kept (u := u) (b := b) (i := i) (f := f) hx
  have hjob := (unwind_kept s u b f.code).2
  rw [frameWrite_of_slot hf hj hcode hslot hset hx hi hr]
  by_cases hgone : f.code = 0x0018 ∨ j.preempt = some true
  · rw [if_pos hgone]
    have hsome : ((s.putFrame u b i x f j).bank u b).job ≠ none := by
      rw [hbank]
      exact hjob.not.mpr (by rw [hj]; exact Option.some_ne_none j)
    obtain ⟨j', hj'⟩ := Option.ne_none_iff_exists'.mp hsome
    obtain ⟨hempty, hm, -, hp⟩ := discardJob_kept hj'
    exact ⟨⟨hm.trans hput.mem, (congrArg (get none · j.part) hp).trans hput.part⟩, fun _ => hempty, fun h => absurd hgone h⟩
  · rw [if_neg hgone]
    exact ⟨hput, fun h => absurd h hgone, fun _ => ⟨hbank, htick⟩⟩

end

/-- Settles O40: each wait stops its job by one `stopJob`; the frame is read back field by field from the bytes written; what is put back is that of the matrix stream, then that of the control stream, and each leaves what the other has put back. -/
theorem waitsFaultAndFramesAreWritten : Obligations.WaitsFaultAndFramesAreWritten := by
  unfold Obligations.WaitsFaultAndFramesAreWritten
  intro u b s j k hj
  refine ⟨?forever, ?timeout, ?frame, ?stays⟩
  case forever =>
    intro e c o pre post hf hs hwait hheld hnest hland hall hsplit hpre he
    exact ⟨_, exec_next (exec_waitForever u b s) (waitForever_stops hj hs hwait hheld hnest hland hall hsplit hpre he), stoppedBy_stopJob _ _ _ _ _ hf⟩
  case timeout =>
    intro e o hf hw hs
    have hready : (s.bank u b).ready = true := ready_of_status hj hs
    refine ⟨fun hlim hlast => ⟨fun hp => ?_, fun h5 hp => ?_⟩, fun hnot => ?_⟩
    · exact ⟨_, exec_next (exec_waitTimeout u b e s) (waitTimeout_stops hw hready ((expired_iff _ e).mpr ⟨hlim, hlast⟩) hp), stoppedBy_stopJob _ _ _ _ _ hf⟩
    · subst h5
      exact ⟨_, exec_next (exec_permitTimeout u b s) (permitTimeout_stops hw hready ((expired_iff _ 5).mpr ⟨hlim, hlast⟩) hp), stoppedBy_stopJob _ _ _ _ _ hf⟩
    · have hexp : (s.bank u b).expired e = false := by
        rw [← Bool.not_eq_true, expired_iff]
        rintro ⟨hlim, hlast⟩
        exact hnot.elim hlim (fun h => Nat.not_lt.mpr hlast h)
      refine ⟨exec_next (exec_waitTimeout u b e s) (waitTimeout_early hw hexp), ?_⟩
      rintro rfl
      exact exec_next (exec_permitTimeout u b s) (permitTimeout_early hw hexp)
  case frame =>
    intro f i x hf hcode hslot hset hx hi hfree hfirst hreset s0 frame gone
    have hr : s.resets j.part = false := by
      rw [← Bool.not_eq_true, resets_iff hx]
      exact fun ⟨n, hn⟩ => hreset n hn
    obtain ⟨hwrite, hgone, hkept⟩ := frameWrite_spec hf hj hcode hslot hset hx (freeSlot_of_first hx hi hfree hfirst) hr
    refine ⟨_, { x with slots := set false x.slots i true }, exec_faultFrameWrite u b s, ?_, ?_, frame_of_written _ b f j hwrite.mem, hwrite.part,
      get_set_self false x.slots i true, fun m hm => get_set_other false x.slots true hm, hgone, fun hno => (hkept hno).1, fun hno h0 h2 => ?_, fun c x hno hc hback => ?_,
      fun c x hno hcd hc hback => ?_⟩
    · rw [hwrite.mem]; exact rdBytes_wrBytes_same _ _ _
    · intro a ha
      rw [hwrite.mem]; exact rdByte_wrBytes_out _ _ _ _ ha
    · rw [(hkept hno).1, unwind_of_pushes s u b f.code h0 h2]
    · obtain ⟨hbank, htick⟩ := hkept hno
      obtain ⟨h, hticks⟩ := controlUnwound_unwind (code := f.code) hc hback
      rw [hbank, htick, hticks]
      exact ⟨h.s, h.p, h.sdm, h.fmt, h.csr, h.view, rfl, h.fields.q0, h.fields.q1, h.fields.q2, h.fields.lp0, h.fields.lp1, h.fields.b, h.fields.epoch,
        h.fields.phase, h.toks, h.pushes, h.queues⟩
    · rw [(hkept hno).1]
      have h := matrixUnwound_unwind hcd hc hback
      exact ⟨h.run, h.fields.q0, h.fields.q1, h.fields.q2, h.fields.lp0, h.fields.lp1, h.fields.b, h.fields.epoch, h.pushes⟩
  case stays =>
    intro f hf h
    refine exec_next (exec_faultFrameWrite u b s) (frameWrite_waits hf hj ?_)
    refine h.imp_right (Or.imp_right (Or.imp_right ?_))
    rintro ⟨x, n, hx, hn⟩
    exact (resets_iff hx).mpr ⟨n, hn⟩

end Sys2Proof.Machine
end
